-- ==== Sys2Proof/Word.lean ====
section
/-! DEFINITION. The word types of the block and their plainest arithmetic (R7: every multi-byte value is
little-endian and bit 0 is the least significant bit). -/

namespace Sys2Proof

/-- One byte. -/
abbrev Byte := BitVec 8

/-- A register word (R7, "Registers": registers are 32 bits wide). -/
abbrev Word := BitVec 32

/-- A 64-bit quantity: an arrival address, a field address, a tally register, TCLK. -/
abbrev Dword := BitVec 64

/-- The status codes of Table 0-6 (R13); the codes 0xA to 0xF have no constructor because the stack never
produces them (R14). [DESIGN CHOICE: log entries 84, 132] -/
inductive Status where
  | ok | uncorrectable | abortedByReset | timeout | noRoute | denied | linkExhausted | unitDead
  | badDescriptor | unitFault
deriving DecidableEq, Repr, Inhabited

/-- The 4-bit code of a status (Table 0-6). -/
def Status.code : Status → Nat
  | .ok => 0 | .uncorrectable => 1 | .abortedByReset => 2 | .timeout => 3 | .noRoute => 4 | .denied => 5
  | .linkExhausted => 6 | .unitDead => 7 | .badDescriptor => 8 | .unitFault => 9

/-- Who reaches the block (Table 2-3, and the classes of GLB_DENY_INFO in Table 2-7). `peer a x` is the stack with
ID `x` heard on adit `a`. -/
inductive Requester where
  | host (fn : Nat) | overseer (n : Nat) | foreman | crew (c : Nat) | face (n : Nat) | mill (e : Nat)
  | peer (adit stack : Nat) | vein (port : Nat)
deriving DecidableEq, Repr, Inhabited

/-- GLB_DENY_INFO.class of a requester (Table 2-7). -/
def Requester.cls : Requester → Nat
  | .host _ => 0 | .overseer _ => 1 | .foreman => 2 | .crew _ => 3 | .face _ => 4 | .mill _ => 5
  | .peer _ _ => 6 | .vein _ => 7

/-- GLB_DENY_INFO.source of a requester (Table 2-7). -/
def Requester.src : Requester → Nat
  | .host f => f | .overseer n => n | .foreman => 0 | .crew c => c | .face n => n | .mill e => e
  | .peer a _ => a | .vein p => p

/-- The arithmetic and move instructions of the dresser, the face unit and the Mill reach the model as the word the
unit fetched. -/
abbrev InstrWord := BitVec 64

end Sys2Proof
end

