-- ==== Sys2Proof/Syntax.lean ====
section
/-! DEFINITION. The commands the block takes, one constructor per row of spec/opcode_table.json, and the data they
carry: messages and flits of the Oluba links, management entries, and what a measurement or a test found. The tally
instructions carry their register numbers; a unit's instruction carries the word the unit fetched and, where the rule
checks residues, the number `mm` of residue mismatches its execution meets. -/

namespace Sys2Proof

/-- A message as Table 10-5 lays it out, with the fields of its flits' header it depends on (Table 10-4). -/
structure Msg where
  vc : Nat
  ordered : Bool
  src : Nat
  dst : Nat
  addr : Dword
  tag : Nat
  op : Nat
  status : Nat
  len : Nat
  data : List Byte
deriving DecidableEq, Repr, Inhabited

/-- A sequenced flit as the routers see it (Table 10-4): its header fields and the 240 payload bytes. -/
structure MsgFlit where
  vc : Nat
  first : Bool
  ordered : Bool
  nm : Bool
  hops : Nat
  dst : Nat
  src : Nat
  via : Nat
  payload : List Byte
deriving DecidableEq, Repr, Inhabited

/-- CAPS payload, Table 10-9. -/
structure CapsPayload where
  stack : Nat
  adit : Nat
  revMax : Nat
  revMin : Nat
  lanes : Nat
  rate : Nat
  fieldId : Nat
  reserved : Nat
  shared : List Nat
  seen : Bool
deriving DecidableEq, Repr, Inhabited

/-- TIME payload, Table 11-5; stamps are counts of 1/256 ns modulo 2^64. -/
structure TimePayload where
  distance : Nat
  gm : Nat
  prio : Nat
  tTx : Nat
  tEcho : Nat
  tRx : Nat
deriving DecidableEq, Repr, Inhabited

/-- Member entry, Table 11-4. -/
structure MemberEntry where
  stack : Nat
  member : Bool
  incarnation : Nat
  serial : Nat
deriving DecidableEq, Repr, Inhabited

/-- What resets the PCIe partition (R338, R393). -/
inductive PcieReset where
  | perst | hotReset | linkDown | pclkLoss | pfFlr
deriving DecidableEq, Repr, Inhabited

/-- A PLDM monitoring request (R436): a numeric sensor of Table 15-6, or the inlet-air effecter in 0.125 °C. -/
inductive PldmQuery where
  | readSensor (id : Nat) | setInletAir (t : Int)
deriving DecidableEq, Repr, Inhabited

/-- A PLDM firmware-update command as it reaches the loader (R474, DSP0267). -/
inductive FwCommand where
  | begin_ (kind len : Nat) | push (chunk : List Byte) | end_ | abort
deriving DecidableEq, Repr, Inhabited

/-- A unit that fails assay: its grain code and index (Table 16-6), whether a checker self-test failed it, and that
checker's kind (Table 18-8). Grain 0 is an essential unit. -/
structure AssayFail where
  grain : Nat
  index : Nat
  checker : Option Nat
deriving DecidableEq, Repr, Inhabited

/-- What CHARTER reads in the flash: whether the device answers with the right capacity (R512), and the charter
fields the image carries, each with its number and its values (Table 16-14). -/
structure CharterRead where
  flashOk : Bool
  fields : List (Nat × List Nat)
  crc : Nat
deriving DecidableEq, Repr, Inhabited

/-- Where an SPDM message came from (R487): the DOE mailbox or the management channel of an adit. -/
inductive SpdmChannel where
  | doe | field (adit stack : Nat)
deriving DecidableEq, Repr, Inhabited

/-- What a function's configuration space reports (R339, R340, R347): the identity of Table 12-1, a capability of Table
12-2 by its row, and the fields of the capabilities that the spec gives values for. -/
inductive CfgReg where
  | vendorId | deviceId | revisionId | classCode | headerType | subsysVendorId | subsysId | serialNumber
  | capability (row : Nat) | maxPayload | maxReadRequest | completionTimeout | tag10 | powerState | msixSize
  | msixPending (vector : Nat) | totalVfs | firstVfOffset | vfStride | numVfs | vfEnable | barSize | vfBarSize
  | ariHierarchy | aerPoisoned
deriving DecidableEq, Repr, Inhabited

/-- An access of a function's configuration space or MSI-X table, for which the table has no row of its own and which comes
with BUS_MASTER_ENABLE: none, a read, Device Control and Device Control 2, MSI-X Message Control, an entry of the MSI-X
table, or a clear of the AER status. [DESIGN CHOICE: log entry 83] -/
inductive CfgOp where
  | none
  | read (reg : CfgReg)
  | devCtl (mps mrrs : Nat) (tag10 : Bool) (timeoutNs : Nat)
  | msixCtl (en maskAll : Bool)
  | msixEntry (vector addr data : Nat) (masked : Bool)
  | aerClear
  | ariHierarchy (en : Bool)
deriving DecidableEq, Repr, Inhabited

/-- The commands: one constructor per row of spec/opcode_table.json, in the table's order. -/
inductive Instr where
  /-- REGISTER_WRITE (R10): `r` writes `v` with an access of `nbytes` bytes at BAR0 offset `addr`. -/
  | registerWrite (r : Requester) (addr nbytes : Nat) (v : Word)
  /-- REG64_LOW_READ (R8): `r` reads the low word of the pair at `addr`. -/
  | reg64LowRead (r : Requester) (addr nbytes : Nat)
  /-- REG64_LOW_WRITE (R8): `r` writes the low word of the pair at `addr`. -/
  | reg64LowWrite (r : Requester) (addr nbytes : Nat) (v : Word)
  /-- REG64_HIGH_WRITE (R8): `r` writes the high word, at `addr`, of the pair at `addr - 4`. -/
  | reg64HighWrite (r : Requester) (addr nbytes : Nat) (v : Word)
  /-- BUSY_WINDOW (R28): the 10 µs window of a hewer ends; `hclk` is the number of HCLK cycles it held. -/
  | busyWindow (c role hclk : Nat)
  /-- TOK_ACQ (R31). -/
  | tokAcq (c rd rs1 : Nat)
  /-- TOK_REL (R33). -/
  | tokRel (c rs1 : Nat)
  /-- TOK_STAT (R172). -/
  | tokStat (c rd rs1 : Nat)
  /-- TOKEN_REVOKE (R34): the slice of column `col` acts on a fallen limit. -/
  | tokenRevoke (col : Nat)
  /-- BAR2_READ (R342). -/
  | bar2Read (fn off len : Nat)
  /-- BAR2_WRITE (R344). -/
  | bar2Write (fn off : Nat) (data : List Byte) (poisoned relaxed : Bool)
  /-- ATOMICOP_REQUEST (R340). -/
  | atomicopRequest (fn : Nat) (addr : Nat)
  /-- SEAM_GRANT (R53): seam `n` grants its next request. -/
  | seamGrant (n : Nat)
  /-- SEAM_GUARD_EXPIRY (R55): the oldest request of one port of seam `n` has waited 1 µs. -/
  | seamGuardExpiry (n : Nat) (shaft : Bool)
  /-- ECC_WRITEBACK (R370): store kind and instance as in Table 18-8a, and the line. -/
  | eccWriteback (kind inst line : Nat)
  /-- CUT_PUSH (R159). -/
  | cutPush (c rd rs1 rs2 : Nat)
  /-- CUT_HEAD_CHECK (R111). -/
  | cutHeadCheck (c role : Nat)
  /-- CUT_ISSUE (R113). -/
  | cutIssue (c role : Nat)
  /-- CUT_RETRY (R125): a checksum mismatch in the oldest cut without a verdict. -/
  | cutRetry (c role : Nat)
  /-- FACE_STORE_UE (R126): an operand read of the oldest cut without a verdict is uncorrectable. -/
  | faceStoreUe (c role : Nat)
  /-- TBL_PARITY_ERROR (R122). -/
  | tblParityError (c role array : Nat)
  /-- CUT_VERDICT (R116). -/
  | cutVerdict (c role : Nat)
  /-- CUT_DRAIN_TILE (R147). -/
  | cutDrainTile (c role : Nat)
  /-- CUT_COMPLETE (R114). -/
  | cutComplete (c role : Nat)
  /-- TBL_LOAD (R118). -/
  | tblLoad (c rd rs1 rs2 : Nat)
  /-- TBL_LOAD_DONE (R118). -/
  | tblLoadDone (c role array : Nat)
  /-- BLK_REL (R164). -/
  | blkRel (c rs1 rs2 : Nat)
  /-- DRS_LAUNCH (R135). -/
  | drsLaunch (c rs1 rs2 : Nat)
  /-- ROUTINE_START (R135). -/
  | routineStart (c : Nat)
  /-- ROUTINE_COMPLETE (R136). -/
  | routineComplete (c : Nat)
  /-- DRS_LDT (R139). -/
  | drsLdt (c : Nat) (w : InstrWord)
  /-- DRS_STT (R139). -/
  | drsStt (c : Nat) (w : InstrWord)
  /-- DRS_LDF (R139). -/
  | drsLdf (c : Nat) (w : InstrWord) (mm : Nat)
  /-- DRS_STF (R139). -/
  | drsStf (c : Nat) (w : InstrWord)
  /-- DRS_LDMX (R143). -/
  | drsLdmx (c : Nat) (w : InstrWord) (mm : Nat)
  /-- DRS_STMX (R143). -/
  | drsStmx (c : Nat) (w : InstrWord)
  /-- DRS_SQPOP (R149): how many residue checks of it mismatch, and whether a word of the entry fails its parity (R152). -/
  | drsSqpop (c : Nat) (w : InstrWord) (chk : Nat × Bool)
  /-- SQPOP_TIMEOUT (R150). -/
  | sqpopTimeout (c : Nat)
  /-- DRS_LDS (R139). -/
  | drsLds (c : Nat) (w : InstrWord)
  /-- DRS_MOV (R139). -/
  | drsMov (c : Nat) (w : InstrWord)
  /-- DRS_ADD (R83). -/
  | drsAdd (c : Nat) (w : InstrWord) (mm : Nat)
  /-- DRS_SUB (R83). -/
  | drsSub (c : Nat) (w : InstrWord) (mm : Nat)
  /-- DRS_MUL (R84). -/
  | drsMul (c : Nat) (w : InstrWord) (mm : Nat)
  /-- DRS_MAD (R84). -/
  | drsMad (c : Nat) (w : InstrWord) (mm : Nat)
  /-- DRS_MAX (R82). -/
  | drsMax (c : Nat) (w : InstrWord) (mm : Nat)
  /-- DRS_MIN (R139). -/
  | drsMin (c : Nat) (w : InstrWord) (mm : Nat)
  /-- DRS_CMP (R142). -/
  | drsCmp (c : Nat) (w : InstrWord) (mm : Nat)
  /-- DRS_SEL (R142). -/
  | drsSel (c : Nat) (w : InstrWord) (mm : Nat)
  /-- DRS_SHL (R142). -/
  | drsShl (c : Nat) (w : InstrWord) (mm : Nat)
  /-- DRS_SHR (R142). -/
  | drsShr (c : Nat) (w : InstrWord) (mm : Nat)
  /-- DRS_AND (R142). -/
  | drsAnd (c : Nat) (w : InstrWord) (mm : Nat)
  /-- DRS_OR (R142). -/
  | drsOr (c : Nat) (w : InstrWord) (mm : Nat)
  /-- DRS_XOR (R142). -/
  | drsXor (c : Nat) (w : InstrWord) (mm : Nat)
  /-- DRS_ALGN (R142). -/
  | drsAlgn (c : Nat) (w : InstrWord) (mm : Nat)
  /-- DRS_EADD (R84). -/
  | drsEadd (c : Nat) (w : InstrWord) (mm : Nat)
  /-- DRS_NORM (R140). -/
  | drsNorm (c : Nat) (w : InstrWord) (mm : Nat)
  /-- DRS_TRN (R142). -/
  | drsTrn (c : Nat) (w : InstrWord) (mm : Nat)
  /-- DRS_RMAX (R141). -/
  | drsRmax (c : Nat) (w : InstrWord) (mm : Nat)
  /-- DRS_RSUM (R141). -/
  | drsRsum (c : Nat) (w : InstrWord) (mm : Nat)
  /-- DRS_FN (R90). -/
  | drsFn (c : Nat) (w : InstrWord) (mm : Nat)
  /-- DRS_END (R136). -/
  | drsEnd (c : Nat) (w : InstrWord)
  /-- SQ_DROP (R149). -/
  | sqDrop (c rd rs1 : Nat)
  /-- CPL_GET (R160). -/
  | cplGet (c rd : Nat)
  /-- CPL_WAIT (R160). -/
  | cplWait (c rd rs1 : Nat)
  /-- CPL_WAIT_TIMEOUT (R170). -/
  | cplWaitTimeout (c : Nat)
  /-- XFER (R162). -/
  | xfer (c rd rs1 : Nat)
  /-- XFER_START (R164): the head of the transfer queue starts. -/
  | xferStart (c : Nat)
  /-- XFER_BLOCK_DONE (R165): the transfer in flight, by its place, that completes its next face-store block, and the lines of
  the block that took errors on their way, each with the codeword bytes in error and what was added to them (R369). -/
  | xferBlockDone (c : Nat) (ix : Nat × List (Nat × List (Nat × Byte)))
  /-- XFER_COMPLETE (R165): the transfer in flight, by its place, that ends, and the lines as for XFER_BLOCK_DONE, of a transfer
  that no XFER_BLOCK_DONE moves. -/
  | xferComplete (c : Nat) (ix : Nat × List (Nat × List (Nat × Byte)))
  /-- NOTICE (R173). -/
  | notice (c rd rs1 rs2 : Nat)
  /-- HBEAT (R170). -/
  | hbeat (c rs1 : Nat)
  /-- HEARTBEAT_EXPIRED (R170). -/
  | heartbeatExpired (c : Nat)
  /-- ARR_SEND (R167). -/
  | arrSend (c rd rs1 : Nat)
  /-- ARR_READ (R183). -/
  | arrRead (c rd rs1 : Nat)
  /-- ARR_WAIT (R168). -/
  | arrWait (c rd rs1 rs2 : Nat)
  /-- ARR_WAIT_TIMEOUT (R168). -/
  | arrWaitTimeout (c : Nat)
  /-- ARR_CLR (R168). -/
  | arrClr (c rs1 : Nat)
  /-- ARR_POISON (R169). -/
  | arrPoison (c rd rs1 : Nat)
  /-- ARR_SEND_TIMEOUT (R161): the `i`-th unanswered send of the crew has waited 1 ms. -/
  | arrSendTimeout (c i : Nat)
  /-- ARRIVAL_APPLY (R168): the `i`-th waiting local arrival is applied. -/
  | arrivalApply (i : Nat)
  /-- ARR_COUNT_WRITE (R183). -/
  | arrCountWrite (r : Requester) (c n : Nat) (v : Word)
  /-- SEND_TABLE_POISON (R169). -/
  | sendTablePoison (c : Nat)
  /-- CREW_STAT (R159). -/
  | crewStat (c rd : Nat)
  /-- TLY_LOAD (R177). -/
  | tlyLoad (r : Requester) (c : Nat)
  /-- IMAGE_LOADED (R176). -/
  | imageLoaded (c : Nat)
  /-- TLY_START (R177). -/
  | tlyStart (r : Requester) (c : Nat)
  /-- TLY_STOP (R177). -/
  | tlyStop (r : Requester) (c : Nat)
  /-- TLY_ECALL (R177). -/
  | tlyEcall (c : Nat)
  /-- TLY_TRAP (R177). -/
  | tlyTrap (c cause : Nat) (tval : Dword)
  /-- BUDDY_TAKEOVER (R179). -/
  | buddyTakeover (c : Nat)
  /-- CREW_MAP_WRITE (R181). -/
  | crewMapWrite (r : Requester) (n : Nat) (v : Word)
  /-- FACE_LAUNCH_ENQUEUE (R187): `r` writes FACE_LAUNCH_7 of face unit `n`. -/
  | faceLaunchEnqueue (r : Requester) (n : Nat) (v : Word)
  /-- FACE_FETCH (R189). -/
  | faceFetch (n : Nat)
  /-- FACE_FETCH_DONE (R188). -/
  | faceFetchDone (n : Nat)
  /-- FACE_SLD (R200). -/
  | faceSld (n : Nat) (w : InstrWord)
  /-- FACE_SST (R200). -/
  | faceSst (n : Nat) (w : InstrWord)
  /-- FACE_SNW (R207). -/
  | faceSnw (n : Nat) (w : InstrWord)
  /-- STROKE_END (R201). -/
  | strokeEnd (n : Nat)
  /-- MERGE_DONE (R374): the oldest merge of one share of a column is written. -/
  | mergeDone (col : Nat) (face : Bool)
  /-- FACE_LDR (R195). -/
  | faceLdr (n : Nat) (w : InstrWord) (mm : Nat)
  /-- FACE_STR (R195). -/
  | faceStr (n : Nat) (w : InstrWord)
  /-- FACE_LDB (R197). -/
  | faceLdb (n : Nat) (w : InstrWord) (mm : Nat)
  /-- FACE_ADD (R196). -/
  | faceAdd (n : Nat) (w : InstrWord) (mm : Nat)
  /-- FACE_SUB (R196). -/
  | faceSub (n : Nat) (w : InstrWord) (mm : Nat)
  /-- FACE_MUL (R196). -/
  | faceMul (n : Nat) (w : InstrWord) (mm : Nat)
  /-- FACE_MAD (R196). -/
  | faceMad (n : Nat) (w : InstrWord) (mm : Nat)
  /-- FACE_MAX (R196). -/
  | faceMax (n : Nat) (w : InstrWord) (mm : Nat)
  /-- FACE_MIN (R196). -/
  | faceMin (n : Nat) (w : InstrWord) (mm : Nat)
  /-- FACE_INS (R196). -/
  | faceIns (n : Nat) (w : InstrWord) (mm : Nat)
  /-- FACE_EADD (R196). -/
  | faceEadd (n : Nat) (w : InstrWord) (mm : Nat)
  /-- FACE_NORM (R196). -/
  | faceNorm (n : Nat) (w : InstrWord) (mm : Nat)
  /-- FACE_RMAX (R196). -/
  | faceRmax (n : Nat) (w : InstrWord) (mm : Nat)
  /-- FACE_RSUM (R196). -/
  | faceRsum (n : Nat) (w : InstrWord) (mm : Nat)
  /-- FACE_DOT (R196). -/
  | faceDot (n : Nat) (w : InstrWord) (mm : Nat)
  /-- FACE_FN (R196). -/
  | faceFn (n : Nat) (w : InstrWord) (mm : Nat)
  /-- FACE_XADD (R194). -/
  | faceXadd (n : Nat) (w : InstrWord)
  /-- FACE_LOOP (R194). -/
  | faceLoop (n : Nat) (w : InstrWord)
  /-- FACE_END (R194). -/
  | faceEnd (n : Nat) (w : InstrWord)
  /-- FACE_PROGRAM_COMPLETE (R190). -/
  | faceProgramComplete (n : Nat)
  /-- FACE_TIME_LIMIT (R191). -/
  | faceTimeLimit (n : Nat)
  /-- SLOT_OPEN (R212): the engine performs the command `cmd` at the head of port `p`. -/
  | slotOpen (p : Nat) (cmd : List Word)
  /-- SLOT_CLOSE (R212): the engine performs the command `cmd` at the head of port `p`. -/
  | slotClose (p : Nat) (cmd : List Word)
  /-- PIN (R230): the engine performs the command `cmd` at the head of port `p`. -/
  | veinPin (p : Nat) (cmd : List Word)
  /-- UNPIN (R231): the engine performs the command `cmd` at the head of port `p`. -/
  | veinUnpin (p : Nat) (cmd : List Word)
  /-- SLOT_TAIL (R211): the engine performs the command `cmd` at the head of port `p`. -/
  | slotTail (p : Nat) (cmd : List Word)
  /-- HASH (R220): the engine performs the command `cmd` at the head of port `p`. -/
  | veinHash (p : Nat) (cmd : List Word)
  /-- LOOKUP (R223): the engine performs the command `cmd` at the head of port `p`. -/
  | veinLookup (p : Nat) (cmd : List Word)
  /-- INSERT (R224): the engine performs the command `cmd` at the head of port `p`. -/
  | veinInsert (p : Nat) (cmd : List Word)
  /-- REMOVE (R224): the engine performs the command `cmd` at the head of port `p`. -/
  | veinRemove (p : Nat) (cmd : List Word)
  /-- PAGE_ALLOC (R227): the engine performs the command `cmd` at the head of port `p`. -/
  | pageAlloc (p : Nat) (cmd : List Word)
  /-- PAGE_REF (R228): the engine performs the command `cmd` at the head of port `p`. -/
  | pageRef (p : Nat) (cmd : List Word)
  /-- PAGE_UNREF (R230): the engine performs the command `cmd` at the head of port `p`. -/
  | pageUnref (p : Nat) (cmd : List Word)
  /-- MAP_SWAP (R227): the engine performs the command `cmd` at the head of port `p`. -/
  | mapSwap (p : Nat) (cmd : List Word)
  /-- MIGRATE (R225): the engine performs the command `cmd` at the head of port `p`. -/
  | veinMigrate (p : Nat) (cmd : List Word)
  /-- MIGRATE_BUCKET (R225). -/
  | migrateBucket
  /-- LIMBO_RECLAIM (R232). -/
  | limboReclaim (i : Nat)
  /-- LIMBO_FULL_TIMEOUT (R232). -/
  | limboFullTimeout (p : Nat)
  /-- SHARD_UPDATE (R249): `r` writes MILL_SHARD_31 of engine `e`. -/
  | shardUpdate (r : Requester) (e : Nat) (v : Word)
  /-- SHARD_RESUME (R249): as `shardUpdate`, for a RESUME descriptor. -/
  | shardResume (r : Requester) (e : Nat) (v : Word)
  /-- SHARD_START (R250). -/
  | shardStart (e : Nat)
  /-- BLOCK_CLASSIFY (R247). -/
  | blockClassify (e : Nat)
  /-- GRADIENT_WRITE (R252). -/
  | gradientWrite (r : Requester) (addr : Nat) (data : List Byte)
  /-- LANDING_ADMIT (R253). -/
  | landingAdmit (e : Nat)
  /-- BLOCK_COMPUTE (R256). -/
  | blockCompute (e : Nat)
  /-- BLOCK_WRITEBACK_DONE (R263). -/
  | blockWritebackDone (e : Nat)
  /-- MILL_ADD (R260). -/
  | millAdd (e : Nat) (w : Word) (mm : Nat)
  /-- MILL_SUB (R260). -/
  | millSub (e : Nat) (w : Word) (mm : Nat)
  /-- MILL_MUL (R260). -/
  | millMul (e : Nat) (w : Word) (mm : Nat)
  /-- MILL_FMA (R260). -/
  | millFma (e : Nat) (w : Word) (mm : Nat)
  /-- MILL_MIN (R260). -/
  | millMin (e : Nat) (w : Word) (mm : Nat)
  /-- MILL_MAX (R260). -/
  | millMax (e : Nat) (w : Word) (mm : Nat)
  /-- MILL_CMP (R260). -/
  | millCmp (e : Nat) (w : Word) (mm : Nat)
  /-- MILL_SEL (R260). -/
  | millSel (e : Nat) (w : Word) (mm : Nat)
  /-- MILL_RSQRT (R260). -/
  | millRsqrt (e : Nat) (w : Word) (mm : Nat)
  /-- MILL_RECIP (R260). -/
  | millRecip (e : Nat) (w : Word) (mm : Nat)
  /-- MILL_MEND (R261). -/
  | millMend (e : Nat) (w : Word)
  /-- MILL_QMX (R266). -/
  | millQmx (e : Nat) (w : Word) (mm : Nat)
  /-- MILL_END (R261). -/
  | millEnd (e : Nat) (w : Word)
  /-- MILL_STALL (R254). -/
  | millStall (e : Nat)
  /-- SHARD_COMPLETE (R267). -/
  | shardComplete (e : Nat)
  /-- MILL_DISARM (R258). -/
  | millDisarm (r : Requester) (e : Nat)
  /-- FLIT_RECEIVE (R286): what the FEC finds: whether some byte lies in an uncorrectable codeword; and by lane the bits corrected
  and whether a codeword was uncorrectable (R276). -/
  | flitReceive (a : Nat) (flit : List Byte) (fec : Bool × List (Nat × Nat × Nat))
  /-- FLIT_SLOT (R292). -/
  | flitSlot (a : Nat)
  /-- REPLAY_TIMEOUT (R287). -/
  | replayTimeout (a : Nat)
  /-- WRITE (R282). -/
  | msgWrite (a : Nat) (m : Msg)
  /-- READ (R282). -/
  | msgRead (a : Nat) (m : Msg)
  /-- ARRIVE (R282). -/
  | msgArrive (a : Nat) (m : Msg)
  /-- POISON (R282). -/
  | msgPoison (a : Nat) (m : Msg)
  /-- READ_DATA (R282). -/
  | msgReadData (a : Nat) (m : Msg)
  /-- WRITE_ACK (R282). -/
  | msgWriteAck (a : Nat) (m : Msg)
  /-- ARRIVE_ACK (R282). -/
  | msgArriveAck (a : Nat) (m : Msg)
  /-- CAPS (R295). -/
  | capsFlit (a : Nat) (p : CapsPayload)
  /-- CAPS_RESEND_TIMER (R295). -/
  | capsResendTimer (a : Nat)
  /-- CAPS_TIMEOUT (R293). -/
  | capsTimeout (a : Nat)
  /-- QUAL_REQ (R293). -/
  | qualReq (a : Nat)
  /-- QUAL_REQ_TIMER (R295). -/
  | qualReqTimer (a : Nat)
  /-- QUAL_RESULT (R298). -/
  | qualResult (a : Nat) (pass : Bool)
  /-- QUALIFY_DONE (R298): per active lane: bits received, corrected bits, symbols of uncorrectable codewords. -/
  | qualifyDone (a : Nat) (lanes : List (Nat × Nat × Nat))
  /-- QUALIFY_TIMEOUT (R293). -/
  | qualifyTimeout (a : Nat)
  /-- RETRAIN_REQ (R299). -/
  | retrainReq (a : Nat)
  /-- STOP (R303). -/
  | linkStop (a : Nat)
  /-- TRAIN_DONE (R294). -/
  | trainDone (a rate lanes : Nat)
  /-- TRAIN_TIMEOUT (R293). -/
  | trainTimeout (a : Nat) (signal : Bool)
  /-- LINK_FAULT_TRIP (R299). -/
  | linkFaultTrip (a cause : Nat)
  /-- FAST_RETRAIN_DONE (R300). -/
  | fastRetrainDone (a : Nat) (pass : Bool) (badLanes : Nat)
  /-- SIGNAL_DETECT (R304). -/
  | signalDetect (a : Nat)
  /-- ADT_RETRAIN (R293). -/
  | adtRetrain (r : Requester) (a : Nat)
  /-- ADT_RESET (R302). -/
  | adtReset (r : Requester) (a : Nat)
  /-- SPARE_TAKEOVER (R270). -/
  | spareTakeover
  /-- ADIT_REFCLK_LOSS (R511). -/
  | aditRefclkLoss (edge : Nat)
  /-- ADIT_REFCLK_RETURN (R511). -/
  | aditRefclkReturn (edge : Nat)
  /-- ROUTE_FLIT (R313): a flit from adit `port`, or from the local endpoint. -/
  | routeFlit (port : Option Nat) (f : MsgFlit)
  /-- ORD_WAIT_EXPIRY (R317). -/
  | ordWaitExpiry (a : Nat)
  /-- LINKMAP (R311). -/
  | linkmapMsg (a member localMap globalMap : Nat)
  /-- LINKMAP_TIMER (R311). -/
  | linkmapTimer
  /-- LINKMAP_STALE (R311). -/
  | linkmapStale (member : Nat)
  /-- JOIN (R325). -/
  | joinMsg (a : Nat) (m : MemberEntry)
  /-- LEAVE (R325). -/
  | leaveMsg (a : Nat) (m : MemberEntry)
  /-- SNAPSHOT (R324). -/
  | snapshotMsg (a : Nat) (es : List MemberEntry)
  /-- JOIN_SETTLE (R325). -/
  | joinSettle
  /-- FLD_ID_WRITE (R306). -/
  | fldIdWrite (r : Requester) (v : Word)
  /-- MEMBER_LEAVE (R326). -/
  | memberLeave (r : Requester) (stack : Nat)
  /-- MEMBER_REJOIN (R326). -/
  | memberRejoin (r : Requester) (stack : Nat)
  /-- TIME (R331). -/
  | timeFlit (a : Nat) (t : TimePayload) (rxStamp : Nat)
  /-- TIME_FLIT_TIMER (R331). -/
  | timeFlitTimer (a : Nat)
  /-- TIME_LOCKED (R333). -/
  | timeLocked
  /-- PARENT_TIMEOUT (R333). -/
  | parentTimeout
  /-- GM_ADVERT_STALE (R332). -/
  | gmAdvertStale (a : Nat)
  /-- PPS_IN_EDGE (R334). -/
  | ppsInEdge
  /-- PPS_OUT_EDGE (R334). -/
  | ppsOutEdge
  /-- PERST_DEASSERT (R439). -/
  | perstDeassert
  /-- PCIE_LINK_UP (R338). -/
  | pcieLinkUp (speed width : Nat) (flitMode : Bool)
  /-- PCIE_PARTITION_RESET (R338). -/
  | pciePartitionReset (cause : PcieReset)
  /-- VF_FLR (R363). -/
  | vfFlr (f : Nat)
  /-- BUS_MASTER_ENABLE (R364): Bus Master Enable, and whether the function is in D3hot, with an access of its configuration
  space or MSI-X table, if any. -/
  | busMasterEnable (f : Nat) (bme : Bool) (cfg : Bool × CfgOp)
  /-- RESIZABLE_BAR_WRITE (R343): the size as its power of two, and whether it is the VF Resizable BAR capability (R349). -/
  | resizableBarWrite (size : Nat × Bool)
  /-- SLOT_WRITE (R352): function `f` writes `data` at byte `off` of its view of the slot table. -/
  | slotWrite (f off : Nat) (data : List Byte)
  /-- SLOT_PICKUP (R354). -/
  | slotPickup
  /-- NOP (R356): the `i`-th request handed to the runtime. -/
  | reqNop (i : Nat)
  /-- COPY (R356): the `i`-th request handed to the runtime. -/
  | reqCopy (i : Nat)
  /-- COPY_READ_TIMEOUT (R356): the `i`-th request handed to the runtime. -/
  | copyReadTimeout (i : Nat)
  /-- CREW_LOAD (R356): the `i`-th request handed to the runtime. -/
  | reqCrewLoad (i : Nat)
  /-- FACE_LAUNCH (R356): the `i`-th request handed to the runtime. -/
  | reqFaceLaunch (i : Nat)
  /-- MILL_SHARD (R356): the `i`-th request handed to the runtime. -/
  | reqMillShard (i : Nat)
  /-- VEIN (R350): the place of the request handed to the runtime, and the port of the Overseer that serves it. -/
  | reqVein (ix : Nat × Nat)
  /-- CQ_ENABLE (R357). -/
  | cqEnable (r : Requester) (f : Nat) (v : Word)
  /-- CQ_MOD_TIMER (R360). -/
  | cqModTimer (f : Nat)
  /-- DOE_REQUEST (R365). -/
  | doeRequest (objType : Nat) (data : List Byte)
  /-- DOE_ABORT (R365). -/
  | doeAbort
  /-- ECC_LEAK (R371). -/
  | eccLeak
  /-- SCRUB_READ (R376): the store: instance, and which of the instance's stores. -/
  | scrubRead (kind : Nat) (store : Nat × Nat)
  /-- SEAM_INJ_ARM (R379). -/
  | seamInjArm (r : Requester) (n : Nat) (v : Word)
  /-- SHAFT_RESEND (R380): a beat group (or a command) of lane group `group` fails `fails` times in a row; `lanes` are the lanes its good copy names. -/
  | shaftResend (c role : Nat) (command : Bool) (fails group : Nat) (lanes : List Nat)
  /-- CHK_LINE (R385). -/
  | chkLine (src index dpa : Nat) (data : List Byte)
  /-- CHK_CTRL_WRITE (R387). -/
  | chkCtrlWrite (r : Requester) (u : Nat) (v : Word)
  /-- TRACE_RECORD (R507). -/
  | traceRecord
  /-- CLOCK_LOSS (R393): domain as in Table 18-8. -/
  | clockLoss (domain gallery : Nat)
  /-- CPM_MEASURE (R397): gallery, core and its smallest slack of this millisecond. -/
  | cpmMeasure (slacks : List (Nat × Nat × Int))
  /-- AGEING_REDUCTION (R397). -/
  | ageingReduction (g n : Nat)
  /-- SURVEY_WRITE (R458). -/
  | surveyWrite
  /-- VF_TARGET_WRITE (R399). -/
  | vfTargetWrite (r : Requester) (g : Nat) (v : Word)
  /-- VF_RAISE (R400). -/
  | vfRaise (g : Nat)
  /-- VF_LOWER (R400). -/
  | vfLower (g : Nat)
  /-- VF_SLEW_DONE (R400). -/
  | vfSlewDone (g : Nat)
  /-- DROOP_TRIP (R404). -/
  | droopTrip (g mv : Nat)
  /-- DROOP_RECOVER (R404). -/
  | droopRecover (g mv : Nat)
  /-- RAMP_LIMIT_TRIP (R406): `rise` over 250 ns in units of 0.25 A. -/
  | rampLimitTrip (g rise : Nat)
  /-- DROOP_REARM (R403). -/
  | droopRearm (r : Requester) (g : Nat)
  /-- REG_FAULT (R402): the output in mV and the output current in 0.25 A. -/
  | regFault (g kind : Nat) (out : Nat × Nat)
  /-- DEMAND_FRAME (R407). -/
  | demandFrame
  /-- LEDGER_EVALUATE (R408): the 32 currents measured over the last 1 µs, in units of 0.25 A. -/
  | ledgerEvaluate (measured : List Nat)
  /-- LEDGER_OVER (R409). -/
  | ledgerOver
  /-- LEDGER_CLAMP_RELEASE (R409). -/
  | ledgerClampRelease
  /-- GAL_PARK_WRITE (R411). -/
  | galParkWrite (r : Requester) (g : Nat) (v : Word)
  /-- PARK_RAMP_STEP (R411). -/
  | parkRampStep (g : Nat)
  /-- UNPARK_RAMP_STEP (R412). -/
  | unparkRampStep (g : Nat)
  /-- RAIL_WARNING (R413): rail coded as PWR_SAG_STAT.reset_rail, 1 for VIN_IVR. -/
  | railWarning (rail mv : Nat)
  /-- RAIL_WARNING_CLEAR (R413): the rail and its reading. -/
  | railWarningClear (rail : Nat × Nat)
  /-- SAG_CLAMP_LIFT (R413). -/
  | sagClampLift
  /-- PWR_SAG_RESET (R413). -/
  | pwrSagReset (rail mv : Nat)
  /-- CANARY_CONVERT (R417): sensor numbered as `THM_CAN_n`, then 240 + 2 · pair + diode; none is a failed conversion. -/
  | canaryConvert (sensor : Nat) (reading : Option Int)
  /-- MODEL_EVALUATE (R420). -/
  | modelEvaluate
  /-- THERMAL_CLAMP_RISE (R425). -/
  | thermalClampRise (g : Nat)
  /-- HARD_TRIP (R426). -/
  | hardTrip (sensor : Nat) (reading : Int)
  /-- COOLANT_SAMPLE (R428). -/
  | coolantSample (inlet outlet : Int) (dp : Nat)
  /-- FLOW_PULSE (R428). -/
  | flowPulse
  /-- FLOW_WINDOW_UPDATE (R428). -/
  | flowWindowUpdate
  /-- DP_COLLAPSE (R432). -/
  | dpCollapse
  /-- FLOW_OK_LOW (R432). -/
  | flowOkLow
  /-- FLOW_LEVEL (R430). -/
  | flowLevel (level : Nat)
  /-- COOLANT_UNPARK_TICK (R431). -/
  | coolantUnparkTick
  /-- VALVE_LOOP (R429). -/
  | valveLoop
  /-- THM_RESTART (R434). -/
  | thmRestart (r : Requester)
  /-- PLDM_REQUEST (R436). -/
  | pldmRequest (q : PldmQuery)
  /-- INLET_REPORT_TIMEOUT (R420). -/
  | inletReportTimeout
  /-- POWER_ON (R438). -/
  | powerOn
  /-- CHARTER (R438). -/
  | brgCharter (img : CharterRead)
  /-- FUSES (R451). -/
  | brgFuses
  /-- ASSAY_B (R453). -/
  | assayB (fails : List AssayFail)
  /-- ASSAY_S (R444). -/
  | assayS (fails : List AssayFail)
  /-- ASSAY_D (R447). -/
  | assayD (fails : List AssayFail) (ueLines : List (Nat × Nat))
  /-- ASSAY_C (R446). -/
  | assayC (fails : List AssayFail)
  /-- GRADE (R454). -/
  | brgGrade (writeOk : Bool)
  /-- STOCKPILE (R454): the stacks that do not train or fail the pattern test, and those whose line decoder fails (R378). -/
  | brgStockpile (lost : List Nat × List Nat)
  /-- BROADCAST (R449): the crews whose copy fails twice (R182), and the microcode kinds whose read does not match the digest,
  each with whether its other copy verifies (R471). -/
  | brgBroadcast (bad : List Nat × List (Nat × Bool))
  /-- ADIT_TRAIN (R444). -/
  | brgAditTrain
  /-- ADIT_QUALIFY (R444). -/
  | brgAditQualify
  /-- READY (R450). -/
  | brgReady
  /-- BRG_STEP_END (R443). -/
  | brgStepEnd
  /-- STEP_TIMEOUT (R444). -/
  | stepTimeout
  /-- SURVEY_DISCARD (R451). -/
  | surveyDiscard (r : Requester)
  /-- WARM_RESET (R457). -/
  | warmReset (r : Requester) (v : Word)
  /-- FOREMAN_RESET (R456). -/
  | foremanReset (cause : Nat)
  /-- FOREMAN_RESUME (R456). -/
  | foremanResume
  /-- STOCKPILE_CTRL_RESET (R455). -/
  | stockpileCtrlReset
  /-- STOCKPILE_CTRL_RESET_END (R265). -/
  | stockpileCtrlResetEnd
  /-- BEGIN (R474). -/
  | secBegin (pldm : Bool) (kind len : Nat)
  /-- PUSH (R477). -/
  | secPush (pldm : Bool) (chunk : List Byte)
  /-- END (R476). -/
  | secEnd (pldm : Bool)
  /-- ABORT (R476). -/
  | secAbort (pldm : Bool)
  /-- REVERT (R480). -/
  | secRevert (kind : Nat)
  /-- FACTORY (R482). -/
  | secFactory
  /-- PLDM_FW_UPDATE (R474). -/
  | pldmFwUpdate (q : FwCommand)
  /-- RESERVE_COPY_DONE (R473). -/
  | reserveCopyDone (kind : Nat)
  /-- SEC_CONFIRM (R478). -/
  | secConfirm (r : Requester) (v : Word) (fuseOk : Bool)
  /-- CONFIRM_TIMER (R478). -/
  | confirmTimer (fuseOk : Bool)
  /-- CONFIRM_WINDOW_EXPIRY (R479). -/
  | confirmWindowExpiry (kind : Nat)
  /-- REVERT_RESET (R479). -/
  | revertReset
  /-- ALIAS_KEYS_READY (R488). -/
  | aliasKeysReady
  /-- GET_VERSION (R485). -/
  | spdmGetVersion (ch : SpdmChannel)
  /-- GET_CAPABILITIES (R485). -/
  | spdmGetCapabilities (ch : SpdmChannel)
  /-- NEGOTIATE_ALGORITHMS (R485). -/
  | spdmNegotiateAlgorithms (ch : SpdmChannel)
  /-- GET_DIGESTS (R485). -/
  | spdmGetDigests (ch : SpdmChannel)
  /-- GET_CERTIFICATE (R484). -/
  | spdmGetCertificate (ch : SpdmChannel) (slot off len : Nat)
  /-- CHALLENGE (R485). -/
  | spdmChallenge (ch : SpdmChannel) (slot nonce : Nat)
  /-- GET_MEASUREMENTS (R486). -/
  | spdmGetMeasurements (ch : SpdmChannel) (index : Nat) (signed : Bool) (nonce : Nat)
  /-- KEY_EXCHANGE (R485). -/
  | spdmKeyExchange (ch : SpdmChannel) (reqSession : Nat)
  /-- FINISH (R485). -/
  | spdmFinish (ch : SpdmChannel) (session : Nat)
  /-- END_SESSION (R485). -/
  | spdmEndSession (ch : SpdmChannel) (session : Nat)
  /-- HEARTBEAT (R485). -/
  | spdmHeartbeat (ch : SpdmChannel) (session : Nat)
  /-- KEY_UPDATE (R485). -/
  | spdmKeyUpdate (ch : SpdmChannel) (session op : Nat)
  /-- CHUNK_SEND (R485). -/
  | spdmChunkSend (ch : SpdmChannel) (handle seqNo : Nat) (last : Bool) (data : List Byte)
  /-- CHUNK_GET (R485). -/
  | spdmChunkGet (ch : SpdmChannel) (handle seqNo : Nat)
  /-- TALLY_DPA_ACCESS (R158): a load or a store of `size` bytes; its register, and whether a load extends the sign (LB, LH, LW,
  R157). -/
  | tallyDpaAccess (c : Nat) (store : Bool) (addr : Dword) (size : Nat) (reg : Nat × Bool)
  /-- OVERSEER_DPA_ACCESS (R50). -/
  | overseerDpaAccess (r : Requester) (store : Bool) (dpa len : Nat) (data : List Byte)
  /-- FIELD_REGISTER_ACCESS (R8). -/
  | fieldRegisterAccess (a src addr : Nat) (store : Bool) (v : Dword)
  /-- DMA_READ_COMPLETION (R356): data for byte `off` of the COPY that is the `i`-th request. -/
  | dmaReadCompletion (i off : Nat) (data : List Byte)
  /-- PCLK_RETURN (R338). -/
  | pclkReturn
  /-- VF_ENABLE_WRITE (R340). -/
  | vfEnableWrite (numVfs : Nat) (en : Bool)
  /-- OVERSEER_LOAD_DONE (R471). -/
  | overseerLoadDone (digestOk reserveOk : Bool)
  /-- UPDATE_CHUNK_DONE (R477). -/
  | updateChunkDone
deriving DecidableEq, Repr

end Sys2Proof
end

