-- ==== Sys2Proof/WellFormed.lean ====
section
/-! DEFINITION. The well-formed commands: every number that names a unit, a register or a lane lies in the range the
spec gives it (01_the_stack.md, 18_register_index.md). A command outside these ranges names nothing the part has. -/

namespace Sys2Proof

/-- A requester that exists (Table 2-7). [DEDUCED: log entry 133] -/
def Requester.wf : Requester → Bool
  | .host f => decide (f < 16)
  | .overseer n => decide (n < 8)
  | .foreman => true
  | .crew c => decide (c < 128)
  | .face n => decide (n < 768)
  | .mill e => decide (e < 4)
  | .peer a x => decide (a < 48) && decide (x < 16384)
  | .vein p => decide (p < 9)

/-- A message whose fields fit Table 10-5. -/
def Msg.wf (m : Msg) : Bool :=
  decide (m.vc < 4) && decide (m.src < 16384) && decide (m.dst < 16384) && decide (m.tag < 65536) && decide (m.op < 256)
    && decide (m.status < 16) && decide (m.len ≤ 4096) && decide (m.data.length ≤ 4096)

/-- A flit with the 240 payload bytes of Table 10-4. -/
def MsgFlit.wf (f : MsgFlit) : Bool :=
  decide (f.vc < 4) && decide (f.hops < 8) && decide (f.dst < 16384) && decide (f.src < 16384) && decide (f.via < 512)
    && f.payload.length == 240

/-- Where an SPDM message can come from. -/
def SpdmChannel.wf : SpdmChannel → Bool
  | .doe => true
  | .field a x => decide (a < 48) && decide (x < 16384)

/-- A member entry (Table 11-4). -/
def MemberEntry.wf (m : MemberEntry) : Bool := decide (m.stack < 16384) && decide (m.incarnation < 2 ^ 32)

/-- A well-formed command. [DEDUCED: log entry 133] -/
def Instr.wf : Instr → Bool
  | .registerWrite r _ _ _ => r.wf
  | .reg64LowRead r _ _ => r.wf
  | .reg64LowWrite r _ _ _ => r.wf
  | .reg64HighWrite r _ _ _ => r.wf
  | .busyWindow c role _ => decide (c < 128) && decide (role < 2)
  | .tokAcq c rd rs1 => decide (c < 128) && decide (rd < 32) && decide (rs1 < 32)
  | .tokRel c rs1 => decide (c < 128) && decide (rs1 < 32)
  | .tokStat c rd rs1 => decide (c < 128) && decide (rd < 32) && decide (rs1 < 32)
  | .tokenRevoke col => decide (col < 64)
  | .bar2Read fn _ _ => decide (fn < 16)
  | .bar2Write fn _ _ _ _ => decide (fn < 16)
  | .atomicopRequest fn _ => decide (fn < 16)
  | .seamGrant n => decide (n < 768)
  | .seamGuardExpiry n _ => decide (n < 768)
  | .eccWriteback kind _ _ => decide (kind < 7)
  | .cutPush c rd rs1 rs2 => decide (c < 128) && decide (rd < 32) && decide (rs1 < 32) && decide (rs2 < 32)
  | .cutHeadCheck c role => decide (c < 128) && decide (role < 2)
  | .cutIssue c role => decide (c < 128) && decide (role < 2)
  | .cutRetry c role => decide (c < 128) && decide (role < 2)
  | .faceStoreUe c role => decide (c < 128) && decide (role < 2)
  | .tblParityError c role array => decide (c < 128) && decide (role < 2) && decide (array < 4)
  | .cutVerdict c role => decide (c < 128) && decide (role < 2)
  | .cutDrainTile c role => decide (c < 128) && decide (role < 2)
  | .cutComplete c role => decide (c < 128) && decide (role < 2)
  | .tblLoad c rd rs1 rs2 => decide (c < 128) && decide (rd < 32) && decide (rs1 < 32) && decide (rs2 < 32)
  | .tblLoadDone c role array => decide (c < 128) && decide (role < 2) && decide (array < 4)
  | .blkRel c rs1 rs2 => decide (c < 128) && decide (rs1 < 32) && decide (rs2 < 32)
  | .drsLaunch c rs1 rs2 => decide (c < 128) && decide (rs1 < 32) && decide (rs2 < 32)
  | .routineStart c => decide (c < 128)
  | .routineComplete c => decide (c < 128)
  | .drsLdt c _ => decide (c < 128)
  | .drsStt c _ => decide (c < 128)
  | .drsLdf c _ _ => decide (c < 128)
  | .drsStf c _ => decide (c < 128)
  | .drsLdmx c _ _ => decide (c < 128)
  | .drsStmx c _ => decide (c < 128)
  | .drsSqpop c _ _ => decide (c < 128)
  | .sqpopTimeout c => decide (c < 128)
  | .drsLds c _ => decide (c < 128)
  | .drsMov c _ => decide (c < 128)
  | .drsAdd c _ _ => decide (c < 128)
  | .drsSub c _ _ => decide (c < 128)
  | .drsMul c _ _ => decide (c < 128)
  | .drsMad c _ _ => decide (c < 128)
  | .drsMax c _ _ => decide (c < 128)
  | .drsMin c _ _ => decide (c < 128)
  | .drsCmp c _ _ => decide (c < 128)
  | .drsSel c _ _ => decide (c < 128)
  | .drsShl c _ _ => decide (c < 128)
  | .drsShr c _ _ => decide (c < 128)
  | .drsAnd c _ _ => decide (c < 128)
  | .drsOr c _ _ => decide (c < 128)
  | .drsXor c _ _ => decide (c < 128)
  | .drsAlgn c _ _ => decide (c < 128)
  | .drsEadd c _ _ => decide (c < 128)
  | .drsNorm c _ _ => decide (c < 128)
  | .drsTrn c _ _ => decide (c < 128)
  | .drsRmax c _ _ => decide (c < 128)
  | .drsRsum c _ _ => decide (c < 128)
  | .drsFn c _ _ => decide (c < 128)
  | .drsEnd c _ => decide (c < 128)
  | .sqDrop c rd rs1 => decide (c < 128) && decide (rd < 32) && decide (rs1 < 32)
  | .cplGet c rd => decide (c < 128) && decide (rd < 32)
  | .cplWait c rd rs1 => decide (c < 128) && decide (rd < 32) && decide (rs1 < 32)
  | .cplWaitTimeout c => decide (c < 128)
  | .xfer c rd rs1 => decide (c < 128) && decide (rd < 32) && decide (rs1 < 32)
  | .xferStart c => decide (c < 128)
  | .xferBlockDone c ix => decide (c < 128)
      && ix.2.all (fun p => decide (p.1 < 16) && p.2.all (fun e => decide (e.1 < 72)))
  | .xferComplete c ix => decide (c < 128) && ix.2.all (fun p => p.2.all (fun e => decide (e.1 < 72)))
  | .notice c rd rs1 rs2 => decide (c < 128) && decide (rd < 32) && decide (rs1 < 32) && decide (rs2 < 32)
  | .hbeat c rs1 => decide (c < 128) && decide (rs1 < 32)
  | .heartbeatExpired c => decide (c < 128)
  | .arrSend c rd rs1 => decide (c < 128) && decide (rd < 32) && decide (rs1 < 32)
  | .arrRead c rd rs1 => decide (c < 128) && decide (rd < 32) && decide (rs1 < 32)
  | .arrWait c rd rs1 rs2 => decide (c < 128) && decide (rd < 32) && decide (rs1 < 32) && decide (rs2 < 32)
  | .arrWaitTimeout c => decide (c < 128)
  | .arrClr c rs1 => decide (c < 128) && decide (rs1 < 32)
  | .arrPoison c rd rs1 => decide (c < 128) && decide (rd < 32) && decide (rs1 < 32)
  | .arrSendTimeout c _ => decide (c < 128)
  | .arrivalApply _ => true
  | .arrCountWrite r c n _ => r.wf && decide (c < 128) && decide (n < 16)
  | .sendTablePoison c => decide (c < 128)
  | .crewStat c rd => decide (c < 128) && decide (rd < 32)
  | .tlyLoad r c => r.wf && decide (c < 128)
  | .imageLoaded c => decide (c < 128)
  | .tlyStart r c => r.wf && decide (c < 128)
  | .tlyStop r c => r.wf && decide (c < 128)
  | .tlyEcall c => decide (c < 128)
  | .tlyTrap c _ _ => decide (c < 128)
  | .buddyTakeover c => decide (c < 128)
  | .crewMapWrite r n _ => r.wf && decide (n < 128)
  | .faceLaunchEnqueue r n _ => r.wf && decide (n < 768)
  | .faceFetch n => decide (n < 768)
  | .faceFetchDone n => decide (n < 768)
  | .faceSld n _ => decide (n < 768)
  | .faceSst n _ => decide (n < 768)
  | .faceSnw n _ => decide (n < 768)
  | .strokeEnd n => decide (n < 768)
  | .mergeDone col _ => decide (col < 64)
  | .faceLdr n _ _ => decide (n < 768)
  | .faceStr n _ => decide (n < 768)
  | .faceLdb n _ _ => decide (n < 768)
  | .faceAdd n _ _ => decide (n < 768)
  | .faceSub n _ _ => decide (n < 768)
  | .faceMul n _ _ => decide (n < 768)
  | .faceMad n _ _ => decide (n < 768)
  | .faceMax n _ _ => decide (n < 768)
  | .faceMin n _ _ => decide (n < 768)
  | .faceIns n _ _ => decide (n < 768)
  | .faceEadd n _ _ => decide (n < 768)
  | .faceNorm n _ _ => decide (n < 768)
  | .faceRmax n _ _ => decide (n < 768)
  | .faceRsum n _ _ => decide (n < 768)
  | .faceDot n _ _ => decide (n < 768)
  | .faceFn n _ _ => decide (n < 768)
  | .faceXadd n _ => decide (n < 768)
  | .faceLoop n _ => decide (n < 768)
  | .faceEnd n _ => decide (n < 768)
  | .faceProgramComplete n => decide (n < 768)
  | .faceTimeLimit n => decide (n < 768)
  | .slotOpen p cmd => decide (p < 9) && cmd.length == 8
  | .slotClose p cmd => decide (p < 9) && cmd.length == 8
  | .veinPin p cmd => decide (p < 9) && cmd.length == 8
  | .veinUnpin p cmd => decide (p < 9) && cmd.length == 8
  | .slotTail p cmd => decide (p < 9) && cmd.length == 8
  | .veinHash p cmd => decide (p < 9) && cmd.length == 8
  | .veinLookup p cmd => decide (p < 9) && cmd.length == 8
  | .veinInsert p cmd => decide (p < 9) && cmd.length == 8
  | .veinRemove p cmd => decide (p < 9) && cmd.length == 8
  | .pageAlloc p cmd => decide (p < 9) && cmd.length == 8
  | .pageRef p cmd => decide (p < 9) && cmd.length == 8
  | .pageUnref p cmd => decide (p < 9) && cmd.length == 8
  | .mapSwap p cmd => decide (p < 9) && cmd.length == 8
  | .veinMigrate p cmd => decide (p < 9) && cmd.length == 8
  | .migrateBucket => true
  | .limboReclaim _ => true
  | .limboFullTimeout p => decide (p < 9)
  | .shardUpdate r e _ => r.wf && decide (e < 4)
  | .shardResume r e _ => r.wf && decide (e < 4)
  | .shardStart e => decide (e < 4)
  | .blockClassify e => decide (e < 4)
  | .gradientWrite r _ _ => r.wf
  | .landingAdmit e => decide (e < 4)
  | .blockCompute e => decide (e < 4)
  | .blockWritebackDone e => decide (e < 4)
  | .millAdd e _ _ => decide (e < 4)
  | .millSub e _ _ => decide (e < 4)
  | .millMul e _ _ => decide (e < 4)
  | .millFma e _ _ => decide (e < 4)
  | .millMin e _ _ => decide (e < 4)
  | .millMax e _ _ => decide (e < 4)
  | .millCmp e _ _ => decide (e < 4)
  | .millSel e _ _ => decide (e < 4)
  | .millRsqrt e _ _ => decide (e < 4)
  | .millRecip e _ _ => decide (e < 4)
  | .millMend e _ => decide (e < 4)
  | .millQmx e _ _ => decide (e < 4)
  | .millEnd e _ => decide (e < 4)
  | .millStall e => decide (e < 4)
  | .shardComplete e => decide (e < 4)
  | .millDisarm r e => r.wf && decide (e < 4)
  | .flitReceive a _ _ => decide (a < 48)
  | .flitSlot a => decide (a < 48)
  | .replayTimeout a => decide (a < 48)
  | .msgWrite a m => decide (a < 48) && m.wf
  | .msgRead a m => decide (a < 48) && m.wf
  | .msgArrive a m => decide (a < 48) && m.wf
  | .msgPoison a m => decide (a < 48) && m.wf
  | .msgReadData a m => decide (a < 48) && m.wf
  | .msgWriteAck a m => decide (a < 48) && m.wf
  | .msgArriveAck a m => decide (a < 48) && m.wf
  | .capsFlit a _ => decide (a < 48)
  | .capsResendTimer a => decide (a < 48)
  | .capsTimeout a => decide (a < 48)
  | .qualReq a => decide (a < 48)
  | .qualReqTimer a => decide (a < 48)
  | .qualResult a _ => decide (a < 48)
  | .qualifyDone a _ => decide (a < 48)
  | .qualifyTimeout a => decide (a < 48)
  | .retrainReq a => decide (a < 48)
  | .linkStop a => decide (a < 48)
  | .trainDone a rate lanes => decide (a < 48) && decide (rate < 3) && decide (lanes < 16)
  | .trainTimeout a _ => decide (a < 48)
  | .linkFaultTrip a cause => decide (a < 48) && decide (cause < 16)
  | .fastRetrainDone a _ badLanes => decide (a < 48) && decide (badLanes < 16)
  | .signalDetect a => decide (a < 48)
  | .adtRetrain r a => r.wf && decide (a < 48)
  | .adtReset r a => r.wf && decide (a < 48)
  | .spareTakeover => true
  | .aditRefclkLoss edge => decide (edge < 4)
  | .aditRefclkReturn edge => decide (edge < 4)
  | .routeFlit port f => (match port with | none => true | some a => decide (a < 48)) && f.wf
  | .ordWaitExpiry a => decide (a < 48)
  | .linkmapMsg a member localMap globalMap => decide (a < 48) && decide (member < 32) && decide (localMap < 4294967296) && decide (globalMap < 65536)
  | .linkmapTimer => true
  | .linkmapStale member => decide (member < 32)
  | .joinMsg a m => decide (a < 48) && m.wf
  | .leaveMsg a m => decide (a < 48) && m.wf
  | .snapshotMsg a es => decide (a < 48) && es.all MemberEntry.wf
  | .joinSettle => true
  | .fldIdWrite r _ => r.wf
  | .memberLeave r stack => r.wf && decide (stack < 16384)
  | .memberRejoin r stack => r.wf && decide (stack < 16384)
  | .timeFlit a _ _ => decide (a < 48)
  | .timeFlitTimer a => decide (a < 48)
  | .timeLocked => true
  | .parentTimeout => true
  | .gmAdvertStale a => decide (a < 48)
  | .ppsInEdge => true
  | .ppsOutEdge => true
  | .perstDeassert => true
  | .pcieLinkUp speed width _ => decide (speed < 16) && decide (width < 32)
  | .pciePartitionReset _ => true
  | .vfFlr f => decide (f < 16)
  | .busMasterEnable f _ _ => decide (f < 16)
  | .resizableBarWrite size => decide (size.1 < 64)
  | .slotWrite f _ _ => decide (f < 16)
  | .slotPickup => true
  | .reqNop _ => true
  | .reqCopy _ => true
  | .copyReadTimeout _ => true
  | .reqCrewLoad _ => true
  | .reqFaceLaunch _ => true
  | .reqMillShard _ => true
  | .reqVein ix => decide (ix.2 < 8)
  | .cqEnable r f _ => r.wf && decide (f < 16)
  | .cqModTimer f => decide (f < 16)
  | .doeRequest objType _ => decide (objType < 256)
  | .doeAbort => true
  | .eccLeak => true
  | .scrubRead kind store => decide (kind < 7) && decide (store.2 < 4)
  | .seamInjArm r n _ => r.wf && decide (n < 768)
  | .shaftResend c role _ _ group _ => decide (c < 128) && decide (role < 2) && decide (group < 16)
  | .chkLine src index _ _ => decide (src < 16) && decide (index < 512)
  | .chkCtrlWrite r u _ => r.wf && decide (u < 32)
  | .traceRecord => true
  | .clockLoss domain gallery => decide (domain < 13) && decide (gallery < 32)
  | .cpmMeasure _ => true
  | .ageingReduction g n => decide (g < 32) && decide (n < 16)
  | .surveyWrite => true
  | .vfTargetWrite r g _ => r.wf && decide (g < 32)
  | .vfRaise g => decide (g < 32)
  | .vfLower g => decide (g < 32)
  | .vfSlewDone g => decide (g < 32)
  | .droopTrip g _ => decide (g < 32)
  | .droopRecover g _ => decide (g < 32)
  | .rampLimitTrip g _ => decide (g < 32)
  | .droopRearm r g => r.wf && decide (g < 32)
  | .regFault g kind _ => decide (g < 32) && decide (kind < 3)
  | .demandFrame => true
  | .ledgerEvaluate _ => true
  | .ledgerOver => true
  | .ledgerClampRelease => true
  | .galParkWrite r g _ => r.wf && decide (g < 32)
  | .parkRampStep g => decide (g < 32)
  | .unparkRampStep g => decide (g < 32)
  | .railWarning rail _ => decide (rail < 8)
  | .railWarningClear rail => decide (rail.1 < 8)
  | .sagClampLift => true
  | .pwrSagReset rail _ => decide (rail < 8)
  | .canaryConvert sensor _ => decide (sensor < 624)
  | .modelEvaluate => true
  | .thermalClampRise g => decide (g < 32)
  | .hardTrip sensor _ => decide (sensor < 624)
  | .coolantSample _ _ _ => true
  | .flowPulse => true
  | .flowWindowUpdate => true
  | .dpCollapse => true
  | .flowOkLow => true
  | .flowLevel level => decide (level < 8)
  | .coolantUnparkTick => true
  | .valveLoop => true
  | .thmRestart r => r.wf
  | .pldmRequest _ => true
  | .inletReportTimeout => true
  | .powerOn => true
  | .brgCharter _ => true
  | .brgFuses => true
  | .assayB _ => true
  | .assayS _ => true
  | .assayD _ _ => true
  | .assayC _ => true
  | .brgGrade _ => true
  | .brgStockpile lost => lost.2.all (fun p => decide (p < 4))
  | .brgBroadcast bad => bad.2.all (fun k => decide (3 ≤ k.1) && decide (k.1 ≤ 5))
  | .brgAditTrain => true
  | .brgAditQualify => true
  | .brgReady => true
  | .brgStepEnd => true
  | .stepTimeout => true
  | .surveyDiscard r => r.wf
  | .warmReset r _ => r.wf
  | .foremanReset cause => decide (cause < 2)
  | .foremanResume => true
  | .stockpileCtrlReset => true
  | .stockpileCtrlResetEnd => true
  | .secBegin _ kind _ => decide (kind < 8)
  | .secPush _ _ => true
  | .secEnd _ => true
  | .secAbort _ => true
  | .secRevert kind => decide (kind < 8)
  | .secFactory => true
  | .pldmFwUpdate _ => true
  | .reserveCopyDone kind => decide (kind < 7)
  | .secConfirm r _ _ => r.wf
  | .confirmTimer _ => true
  | .confirmWindowExpiry kind => decide (kind < 7)
  | .revertReset => true
  | .aliasKeysReady => true
  | .spdmGetVersion ch => ch.wf
  | .spdmGetCapabilities ch => ch.wf
  | .spdmNegotiateAlgorithms ch => ch.wf
  | .spdmGetDigests ch => ch.wf
  | .spdmGetCertificate ch _ _ _ => ch.wf
  | .spdmChallenge ch _ _ => ch.wf
  | .spdmGetMeasurements ch _ _ _ => ch.wf
  | .spdmKeyExchange ch _ => ch.wf
  | .spdmFinish ch _ => ch.wf
  | .spdmEndSession ch _ => ch.wf
  | .spdmHeartbeat ch _ => ch.wf
  | .spdmKeyUpdate ch _ _ => ch.wf
  | .spdmChunkSend ch _ _ _ _ => ch.wf
  | .spdmChunkGet ch _ _ => ch.wf
  | .tallyDpaAccess c _ _ _ reg => decide (c < 128) && decide (reg.1 < 32)
  | .overseerDpaAccess r _ _ _ _ => r.wf
  | .fieldRegisterAccess a src _ _ _ => decide (a < 48) && decide (src < 16384)
  | .dmaReadCompletion _ _ _ => true
  | .pclkReturn => true
  | .vfEnableWrite numVfs _ => decide (numVfs < 16)
  | .overseerLoadDone _ _ => true
  | .updateChunkDone => true

end Sys2Proof
end

