-- ==== Sys2Proof/Decode.lean ====
section
/-! DEFINITION. The command a word spells. No row of spec/opcode_table.json gives bits: the block's commands are events and
accesses, not encoded words, so no word spells one (log entry 1). The crew extension's instructions have an encoding of
their own in the spec (R159), decoded here. -/

namespace Sys2Proof

/-- The command that `nbits` bits `w`, numbered as spec/opcode_table.json numbers them, spell: none, for the table gives
no row any bits. [DESIGN CHOICE: log entry 1] -/
def decodeTableWord (_nbits _w : Nat) : Option Instr := none

/-! ### The crew extension (R159) -/

/-- An instruction word of the crew extension: R-type, custom-0 opcode (R159). -/
def rType (funct3 funct7 rd rs1 rs2 : Nat) : Word :=
  BitVec.ofNat 32 (0x0B + 2 ^ 7 * rd + 2 ^ 12 * funct3 + 2 ^ 15 * rs1 + 2 ^ 20 * rs2 + 2 ^ 25 * funct7)

/-- The command that an instruction word of the crew extension spells in the tally of crew `c` (Table 6-2): any other funct3
or funct7 is an illegal-instruction trap, cause 2, whose mtval is the word. None: the word has another major opcode.
[PRESUMED: log entry 149] -/
def decodeCrewExt (c : Nat) (w : Word) : Option Instr :=
  let n := w.toNat
  let rd := n / 2 ^ 7 % 32
  let rs1 := n / 2 ^ 15 % 32
  let rs2 := n / 2 ^ 20 % 32
  if n % 128 ≠ 0x0B then none
  else some (match n / 2 ^ 12 % 8, n / 2 ^ 25 with
    | 0, 0 => .cutPush c rd rs1 rs2
    | 0, 1 => .tblLoad c rd rs1 rs2
    | 0, 2 => .blkRel c rs1 rs2
    | 1, 0 => .drsLaunch c rs1 rs2
    | 1, 1 => .sqDrop c rd rs1
    | 2, 0 => .xfer c rd rs1
    | 3, 0 => .cplGet c rd
    | 3, 1 => .cplWait c rd rs1
    | 4, 0 => .tokAcq c rd rs1
    | 4, 1 => .tokRel c rs1
    | 4, 2 => .notice c rd rs1 rs2
    | 4, 3 => .hbeat c rs1
    | 4, 4 => .tokStat c rd rs1
    | 5, 0 => .arrSend c rd rs1
    | 5, 1 => .arrRead c rd rs1
    | 5, 2 => .arrWait c rd rs1 rs2
    | 5, 3 => .arrClr c rs1
    | 5, 4 => .arrPoison c rd rs1
    | 6, 0 => .crewStat c rd
    | _, _ => .tlyTrap c 2 (w.setWidth 64))

/-- The instruction word of a command of the crew extension, from the same table; fields that it does not use are zero. -/
def encodeCrewExt (i : Instr) : Option Word :=
  match i with
  | .cutPush _ rd rs1 rs2 => some (rType 0 0 rd rs1 rs2)
  | .tblLoad _ rd rs1 rs2 => some (rType 0 1 rd rs1 rs2)
  | .blkRel _ rs1 rs2 => some (rType 0 2 0 rs1 rs2)
  | .drsLaunch _ rs1 rs2 => some (rType 1 0 0 rs1 rs2)
  | .sqDrop _ rd rs1 => some (rType 1 1 rd rs1 0)
  | .xfer _ rd rs1 => some (rType 2 0 rd rs1 0)
  | .cplGet _ rd => some (rType 3 0 rd 0 0)
  | .cplWait _ rd rs1 => some (rType 3 1 rd rs1 0)
  | .tokAcq _ rd rs1 => some (rType 4 0 rd rs1 0)
  | .tokRel _ rs1 => some (rType 4 1 0 rs1 0)
  | .notice _ rd rs1 rs2 => some (rType 4 2 rd rs1 rs2)
  | .hbeat _ rs1 => some (rType 4 3 0 rs1 0)
  | .tokStat _ rd rs1 => some (rType 4 4 rd rs1 0)
  | .arrSend _ rd rs1 => some (rType 5 0 rd rs1 0)
  | .arrRead _ rd rs1 => some (rType 5 1 rd rs1 0)
  | .arrWait _ rd rs1 rs2 => some (rType 5 2 rd rs1 rs2)
  | .arrClr _ rs1 => some (rType 5 3 0 rs1 0)
  | .arrPoison _ rd rs1 => some (rType 5 4 rd rs1 0)
  | .crewStat _ rd => some (rType 6 0 rd 0 0)
  | _ => none

end Sys2Proof
end

