-- ==== Sys2Proof/Config.lean ====
section
/-! DEFINITION. The free values of the model: opaque constants without a body, one for each value, order or function the
spec leaves open or names without defining it. No proof can see what they are. -/

namespace Sys2Proof

/-- A value the spec leaves open, at the model's free-value counter (`State.free`), which each use advances.
[DESIGN CHOICE: log entries 9, 10] -/
opaque Config.freeValue : Nat → Nat

/-- A byte that fills a scale area or an element run to a whole line, by its place in the line: the spec says that it is
there and not what it holds (R107 to R109). [DESIGN CHOICE: log entry 14] -/
opaque Config.padByte : Nat → Byte

/-- The bank of a seam's 32 that holds a line (R53): the spec gives no assignment of lines to banks.
[DESIGN CHOICE: log entry 13] -/
opaque Config.bankOf : Nat → Nat

/-- The bin offset of the slot records (R211): the spec places them in a private bin range without an address.
[DESIGN CHOICE: log entry 142] -/
opaque Config.slotRecords : Nat

/-- The lines of an Overseer's first-level caches, which the line code covers (Table 13-1) and whose size the spec does not
give. [DESIGN CHOICE: log entry 145] -/
opaque Config.cacheLines : Nat

/-- SHA-384 (17_firmware_security.md names it and does not define it). [DESIGN CHOICE: log entry 11] -/
opaque Config.sha384 : List Byte → List Byte

/-- RSA-3072 verification of a signature over a message with a key (R465): modulus, exponent, message, signature.
[DESIGN CHOICE: log entry 11] -/
opaque Config.rsaVerify : List Byte → Nat → List Byte → List Byte → Bool

/-- SLH-DSA verification (R465): public key, message, signature. [DESIGN CHOICE: log entry 11] -/
opaque Config.slhVerify : List Byte → List Byte → List Byte → Bool

/-- A node of the thermal RC model after an evaluation (R420): of the charter's calibration record, the nodes before, the
inputs and the node's number. In units of 0.125 °C. [DESIGN CHOICE: log entry 16] -/
opaque Config.thermalNode : Option Nat → List Int → List Int → Nat → Int

/-- What the thermal model predicts some ms ahead (R427): of the calibration record, the nodes, the inputs with the forecast's
steps, the ms ahead, and what is predicted: T_g of gallery 0 to 31, or the outlet temperature as number 32.
[DESIGN CHOICE: log entry 16] -/
opaque Config.thermalForecast : Option Nat → List Int → List Int → Nat → Nat → Int

/-- The vendor ID that the device reports (Table 12-1): the spec gives no number. [DESIGN CHOICE: log entry 83] -/
opaque Config.vendorId : BitVec 16

/-- The output of the PI loop that moves the valve or fan duty (R429, R435): of the charter's gains (none: the factory
gains), the integral term and the error in units of 0.125 °C. [DESIGN CHOICE: log entry 17] -/
opaque Config.piDuty : Option (Nat × Nat) → Int → Int → Int

/-- The integral term of that loop after a step. [DESIGN CHOICE: log entry 17] -/
opaque Config.piInteg : Option (Nat × Nat) → Int → Int → Int

/-- The guard band of a core's timing slack (R397), by its number 16*gallery + n. [DESIGN CHOICE: log entry 18] -/
opaque Config.guardBand : Nat → Int

/-- A key pair that HMAC-DRBG generates from a seed (R483): 0 RSA-3072, 1 SLH-DSA-SHA2-192s. [DESIGN CHOICE: log entry 11] -/
opaque Config.keyPair : Nat → List Byte → List Byte

/-- An SPDM certificate chain (R484): slot 0 RSA, slot 1 SLH-DSA; of the DeviceID and Alias key pairs and the TcbInfo: the
Foreman image's digest, version and svn. [DESIGN CHOICE: log entry 11] -/
opaque Config.certChain : Nat → List Byte → List Byte → List Byte × Nat × Nat → List Byte

/-- A signature by an Alias key (R485): 0 RSA, 1 SLH-DSA; of the key pair and the transcript, whose DMTF form the spec names
and does not give, as a free number. [DESIGN CHOICE: log entry 11] -/
opaque Config.aliasSign : Nat → List Byte → Nat → List Byte

/-- The bytes of an SPDM response longer than one transfer (R485), in the DMTF form the spec names and does not give; by a
free number. [DESIGN CHOICE: log entry 19] -/
opaque Config.spdmBytes : Nat → List Byte

/-- The bytes of measurement blocks 7 and 8 (R486), whose layout the spec does not give: of the block and the facts.
[DESIGN CHOICE: log entry 19] -/
opaque Config.factBytes : Nat → List Nat → List Byte

end Sys2Proof
end

