-- ==== Sys2Proof/Machine/State.lean ====
section
/-! DEFINITION. The block's state as plain data: the charter's fields, the fuses, every register, queue, buffer,
counter, mode and pin the spec gives the block, and the queue of commands that wait. Every field names the rule that
gives it. A numbered family of registers or units is a table: a list of number and contents, ascending, in which an
unlisted number holds the structure's default, so that the default of a structure is the unit's state after reset. -/

namespace Sys2Proof.Machine

/-- A numbered family: number and contents, ascending; an unlisted number holds the family's default. -/
abbrev Tbl (α : Type) := List (Nat × α)

/-- Byte memory: listed bytes, ascending and never equal to what an unlisted byte reads as. -/
abbrev Memory := List Host.Cell

/-- Why a command can stop the block's model: no command does. The spec gives every command of the table an effect,
or calls it an event that cannot occur, so the type has no constructor. -/
inductive Fault
deriving DecidableEq, Repr

/-- Why a command is refused. -/
inductive Refusal where
  /-- Raised by `exec` for a command that has no meaning yet. Safe: no run goes on from it. -/
  | notModelled (mnemonic : String)
deriving DecidableEq, Repr

/-- What a tally waits for (06_crew_programs.md): a completion record (R160), an arrival counter (R168), room in the
launch queue (R135), or the merge of a narrow store (R374); deadlines count HCLK running time. -/
inductive TlyWait where
  | none
  | cpl (rd deadline : Nat)
  | arr (counter : Nat) (target : Word) (rd deadline : Nat)
  | launch (v1 v2 : Dword)
  | merge (addr : Dword)
deriving DecidableEq, Repr, Inhabited

/-- What waits for the field's answer to a request the stack sent (R282). -/
inductive FieldReq where
  /-- An arrival or poison of crew `c` (R167), of the transfer at position `xfer` of its order if any. -/
  | arrival (c : Nat) (addr : Dword) (xfer : Option Nat)
  /-- A WRITE at byte `off` of the transfer at position `order` of crew `c` (R163). -/
  | xferWrite (c order off : Nat)
  /-- A poison of a send table, whose answer nothing waits for (R169). -/
  | poison (c : Nat)
deriving DecidableEq, Repr, Inhabited

/-- A request that waits: its seam is in self-refresh (R57), its bank is held by a stroke (R56) or its port waits for the
other (R54), its gallery is parked (R106), or the merge entries of its column are taken (R374). -/
inductive Held where
  /-- A host read that its aperture has translated (R342). -/
  | read (fn dpa len : Nat)
  /-- A host write that its aperture has translated (R342). -/
  | write (fn dpa : Nat) (data : List Byte) (relaxed : Bool)
  /-- An access of a requester on the fabric. -/
  | dpa (r : Requester) (store : Bool) (dpa len : Nat) (data : List Byte)
  /-- A message of the field. -/
  | message (a : Nat) (m : Msg)
  /-- A record that a unit writes, whose answer nothing waits for (R229, R267). -/
  | post (r : Requester) (dpa : Nat) (data : List Byte)

deriving DecidableEq, Repr, Inhabited

/-- An SPDM response (R485). [PRESUMED: log entry 62] -/
inductive SpdmRsp where
  | version (v : Nat)
  | capabilities (dataTransferSize maxMsgSize : Nat)
  | algorithms (asym hash dhe aead : String)
  | digests (slots : List (List Byte))
  | certificate (slot : Nat) (portion : List Byte) (remainder : Nat)
  /-- The base signature and the SLH-DSA signature of the opaque element, over one transcript. -/
  | challengeAuth (slot nonce : Nat) (rsa slh : List Byte)
  /-- The number of blocks; the blocks: index, value, and the version and svn of blocks 1 to 6; the signatures, if asked. -/
  | measurements (count : Nat) (blocks : List (Nat × List Byte × Option (Nat × Nat))) (nonce : Nat)
      (sigs : Option (List Byte × List Byte))
  | keyExchange (session : Nat) | finish (session : Nat) | endSession (session : Nat) | heartbeat (session : Nat)
  | keyUpdate (session op : Nat)
  | chunkSendAck (handle seqNo : Nat)
  | chunk (handle seqNo : Nat) (last : Bool) (data : List Byte)
  | error (code : Nat)
deriving DecidableEq, Repr, Inhabited

/-- What the block sends out through its pins, links and ports. [DESIGN CHOICE: log entry 12] -/
inductive Out where
  /-- A PCIe completion with data, to function `fn` (R342). -/
  | cplData (fn : Nat) (data : List Byte)
  /-- A PCIe completion without data that reports Unsupported Request (R9). -/
  | cplUR (fn : Nat)
  /-- A PCIe completion that reports Completer Abort (R345). -/
  | cplCA (fn : Nat)
  /-- A register's value, or the value of a memory access, answered to a requester other than the host (R50). -/
  | answer (r : Requester) (status : Status) (data : List Byte)
  /-- An MSI-X message of a vector of a function (R360). -/
  | msix (fn vector addr data : Nat)
  /-- A write of the stack to host memory (R356, R359). -/
  | dmaWrite (fn addr : Nat) (data : List Byte)
  /-- A read of host memory for the request `id` (R356). -/
  | dmaRead (fn addr len id : Nat)
  /-- A flit sent on an adit: its 256 bytes (R278 to R280). -/
  | flit (adit : Nat) (bytes : List Byte)
  /-- A supply-demand frame (R407): the frame's bytes. -/
  | demand (bytes : List Byte)
  /-- Bytes on the TRACE pins (R507). -/
  | trace (bytes : List Byte)
  /-- A PLDM reply: completion code and value (R436). -/
  | pldm (code : Nat) (value : Int)
  /-- A reply of the update loader to PLDM: completion code (R474). -/
  | pldmFw (code : Nat)
  /-- An SPDM response on a transport (R485). -/
  | spdm (ch : SpdmChannel) (r : SpdmRsp)
  /-- A data object in the mailbox (R365). -/
  | doe (data : List Byte)
  /-- The SYNC pin's level (R508). -/
  | sync (high : Bool)
  /-- A pulse on the PPS output (R334). -/
  | ppsOut (tclk : Dword)
  /-- The coolant valve's duty and its PWM frequency (R429). -/
  | valve (duty hz : Nat)
deriving DecidableEq, Repr, Inhabited

/-- A survey entry (Table 16-4): kind, cause, grain code and index, and the kind's data. [DESIGN CHOICE: log entry 27] -/
structure SurveyEnt where
  kind : Nat
  cause : Nat
  grain : Nat
  index : Nat
  data : Nat
deriving DecidableEq, Repr, Inhabited

/-- Event record, Table 18-4 (R496), without its sequence number, which the ring keys it by. -/
structure Event where
  /-- TCLK when the event was raised (R496). -/
  time : Dword := 0
  /-- Source block ID of Table 18-1 (R496). -/
  blk : Nat := 0
  /-- Source instance (R496). -/
  inst : Nat := 0
  /-- Event code (R496). -/
  code : Nat := 0
  /-- The 16 data bytes, Table 18-8 (R523). -/
  data : List Byte := []
deriving DecidableEq, Repr, Inhabited

/-- The event log (18_register_index.md), with the TRACE queue (R507) and the events a Foreman reset holds (R456). -/
structure Evt where
  /-- EVT_NEXT.next; kept across warm reset (R496). -/
  next : Word := 0
  /-- Ring record at sequence number mod 4096 (R496). -/
  ring : Tbl Event := []
  /-- Events held while the Foreman is in reset, oldest first (R456). -/
  held : List Event := []
  /-- Further events counted while the Foreman is in reset (R456). -/
  lost : Nat := 0
  /-- Records waiting to be sent by TRACE (R507). -/
  trace : List (Word × Event) := []
  /-- Event interrupt (vector 1 of the physical function) raised since reset (R360). -/
  irq : Bool := false
deriving DecidableEq, Repr, Inhabited

/-- GLB_DENY_INFO and GLB_DENY_ADDR (R64, Tables 2-7 and 2-8). -/
structure Deny where
  /-- A DENIED access is recorded (R64). -/
  valid : Bool := false
  /-- Further DENIED accesses while valid (R64). -/
  overflow : Bool := false
  /-- The recorded access was a write (R64). -/
  write : Bool := false
  /-- Reason code (R64). -/
  reason : Nat := 0
  /-- Requester class (R64). -/
  cls : Nat := 0
  /-- Requester source (R64). -/
  src : Nat := 0
  /-- DPA of the recorded access (R64). -/
  addr : Nat := 0
  /-- Requesting stack ID for a field peer (R64). -/
  peer : Nat := 0
deriving DecidableEq, Repr, Inhabited

/-- GLB registers that change after charter and fuses (R64, R377, R461). -/
structure Glb where
  /-- First DENIED access (R64). -/
  deny : Deny := {}
  /-- GLB_GRADE.dram_groups (reset: fuse) (R461). -/
  gradeGroups : Nat := 0xF
  /-- GLB_GRADE.stock (reset: fuse) (R461). -/
  gradeStock : Nat := 0xF
  /-- GLB_GRADE.mill (R461). -/
  gradeMill : Nat := 0xF
  /-- GLB_GRADE.survey_lost (R461). -/
  surveyLost : Bool := false
  /-- Crews not good, the complement of GLB_GRADE_CREW_n (reset: fuse) (R461). -/
  badCrews : List Nat := []
  /-- Adits not good, the complement of GLB_GRADE_ADIT (reset: fuse) (R461). -/
  badAdits : List Nat := []
  /-- GLB_MEMCFG.dram_groups in effect (reset: fuse) (R63). -/
  groups : Nat := 0xF
  /-- GLB_MEMCFG.stock_stacks in effect (reset: fuse) (R63). -/
  stock : Nat := 0xF
  /-- Galleries fenced since the last stack reset (GLB_LIVE.galleries_fenced) (R461). -/
  galFenced : List Nat := []
  /-- GLB_RESET_CAUSE.cause; kept across warm reset (R461). -/
  resetCause : Nat := 0
deriving DecidableEq, Repr, Inhabited

/-- The fuses (R3, R395, R467, R483); State.reset names a full-grade part. [DESIGN CHOICE: log entry 2] -/
structure Fuses where
  /-- Crews fused off (R3). -/
  badCrews : List Nat := []
  /-- DRAM groups fused off (R3). -/
  groupsOff : List Nat := []
  /-- Stockpile stacks fused off (R3). -/
  stockOff : List Nat := []
  /-- Variant A lid (R1). -/
  variantA : Bool := false
  /-- Temperature grade E (R1). -/
  gradeE : Bool := false
  /-- Device serial number (R339). -/
  serial : Dword := 1
  /-- Silicon stepping, reported as Revision ID (R339). -/
  revision : Nat := 0
  /-- Fused maxima in MHz of core 16*gallery + n; unlisted: 1700, 2700, 3750, 4400 (R395). -/
  fmax : Tbl (List Nat) := []
  /-- The 384-bit Unique Device Secret, which only the boot ROM reads (R483). -/
  uds : List Byte := List.replicate 48 0
  /-- RSA root hashes (R467). -/
  rsaRoots : List Nat := [0, 0, 0, 0]
  /-- SLH-DSA root hashes (R467). -/
  slhRoots : List Nat := [0, 0, 0, 0]
  /-- Revoked RSA root slots (R467). -/
  rsaRevoked : List Nat := []
  /-- Revoked SLH-DSA root slots (R467). -/
  slhRevoked : List Nat := []
  /-- Anti-rollback counter of each kind (R467). -/
  counters : Tbl Nat := []
  /-- The next boot is a start-up boot (FACTORY, or factory provisioning) (R482). -/
  startUp : Bool := false
deriving DecidableEq, Repr, Inhabited

/-- The charter fields of Table 16-14 (R522) as applied; a field the image does not carry has its default. -/
structure Chr where
  /-- COOLING_MODE is air (R415). -/
  air : Bool := false
  /-- FLOW_OK_EN (R432). -/
  flowOkEn : Bool := true
  /-- FLOW_SRC is the pressure estimate (R428). -/
  flowSrcPressure : Bool := true
  /-- FLOW_K (R428). -/
  flowK : Nat := 0
  /-- FLOW_NOM in mL/min (R428). -/
  flowNom : Nat := 2000
  /-- DP_NOM in 0.1 kPa (R428). -/
  dpNom : Nat := 400
  /-- VALVE_HZ (R429). -/
  valveHz : Nat := 1000
  /-- VALVE_MIN (R429). -/
  valveMin : Nat := 256
  /-- VALVE_GAINS; none is the factory gains held with THERMAL_MODEL (R429). -/
  gains : Option (Nat × Nat) := none
  /-- COOL_OUT_SET in 0.125 °C (R429). -/
  outSet : Nat := 400
  /-- AIR_TARGET in 0.125 °C (R435). -/
  airTarget : Nat := 680
  /-- FLOOR_MARGIN in °C (R421). -/
  floorMargin : Nat := 2
  /-- FORECAST_MS (R427). -/
  forecastMs : Nat := 20
  /-- COOL_KEEP (R431). -/
  coolKeep : Nat := 0x88442211
  /-- THERMAL_MODEL calibration record (R420). -/
  thermalModel : Option Nat := none
  /-- TEST_MODE (R30). -/
  testMode : Bool := false
  /-- TEST_TOKENS (R30). -/
  testTokens : Nat := 1
  /-- SEAM_STRIPE_MASK (R40). -/
  stripeMask : Nat := 0x0F
  /-- SEAM_ARB (R54). -/
  seamArb : Nat := 0
  /-- KV_POOL_MASK (R214). -/
  kvPool : Nat := 0x80
  /-- BIN_PRIV_n: number, base DPA, size (R45). -/
  binPriv : List (Nat × Nat × Nat) := [(0, 0x01003C000000, 0x4000000)]
  /-- VEIN_SIZE_LOG2 (R222). -/
  veinLog2 : Nat := 20
  /-- VEIN_TABLE (R222). -/
  veinTable : Nat := 0x01003E000000
  /-- VEIN_SEED (R222). -/
  veinSeed : Dword := 0
  /-- VEIN_CHK (R221). -/
  veinChk : Nat := 2
  /-- FACE_LAUNCHER is the host physical function (R186). -/
  faceLauncherHost : Bool := false
  /-- NARROW_HOST (R206). -/
  narrowHost : Bool := true
  /-- NARROW_FACE (R206). -/
  narrowFace : Bool := true
  /-- FACE_LIMIT in µs (R191). -/
  faceLimit : Nat := 200
  /-- SQ_WAIT in µs (R150). -/
  sqWait : Nat := 100
  /-- BUDDY_EN (R179). -/
  buddyEn : Bool := true
  /-- HEWER_CSUM (R123). -/
  hewerCsum : Bool := true
  /-- MILL_STALL in µs (R254). -/
  millStall : Nat := 1000
  /-- ECC_LEAK in s (R371). -/
  eccLeak : Nat := 10
  /-- ECC_THRESH (R371). -/
  eccThresh : Nat := 64
  /-- SCRUB_EN (R376). -/
  scrubEn : Bool := true
  /-- SCRUB_QUANTUM in µs (R376). -/
  scrubQuantum : Nat := 768
  /-- RESIDUE_EN (R383). -/
  residueEn : Bool := true
  /-- EVT_IRQ_MASK (R360). -/
  irqMask : Nat := 0x0038
  /-- GAL_TARGET (R399). -/
  galTarget : Nat := 13
  /-- GAL_PMAX (R399). -/
  galPmax : Nat := 15
  /-- GAL_DROOP_TRIP in mV (R404). -/
  droopTrip : Nat := 40
  /-- BOARD_DEMAND (R407). -/
  boardDemand : Bool := false
  /-- GAL_SLEW in A/µs (R406). -/
  galSlew : Nat := 150
  /-- LEDGER_LIMIT in A (R408). -/
  ledgerLimit : Nat := 2400
  /-- UNPARK_MIN in A (R411). -/
  unparkMin : Nat := 20
  /-- SAG_IRQ (R413). -/
  sagIrq : Bool := true
  /-- SAG_CLAMP (R413). -/
  sagClamp : Bool := true
  /-- VDD_DRAM_NOM in mV (R516). -/
  vddDramNom : Nat := 1050
  /-- VPP_NOM in mV (R516). -/
  vppNom : Nat := 1800
  /-- STACK_ID (R306). -/
  stackId : Nat := 0
  /-- FIELD_GROUPS (R307). -/
  groups : Nat := 1
  /-- FIELD_ID (R297). -/
  fieldId : Nat := 0
  /-- FIELD_WIN_SEAMS (R50). -/
  winSeams : Bool := true
  /-- FIELD_WIN_BIN (R50). -/
  winBin : Bool := true
  /-- FIELD_WIN_STOCKPILE (R50). -/
  winStock : Bool := true
  /-- ADIT_ENABLE (R269). -/
  aditEnable : Nat := 0x7FFFFFFFFFFF
  /-- ADIT_SPARE (R270). -/
  aditSpare : Nat := 0x3F
  /-- ADIT_RATE (R272). -/
  aditRate : Nat := 0
  /-- ADIT_FALLBACK (R272). -/
  aditFallback : Bool := true
  /-- ADIT_MIN_WIDTH in lanes (R272). -/
  aditMinWidth : Nat := 1
  /-- ADIT_REV_MIN (R296). -/
  aditRevMin : Nat := 1
  /-- ADIT_VC_WEIGHTS (R292). -/
  vcWeights : List Nat := [2, 2, 4]
  /-- FLD_ADAPT_T (R318). -/
  adaptT : Nat := 32
  /-- FLD_ORD_WAIT in ms (R317). -/
  ordWait : Nat := 20
  /-- FLD_GM_PRIO (R332). -/
  gmPrio : Nat := 0
  /-- FLD_NONMIN (R318). -/
  nonmin : Bool := true
  /-- HOST_BAR2_LOG2 (R341). -/
  bar2Log2 : Nat := 40
  /-- HOST_APERTURES; none is the default of Table 12-3 (R343). -/
  apertures : Option (List (Option Nat)) := none
  /-- HOST_MSIX_PF (R347). -/
  msixPf : Nat := 128
  /-- HOST_MSIX_VF (R347). -/
  msixVf : Nat := 128
  /-- SUBSYSTEM_IDS (R339). -/
  subsys : Nat × Nat := (0, 0)
  /-- SMB_ADDR (R513). -/
  smbAddr : Nat := 0x4C
  /-- AUX_VALVE: pin, timer (R441). -/
  auxValve : Option (Nat × Nat) := none
  /-- AUX_FLOW_PULSE: pin, timer (R441). -/
  auxFlow : Option (Nat × Nat) := none
  /-- AUX_PPS_IN: pin, timer (R441). -/
  auxPpsIn : Option (Nat × Nat) := none
  /-- AUX_PPS_OUT: pin, timer (R441). -/
  auxPpsOut : Option (Nat × Nat) := none
  /-- AUX_TRACE: clock pin, data pin, timer (R441). -/
  auxTrace : Option (Nat × Nat × Nat) := none
  /-- CHK_PRESET_n: number, check unit, CHK_CTRL value (R441). -/
  chkPreset : List (Nat × Nat × Nat) := []
  /-- CRC-32C of the charter image (R523). -/
  crc : Nat := 0
deriving DecidableEq, Repr, Inhabited

/-- PWR registers and the ledger (14_clocks_power.md). -/
structure Pwr where
  /-- Ledger requests, head first: gallery, amount still asked in 0.125 A, is a raise, half already granted (R410). -/
  queue : List (Nat × Nat × Bool × Bool) := []
  /-- Requests that arrived since the last evaluation, whose order is not defined (R410). -/
  fresh : List (Nat × Nat × Bool × Bool) := []
  /-- Granted amount of each gallery not yet drawn, 0.125 A (R408). -/
  granted : Tbl Nat := []
  /-- PWR_LEDGER.headroom, 0.25 A (R408). -/
  headroom : Int := 0
  /-- PWR_LEDGER.over (R409). -/
  over_ : Bool := false
  /-- When the excess began (model clock) (R409). -/
  overSince : Option Nat := none
  /-- LEDGER_OVER logged in this episode (R409). -/
  overLogged : Bool := false
  /-- Since when the sum is below 95% of the limit (R409). -/
  underSince : Option Nat := none
  /-- PWR_DEMAND_CFG.seq (R414). -/
  seq : Nat := 0
  /-- PWR_DEMAND_CFG.frames (R414). -/
  frames : Nat := 0
  /-- PWR_DEMAND_CFG.late (R414). -/
  late : Nat := 0
  /-- Announced VIN_IVR steps: TCLK slot of 250 ns, change in 0.25 A times mV (R407). -/
  steps : List (Nat × Int) := []
  /-- PWR_SAG_CFG.irq (reset: charter) (R414). -/
  sagIrq : Bool := true
  /-- PWR_SAG_CFG.clamp (reset: charter) (R414). -/
  sagClampEn : Bool := true
  /-- Rails whose warning is active (R413). -/
  warn : List Nat := []
  /-- PWR_SAG_STAT.warned (R414). -/
  warned : Bool := false
  /-- PWR_SAG_STAT.reset_rail; survives warm reset (R414). -/
  resetRail : Nat := 0
  /-- PWR_SAG_STAT.vin_min; survives warm reset (R414). -/
  vinMin : Nat := 0x3FF
  /-- The grant stop (and sag clamp) is in force (R413). -/
  sagActive : Bool := false
  /-- The sag clamp of P8 is in force (R413). -/
  sagClamp : Bool := false
  /-- When the last warning cleared (R413). -/
  clearAt : Option Nat := none
deriving DecidableEq, Repr, Inhabited

/-- CLK_STAT (Table 14-17) and the clock monitors. -/
structure Clk where
  /-- CLK_STAT.lost; survives warm reset (R414). -/
  lost : Nat := 0
  /-- CLK_STAT.hclk; survives warm reset (R414). -/
  hclk : Bool := false
  /-- CLK_STAT.gallery; survives warm reset (R414). -/
  gallery : Nat := 0
  /-- CLK_STAT.mclk_fallback; until cold reset (R393). -/
  fallback : Bool := false
  /-- PCLK is lost (R338). -/
  pclkLost : Bool := false
  /-- Edges whose adit reference is lost (R511). -/
  refLost : List Nat := []
deriving DecidableEq, Repr, Inhabited

/-- THM registers and the Foreman's thermal state (15_thermal_cooling.md). -/
structure Thm where
  /-- THM_CFG.pulse_failed (R428). -/
  pulseFailed : Bool := false
  /-- THM_CFG.forecast_ms (reset: charter) (R437). -/
  forecastMs : Nat := 20
  /-- THM_COOL_T.inlet, 0.125 °C (R428). -/
  inlet : Int := 0
  /-- THM_COOL_T.outlet (R428). -/
  outlet : Int := 0
  /-- THM_COOL_FLOW.flow, percent (R437). -/
  flow : Nat := 0
  /-- THM_COOL_FLOW.dp, 0.1 kPa (R437). -/
  dp : Nat := 0
  /-- THM_COOL_FLOW.level (R430). -/
  level : Nat := 0
  /-- Since when dp has been below 25% (R432). -/
  dpLowSince : Option Nat := none
  /-- Flow pulses of the current 10 ms step (R428). -/
  pulses : Nat := 0
  /-- Pulses of the last ten steps of 10 ms, newest first (R428). -/
  pulseWin : List Nat := []
  /-- Model clock of the last pulse (R428). -/
  lastPulse : Nat := 0
  /-- THM_VALVE.duty (R437). -/
  duty : Nat := 1024
  /-- THM_VALVE.forced (R437). -/
  forced : Bool := true
  /-- Integral term of the PI loop (R429). -/
  integ : Int := 0
  /-- THM_LAYER_STAT.suspect (R423). -/
  suspect : List Nat := []
  /-- THM_LAYER_STAT.seen (R437). -/
  seen : List Nat := []
  /-- Since when every D_g of a flagged layer is at or below 3 °C (R423). -/
  dgLow : Tbl Nat := []
  /-- THM_DRAM_REF.doubled (R437). -/
  doubled : List Nat := []
  /-- Since when a doubled layer has been below 83 °C (R424). -/
  coolSince : Tbl Nat := []
  /-- THM_STOP.stopped (R437). -/
  stopped : Bool := false
  /-- Model clock of the entry into STOPPED (R445). -/
  stopAt : Nat := 0
  /-- THM_STOP.cause bits: 1 FLOW_OK, 2 pressure, 4 hard trip (R437). -/
  cause : Nat := 0
  /-- THM_STOP.refused (R437). -/
  refused : Bool := false
  /-- Sensors whose trip comparator is asserted (R434). -/
  tripAsserted : List Nat := []
  /-- Galleries whose coolant park reason is still to clear, ascending (R431). -/
  unparkQ : List Nat := []
  /-- Since when flow has been below each level's entry value (R430). -/
  belowSince : Tbl Nat := []
  /-- Since when flow has been above the current exit value (R430). -/
  aboveSince : Option Nat := none
  /-- Inlet air temperature in use, 0.125 °C; 40 °C without a report (R420). -/
  airInlet : Int := 320
  /-- Model clock of the last inlet report (R420). -/
  airReportAt : Option Nat := none
  /-- A model evaluation has run since reset (R420). -/
  evaluated : Bool := false
  /-- RC model node values (layer position * 8 + footprint) (R420). -/
  nodes : Tbl Int := []
deriving DecidableEq, Repr, Inhabited

/-- One thermal sensor diode (R416, R417). -/
structure Canary where
  /-- THM_CAN_n.t, or a diode of THM_PAIR_n (R437). -/
  reading : Int := 0
  /-- It has converted since reset (R417). -/
  have_ : Bool := false
  /-- It is failed (R417). -/
  failed : Bool := false
  /-- Failed or out-of-range conversions in a row (R417). -/
  bad : Nat := 0
  /-- B or S: BASE_WARN logged in this crossing (R424). -/
  warned : Bool := false
deriving DecidableEq, Repr, Inhabited

/-- A diode pair of a compute layer (Table 15-2). -/
structure Pair where
  /-- THM_PAIR_n.disagree (R437). -/
  disagree : Bool := false
  /-- THM_PAIR_n.suspect (R437). -/
  suspect : Bool := false
  /-- Since when the readings are more than 3 °C apart (R418). -/
  apart3Since : Option Nat := none
  /-- Since when they are within 3 °C (R418). -/
  within3Since : Option Nat := none
  /-- Since when they are more than 8 °C apart (R418). -/
  apart8Since : Option Nat := none
deriving DecidableEq, Repr, Inhabited

/-- A cause of a gallery's thermal clamp and park reason (R425). -/
structure Cause where
  /-- Clamp the cause requires; 16 is none (R424). -/
  pt : Nat := 16
  /-- Its clamp episode is active (R425). -/
  active : Bool := false
  /-- Its park episode is active (R425). -/
  park : Bool := false
  /-- Since when its value is at or above the park threshold (R424). -/
  hotSince : Option Nat := none
  /-- Since when its value is below its end value (R424). -/
  coolSince : Option Nat := none
  /-- When its clamp began to rise or last rose (R425). -/
  riseAt : Option Nat := none
deriving DecidableEq, Repr, Inhabited

/-- A gallery (14_clocks_power.md, R414) with its thermal state (R422 to R425). [DEDUCED: log entry 89] -/
structure Gal where
  /-- GAL_VF_CFG.target (reset: charter) (R414). -/
  target : Nat := 13
  /-- GAL_VF_CFG.droop_trip (reset: charter) (R414). -/
  droopTrip : Nat := 40
  /-- GAL_VF_STAT.point: the effective point in force, whose frequency the clock generator gives (R414). -/
  point : Nat := 4
  /-- VDD_GAL setpoint in mV (the value of the reset point P4) (R398). -/
  mv : Nat := 610
  /-- GAL_VF_STAT.moving (R414). -/
  moving : Bool := false
  /-- GAL_VF_STAT.waiting (R414). -/
  waiting : Bool := false
  /-- Point of the transition in flight (R400). -/
  goal : Nat := 4
  /-- Model clock at which the voltage began to slew (R400). -/
  slewAt : Nat := 0
  /-- The raise to goal has its whole grant and has not begun to slew (R400). -/
  raiseOk : Bool := false
  /-- Ledger clamp; 16 is none (R409). -/
  ledgerClamp : Nat := 16
  /-- Coolant clamp; 16 is none (R430). -/
  coolantClamp : Nat := 16
  /-- GAL_CTRL.park, driver park reason (R414). -/
  park : Bool := false
  /-- Thermal park reason (R414). -/
  rThermal : Bool := false
  /-- Coolant park reason (R414). -/
  rCoolant : Bool := false
  /-- Fence park reason (R414). -/
  rFence : Bool := false
  /-- Boot park reason (R414). -/
  rBoot : Bool := true
  /-- HCLK is stopped (R414). -/
  parked : Bool := true
  /-- 0 none, 1 ramping down, 2 ramping up (R411). -/
  ramp : Nat := 0
  /-- GAL_CTRL.step (R414). -/
  step : Nat := 0
  /-- GAL_CTRL.partial (R414). -/
  partial_ : Bool := false
  /-- The half of a partial grant that the ramp to step 8 drew is out of the granted amounts (R408). -/
  halfDrawn : Bool := false
  /-- Unpark amount, 0.25 A (20 A: UNPARK_MIN's default) (R411). -/
  unparkAmt : Nat := 80
  /-- The gallery is fenced (R402). -/
  fenced : Bool := false
  /-- Its supply was lost, so its state is not retained (R402). -/
  lostState : Bool := false
  /-- GAL_DROOP.vmin (R414). -/
  vmin : Nat := 0x3FF
  /-- GAL_DROOP.events (R414). -/
  events : Nat := 0
  /-- GAL_DROOP_TS (R414). -/
  droopTs : Dword := 0
  /-- One HCLK edge in two is dropped by a droop (R404). -/
  dropping : Bool := false
  /-- One HCLK edge in two is dropped by the ramp limit (R406). -/
  rampTrip : Bool := false
  /-- GAL_CURRENT.measured, 0.25 A (R414). -/
  measured : Nat := 0
  /-- GAL_CURRENT.account, 0.25 A (R414). -/
  account : Nat := 0
  /-- Pending notice steps: crew, TCLK of the step, change in 0.25 A, duration in µs (R405). -/
  notices : List (Nat × Nat × Int × Nat) := []
  /-- The power forecast's steps, as the notices give them (R427). -/
  forecast : List (Nat × Nat × Int × Nat) := []
  /-- Model clock at which HCLK stopped (R170). -/
  stopAt : Option Nat := some 0
  /-- Total time HCLK was stopped before (R170). -/
  stoppedNs : Nat := 0
  /-- THM_GAL_n.t (R437). -/
  tg : Int := 0
  /-- THM_GAL_n.model (R437). -/
  model : Int := 0
  /-- THM_GAL_n.src (R437). -/
  src : Nat := 0
  /-- Causes of the thermal clamp and park reason: 0 T_g, 1 + n DRAM canary n, 200 layer flag, 201 restart, 202 forecast (R425). -/
  causes : Tbl Cause := []
  /-- Since when its D_g has exceeded 6 °C (R423). -/
  dgSince : Option Nat := none
deriving DecidableEq, Repr, Inhabited

/-- A core of a gallery, 16*gallery + n (R394, R397). -/
structure Core where
  /-- GAL_CORE_CAP_n.k (R414). -/
  k : Nat := 16
  /-- GAL_CORE_CAP_n.aged, 25 MHz (reset: survey) (R414). -/
  aged : Nat := 0
  /-- Smallest slack of the current second (R397). -/
  slack : Option Int := none
  /-- Start of that second (R397). -/
  slackAt : Nat := 0
  /-- FMAX_AGED was logged for this core (R397). -/
  fmaxLogged : Bool := false
deriving DecidableEq, Repr, Inhabited

/-- A skip-queue entry (R146, R147). -/
structure SkqEntry where
  /-- 0 FREE, 1 RESERVED, 2 FULL (R147). -/
  st : Nat := 0
  /-- Sq_tag (R146). -/
  tag : Nat := 0
  /-- Crew role for which the cut was pushed (R146). -/
  role : Nat := 0
  /-- The cut's seq (R146). -/
  seq : Nat := 0
  /-- Valid rows (R146). -/
  rows : Nat := 0
  /-- The FP32 tile (R146). -/
  data : List (List Word) := []
  /-- Order in which entries became FULL (R149). -/
  age : Nat := 0
  /-- A word fails its parity (R152). -/
  parityBad : Bool := false
  /-- An SQPOP has selected it (R149). -/
  selected : Bool := false
deriving DecidableEq, Repr, Inhabited

/-- A queued cut: its eight words (Table 4-6) and the role it was pushed for. -/
structure Cut where
  /-- The descriptor (R110). -/
  words : List Word := []
  /-- Role the program named (R179). -/
  role : Nat := 0
  /-- Position in the tally's order of cut.push, xfer and blk.rel (R164). -/
  order : Nat := 0
deriving DecidableEq, Repr, Inhabited

/-- An issued cut (R113 to R116). -/
structure CutRun where
  /-- Its descriptor (R110). -/
  cut : Cut := {}
  /-- Destination blocks and their states before issue (R116). -/
  saved : List (Nat × Nat) := []
  /-- Code table of each array as the cut's rows decode with it (R120). -/
  tabs : Tbl (List Byte) := []
  /-- Reserved skip-queue entries, in tile order (R113). -/
  entries : List Nat := []
  /-- It restarted once (R125). -/
  retried : Bool := false
  /-- 0 tiles, 1 draining, 2 ended with a status, its completion waiting for earlier cuts (R114). -/
  phase : Nat := 0
  /-- Status of a cut that ended without draining (R111). -/
  st : Status := .ok
  /-- Busy cycles of its arrays in the attempts that ended without its verdict (R28, R98). -/
  ran : Nat := 0
  /-- An operand was written by another requester after issue (R47). -/
  tainted : Bool := false
  /-- The FP32 accumulators, row by row, from the verdict on (R76). -/
  result : List (List Word) := []
  /-- Tiles or rows written so far (R112). -/
  drained : Nat := 0
deriving DecidableEq, Repr, Inhabited

/-- A code table of an array (R118): kind, ID, entries. -/
structure TblSlot where
  /-- Table ID (R118). -/
  id : Nat := 0
  /-- 0 CB4, 1 CB3 (R118). -/
  kind : Nat := 0
  /-- Active table valid (R129). -/
  valid : Bool := false
  /-- Shadow: 0 EMPTY, 1 LOADING, 2 LOADED (R129). -/
  st : Nat := 0
  /-- The E4M3 entries (R72). -/
  entries : List Byte := []
deriving DecidableEq, Repr, Inhabited

/-- A code-table load in progress or waiting (R118, R159). -/
structure TblReq where
  /-- Array (R159). -/
  arr : Nat := 0
  /-- Face-store byte address (R159). -/
  addr : Nat := 0
  /-- Table ID (R159). -/
  id : Nat := 0
  /-- 0 CB4, 1 CB3 (R159). -/
  kind : Nat := 0
  /-- Role the program named (R179). -/
  role : Nat := 0
deriving DecidableEq, Repr, Inhabited

/-- A hewer, at 2*crew + role (04_hewer.md). -/
structure Hewer where
  /-- Cut queue, head first (R110). -/
  queue : List Cut := []
  /-- The head of the queue has been checked (R111). -/
  checked : Bool := false
  /-- Issued cuts, oldest first (R114). -/
  issued : List CutRun := []
  /-- Active code tables of arrays A to D (R129). -/
  act : Tbl TblSlot := []
  /-- Shadow code tables (R129). -/
  shd : Tbl TblSlot := []
  /-- Table loads in flight or waiting, oldest first (R118). -/
  loads : List TblReq := []
  /-- Face-store block states (R104). -/
  blocks : Tbl Nat := []
  /-- CRW_HWR_STAT.fence_cause; 0 is not fenced (R129). -/
  fenceCause : Nat := 0
  /-- CRW_HWR_CSUM.retries (R129). -/
  retries : Nat := 0
  /-- CRW_HWR_CSUM.tbl_parity (R129). -/
  tblParity : Nat := 0
  /-- CRW_HWR_BUSY.occ (R129). -/
  occ : Nat := 0
  /-- Busy cycles of the four arrays summed over the current window (R28). -/
  busy : Nat := 0
  /-- Heavy over the last window (R28). -/
  heavy : Bool := false
  /-- The gallery's HCLK running time before which a hewer without a token issues nothing (R29). -/
  idleUntil : Nat := 0
  /-- CRW_HWR_SHAFT.resends (R389). -/
  resends : Nat := 0
  /-- Lanes remapped: failed lane, spare (R381). -/
  spares : List (Nat × Nat) := []
  /-- CRW_HWR_SHAFT.exhausted (R389). -/
  exhausted : Bool := false
  /-- Lane and model clock of each naming (R381). -/
  named : List (Nat × Nat) := []
  /-- An access from another requester is held (R106). -/
  held : Bool := false
deriving DecidableEq, Repr, Inhabited

/-- A dresser routine launch (R135). -/
structure Routine where
  /-- Start line (R135). -/
  start : Nat := 0
  /-- Base line (R135). -/
  base : Nat := 0
  /-- Tag (R135). -/
  tag : Nat := 0
deriving DecidableEq, Repr, Inhabited

/-- A BFX row (R81): the row exponent and the 32 signed mantissas. -/
structure BRow where
  /-- Row exponent (R81). -/
  e : Nat := 0
  /-- Mantissas, lane 0 first (R81). -/
  m : List Int := List.replicate 32 0
deriving DecidableEq, Repr, Inhabited

/-- The dresser and the skip queue of a crew (05_dresser.md). -/
structure Dresser where
  /-- Tile file; an unlisted tile is 32 zero rows (R131). -/
  tiles : Tbl (List BRow) := []
  /-- The 2-bit residue code stored with each lane of a tile, row by row (R154, R382). -/
  codes : Tbl (List Nat) := []
  /-- Scalar registers S0 to S7 (R131). -/
  sregs : Tbl Word := []
  /-- Pending launches, oldest first (R135). -/
  queue : List Routine := []
  /-- The running routine (R136). -/
  run : Option Routine := none
  /-- CRW_DRS_STAT.pc (R156). -/
  pc : Nat := 0
  /-- Per-routine saturation flag (R136). -/
  rsat : Bool := false
  /-- Per-routine invalid flag (R136). -/
  rinv : Bool := false
  /-- Ended routine whose completion is still to post: tag, status (R136). -/
  done : Option (Nat × Status) := none
  /-- CRW_DRS_FLAGS.sat (R156). -/
  sat : Bool := false
  /-- CRW_DRS_FLAGS.inv (R156). -/
  inv : Bool := false
  /-- CRW_DRS_CHK.retries (R156). -/
  retries : Nat := 0
  /-- CRW_DRS_CHK.fault_op (R156). -/
  faultOp : Nat := 0
  /-- CRW_DRS_CFG.sq_wait (reset: charter) (R156). -/
  sqWait : Nat := 100
  /-- HCLK running time at which the SQPOP began to wait (R150). -/
  waitFrom : Option Nat := none
  /-- CRW_DRS_STAT.last_status (R156). -/
  lastStatus : Nat := 0
  /-- The skip queue (R147). -/
  skq : Tbl SkqEntry := []
  /-- Next age (R149). -/
  ageNext : Nat := 0
  /-- Role and seq of the popped tiles of the cuts that the replay ring holds (R179). -/
  popped : List (Nat × Nat) := []
  /-- CRW_SKQ_STAT.parity (R156). -/
  parity : Nat := 0
deriving DecidableEq, Repr, Inhabited

/-- A crew transfer (Table 6-5), queued or in flight. -/
structure Xfer where
  /-- Descriptor, with face-store addresses redirected by a takeover (R162). -/
  words : List Word := []
  /-- Position in the tally's order of cut.push, xfer and blk.rel (R164). -/
  order : Nat := 0
  /-- Status of the lowest-addressed part that failed (R165). -/
  status : Status := .ok
  /-- Offset of that part (R165). -/
  badAt : Option Nat := none
  /-- Bytes gone through so far (R165). -/
  done : Nat := 0
  /-- Face-store destination blocks it did not complete, by role of the store (R165). -/
  failed : List (Nat × Nat) := []
  /-- Its messages to the field have been sent (R163). -/
  sent : Bool := false
  /-- Answers of the field still to come (R163). -/
  waits : Nat := 0
  /-- Its arrival has been sent (R165). -/
  arrSent : Bool := false
  /-- Bytes whose shaft requests are granted or need none (R53). -/
  granted : Nat := 0
deriving DecidableEq, Repr, Inhabited

/-- An arrival or poison of the tally that has no answer yet (R161). -/
structure ArrSend where
  /-- Arrival address (R167). -/
  addr : Dword := 0
  /-- It poisons (R167). -/
  poison : Bool := false
  /-- Model clock when the instruction was accepted (R161). -/
  at_ : Nat := 0
  /-- Transfers queued before it, by their order, complete first (R168). -/
  order : Nat := 0
  /-- It has left the tally (R168). -/
  sent : Bool := false
  /-- Order of the transfer whose arrival it is (R165). -/
  xfer : Option Nat := none
deriving DecidableEq, Repr, Inhabited

/-- A completion record (Table 6-3). -/
structure CplRec where
  /-- Tag (R160). -/
  tag : Nat := 0
  /-- Status (R160). -/
  status : Status := .ok
  /-- Source (R160). -/
  source : Nat := 0
  /-- Saturation and invalid, for routines (R160). -/
  flags : Nat := 0
deriving DecidableEq, Repr, Inhabited

/-- A crew's tally with its image, records and counters (06_crew_programs.md). -/
structure Crew where
  /-- CRW_TLY_STAT.state (R177). -/
  state : Nat := 0
  /-- CRW_TLY_STAT.cause (R183). -/
  cause : Nat := 0
  /-- CRW_TLY_STAT.buddy (R183). -/
  buddy : Bool := false
  /-- CRW_TLY_STAT.dead_role (R183). -/
  deadRole : Nat := 0
  /-- CRW_TLY_STAT.late (R183). -/
  late : Bool := false
  /-- CRW_TLY_STAT.trap (R183). -/
  trap : Bool := false
  /-- CRW_TLY_STAT.exit (R183). -/
  exit : Nat := 0
  /-- CRW_TLY_HB.progress (R183). -/
  progress : Nat := 0
  /-- HCLK running time at the last heartbeat (R170). -/
  hbFrom : Nat := 0
  /-- CRW_TLY_IMG (R183). -/
  img : Nat := 0
  /-- CRW_TLY_CTRL.buddy_en (reset: charter) (R183). -/
  buddyEn : Bool := true
  /-- Integer registers x0 to x31 of the tally (R157). -/
  regs : Tbl Dword := []
  /-- User mode: a crew program runs; crew microcode runs in machine mode (R157). -/
  user : Bool := false
  /-- Mcause of the last trap (R157). -/
  mcause : Nat := 0
  /-- Mtval of the last trap (R159). -/
  mtval : Dword := 0
  /-- Entry address of the loaded image (R175). -/
  entry : Dword := 0
  /-- The loaded image is buddy_ready (R175). -/
  buddyReady : Bool := false
  /-- Microcode is installed (R182). -/
  microcode : Bool := false
  /-- Send table (R169). -/
  sends : List Dword := []
  /-- Next send-table entry to poison (R169). -/
  poisonAt : Option Nat := none
  /-- Completion queue, oldest first (R160). -/
  cpl : List CplRec := []
  /-- Cut credits in use, role 0 (R161). -/
  cutUse0 : Nat := 0
  /-- Cut credits in use, role 1 (R161). -/
  cutUse1 : Nat := 0
  /-- Tbl.load credits in use, role 0 (R161). -/
  tblUse0 : Nat := 0
  /-- Tbl.load credits in use, role 1 (R161). -/
  tblUse1 : Nat := 0
  /-- Xfer, arr.send and arr.poison credits in use (R161). -/
  sendUse : Nat := 0
  /-- Revocation record of role 0 unread (R161). -/
  revUse0 : Bool := false
  /-- Revocation record of role 1 unread (R161). -/
  revUse1 : Bool := false
  /-- What the tally waits for (R160). -/
  wait : TlyWait := .none
  /-- Transfers queued, head first (R165). -/
  xferQ : List Xfer := []
  /-- Transfers in flight (R165). -/
  xferRun : List Xfer := []
  /-- Unanswered sends (R161). -/
  arrs : List ArrSend := []
  /-- Count of cut.push, xfer and blk.rel executed (R164). -/
  order : Nat := 0
  /-- Blk.rel waiting: role, first block, count, order (R164). -/
  rels : List (Nat × Nat × Nat × Nat) := []
  /-- Replay ring of role 0 (R179). -/
  ring0 : List Cut := []
  /-- Replay ring of role 1 (R179). -/
  ring1 : List Cut := []
  /-- Records of the dead role absorbed by the microcode (R179). -/
  absorbed : List CplRec := []
  /-- Dead role whose takeover is to be attempted (R179). -/
  takeover : Option Nat := none
  /-- Arrival counters (R168). -/
  counts : Tbl Word := []
  /-- CRW_ARR_DEAD (R183). -/
  dead : List Nat := []
  /-- The crew is fenced (R153). -/
  fenced : Bool := false
deriving DecidableEq, Repr, Inhabited

/-- A local increment or poison that has not been applied (R167, R168). -/
structure Arrival where
  /-- Arrival address (R167). -/
  addr : Dword := 0
  /-- Poison (R167). -/
  poison : Bool := false
  /-- Crew whose record it posts, and the order of the transfer it ends (R161). -/
  from_ : Option (Nat × Option Nat) := none
  /-- Stack, tag and ordered bit that ARRIVE_ACK answers (R282). -/
  peer : Option (Nat × Nat × Bool) := none
deriving DecidableEq, Repr, Inhabited

/-- Token state of a column (Table 1-10). -/
structure ColTok where
  /-- Layers whose hewer holds a token, oldest grant first (R34). -/
  holders : List Nat := []
  /-- Revoked bits (R35). -/
  revoked : List Nat := []
deriving DecidableEq, Repr, Inhabited

/-- A request waiting at a seam port (R53 to R57). [DEDUCED: log entry 45] -/
structure SeamReq where
  /-- At the shaft port (R53). -/
  shaft : Bool := false
  /-- A face-unit stroke (R53). -/
  stroke : Bool := false
  /-- First line (R200). -/
  first : Nat := 0
  /-- Lines (R200). -/
  lines : Nat := 1
  /-- Model clock of its arrival (R55). -/
  at_ : Nat := 0
  /-- Crew, for a shaft request (R21). -/
  crew : Nat := 0
  /-- Transfer, for a shaft request, by its order (R164). -/
  order : Nat := 0
deriving DecidableEq, Repr, Inhabited

/-- A face unit's stroke (R200, R201). -/
structure Stroke where
  /-- 1 SLD, 2 SST, 3 SNW, 0 FETCH (R194). -/
  op : Nat := 1
  /-- First seam line (R200). -/
  line : Nat := 0
  /-- First buffer line (R193). -/
  buf : Nat := 0
  /-- Lines (R200). -/
  lines : Nat := 1
  /-- SNW: first byte (R194). -/
  p : Nat := 0
  /-- SNW: bytes minus one (R194). -/
  q : Nat := 0
  /-- Granted by the seam controller (R201). -/
  granted : Bool := false
  /-- Granted but waiting for a merge entry (R207). -/
  held : Bool := false
  /-- Model clock of its issue, then of its grant (R201). -/
  at_ : Nat := 0
  /-- SNW: its line is re-encoded and written (R207). -/
  merged : Bool := false
deriving DecidableEq, Repr, Inhabited

/-- A seam and its controller (02_memory_tiers.md, 13_data_integrity.md). -/
structure Seam where
  /-- SEAM_STAT.self_refresh (R65). -/
  selfRefresh : Bool := false
  /-- Model clock of its last entry into self-refresh (R191). -/
  refreshAt : Nat := 0
  /-- SEAM_STAT.guard (R65). -/
  guard : Nat := 0
  /-- Requests of both ports, oldest first (R53). -/
  queue : List SeamReq := []
  /-- ALTERNATE: the last grant went to the shaft port (R54). -/
  lastShaft : Bool := false
  /-- SEAM_ECC.corrected (R389). -/
  corrected : Nat := 0
  /-- SEAM_ECC.uncorr (R389). -/
  uncorr : Nat := 0
  /-- SEAM_UE.line (R389). -/
  ueLine : Nat := 0
  /-- SEAM_UE.valid (R389). -/
  ueValid : Bool := false
  /-- SEAM_UE.scrub (R389). -/
  ueScrub : Bool := false
  /-- SEAM_UE.write (R389). -/
  ueWrite : Bool := false
  /-- SEAM_INJ byte_a, byte_b, byte_c, n (R389). -/
  inj : List Nat := [0, 0, 0, 0]
  /-- SEAM_INJ.arm (R389). -/
  injArm : Bool := false
  /-- Events logged in the current second (R373). -/
  ueLogged : Nat := 0
  /-- The second that count is for (R373). -/
  ueSec : Nat := 0
deriving DecidableEq, Repr, Inhabited

/-- A face launch descriptor (Table 7-2) and who gets its completion. -/
structure FLaunch where
  /-- The eight words (R187). -/
  words : List Word := []
  /-- Request id of a FACE_LAUNCH request (R356). -/
  req : Option Nat := none
deriving DecidableEq, Repr, Inhabited

/-- A face unit (07_face_units.md). -/
structure Face where
  /-- FACE_STAT.state (R210). -/
  state : Nat := 0
  /-- FACE_STAT.present apart from its seam (reset: fuse) (R210). -/
  present : Bool := true
  /-- Launch queue (R187). -/
  queue : List FLaunch := []
  /-- The launch in FETCH or RUNNING (R188). -/
  cur : Option FLaunch := none
  /-- FACE_STAT.dropped (R210). -/
  dropped : Bool := false
  /-- FACE_LAUNCH words written so far (R187). -/
  staged : Tbl Word := []
  /-- V0 to V15 (R184). -/
  rows : Tbl BRow := []
  /-- The 2-bit residue code stored with each lane of a row register (R382). -/
  codes : Tbl (List Nat) := []
  /-- X0 to X7, signed (R184). -/
  xs : Tbl Int := []
  /-- Program memory (R189). -/
  prog : List Dword := []
  /-- FACE_STAT.pc (R210). -/
  pc : Nat := 0
  /-- Strokes in flight, oldest first (R201). -/
  strokes : List Stroke := []
  /-- The program has ended with this status and is still to complete (R190). -/
  ended : Option Status := none
  /-- Model clock at the start of FETCH (R191). -/
  startAt : Nat := 0
  /-- Time held by self-refresh (R191). -/
  pausedNs : Nat := 0
  /-- Lines of its seam that the running program's strokes have reached (R204). -/
  touched : List Nat := []
  /-- Lines of its seam that other requesters wrote while programs were queued or running (R204). -/
  foreign : List Nat := []
  /-- A concurrent write has left the running program's results undefined (R204). -/
  tainted : Bool := false
  /-- FACE_FLAGS.sat (R210). -/
  sat : Bool := false
  /-- FACE_FLAGS.inv (R210). -/
  inv : Bool := false
  /-- FACE_CHK.retries (R210). -/
  retries : Nat := 0
  /-- FACE_CHK.fault_op (R210). -/
  faultOp : Nat := 0
  /-- FACE_CFG.limit (reset: charter) (R210). -/
  limit : Nat := 200
  /-- FACE_STAT.last_status (R210). -/
  lastStatus : Nat := 0
  /-- FACE_DONE.tag (R210). -/
  doneTag : Nat := 0
  /-- FACE_DONE.status (R210). -/
  doneStatus : Nat := 0
  /-- FACE_DONE.count (R210). -/
  doneCount : Nat := 0
deriving DecidableEq, Repr, Inhabited

/-- A narrow write waiting for, or holding, a merge entry (R206, R207, R374). -/
structure Merge where
  /-- Seam (R374). -/
  seam : Nat := 0
  /-- Line (R374). -/
  line : Nat := 0
  /-- Byte positions and values, in arrival order (R374). -/
  bytes : List (Nat × Byte) := []
  /-- Face unit whose SNW it is (R207). -/
  face : Option Nat := none
  /-- Requesters whose bytes it holds (R374). -/
  reqs : List Requester := []
deriving DecidableEq, Repr, Inhabited

/-- The merge entries of a column (Table 7-7). -/
structure MergeCol where
  /-- Host share, oldest first (R206). -/
  host : List Merge := []
  /-- Host-share writes waiting for an entry (R374). -/
  hostWait : List Merge := []
  /-- Face share (R206). -/
  face : List Merge := []
  /-- SNWs waiting for an entry (R207). -/
  faceWait : List Merge := []
deriving DecidableEq, Repr, Inhabited

/-- A sequence slot record (Table 8-1). -/
structure SeqSlot where
  /-- 0 FREE, 1 OPEN, 2 CLOSING (R212). -/
  st : Nat := 0
  /-- Owning function (R211). -/
  fn : Nat := 0
  /-- Length (R211). -/
  length : Nat := 0
  /-- DPA of the page map (R211). -/
  map : Nat := 0
  /-- Tail hash (R211). -/
  tail : Dword := 0
  /-- Pinned epoch, 0 when not pinned (R211). -/
  pin : Nat := 0
deriving DecidableEq, Repr, Inhabited

/-- A page header (R216). -/
structure PageHdr where
  /-- Reference count (R216). -/
  count : Nat := 0
  /-- Count zero and waiting to be reclaimed (R216). -/
  dying : Bool := false
deriving DecidableEq, Repr, Inhabited

/-- A command port of the vein-index engine (R226, Table 8-17). -/
structure VeinPort where
  /-- VEIN_CMD words written so far (R226). -/
  staged : Tbl Word := []
  /-- Commands outstanding, oldest first, with the host request each came from (R226). -/
  queue : List (List Word × Option Nat) := []
  /-- VEIN_CPL_BASE (R243). -/
  cplBase : Nat := 0
  /-- VEIN_RING.head (R243). -/
  head : Nat := 0
  /-- VEIN_RING.tail (R243). -/
  tail : Nat := 0
  /-- VEIN_RING.dropped (R243). -/
  dropped : Bool := false
  /-- Since when the head command waits for limbo (R232). -/
  waitFrom : Option Nat := none
  /-- Pages the waiting head command has applied (R228). -/
  applied : Nat := 0
  /-- Pages that the head command, otherwise done, has still to unreference (R224, R232). -/
  drops : List Nat := []
  /-- Flags, count and result of the head command, once it only drops references (R224, R229). -/
  result : Option (Nat × Nat × Nat) := none
deriving DecidableEq, Repr, Inhabited

/-- The vein-index engine (08_sequences_attention.md). -/
structure Vein where
  /-- VEIN_CFG.size_log2 (reset: charter) (R243). -/
  log2 : Nat := 20
  /-- VEIN_SEED (reset: charter) (R243). -/
  seed : Dword := 0
  /-- VEIN_STAT.migrating (R243). -/
  migrating : Bool := false
  /-- VEIN_MIG.pointer (R243). -/
  pointer : Nat := 0
  /-- VEIN_MIG.new_size (R243). -/
  newLog2 : Nat := 0
  /-- Seed of the new table (R225). -/
  newSeed : Dword := 0
  /-- DPA of the live table (reset: charter) (R222). -/
  table : Nat := 0x01003E000000
  /-- DPA of the new table (R225). -/
  newTable : Nat := 0
  /-- VEIN_COUNT.collide (R243). -/
  collide : Nat := 0
  /-- VEIN_COUNT.evict (R243). -/
  evict : Nat := 0
  /-- VEIN_EPOCH (R230). -/
  epoch : Nat := 1
  /-- Limbo: page ID and stamp, oldest first (R230). -/
  limbo : List (Nat × Nat) := []
deriving DecidableEq, Repr, Inhabited

/-- A landing-range table entry (R258). -/
structure Range where
  /-- W_base (R258). -/
  base : Nat := 0
  /-- B (R258). -/
  blocks : Nat := 0
  /-- ARMED, else DISCARD (R258). -/
  armed : Bool := true
  /-- Id of the shard that armed it (R258). -/
  shard : Nat := 0
deriving DecidableEq, Repr, Inhabited

/-- A shard descriptor (Table 9-4) and its progress. -/
structure Shard where
  /-- The 32 descriptor words (R248). -/
  words : List Word := []
  /-- Model's number for the shard (R258). -/
  id : Nat := 0
  /-- Request id of a MILL_SHARD request (R356). -/
  req : Option Nat := none
  /-- List position reached (R268). -/
  pos : Nat := 0
  /-- Block indices met in the order list (R250). -/
  seen : List Nat := []
  /-- Open blocks fully updated (R267). -/
  updated : Nat := 0
  /-- Half blocks finished (R267). -/
  replayed : Nat := 0
  /-- Blocks that failed R256 (R267). -/
  skipped : Nat := 0
  /-- Open blocks a RESUME left as they are (R247). -/
  left : Nat := 0
  /-- Blocks found Done (R267). -/
  doneBefore : Nat := 0
  /-- Sumsq values of blocks whose gradient was finite (R257). -/
  sumsq : List Word := []
  /-- Duplicate lines (R267). -/
  dup : Nat := 0
  /-- List position of the first failing block (R256). -/
  flagged : Option Nat := none
deriving DecidableEq, Repr, Inhabited

/-- A block in an engine's staging buffer (R251, R256, R263). -/
structure Block where
  /-- Block index b (R245). -/
  index : Nat := 0
  /-- Its place in the list order (R251). -/
  pos : Nat := 0
  /-- 0 Open, 1 Half (R247). -/
  cls : Nat := 0
  /-- 0 waiting, 1 moment phase, 2 weight phase; 4 to 7 write steps 1 to 4 of R263, 8 skipped line (R263). -/
  stage : Nat := 0
  /-- Current moment bank (R246). -/
  mbank : Nat := 0
  /-- Current weight bank (R246). -/
  wbank : Nat := 0
  /-- Mtag of its journal line (R246). -/
  mtag : Nat := 0
  /-- Wtag of its journal line (R246). -/
  wtag : Nat := 0
  /-- Its sumsq (R256). -/
  sumsq : Word := 0
  /-- M read ahead, then m' taken at MEND (R251, R261). -/
  m : List Word := []
  /-- V read ahead, then v' taken at MEND (R251, R261). -/
  v : List Word := []
  /-- W read ahead, then w' taken at END (R251, R261). -/
  w : List Word := []
  /-- Compute copy: element bytes and scale of each group (R266). -/
  copy : List (List Byte × Byte) := []
deriving DecidableEq, Repr, Inhabited

/-- A Mill engine (09_mill_training.md). -/
structure Eng where
  /-- MILL_ENG_STAT.state (R268). -/
  state : Nat := 0
  /-- MILL_SHARD words written so far (R248). -/
  staged : Tbl Word := []
  /-- Shard queue (R248). -/
  queue : List Shard := []
  /-- The running shard (R250). -/
  cur : Option Shard := none
  /-- MILL_ENG_STAT.phase (R268). -/
  phase : Nat := 0
  /-- Staging buffer: blocks read ahead, in list order (R251). -/
  ahead : List Block := []
  /-- Block being computed (R251). -/
  block : Option Block := none
  /-- Staging buffer: blocks being written back, oldest first (R251, R263). -/
  wback : List Block := []
  /-- F0 to F15; unlisted: zeros (R259). -/
  fregs : Tbl (List Word) := []
  /-- Step scalars K0 to K15 (R250). -/
  kregs : Tbl Word := []
  /-- Program memory (R259). -/
  prog : List Word := []
  /-- Next program instruction (R261). -/
  pc : Nat := 0
  /-- Range entries not FREE (R258). -/
  ranges : List Range := []
  /-- Landed lines: range shard id, line j, 64 bytes (R253). -/
  landed : List (Nat × Nat × List Byte) := []
  /-- Blocks that had a duplicate line: shard id, block (R255). -/
  dups : List (Nat × Nat) := []
  /-- Lines held back: shard id, line j, data, sender (R253). -/
  held : List (Nat × Nat × List Byte × Requester) := []
  /-- The running shard has ended with this status (R267). -/
  ended : Option Status := none
  /-- MILL_ENG_STAT.last_status (R268). -/
  lastStatus : Nat := 0
  /-- MILL_ENG_STAT.dropped (R268). -/
  dropped : Bool := false
  /-- MILL_ENG_CHK.retries (R268). -/
  retries : Nat := 0
  /-- MILL_ENG_CHK.fault_op (R268). -/
  faultOp : Nat := 0
  /-- MILL_ENG_COUNT.late (R268). -/
  late : Nat := 0
  /-- MILL_ENG_COUNT.dup (R268). -/
  dup : Nat := 0
  /-- MILL_ENG_DONE.tag (R268). -/
  doneTag : Nat := 0
  /-- MILL_ENG_DONE.status (R268). -/
  doneStatus : Nat := 0
  /-- MILL_ENG_DONE.count (R268). -/
  doneCount : Nat := 0
  /-- Model clock of the last progress (R254). -/
  progressAt : Nat := 0
  /-- Next shard number (R258). -/
  nextId : Nat := 0
deriving DecidableEq, Repr, Inhabited

/-- A flit held or waiting in an adit (R285, R292). -/
structure Flit where
  /-- The flit (R278). -/
  f : MsgFlit := default
  /-- Sequence number (R285). -/
  seq : Nat := 0
  /-- Times sent (R287). -/
  sends : Nat := 0
  /-- The message was sent by this stack (R301). -/
  local_ : Bool := false
  /-- It consumed a shared credit (R290). -/
  sh : Bool := false
  /-- Model's number of its message (R283). -/
  msg : Nat := 0
  /-- Tag of its message (R281). -/
  tag : Nat := 0
  /-- Op of its message (R281). -/
  op : Nat := 0
  /-- Model clock when it joined the port (R317). -/
  at_ : Nat := 0
deriving DecidableEq, Repr, Inhabited

/-- A message passing through a router, from its MSG_FIRST flit on (R313). -/
structure Transit where
  /-- Port it leaves by; none: delivered or discarded (R313). -/
  out : Option Nat := none
  /-- It is delivered here (R313). -/
  local_ : Bool := false
  /-- Flits still to come (R281). -/
  left : Nat := 0
  /-- Model's number of the message (R283). -/
  msg : Nat := 0
  /-- Its tag (R281). -/
  tag : Nat := 0
  /-- Its op (R281). -/
  op : Nat := 0
  /-- Turning group its source chose for it (R318). -/
  via : Option Nat := none
deriving DecidableEq, Repr, Inhabited

/-- An Oluba port (10_oluba_links.md). -/
structure Adit where
  /-- ADT_STAT.state (R305). -/
  state : Nat := 0
  /-- ADT_STAT.rate (R305). -/
  rate : Nat := 0
  /-- ADT_STAT.lanes (R305). -/
  lanes : Nat := 0
  /-- ADT_STAT.rev (R305). -/
  rev : Nat := 0
  /-- ADT_STAT.spare_active (R305). -/
  spare : Bool := false
  /-- ADT_STAT.cause (R305). -/
  cause : Nat := 0
  /-- ADT_CTRL.w_req (reset: charter) (R305). -/
  wReq : Nat := 2
  /-- ADT_CTRL.w_rsp (R305). -/
  wRsp : Nat := 2
  /-- ADT_CTRL.w_bulk (R305). -/
  wBulk : Nat := 4
  /-- ADT_PEER.stack (R305). -/
  peerStack : Nat := 0
  /-- ADT_PEER.adit (R305). -/
  peerAdit : Nat := 0
  /-- ADT_PEER.valid (R305). -/
  peerValid : Bool := false
  /-- The peer's CAPS flit has this end's seen bit (R295). -/
  peerSeen : Bool := false
  /-- The peer's CAPS flit has come since TRAIN (R295). -/
  capsGot : Bool := false
  /-- ADT_ERR.replays (R305). -/
  replays : Nat := 0
  /-- ADT_ERR.hdr (R305). -/
  hdr : Nat := 0
  /-- ADT_ERR.lost (R305). -/
  lost : Nat := 0
  /-- ADT_ERR.retrains (R305). -/
  retrains : Nat := 0
  /-- Header errors counted in the current 1 ms (R288). -/
  hdrMs : Nat := 0
  /-- Start of the 1 ms whose first header error was logged (R288). -/
  hdrAt : Option Nat := none
  /-- ADT_FEC.uncorr (R305). -/
  uncorr : Nat := 0
  /-- ADT_FEC.lane_fault (R305). -/
  laneFault : Nat := 0
  /-- Codewords received that held errors, newest first: model clock, lane, bits corrected, and 1 for an uncorrectable one;
  those of the last 1 ms give ADT_FEC.ber_live (R276, R299, R305). -/
  fec : List (Nat × Nat × Nat × Nat) := []
  /-- The last 31 bits of the PRBS31 sequence sent in QUALIFY (R298). -/
  prbs : Nat := 0x7FFFFFFF
  /-- ADT_QUAL.ber_q (R305). -/
  berQ : Nat := 0
  /-- ADT_QUAL.worst_lane (R305). -/
  worstLane : Nat := 0
  /-- ADT_QUAL.pass_rx (R305). -/
  passRx : Bool := false
  /-- ADT_QUAL.pass_peer (R305). -/
  passPeer : Bool := false
  /-- This end's verdict is in (R298). -/
  rxDone : Bool := false
  /-- The peer's verdict is in (R298). -/
  peerDone : Bool := false
  /-- This end has sent QUAL_REQ (R293). -/
  qualSent : Bool := false
  /-- The peer has sent QUAL_REQ (R293). -/
  qualGot : Bool := false
  /-- Model clock of entry to the state; in CAPS, of the last CAPS flit of the peer, if later (R293). -/
  stateAt : Nat := 0
  /-- Next sequence number (R285). -/
  txSeq : Nat := 0
  /-- Replay buffer, oldest first (R285). -/
  replay : List Flit := []
  /-- Held flits to send again before any new one (R286). -/
  resend : List Flit := []
  /-- Model clock of the last ack advance (R287). -/
  ackAt : Nat := 0
  /-- Flits waiting in the transmit queue, oldest first (R314). -/
  txq : List Flit := []
  /-- Flits sent since the last management flit, at most 7 (R292). -/
  mgmtRun : Nat := 7
  /-- Per VC, the message whose flits are being sent and how many are left (R283). -/
  txCur : Tbl (Nat × Nat) := []
  /-- Round-robin deficits of request, response and bulk (R292). -/
  deficit : List Nat := [0, 0, 0]
  /-- Reserved credits held, vc*5 + class (R290). -/
  credR : Tbl Nat := []
  /-- Shared credits held (R290). -/
  credS : Tbl Nat := []
  /-- Next expected sequence number (R286). -/
  rxNext : Nat := 0
  /-- Ack to send (R286). -/
  rxAck : Nat := 4095
  /-- A nak was sent and the expected flit has not come (R286). -/
  nakSent : Bool := false
  /-- The next outbound flit carries nak (R286). -/
  nakDue : Bool := false
  /-- Receive buffer, oldest first (R289). -/
  rxbuf : List MsgFlit := []
  /-- How many of the oldest buffered flits came before the link failed: their credits are not returned (R301). -/
  rxOld : Nat := 0
  /-- Which buffered flits consumed a shared credit (R290). -/
  rxSh : List Bool := []
  /-- Credits to return: vc, class (7 shared), count (R290). -/
  credDue : List (Nat × Nat × Nat) := []
  /-- VCs whose current message is discarded (R288). -/
  rxBad : List Nat := []
  /-- Per VC, the message its buffered flits belong to (R313). -/
  rxRoute : Tbl Transit := []
  /-- Per VC, the flits of the message being delivered locally (R281). -/
  rxPart : Tbl (List MsgFlit) := []
  /-- FLD_USE bit (R310). -/
  inUse : Bool := false
  /-- Found miscabled (R310). -/
  miscabled : Bool := false
  /-- Full training after a failed fast retrain: replay and seq state kept (R300). -/
  fullTrain : Bool := false
  /-- T_tx of the last TIME flit received (R331). -/
  lastTtx : Nat := 0
  /-- Local receive stamp of that flit (R331). -/
  lastTrx : Nat := 0
  /-- A TIME flit has been received (R331). -/
  timeGot : Bool := false
  /-- Grandmaster advertised: priority, stack, distance (R332). -/
  advert : Option (Nat × Nat × Nat) := none
  /-- Model clock of its last refresh (R332). -/
  advertAt : Nat := 0
  /-- Ordered flits waiting for the port to return (R317). -/
  ordHeld : List Flit := []
deriving DecidableEq, Repr, Inhabited

/-- A member-table entry (R323). -/
structure Member where
  /-- State is member (R323). -/
  member : Bool := false
  /-- Incarnation (R323). -/
  inc : Nat := 0
  /-- Serial number (R323). -/
  serial : Nat := 0
deriving DecidableEq, Repr, Inhabited

/-- The latest LINKMAP of a member of the group (R311). -/
structure LinkMap where
  /-- Local links in use and ACTIVE (R329). -/
  locals : Nat := 0
  /-- Global ports in use and ACTIVE (R329). -/
  globals : Nat := 0
  /-- Model clock of its arrival (R311). -/
  at_ : Nat := 0
  /-- Not older than 3 ms (R311). -/
  fresh : Bool := false
deriving DecidableEq, Repr, Inhabited

/-- FLD registers and field state (11_field.md). -/
structure Fld where
  /-- FLD_ID.id (reset: charter) (R335). -/
  id : Nat := 0
  /-- ADIT_TRAIN has started (R306). -/
  idLocked : Bool := false
  /-- FLD_CFG.adapt_t (reset: charter) (R335). -/
  adaptT : Nat := 32
  /-- FLD_CFG.ord_wait (reset: charter) (R335). -/
  ordWait : Nat := 20
  /-- FLD_CFG.nonmin (reset: charter) (R335). -/
  nonmin : Bool := true
  /-- FLD_STAT.joined (R335). -/
  joined : Bool := false
  /-- FLD_STAT.dup_id (R335). -/
  dupId : Bool := false
  /-- FLD_STAT.miscabled (R335). -/
  miscabled : Bool := false
  /-- The JOIN of this incarnation was sent (R324). -/
  joinSent : Bool := false
  /-- Model clock of that JOIN (R325). -/
  joinAt : Nat := 0
  /-- The stack has left the field (R326). -/
  left : Bool := false
  /-- READY has been entered (R324). -/
  ready : Bool := false
  /-- FLD_TIME.state (R335). -/
  tstate : Nat := 0
  /-- FLD_TIME.parent (R335). -/
  parent : Nat := 0
  /-- FLD_TIME.distance (R335). -/
  distance : Nat := 0
  /-- FLD_TIME.gm (R335). -/
  gm : Nat := 0
  /-- A parent is adopted (R332). -/
  hasParent : Bool := false
  /-- Since when there is no parent (R333). -/
  noParentAt : Nat := 0
  /-- Since when the offset is within 4 ns (R333). -/
  within4Since : Option Nat := none
  /-- FLD_TIME_OFS.offset, 1/256 ns (R335). -/
  offset : Int := 0
  /-- Last measured delay, 1/256 ns (R331). -/
  delay : Int := 0
  /-- FLD_ERR.noroute (R335). -/
  noroute : Nat := 0
  /-- FLD_ERR.unknown_src (R335). -/
  unknownSrc : Nat := 0
  /-- Next message tag (R281). -/
  tags : Nat := 0
  /-- Whole messages delivered to the local endpoint and not yet performed, with the adit they came by (R282). -/
  inbox : List (Nat × Msg) := []
  /-- Per VC, the message the local endpoint is sending flit by flit (R313). -/
  txRoute : Tbl Transit := []
  /-- Model's number of the next message (R283). -/
  msgs : Nat := 0
  /-- Ns by which the rate of TCLK has still to be steered (R333). -/
  steer : Int := 0
  /-- TCLK has passed a multiple of 10^9 and the 1 PPS output has not risen for it (R334). -/
  ppsDue : Bool := false
  /-- Requests sent to the field and not answered: tag and what waits (R282). -/
  outst : List (Nat × FieldReq) := []
deriving DecidableEq, Repr, Inhabited

/-- An entry of an MSI-X table: where its message goes, what it carries, and its mask bit (R347, R360).
[PRESUMED: log entry 83] -/
structure MsixVec where
  /-- Message address (R347). -/
  addr : Nat := 0
  /-- Message data (R347). -/
  data : Nat := 0
  /-- Mask bit of Vector Control (R360). -/
  masked : Bool := true
deriving DecidableEq, Repr, Inhabited

/-- A host function's block (Tables 12-10 to 12-15). -/
structure Fn where
  /-- HIF_FN_SLOTS.base (R366). -/
  slotBase : Nat := 0
  /-- HIF_FN_SLOTS.count (function 0: 64) (R366). -/
  slotCount : Nat := 0
  /-- HIF_FN_SEQ.base (R366). -/
  seqBase : Nat := 0
  /-- HIF_FN_SEQ.count (function 0: 256) (R366). -/
  seqCount : Nat := 0
  /-- HIF_FN_OPS.ops (function 0: 0x3F) (R366). -/
  ops : Nat := 3
  /-- HIF_FN_STAT.outstanding (R366). -/
  outstanding : Nat := 0
  /-- AER reports a Poisoned TLP received (R344). -/
  aerPoison : Bool := false
  /-- HIF_CQ_BASE (R366). -/
  cqBase : Nat := 0
  /-- HIF_CQ_CFG.en (R366). -/
  cqEn : Bool := false
  /-- HIF_CQ_CFG.size_log2 (R366). -/
  cqLog2 : Nat := 6
  /-- HIF_CQ_CFG.vector (R366). -/
  vector : Nat := 0
  /-- HIF_CQ_HEAD (R366). -/
  head : Nat := 0
  /-- HIF_CQ_TAIL.tail (R366). -/
  tail : Nat := 0
  /-- HIF_CQ_TAIL.phase (R366). -/
  phase : Nat := 1
  /-- HIF_CQ_MOD.count (R366). -/
  modCount : Nat := 1
  /-- HIF_CQ_MOD.time (R366). -/
  modTime : Nat := 0
  /-- Records written and not signalled (R360). -/
  unsig : Nat := 0
  /-- Model clock of the oldest of them (R360). -/
  oldestAt : Nat := 0
  /-- Bus Master Enable (R364). -/
  bme : Bool := false
  /-- In D3hot (R364). -/
  d3 : Bool := false
  /-- Bus Master Enable or the power state has been written since the reset (R366). [DEDUCED: log entry 147] -/
  bmSeen : Bool := false
  /-- Records held while bus mastering is off (R364). -/
  heldRecs : List (List Byte) := []
  /-- MSI-X messages held while bus mastering is off (R364). -/
  heldMsix : List Nat := []
  /-- HIF_VAPT_k: base and enable (R366). -/
  vapt : Tbl (Nat × Bool) := []
  /-- MSI-X Enable and Function Mask of the function's MSI-X capability (R340, R360). [PRESUMED: log entry 83] -/
  msixEn : Bool := false
  msixMaskAll : Bool := false
  /-- The function's MSI-X table (R347). -/
  msixTbl : Tbl MsixVec := []
  /-- Pending Bits set (R360). -/
  msixPending : List Nat := []
deriving DecidableEq, Repr, Inhabited

/-- A request picked up from the slot table (R354, R356). -/
structure HostReq where
  /-- Model's number for the request (R356). -/
  id : Nat := 0
  /-- Function (R354). -/
  fn : Nat := 0
  /-- Slot in the function's own numbering (R358). -/
  slot : Nat := 0
  /-- The 128 bytes copied (R351). -/
  bytes : List Byte := []
  /-- 0 not started, 1 handed to a unit or reading host memory, 2 its data is moved (R356). -/
  stage : Nat := 0
  /-- COPY from the host: ranges of bytes that have arrived, offset and length (R356). -/
  got : List (Nat × Nat) := []
  /-- Model clock when its host reads were issued (R356). -/
  at_ : Nat := 0
  /-- A function reset: no record is written for it (R363). -/
  dead : Bool := false
  /-- COPY: offset of the lowest-addressed part that failed (R356). -/
  failAt : Option Nat := none
  /-- COPY: its status (R356). -/
  st : Status := .ok
deriving DecidableEq, Repr, Inhabited

/-- HIF registers, the slot table's bookkeeping and configuration space (12_host_interface.md). -/
structure Hif where
  /-- HIF_LINK.speed (R366). -/
  speed : Nat := 0
  /-- HIF_LINK.width (R366). -/
  width : Nat := 0
  /-- HIF_LINK.flit (R366). -/
  flit : Bool := false
  /-- HIF_LINK.up (R366). -/
  up : Bool := false
  /-- HIF_LINK.resets (R366). -/
  resets : Nat := 0
  /-- PERST# is asserted (R439). -/
  perst : Bool := true
  /-- The link may train (R338). -/
  training : Bool := false
  /-- Size of BAR2 (reset: charter) (R341). -/
  bar2Log2 : Nat := 40
  /-- HIF_APT_n: base and enable (reset: charter) (R366). -/
  apt : Tbl (Nat × Bool) := []
  /-- NumVFs (R340). -/
  numVfs : Nat := 0
  /-- VF Enable (R340). -/
  vfEn : Bool := false
  /-- Size of a VF BAR2 (R349). -/
  vfBar2Log2 : Nat := 28
  /-- Slot pickup is enabled (R450). -/
  pickup : Bool := false
  /-- Slots whose summary bit is set, ascending (R352). -/
  marked : List Nat := []
  /-- Last slot served (R354). -/
  lastSlot : Nat := 4095
  /-- Requests handed to the runtime and not recorded (R356). -/
  reqs : List HostReq := []
  /-- Next request number (R356). -/
  nextReq : Nat := 0
  /-- Data object waiting in the mailbox (R365). -/
  doe : Option (Nat × List Byte) := none
  /-- Completion Timeout of Device Control 2, ns (R356). [PRESUMED: log entry 83] -/
  cplTimeout : Nat := 50000000
  /-- Max Payload Size and Max Read Request Size of Device Control in bytes (R340, R356). [PRESUMED: log entry 83] -/
  mps : Nat := 128
  mrrs : Nat := 512
  /-- 10-Bit Tag Requester Enable (R340). [PRESUMED: log entry 83] -/
  tag10 : Bool := false
  /-- ARI Capable Hierarchy of SR-IOV Control (R340). [PRESUMED: log entry 83] -/
  ariHier : Bool := false
deriving DecidableEq, Repr, Inhabited

/-- A check unit (Table 13-14). -/
structure Chk where
  /-- CHK_CTRL.arm (R389). -/
  arm : Bool := false
  /-- CHK_CTRL.mode (R389). -/
  window : Bool := false
  /-- CHK_CTRL.poly (R389). -/
  poly : Nat := 0
  /-- CHK_CTRL.src (R389). -/
  src : Nat := 0
  /-- CHK_CTRL.index and index_hi (R389). -/
  index : Nat := 0
  /-- CHK_VAL (R389). -/
  val : Dword := 0
  /-- CHK_CNT (R389). -/
  cnt : Dword := 0
  /-- CHK_WIN (R389). -/
  win : Nat := 0
  /-- CHK_WLEN (R389). -/
  wlen : Word := 0
  /-- CHK_RES (R389). -/
  res : Dword := 0
  /-- CHK_STAT.over (R389). -/
  over_ : Bool := false
  /-- WINDOW mode: lines taken so far (R386). -/
  lines : List Nat := []
  /-- Fenced (R453). -/
  fenced : Bool := false
deriving DecidableEq, Repr, Inhabited

/-- An image header (Table 17-3); keys, signatures and digests are octet strings. -/
structure ImgHdr where
  /-- Magic (R464). -/
  magic : Nat := 0x4D475A4B
  /-- Hdr_version (R464). -/
  hdrVersion : Nat := 1
  /-- Kind (R464). -/
  kind : Nat := 0
  /-- Key_index (R464). -/
  keyIndex : Nat := 0
  /-- Svn (R464). -/
  svn : Nat := 0
  /-- Version (R464). -/
  version : Nat := 0
  /-- Body_len (R464). -/
  bodyLen : Nat := 4
  /-- Settings_format (R464). -/
  settingsFormat : Nat := 0
  /-- Serial (R464). -/
  serial : Dword := 0
  /-- Body_digest (R464). -/
  bodyDigest : List Byte := []
  /-- Revoke (R464). -/
  revoke : Nat := 0
  /-- Rsa_n (R464). -/
  rsaN : List Byte := []
  /-- Rsa_e (R464). -/
  rsaE : Nat := 65537
  /-- Slh_pk (R464). -/
  slhPk : List Byte := []
  /-- Rsa_sig (R464). -/
  rsaSig : List Byte := []
  /-- Slh_sig (R464). -/
  slhSig : List Byte := []
  /-- Header bytes 0x000 to 0x2BF (R465). -/
  signed : List Byte := []
  /-- Every reserved field is zero (R464). -/
  reservedZero : Bool := true
deriving DecidableEq, Repr, Inhabited

/-- An image in a flash slot: its header and its body. -/
structure Image where
  /-- Header (R464). -/
  hdr : ImgHdr := {}
  /-- Body (R464). -/
  body : List Byte := []
deriving DecidableEq, Repr, Inhabited

/-- One kind's slots and boot state (Tables 17-1, 17-5, 17-13). -/
structure ImgSlot where
  /-- Running slot (R462). -/
  run : Option Image := none
  /-- Fallback reserve (R462). -/
  reserve : Option Image := none
  /-- SEC_IMG_n.state (R489). -/
  st : Nat := 0
  /-- SEC_IMG_n.boots (R489). -/
  boots : Nat := 0
  /-- SEC_IMG_n.from_reserve (R489). -/
  fromReserve : Bool := false
  /-- SEC_IMG_n.reserve_valid (R489). -/
  reserveValid : Bool := false
  /-- SEC_IMG_n.svn (R489). -/
  svn : Nat := 0
  /-- The image this boot runs (R486). -/
  booted : Option Image := none
  /-- FW_REVERT was logged for this PENDING image (R479). -/
  reverted : Bool := false
  /-- A fuse write failed in this boot, and the confirmation waits for the next (R468). -/
  fuseFail : Bool := false
deriving DecidableEq, Repr, Inhabited

/-- An update session (R474 to R477). -/
structure Session where
  /-- SEC_STAT.source (R489). -/
  pldm : Bool := false
  /-- Total bytes of BEGIN (R476). -/
  total : Nat := 0
  /-- Bytes accepted or held (R476). -/
  recv : List Byte := []
  /-- The accepted header (R475). -/
  hdr : Option ImgHdr := none
  /-- Bytes of the chunk being programmed (R477). -/
  chunk : Nat := 0
deriving DecidableEq, Repr, Inhabited

/-- The SPDM responder's connection on one transport (R485, R488). -/
structure Spdm where
  /-- GET_VERSION answered (R488). -/
  version : Bool := false
  /-- GET_CAPABILITIES answered (R485). -/
  caps : Bool := false
  /-- NEGOTIATE_ALGORITHMS answered (R485). -/
  algs : Bool := false
  /-- Open sessions: id and whether FINISH completed (R485). -/
  sessions : List (Nat × Bool) := []
  /-- Next session id (R485). -/
  nextSession : Nat := 1
  /-- Large request being received: handle, next chunk, bytes (R485). -/
  chunkIn : Option (Nat × Nat × List Byte) := none
  /-- Large response being sent: handle, next chunk, bytes (R485). -/
  chunkOut : Option (Nat × Nat × List Byte) := none
  /-- Key updates applied (R485). -/
  keyGen : Nat := 0
deriving DecidableEq, Repr, Inhabited

/-- SEC registers, the flash and identity (17_firmware_security.md). -/
structure Sec where
  /-- SEC_STAT.recovery (R489). -/
  recovery : Bool := false
  /-- SEC_STAT.attest_ready (R489). -/
  attestReady : Bool := false
  /-- SEC_STAT.test_boot (R489). -/
  testBoot : Bool := false
  /-- SEC_STAT.settings_reset (R489). -/
  settingsReset : Bool := false
  /-- 0 start-up, 1 test, 2 recovery, 3 normal (R486). -/
  bootKind : Nat := 3
  /-- SEC_UPD_LEN (R489). -/
  len : Word := 0
  /-- SEC_UPD_STAT.ready (R489). -/
  ready : Bool := true
  /-- SEC_UPD_STAT.phase (R489). -/
  phase : Nat := 0
  /-- SEC_UPD_STAT.status (R489). -/
  status : Nat := 0
  /-- SEC_UPD_STAT.order_err (R489). -/
  orderErr : Bool := false
  /-- SEC_UPD_STAT.kind (R489). -/
  kind : Nat := 0
  /-- SEC_UPD_RECV (R489). -/
  recvCount : Nat := 0
  /-- SEC_UPD_BUF (R477). -/
  buf : Tbl Byte := []
  /-- The open session (R474). -/
  session : Option Session := none
  /-- The six kinds, keyed 1 to 6 (R462). -/
  imgs : Tbl ImgSlot := []
  /-- Settings copies: 0, 1 Foreman A, B; 2, 3 Overseer A, B: format, write count, content (R481). -/
  settings : Tbl (Nat × Nat × Nat) := []
  /-- Model clock of READY in this boot (R479). -/
  readyAt : Option Nat := none
  /-- A Foreman partition reset since READY (R462). -/
  foremanResetSinceReady : Bool := false
  /-- Copies under way: kind, and true when the reserve is copied over the slot (R473). -/
  copying : List (Nat × Bool) := []
  /-- A window revert happened at this model clock (R479). -/
  revertAt : Option Nat := none
  /-- Crew microcode installed in every present tally (R462). -/
  crewMicro : Bool := false
  /-- The Overseers are in reset (R471). -/
  ovReset : Bool := true
  /-- The Overseer load is under way (R471). -/
  ovLoading : Bool := false
  /-- SPDM connections by transport (R485). -/
  spdms : List (SpdmChannel × Spdm) := []
deriving DecidableEq, Repr, Inhabited

/-- One copy of the survey (R451): its header facts and its entries. -/
structure Survey where
  /-- The copy is valid (R451). -/
  valid : Bool := true
  /-- Write count (R451). -/
  count : Nat := 0
  /-- Entries (R451). -/
  entries : List SurveyEnt := []
deriving DecidableEq, Repr, Inhabited

/-- BRG registers, the survey and the steps (16_bringup_repair.md). -/
structure Brg where
  /-- BRG_STAT.step (R461). -/
  step : Nat := 14
  /-- BRG_STAT.state (R461). -/
  state : Nat := 1
  /-- BRG_STAT.status (R461). -/
  status : Nat := 0
  /-- BRG_STAT.order_err (R461). -/
  orderErr : Bool := false
  /-- BRG_STAT.detail (R461). -/
  detail : Nat := 0
  /-- Model clock of the step's start (R444). -/
  stepAt : Nat := 0
  /-- Time the step has been paused by STOPPED (R445). -/
  stepPaused : Nat := 0
  /-- The running step's verdict: state, status, detail (R443). -/
  result : Option (Nat × Status × Nat) := none
  /-- Code of the last host step that ended DONE or DEGRADED (R444). -/
  done : Nat := 0
  /-- BRG_CHARTER.result (R461). -/
  chResult : Nat := 0
  /-- BRG_CHARTER.feature_a (R461). -/
  featA : Nat := 0
  /-- BRG_CHARTER.feature_b (R461). -/
  featB : Nat := 0
  /-- BRG_CHARTER.resource (R461). -/
  resource : Nat := 0
  /-- BRG_CTRL.keep_dram (R461). -/
  keepDram : Bool := false
  /-- Survey_discard was written (R451). -/
  discard : Bool := false
  /-- FUSES went on without a valid survey (R451). -/
  lost : Bool := false
  /-- This boot follows a warm reset (R448). -/
  warm : Bool := false
  /-- POWER_ON has happened (R438). -/
  powered : Bool := false
  /-- CHARTER ended DONE in this boot (R438). -/
  charterDone : Bool := false
  /-- First copy (R451). -/
  surveyA : Survey := {}
  /-- Second copy (R451). -/
  surveyB : Survey := {}
  /-- Survey entries in use this boot (R451). -/
  entries : List SurveyEnt := []
  /-- Grains that failed assay this boot: grain, index, cause (R453). -/
  assayBad : List (Nat × Nat × Nat) := []
  /-- In-service losses to record: grain, index, cause, model clock (R458). -/
  unwritten : List (Nat × Nat × Nat × Nat) := []
  /-- Ageing changes to record: core, reduction, model clock (R397). -/
  ageUnwritten : List (Nat × Nat × Nat) := []
  /-- Lane remaps to record: hewer, lane, spare (R381). -/
  remapUnwritten : List (Nat × Nat × Nat) := []
  /-- The Foreman is in service (R456). -/
  foreman : Bool := true
  /-- Model clock of the Foreman reset (R456). -/
  foremanAt : Nat := 0
  /-- Cause of the Foreman reset: 0 lockstep mismatch, 1 MCLK loss (R456). -/
  foremanCause : Nat := 0
  /-- The stockpile controller is in reset (R455). -/
  stockReset : Bool := false
  /-- The stockpile is in self-refresh (R265). -/
  stockSelf : Bool := false
  /-- SYNC is held low (R508). -/
  syncLow : Bool := true
deriving DecidableEq, Repr, Inhabited

/-- A leaky bucket (R371). -/
structure Bucket where
  /-- Current level (R371). -/
  level : Nat := 0
  /-- Corrections since the last overflow (R388). -/
  since : Nat := 0
deriving DecidableEq, Repr, Inhabited

/-- A scrubber (R376). -/
structure Scrub where
  /-- Next line (R376). -/
  line : Nat := 0
  /-- Model clock of the lap's first line (R377). -/
  lapStart : Nat := 0
  /-- Duration in s of its last completed lap, which GLB_SCRUB_LAP_n reports (seconds and valid) (R377). -/
  lap : Option Nat := none
deriving DecidableEq, Repr, Inhabited

/-- A stored line whose codeword bytes are inverted (R368, R379). -/
structure LineErr where
  /-- Store kind of Table 18-8a (R368). -/
  kind : Nat := 0
  /-- Instance (R368). -/
  inst : Nat := 0
  /-- Line (R368). -/
  line : Nat := 0
  /-- Codeword bytes in error, without repeats (R379). -/
  bytes : List Nat := []
  /-- A read found the line corrected and its write-back is still to come (R370). -/
  wb : Bool := false
deriving DecidableEq, Repr, Inhabited

/-- The block's state: every register, queue, buffer, counter, mode and pin the spec gives it, and the commands that wait.
[DESIGN CHOICE: log entries 3, 9] -/
structure State where
  /-- Commands waiting, front first. -/
  pending : List Instr := []
  /-- The model's own clock, ns since power-on. -/
  now : Nat := 0
  /-- Free-value counter. -/
  free : Nat := 0
  /-- What the block has sent out, newest first. -/
  out : List Out := []
  /-- TCLK (R330). -/
  tclk : Dword := 0
  /-- Latched high word of a pair, per requester (R8). -/
  latches : List ((Requester × Nat) × Word) := []
  /-- Pending low word of a pair, per requester (R8). -/
  pendLow : List ((Requester × Nat) × Word) := []
  /-- Fuses (R3). -/
  fuses : Fuses := {}
  /-- Charter fields in effect (R522). -/
  chr : Chr := {}
  /-- The charter is committed (R450). -/
  committed : Bool := false
  /-- GLB block (R461). -/
  glb : Glb := {}
  /-- EVT block (R496). -/
  evt : Evt := {}
  /-- PWR block (R414). -/
  pwr : Pwr := {}
  /-- CLK block (R414). -/
  clk : Clk := {}
  /-- THM block (R437). -/
  thm : Thm := {}
  /-- Sensors: THM_CAN_n, then 240 + 2*pair + diode (R416). -/
  cans : Tbl Canary := []
  /-- Diode pairs (R418). -/
  pairs : Tbl Pair := []
  /-- Galleries (R414). -/
  gals : Tbl Gal := []
  /-- Cores, 16*gallery + n (R414). -/
  cores : Tbl Core := []
  /-- Crews (R183). -/
  crews : Tbl Crew := []
  /-- Hewers, 2*crew + role (R129). -/
  hewers : Tbl Hewer := []
  /-- Dressers and skip queues (R156). -/
  drs : Tbl Dresser := []
  /-- Columns' token state (R35). -/
  toks : Tbl ColTok := []
  /-- BIN_TOK_CFG.flow_clamp (R35). -/
  flowClamp : Bool := false
  /-- BIN_TOK_CFG.layer_suspect (R35). -/
  layerSuspect : Bool := false
  /-- Local arrivals not yet applied (R168). -/
  arrQ : List Arrival := []
  /-- STK_CREW_MAP_n: phys and valid (R183). -/
  crewMap : Tbl (Nat × Bool) := []
  /-- Seams (R65). -/
  seams : Tbl Seam := []
  /-- Face units (R210). -/
  faces : Tbl Face := []
  /-- Merge entries (R206). -/
  merges : Tbl MergeCol := []
  /-- Sequence slots (R211). -/
  slots : Tbl SeqSlot := []
  /-- Page headers by page ID (R216). -/
  pages : Tbl PageHdr := []
  /-- Vein-index engine (R243). -/
  vein : Vein := {}
  /-- Its command ports (R226). -/
  vports : Tbl VeinPort := []
  /-- MILL_CFG.stall (reset: charter) (R268). -/
  millStall : Nat := 1000
  /-- Steps whose first flagged shard was logged (R256). -/
  millFlagged : List Nat := []
  /-- Mill engines (R268). -/
  engs : Tbl Eng := []
  /-- Adits (R305). -/
  adits : Tbl Adit := []
  /-- FLD block (R335). -/
  fld : Fld := {}
  /-- Member table (R323). -/
  members : Tbl Member := []
  /-- LINKMAP of each member of the group (R311). -/
  linkmaps : Tbl LinkMap := []
  /-- HIF block (R366). -/
  hif : Hif := {}
  /-- Functions (R366). -/
  fns : Tbl Fn := []
  /-- Check units (R389). -/
  chks : Tbl Chk := []
  /-- SEC block (R489). -/
  sec : Sec := {}
  /-- BRG block (R461). -/
  brg : Brg := {}
  /-- Leaky buckets, 1024*kind + instance (R371). -/
  buckets : Tbl Bucket := []
  /-- Scrubbers, 4*(1024*kind + instance) + store (R376). -/
  scrubs : Tbl Scrub := []
  /-- Lines in error (R368). -/
  errs : List LineErr := []
  /-- Seams, 0x20000000*n + offset (R42). -/
  seamMem : Memory := []
  /-- Bin, by offset in the window (R44). -/
  binMem : Memory := []
  /-- Face stores, 0x200000*(2*crew + role) + byte (R46). -/
  storeMem : Memory := []
  /-- Stockpile, 0x2000000000*stack + offset (R48). -/
  stockMem : Memory := []
  /-- Dresser local stores, 0x80000*crew + byte (R133). -/
  lsMem : Memory := []
  /-- Tally memory, 0x20000*crew + byte (R158). -/
  tlyMem : Memory := []
  /-- Face-unit local buffers, 0x10000*n + byte (R184). -/
  bufMem : Memory := []
  /-- Slot table (R351). -/
  slotMem : Memory := []
  /-- Writes of Overseers and the Foreman that wait for merge entries, oldest first: how many, and the status (R374). -/
  mergeAns : List (Requester × Nat × Status) := []
  /-- Requests that wait (R54, R56, R57, R106), oldest first, each with the model clock of its arrival (R55). -/
  heldReqs : List (Nat × Held) := []
  /-- Launches that a function wrote behind its own BAR2 writes that are not yet performed: function, face unit, launch
  (R208). -/
  launchWait : List (Nat × Nat × FLaunch) := []
  /-- The model's own: arrival time of the waiting request that is being served (R55); none between commands. -/
  reqAt : Option Nat := none
  /-- The model's own: an access of the command met a line that waits (R57); false between commands. -/
  waited : Bool := false
deriving DecidableEq, Repr

/-- The block right after reset: every structure's default, the values the spec gives for reset or that the
assumption log names. Function 0, the physical function, has slots, sequences and operations of its own (R366).
[DESIGN CHOICE: log entries 2, 3] -/
def State.reset : State :=
  { fns := [(0, { slotCount := 64, seqCount := 256, ops := 0x3F })] }

end Sys2Proof.Machine
end

