-- ==== Sys2Proof/Machine/Ops.lean ====
section
/-! DEFINITION. The shared operations: tables, byte memory, bit fields, time, presence of units, the event log, the
DENIED record, the address decode of 02_memory_tiers.md, and reads and writes of stored lines under the line code. -/

namespace Sys2Proof.Machine

/-- What a command answers. -/
abbrev Res := Host.Outcome State Fault Refusal

/-! ### Bit fields and bytes -/

/-- Bits `hi` down to `lo` of a number. -/
def bits (hi lo v : Nat) : Nat := v / 2 ^ lo % 2 ^ (hi - lo + 1)

/-- One bit of a number. -/
def bit (i v : Nat) : Bool := v / 2 ^ i % 2 == 1

/-- A flag as a bit. -/
def b2n (b : Bool) : Nat := if b then 1 else 0

/-- The bit mask of a list of bit numbers below `n`. -/
def maskOf (n : Nat) (p : Nat → Bool) : Nat :=
  (List.range n).foldl (fun acc i => acc + b2n (p i) * 2 ^ i) 0

/-- A number as `n` little-endian bytes (R7). -/
def leBytes : Nat → Nat → List Byte
  | 0, _ => []
  | n + 1, v => BitVec.ofNat 8 v :: leBytes n (v / 256)

/-- The number that little-endian bytes spell (R7). -/
def leNat : List Byte → Nat
  | [] => 0
  | b :: bs => b.toNat + 256 * leNat bs

/-- Bytes `off` to `off + n - 1` of a list, as a number. -/
def leAt (bs : List Byte) (off n : Nat) : Nat := leNat ((bs.drop off).take n)

/-- Little-endian words of a byte list. -/
def wordsOf : List Byte → List Word
  | a :: b :: c :: d :: rest => BitVec.ofNat 32 (leNat [a, b, c, d]) :: wordsOf rest
  | _ => []

/-- The value of a two's-complement field of `n` bits. -/
def sext (n v : Nat) : Int := if v % 2 ^ n < 2 ^ (n - 1) then (v % 2 ^ n : Nat) else (v % 2 ^ n : Nat) - (2 ^ n : Nat)

/-- An integer as a two's-complement field of `n` bits. -/
def tc (n : Nat) (i : Int) : Nat := (i % (2 ^ n : Nat)).toNat

/-- Count up, saturating. -/
def satInc (max n : Nat) : Nat := if n < max then n + 1 else max

/-- Add, saturating. -/
def satAdd (max n k : Nat) : Nat := if n + k < max then n + k else max

/-- Clamp an integer to a range. -/
def clampInt (lo hi v : Int) : Int := if v < lo then lo else if hi < v then hi else v

/-- Set member `i` of a list used as a set. -/
def setAdd (i : Nat) (l : List Nat) : List Nat := if l.contains i then l else l ++ [i]

/-- Remove member `i` of a list used as a set. -/
def setDel (i : Nat) (l : List Nat) : List Nat := l.filter (· != i)

/-- Replace item `i` of a list. -/
def listSet {α : Type} (l : List α) (i : Nat) (a : α) : List α := l.take i ++ (if i < l.length then [a] else []) ++ l.drop (i + 1)

/-- Remove item `i` of a list. -/
def listDel {α : Type} (l : List α) (i : Nat) : List α := l.take i ++ l.drop (i + 1)

/-! ### Tables -/

/-- The contents of number `k` of a table. -/
def Tbl.look {α : Type} (d : α) : Tbl α → Nat → α
  | [], _ => d
  | (j, v) :: t, k => if j = k then v else Tbl.look d t k

/-- A table with number `k` set, kept ascending. -/
def Tbl.put {α : Type} : Tbl α → Nat → α → Tbl α
  | [], k, v => [(k, v)]
  | (j, w) :: t, k, v => if k < j then (k, v) :: (j, w) :: t else if j = k then (k, v) :: t else (j, w) :: Tbl.put t k v

/-- A table without number `k`. -/
def Tbl.del {α : Type} (t : Tbl α) (k : Nat) : Tbl α := t.filter (fun p => p.1 != k)

/-- The contents of number `k`, if it is listed. -/
def Tbl.look? {α : Type} : Tbl α → Nat → Option α
  | [], _ => none
  | (j, v) :: t, k => if j = k then some v else Tbl.look? t k

/-- The first value of a key in a list of pairs. -/
def assoc {κ α : Type} [DecidableEq κ] (d : α) : List (κ × α) → κ → α
  | [], _ => d
  | (j, v) :: t, k => if j = k then v else assoc d t k

/-- A list of pairs with a key's value replaced. -/
def assocSet {κ α : Type} [DecidableEq κ] (l : List (κ × α)) (k : κ) (v : α) : List (κ × α) :=
  (k, v) :: l.filter (fun p => !decide (p.1 = k))

/-! ### Byte memory in canonical form -/

/-- What a byte of memory that nothing has written reads as (log entry 5). -/
def emptyByte : Byte := 0

/-- A byte of memory. [DESIGN CHOICE: log entry 5] -/
def Memory.get (m : Memory) (a : Nat) : Byte := Tbl.look emptyByte m a

/-- A byte stored: an address that reads as an unlisted byte is not listed. [DESIGN CHOICE: log entry 5] -/
def Memory.set (m : Memory) (a : Nat) (b : Byte) : Memory :=
  if b = emptyByte then m.filter (fun c => c.1 != a) else Tbl.put m a b

/-- The canonical form: addresses strictly rising and no entry equal to what an unlisted byte reads as. -/
def Memory.wf : Memory → Bool
  | [] => true
  | [c] => c.2 != emptyByte
  | c :: d :: t => c.2 != emptyByte && decide (c.1 < d.1) && Memory.wf (d :: t)

/-- `n` bytes from address `a`. -/
def Memory.read (m : Memory) (a : Nat) : Nat → List Byte
  | 0 => []
  | n + 1 => m.get a :: Memory.read m (a + 1) n

/-- Bytes stored from address `a`. -/
def Memory.write (m : Memory) (a : Nat) : List Byte → Memory
  | [] => m
  | b :: bs => Memory.write (m.set a b) (a + 1) bs

/-! ### Units, by number -/

/-- A crew. -/
def State.crew (s : State) (c : Nat) : Crew := Tbl.look {} s.crews c
/-- A crew replaced. -/
@[simps] def State.setCrew (s : State) (c : Nat) (x : Crew) : State := { s with crews := Tbl.put s.crews c x }
/-- A hewer, by crew and role. -/
def State.hewer (s : State) (c r : Nat) : Hewer := Tbl.look {} s.hewers (2 * c + r)
/-- A hewer replaced. -/
@[simps] def State.setHewer (s : State) (c r : Nat) (x : Hewer) : State := { s with hewers := Tbl.put s.hewers (2 * c + r) x }
/-- A crew's dresser. -/
def State.dresser (s : State) (c : Nat) : Dresser := Tbl.look {} s.drs c
/-- A dresser replaced. -/
@[simps] def State.setDresser (s : State) (c : Nat) (x : Dresser) : State := { s with drs := Tbl.put s.drs c x }
/-- A gallery. -/
def State.gal (s : State) (g : Nat) : Gal := Tbl.look {} s.gals g
/-- A gallery replaced. -/
@[simps] def State.setGal (s : State) (g : Nat) (x : Gal) : State := { s with gals := Tbl.put s.gals g x }
/-- A core, by gallery and number in it. -/
def State.core (s : State) (g n : Nat) : Core := Tbl.look {} s.cores (16 * g + n)
/-- A core replaced. -/
@[simps] def State.setCore (s : State) (g n : Nat) (x : Core) : State := { s with cores := Tbl.put s.cores (16 * g + n) x }
/-- A seam. -/
def State.seam (s : State) (n : Nat) : Seam := Tbl.look {} s.seams n
/-- A seam replaced. -/
@[simps] def State.setSeam (s : State) (n : Nat) (x : Seam) : State := { s with seams := Tbl.put s.seams n x }
/-- A face unit. -/
def State.face (s : State) (n : Nat) : Face := Tbl.look {} s.faces n
/-- A face unit replaced. -/
@[simps] def State.setFace (s : State) (n : Nat) (x : Face) : State := { s with faces := Tbl.put s.faces n x }
/-- A Mill engine. -/
def State.eng (s : State) (e : Nat) : Eng := Tbl.look {} s.engs e
/-- A Mill engine replaced. -/
@[simps] def State.setEng (s : State) (e : Nat) (x : Eng) : State := { s with engs := Tbl.put s.engs e x }
/-- An adit. -/
def State.adit (s : State) (a : Nat) : Adit := Tbl.look {} s.adits a
/-- An adit replaced. -/
@[simps] def State.setAdit (s : State) (a : Nat) (x : Adit) : State := { s with adits := Tbl.put s.adits a x }
/-- A host function. -/
def State.fn (s : State) (f : Nat) : Fn := Tbl.look {} s.fns f
/-- A host function replaced. -/
@[simps] def State.setFn (s : State) (f : Nat) (x : Fn) : State := { s with fns := Tbl.put s.fns f x }
/-- A column's duty tokens. -/
def State.tok (s : State) (col : Nat) : ColTok := Tbl.look {} s.toks col
/-- A column's duty tokens replaced. -/
@[simps] def State.setTok (s : State) (col : Nat) (x : ColTok) : State := { s with toks := Tbl.put s.toks col x }
/-- A column's merge entries. -/
def State.mergeCol (s : State) (col : Nat) : MergeCol := Tbl.look {} s.merges col
/-- A column's merge entries replaced. -/
@[simps] def State.setMergeCol (s : State) (col : Nat) (x : MergeCol) : State := { s with merges := Tbl.put s.merges col x }
/-- A command port of the vein-index engine. -/
def State.vport (s : State) (p : Nat) : VeinPort := Tbl.look {} s.vports p
/-- A command port replaced. -/
@[simps] def State.setVport (s : State) (p : Nat) (x : VeinPort) : State := { s with vports := Tbl.put s.vports p x }
/-- A sequence slot. -/
def State.slot (s : State) (n : Nat) : SeqSlot := Tbl.look {} s.slots n
/-- A sequence slot replaced. -/
@[simps] def State.setSlot (s : State) (n : Nat) (x : SeqSlot) : State := { s with slots := Tbl.put s.slots n x }
/-- A page header. -/
def State.page (s : State) (p : Nat) : PageHdr := Tbl.look {} s.pages p
/-- A page header replaced. -/
@[simps] def State.setPage (s : State) (p : Nat) (x : PageHdr) : State := { s with pages := Tbl.put s.pages p x }
/-- A check unit. -/
def State.chk (s : State) (u : Nat) : Chk := Tbl.look {} s.chks u
/-- A check unit replaced. -/
@[simps] def State.setChk (s : State) (u : Nat) (x : Chk) : State := { s with chks := Tbl.put s.chks u x }
/-- A thermal sensor. -/
def State.can (s : State) (n : Nat) : Canary := Tbl.look {} s.cans n
/-- A thermal sensor replaced. -/
@[simps] def State.setCan (s : State) (n : Nat) (x : Canary) : State := { s with cans := Tbl.put s.cans n x }
/-- A diode pair. -/
def State.pair (s : State) (n : Nat) : Pair := Tbl.look {} s.pairs n
/-- A diode pair replaced. -/
@[simps] def State.setPair (s : State) (n : Nat) (x : Pair) : State := { s with pairs := Tbl.put s.pairs n x }
/-- A leaky bucket. -/
def State.bucket (s : State) (k : Nat) : Bucket := Tbl.look {} s.buckets k
/-- A leaky bucket replaced. -/
@[simps] def State.setBucket (s : State) (k : Nat) (x : Bucket) : State := { s with buckets := Tbl.put s.buckets k x }
/-- Something sent out. -/
@[simps] def State.emit (s : State) (o : Out) : State := { s with out := o :: s.out }

/-- A free value and the state with its counter advanced. [DESIGN CHOICE: log entries 9, 84] -/
@[simps] def State.fresh (s : State) : Nat × State := (Config.freeValue s.free, { s with free := s.free + 1 })

/-! ### Places of units (R17 to R20, R46) -/

/-- The column of a crew's role (R18). -/
def colOf (c role : Nat) : Nat := 8 * (c % 32 / 4) + 2 * (c % 4) + role
/-- The compute layer of a crew (R18). -/
def layerOf (c : Nat) : Nat := c / 32
/-- The crew of a compute layer and column (R18). -/
def crewOf (layer col : Nat) : Nat := 32 * layer + 4 * (col / 8) + col % 8 / 2
/-- The role of a column in its crew (R18). -/
def roleOf (col : Nat) : Nat := col % 2
/-- The gallery of a crew (R19). -/
def galOf (c : Nat) : Nat := 8 * (c / 32) + 2 * (c % 32 / 4 / 2) + c % 4 / 2
/-- The face-store slot of a crew's role (R46). -/
def faceSlot (c role : Nat) : Nat := 64 * layerOf c + colOf c role
/-- The crews of a gallery, ascending (Table 1-2). -/
def crewsOf (g : Nat) : List Nat := (List.range 128).filter (fun c => galOf c == g)

/-- A crew whose fuses and assay are good (R20, R461). [DESIGN CHOICE: log entry 2] -/
def State.crewPresent (s : State) (c : Nat) : Bool :=
  decide (c < 128) && !s.fuses.badCrews.contains c && !s.glb.badCrews.contains c
/-- A hewer that runs cuts: present and not fenced. -/
def State.hewerLive (s : State) (c r : Nat) : Bool := s.crewPresent c && (s.hewer c r).fenceCause == 0
/-- An enabled DRAM layer (R42). -/
def State.layerOn (s : State) (k : Nat) : Bool := decide (k < 12) && bit (k / 3) s.glb.groups
/-- The enabled DRAM layers, ascending (R42). -/
def State.dramLayers (s : State) : List Nat := (List.range 12).filter s.layerOn
/-- A seam that exists (R65). -/
def State.seamPresent (s : State) (n : Nat) : Bool := decide (n < 768) && s.layerOn (n / 64)
/-- The enabled stockpile stacks, ascending (R48). [DESIGN CHOICE: log entry 2] -/
def State.stockStacks (s : State) : List Nat := (List.range 4).filter (fun p => bit p s.glb.stock)
/-- The striped blocks, ascending (R40, R42). -/
def State.stripedBlocks (s : State) : List Nat := (List.range 8).filter (fun j => bit j s.chr.stripeMask)

/-! ### Time -/

/-- The time a gallery's HCLK has run, in ns (R170). -/
def State.hclkNs (s : State) (g : Nat) : Nat :=
  let x := s.gal g
  (match x.stopAt with | some t => t | none => s.now) - x.stoppedNs

/-- A gallery's HCLK runs. -/
def State.running (s : State) (g : Nat) : Bool := (s.gal g).stopAt.isNone

/-- A crew's HCLK runs. -/
def State.crewRuns (s : State) (c : Nat) : Bool := s.running (galOf c)

/-! ### MSI-X and the event log (R360, R456, R496, R507) -/

/-- The number of entries of a function's MSI-X table (R347). -/
def State.msixSize (s : State) (f : Nat) : Nat := if f = 0 then s.chr.msixPf else s.chr.msixVf

/-- A vector is masked: by its own mask bit, by Function Mask, or because MSI-X is not enabled (R360).
[PRESUMED: log entry 83] -/
def Fn.msixMasked (x : Fn) (v : Nat) : Bool := !x.msixEn || x.msixMaskAll || (Tbl.look {} x.msixTbl v).masked

/-- A vector of a function is signalled with its table entry's message: its Pending Bit while masked, held while bus
mastering is off; a vector the table does not have sends nothing (R347, R360, R364). [PRESUMED: log entry 83] -/
def msix (f v : Nat) (s : State) : State :=
  let x := s.fn f
  let e := Tbl.look {} x.msixTbl v
  if s.msixSize f ≤ v then s
  else if x.msixMasked v then s.setFn f { x with msixPending := setAdd v x.msixPending }
  else if !x.bme || x.d3 then s.setFn f { x with heldMsix := x.heldMsix ++ [v] }
  else s.emit (.msix f v e.addr e.data)

/-- The 16 data bytes of an event from items of offset, width and value; other bytes are zero (R523). -/
def evBytes (items : List (Nat × Nat × Nat)) : List Byte :=
  leBytes 16 (items.foldl (fun acc it => acc + it.2.2 % 256 ^ it.2.1 * 256 ^ it.1) 0)

/-- A record enters the ring (R496), TRACE (R507) and, where EVT_IRQ_MASK selects it, the interrupt (R360). -/
def evAppend (e : Event) (s : State) : State :=
  let v := s.evt
  let v' := { v with
    next := v.next + 1
    ring := Tbl.put v.ring (v.next.toNat % 4096) e
    trace := if s.chr.auxTrace.isSome && decide (v.trace.length < 16) then v.trace ++ [(v.next, e)] else v.trace
    irq := v.irq || bit (e.code / 256) s.chr.irqMask }
  let s := { s with evt := v' }
  if bit (e.code / 256) s.chr.irqMask then msix 0 1 s else s

/-- An event is raised: logged, or held (up to 256, then counted) while the Foreman is in reset (R456). -/
def logEvent (blk inst code : Nat) (items : List (Nat × Nat × Nat)) (s : State) : State :=
  let e : Event := { time := s.tclk, blk := blk, inst := inst, code := code, data := evBytes items }
  if s.brg.foreman then evAppend e s
  else if s.evt.held.length < 256 then { s with evt := { s.evt with held := s.evt.held ++ [e] } }
  else { s with evt := { s.evt with lost := s.evt.lost + 1 } }

/-- A write that is ignored is logged with its offset, requester and reason (R498). -/
def logIgnored (blk inst : Nat) (r : Requester) (off reason : Nat) : State → State :=
  logEvent blk inst 0x0801 [(0, 4, off), (4, 2, r.cls + 16 * r.src), (6, 1, reason)]

/-! ### DENIED (R64) -/

/-- A DENIED access is recorded, or only sets overflow while a record is valid (R64). -/
def recordDeny (r : Requester) (dpa : Nat) (write : Bool) (reason : Nat) (s : State) : State :=
  let d := s.glb.deny
  let d' : Deny :=
    if d.valid then { d with overflow := true }
    else { valid := true, overflow := false, write := write, reason := reason, cls := r.cls, src := r.src,
           addr := dpa % 2 ^ 48, peer := match r with | .peer _ x => x | _ => 0 }
  { s with glb := { s.glb with deny := d' } }

/-! ### Address decode (R38 to R50) -/

/-- A byte of the block's memory: seam and offset, bin offset, face store and offset, stockpile stack and offset, or
register offset. -/
inductive Loc where
  | seam (n off : Nat) | bin (off : Nat) | face (c role off : Nat) | stock (p off : Nat) | reg (off : Nat)
deriving DecidableEq, Repr, Inhabited

/-- The size of the striped view in bytes (R42). -/
def State.stripedSize (s : State) : Nat := 64 * s.dramLayers.length * s.stripedBlocks.length * 0x4000000

/-- The striped view (R42): the seam byte of offset `a`, which is below `stripedSize`. -/
def stripedLoc (s : State) (a : Nat) : Loc :=
  let g := a / 4096
  let q := g / 64
  let l := s.dramLayers.length
  let r := q / l
  .seam (64 * s.dramLayers.getD (q % l) 0 + g % 64)
    (s.stripedBlocks.getD (r / 16384) 0 * 0x4000000 + r % 16384 * 0x1000 + a % 4096)

/-- The inverse of the striped view, for a byte of a striped block of an enabled seam (R42). -/
def stripedAddr (s : State) (n off : Nat) : Nat :=
  let i := s.dramLayers.idxOf (n / 64)
  let j := s.stripedBlocks.idxOf (off / 0x4000000)
  let r := j * 16384 + off % 0x4000000 / 4096
  ((r * s.dramLayers.length + i) * 64 + n % 64) * 4096 + off % 4096

/-- The one DPA of a seam byte (R41). -/
def seamDpa (s : State) (n off : Nat) : Nat :=
  if bit (off / 0x4000000) s.chr.stripeMask then stripedAddr s n off else 0x6000000000 + n * 0x20000000 + off

/-- The decode of a DPA without permissions (R38 to R49): the byte, or the reason it is unmapped (0), of an absent unit
(2) or of the other view (1); and the window, numbered as the columns of Table 2-3. [DEDUCED: log entry 24] -/
def rawDecode (s : State) (dpa : Nat) : Option (Nat × Except Nat Loc) :=
  if dpa < 0x6000000000 then
    some (0, if s.stripedSize ≤ dpa then .error 0 else .ok (stripedLoc s dpa))
  else if dpa < 0xC000000000 then
    let n := dpa / 0x20000000 - 0x300
    let off := dpa % 0x20000000
    some (1, if !s.layerOn (n / 64) then .error 2 else if bit (off / 0x4000000) s.chr.stripeMask then .error 1
      else .ok (.seam n off))
  else if 0x10000000000 ≤ dpa ∧ dpa < 0x10040000000 then some (2, .ok (.bin (dpa % 0x40000000)))
  else if 0x18000000000 ≤ dpa ∧ dpa < 0x18020000000 then
    let h := dpa % 0x8000000000 / 0x200000
    let c := crewOf (h / 64) (h % 64)
    some (3, if !s.hewerLive c (roleOf (h % 64)) then .error 2 else .ok (.face c (roleOf (h % 64)) (dpa % 0x200000)))
  else if 0x20000000000 ≤ dpa ∧ dpa < 0x28000000000 then
    let a := dpa % 0x20000000000
    let p := s.stockStacks
    some (4, if p.length * 0x2000000000 ≤ a then .error 0
      else .ok (.stock (p.getD (a / 1024 % p.length) 0) (a / 1024 / p.length * 1024 + a % 1024)))
  else if 0xF0000000000 ≤ dpa ∧ dpa < 0xF0004000000 then some (5, .ok (.reg (dpa % 0x4000000)))
  else none

/-- A private bin range holds the DPA (R45). -/
def State.binPrivate (s : State) (dpa : Nat) : Bool :=
  s.chr.binPriv.any (fun p => decide (p.2.1 ≤ dpa) && decide (dpa < p.2.1 + p.2.2))

/-- Why Table 2-3 does not open the window to a requester: 4 field window closed, 3 requester not permitted; none when
it does (R45, R50). [DEDUCED: log entry 24] -/
def forbids (s : State) (r : Requester) (win dpa : Nat) : Option Nat :=
  let priv := s.binPrivate dpa
  match r, win with
  | .host _, 5 => some 3
  | .host _, 2 => if priv then some 3 else none
  | .host _, _ => none
  | .overseer _, _ => none
  | .foreman, _ => none
  | .crew _, 5 => some 3
  | .crew _, 2 => if priv then some 3 else none
  | .crew c, 3 =>
    let h := dpa % 0x8000000000 / 0x200000
    if crewOf (h / 64) (h % 64) = c then none else some 3
  | .crew _, _ => none
  | .face n, 1 => if dpa / 0x20000000 - 0x300 = n then none else some 3
  | .face _, _ => some 3
  | .mill _, 0 => none
  | .mill _, 1 => none
  | .mill _, 4 => none
  | .mill _, _ => some 3
  | .vein _, 3 => some 3
  | .vein _, 5 => some 3
  | .vein _, _ => none
  | .peer _ _, 0 => if s.chr.winSeams then none else some 4
  | .peer _ _, 1 => if s.chr.winSeams then none else some 4
  | .peer _ _, 2 => if !s.chr.winBin then some 4 else if priv then some 3 else none
  | .peer _ _, 4 => if s.chr.winStock then none else some 4
  | .peer _ _, _ => some 3

/-- The decode of a DPA for a requester, or the DENIED reason that comes first in R64's order. [DEDUCED: log entry 24] -/
def decodeDpa (s : State) (r : Requester) (dpa : Nat) : Except Nat Loc :=
  match rawDecode s dpa with
  | none => .error 0
  | some (win, l) =>
    match l with
    | .error 0 => .error 0
    | _ => match forbids s r win dpa with
      | some why => .error why
      | none => l

/-! ### Lines and the line code (R367 to R373) -/

/-- A line of a store: store kind (Table 18-8a), instance, line number within it. -/
structure LineId where
  kind : Nat
  inst : Nat
  line : Nat
deriving DecidableEq, Repr, Inhabited

/-- The line that holds a byte; the register space has none. A crew's stores follow one another in its instance's
numbering: face stores of roles 0 and 1, local store, tally memory. -/
def lineOf : Loc → LineId
  | .seam n off => ⟨0, n, off / 64⟩
  | .bin off => ⟨2, off / 0x1000000, off % 0x1000000 / 64⟩
  | .face c role off => ⟨3, c, 32768 * role + off / 64⟩
  | .stock p off => ⟨1, p, off / 64⟩
  | .reg off => ⟨6, 8, off / 64⟩

/-- A line of a dresser's local store. -/
def lsLine (c off : Nat) : LineId := ⟨3, c, 65536 + off / 64⟩
/-- A line of a tally's memory. -/
def tlyLine (c off : Nat) : LineId := ⟨3, c, 73728 + off / 64⟩
/-- A line of a face unit's local buffer. -/
def bufLine (n off : Nat) : LineId := ⟨4, n, off / 64⟩

/-- A field element times the primitive element 0x02; the field polynomial is x^8 + x^4 + x^3 + x^2 + 1 (R367). -/
def gfDouble (a : Nat) : Nat := if a < 128 then 2 * a else (2 * a).xor 0x11D

/-- The product of two elements of GF(2^8). -/
def gfMul (a b : Nat) : Nat :=
  (List.range 8).foldl (fun acc i => if bit i b then acc.xor (Nat.repeat gfDouble i a) else acc) 0

/-- A power of the primitive element. -/
def gfExp (n : Nat) : Nat := Nat.repeat gfDouble (n % 255) 1

/-- The inverse of an element: its 254th power. -/
def gfInv (a : Nat) : Nat := Nat.repeat (gfMul a) 254 1

/-- The generator's coefficients below its leading one, from that of x^7 to that of x^0 (R367). -/
def rsGen : List Nat :=
  ((List.range 8).foldl (fun g i => List.zipWith Nat.xor (g ++ [0]) (0 :: g.map (gfMul (gfExp i)))) [1]).drop 1

/-- The 8 check bytes of a line: the remainder of d(x)·x^8 modulo the generator (R367). -/
def rsCheck (data : List Byte) : List Byte :=
  (data.foldl (fun st d =>
    let f := d.toNat.xor (st.headD 0)
    List.zipWith Nat.xor (st.tail ++ [0]) (rsGen.map (gfMul f))) (List.replicate 8 0)).map (BitVec.ofNat 8)

/-- The 8 syndromes of a codeword of 72 bytes, whose byte `p` is the coefficient of x^(71−p) (R367, R368). -/
def rsSyndromes (cw : List Byte) : List Nat :=
  (List.range 8).map (fun i => cw.foldl (fun acc c => (gfMul acc (gfExp i)).xor c.toNat) 0)

/-- Errors of these values at these bytes give these syndromes. -/
def rsGives (syn : List Nat) (errs : List (Nat × Nat)) : Bool :=
  (List.range 8).all (fun i => syn.getD i 0 == errs.foldl (fun acc e => acc.xor (gfMul e.2 (gfExp (i * (71 - e.1))))) 0)

/-- The error in at most 2 bytes that a decoder locates: bytes and values (R368). -/
def rsLocate (syn : List Nat) : Option (List (Nat × Nat)) :=
  let s0 := syn.getD 0 0
  let s1 := syn.getD 1 0
  let one := (List.range 72).findSome? (fun p => if s0 ≠ 0 ∧ rsGives syn [(p, s0)] = true then some [(p, s0)] else none)
  one.or ((List.range 72).findSome? (fun p =>
    (List.range p).findSome? (fun q =>
      let a := gfExp (71 - p)
      let b := gfExp (71 - q)
      let v := gfMul (s1.xor (gfMul a s0)) (gfInv (a.xor b))
      let u := s0.xor v
      if u ≠ 0 ∧ v ≠ 0 ∧ rsGives syn [(p, u), (q, v)] = true then some [(p, u), (q, v)] else none)))

/-- The decoder's verdict (R368). -/
inductive Verdict where
  | clean | corrected | uncorrectable
deriving DecidableEq, Repr, Inhabited

/-- The bytes in error of a line, if any. [DESIGN CHOICE: log entry 22] -/
def State.lineErr (s : State) (l : LineId) : Option LineErr :=
  s.errs.find? (fun e => e.kind == l.kind && e.inst == l.inst && e.line == l.line)

/-- The codeword that a store holds for a line: its data and check bytes, with the bytes in error inverted (R367, R379).
[DESIGN CHOICE: log entry 22] -/
def codeword (data : List Byte) (bad : List Nat) : List Byte :=
  (data ++ rsCheck data).mapIdx (fun i b => if bad.contains i then ~~~b else b)

/-- A codeword decoded: the verdict, and the data delivered (R368). [DEDUCED: log entry 15] -/
def rsDecode (cw : List Byte) : Verdict × List Byte :=
  let syn := rsSyndromes cw
  if syn.all (· == 0) then (.clean, cw.take 64)
  else match rsLocate syn with
    | none => (.uncorrectable, cw.take 64)
    | some es => (.corrected, (cw.mapIdx (fun i b =>
        es.foldl (fun acc e => if e.1 = i then acc ^^^ BitVec.ofNat 8 e.2 else acc) b)).take 64)

/-- The verdict on a line that holds `data` (R368): up to two bytes in error are corrected, three to six are
uncorrectable, and for seven or more the codeword decides. [DEDUCED: log entry 15] -/
def State.verdict (s : State) (l : LineId) (data : List Byte) : Verdict :=
  match s.lineErr l with
  | none => .clean
  | some e =>
    if e.bytes.length = 0 then .clean
    else if e.bytes.length ≤ 2 then .corrected
    else if e.bytes.length ≤ 6 then .uncorrectable
    else (rsDecode (codeword data e.bytes)).1

/-- The data a line delivers: what was stored, but for an error pattern of seven or more bytes (R368). -/
def State.delivered (s : State) (l : LineId) (data : List Byte) : List Byte :=
  match s.lineErr l with
  | none => data
  | some e => if e.bytes.length ≤ 6 then data else (rsDecode (codeword data e.bytes)).2

/-- The errors of a line removed: a write carries fresh check bytes (R372). -/
def State.cleanLine (s : State) (l : LineId) : State :=
  { s with errs := s.errs.filter (fun e => !(e.kind == l.kind && e.inst == l.inst && e.line == l.line)) }

/-- The bucket of a store (Table 13-1): face-unit stores share their seam's bucket; the stores of kind 6 share one. -/
def bucketKey (kind inst : Nat) : Nat :=
  if kind = 4 then inst else if kind = 6 then 6 * 1024 else kind * 1024 + inst

/-- The source block of a store's events (Table 18-8a). -/
def storeBlk : Nat → Nat
  | 0 => 0x09 | 1 => 0x01 | 2 => 0x0B | 3 => 0x08 | 4 => 0x0A | 5 => 0x0D | _ => 0x01

/-- The source instance of a store's events (Table 18-8a). -/
def storeInst (kind inst : Nat) : Nat := if kind = 1 ∨ kind = 2 ∨ kind = 6 then 0 else inst

/-- The DPA of a line's first byte, or its byte offset in a store without DPA; and whether it is the offset form
(R523). -/
def lineDpa (s : State) (l : LineId) : Nat × Bool :=
  match l.kind with
  | 0 => (seamDpa s l.inst (64 * l.line), false)
  | 1 =>
    let p := s.stockStacks
    let i := p.idxOf l.inst
    let off := 64 * l.line
    (0x20000000000 + ((off / 1024 * p.length + i) * 1024 + off % 1024), false)
  | 2 => (0x10000000000 + 0x1000000 * l.inst + 64 * l.line, false)
  | 3 =>
    if l.line < 65536 then
      (0x18000000000 + faceSlot l.inst (l.line / 32768) * 0x200000 + 64 * (l.line % 32768), false)
    else if l.line < 73728 then (64 * (l.line - 65536), true)
    else (64 * (l.line - 73728), true)
  | _ => (64 * l.line, true)

/-- A corrected line counts in its bucket, which is logged and reset when it reaches ECC_THRESH (R371). -/
def bucketAdd (kind inst : Nat) (s : State) : State :=
  let k := bucketKey kind inst
  let b := s.bucket k
  let b' : Bucket := { level := b.level + 1, since := b.since + 1 }
  if s.chr.eccThresh ≤ b'.level then
    logEvent (storeBlk kind) (storeInst kind inst) 0x0301 [(0, 1, kind), (4, 4, inst), (8, 4, b'.since)]
      (s.setBucket k {})
  else s.setBucket k b'

/-- A line found corrected: counted, and its write-back becomes due (R370, R371, R389). -/
def noteCorrected (l : LineId) (s : State) : State :=
  let s := bucketAdd l.kind l.inst s
  let s := if l.kind = 0 then
      let x := s.seam l.inst
      s.setSeam l.inst { x with corrected := satInc 0xFFFF x.corrected }
    else s
  { s with errs := s.errs.map (fun e =>
      if e.kind == l.kind && e.inst == l.inst && e.line == l.line then { e with wb := true } else e) }

/-- A line found uncorrectable: counted, captured in SEAM_UE, and logged as ECC_UE or SCRUB_UE, at most 16 times a
second for a seam (R372, R373). -/
def noteUe (l : LineId) (scrub write : Bool) (s : State) : State :=
  let d := lineDpa s l
  let ev := logEvent (storeBlk l.kind) (storeInst l.kind l.inst) (if scrub then 0x0303 else 0x0302)
    [(0, 6, d.1), (6, 1, b2n write + 2 * b2n d.2), (7, 1, l.kind), (8, 4, l.inst)]
  if l.kind = 0 then
    let x := s.seam l.inst
    let x := { x with uncorr := satInc 0xFF x.uncorr }
    let x := if x.ueValid then x else { x with ueValid := true, ueLine := l.line, ueScrub := scrub, ueWrite := write }
    let sec := s.now / 1000000000
    let cnt := if x.ueSec = sec then x.ueLogged else 0
    let s := s.setSeam l.inst { x with ueSec := sec, ueLogged := if cnt < 16 then cnt + 1 else cnt }
    if cnt < 16 then ev s else s
  else ev s

/-- The effect of a read on the counts of its line (R370 to R373). -/
def noteRead (l : LineId) (v : Verdict) (scrub write : Bool) (s : State) : State :=
  match v with
  | .clean => s
  | .corrected => noteCorrected l s
  | .uncorrectable => noteUe l scrub write s

/-! ### Bytes of the stores -/

/-- The key of a byte in the memory that holds it. -/
def locKey : Loc → Nat
  | .seam n off => n * 0x20000000 + off
  | .bin off => off
  | .face c role off => (2 * c + role) * 0x200000 + off
  | .stock p off => p * 0x2000000000 + off
  | .reg off => off

/-- `n` stored bytes from a place on. -/
def State.peek (s : State) (l : Loc) (n : Nat) : List Byte :=
  match l with
  | .seam _ _ => s.seamMem.read (locKey l) n
  | .bin _ => s.binMem.read (locKey l) n
  | .face _ _ _ => s.storeMem.read (locKey l) n
  | .stock _ _ => s.stockMem.read (locKey l) n
  | .reg _ => List.replicate n 0

/-- Bytes stored from a place on. -/
def State.poke (s : State) (l : Loc) (bs : List Byte) : State :=
  match l with
  | .seam _ _ => { s with seamMem := s.seamMem.write (locKey l) bs }
  | .bin _ => { s with binMem := s.binMem.write (locKey l) bs }
  | .face _ _ _ => { s with storeMem := s.storeMem.write (locKey l) bs }
  | .stock _ _ => { s with stockMem := s.stockMem.write (locKey l) bs }
  | .reg _ => s

/-- A place moved forward within its store. -/
def Loc.add : Loc → Nat → Loc
  | .seam n off, k => .seam n (off + k)
  | .bin off, k => .bin (off + k)
  | .face c r off, k => .face c r (off + k)
  | .stock p off, k => .stock p (off + k)
  | .reg off, k => .reg (off + k)

/-- The offset of a place within its line. -/
def Loc.inLine : Loc → Nat
  | .seam _ off => off % 64
  | .bin off => off % 64
  | .face _ _ off => off % 64
  | .stock _ off => off % 64
  | .reg off => off % 64

/-- The first place of a place's line. -/
def Loc.lineStart : Loc → Loc
  | .seam n off => .seam n (off / 64 * 64)
  | .bin off => .bin (off / 64 * 64)
  | .face c r off => .face c r (off / 64 * 64)
  | .stock p off => .stock p (off / 64 * 64)
  | .reg off => .reg (off / 64 * 64)

/-- One line read under the line code (R368 to R373): its 64 bytes, or none when it is uncorrectable. -/
def readLine (l : Loc) (s : State) : State × Option (List Byte) :=
  let d := s.peek l.lineStart 64
  let v := s.verdict (lineOf l) d
  (noteRead (lineOf l) v false false s,
    if v = .uncorrectable then none else some (s.delivered (lineOf l) d))

/-- The bytes named by an armed SEAM_INJ (R379): names of 71 and below, each once. [DESIGN CHOICE: log entry 22] -/
def injBytes (inj : List Nat) : List Nat :=
  ((inj.take (inj.getD 3 0)).filter (· < 72)).eraseDups

/-- A whole line written with fresh check bytes (R372), and with an armed injection's bytes inverted (R379).
[DESIGN CHOICE: log entry 22] -/
def writeLine (l : Loc) (bs : List Byte) (s : State) : State :=
  let s := (s.cleanLine (lineOf l)).poke l.lineStart (bs.take 64)
  match l with
  | .seam n off =>
    let x := s.seam n
    if x.injArm then
      let s := s.setSeam n { x with injArm := false }
      let e := injBytes x.inj
      if e = [] then s else { s with errs := { kind := 0, inst := n, line := off / 64, bytes := e } :: s.errs }
    else s
  | _ => s

/-- A line with some bytes overlaid. -/
def overlay (line : List Byte) (ups : List (Nat × Byte)) : List Byte :=
  ups.foldl (fun acc u => listSet acc u.1 u.2) line

/-- A write that does not cover its line: the line is read, decoded, overlaid and written; an uncorrectable line stays
as it was and nothing is written (R374, R375). Answers whether it was performed. -/
def mergeWrite (l : Loc) (ups : List (Nat × Byte)) (s : State) : State × Bool :=
  let d := s.peek l.lineStart 64
  let v := s.verdict (lineOf l) d
  let s' := noteRead (lineOf l) v false true s
  if v = .uncorrectable then (s', false)
  else
    let s'' := (s'.cleanLine (lineOf l)).poke l.lineStart (overlay (s.delivered (lineOf l) d) ups)
    (s'', true)

end Sys2Proof.Machine
end

