-- ==== Sys2Proof/Machine/Operands.lean ====
section
/-! DEFINITION. The number formats of 03_arithmetic.md: the values of FP32, BF16, FP16, MX and code-table encodings, exact
values, IEEE 754 rounding, and the block conversion of R80. -/

namespace Sys2Proof.Machine

/-- The exact value of an encoding: NaN, an infinity, or `±m · 2^e` (a zero keeps its sign). -/
inductive Num where
  | nan
  | inf (neg : Bool)
  | fin (neg : Bool) (m : Nat) (e : Int)
deriving DecidableEq, Repr, Inhabited

/-- A finite value's signed mantissa. -/
def sgn (neg : Bool) (m : Nat) : Int := if neg then -(m : Int) else m

/-- The exact value of an integer times a power of two. -/
def Num.ofInt (v : Int) (e : Int) : Num := .fin (decide (v < 0)) v.natAbs e

/-- A value is finite and not zero. -/
def Num.live : Num → Bool
  | .fin _ m _ => m != 0
  | _ => false

/-- `floor(log2 |v|)` of a finite value other than zero. -/
def Num.log2 : Num → Int
  | .fin _ m e => (Nat.log2 m : Int) + e
  | _ => 0

/-- `a / 2^k`, rounded to nearest even. -/
def rneShift (a k : Nat) : Nat :=
  let q := a / 2 ^ k
  let r := a % 2 ^ k * 2
  if 2 ^ k < r ∨ (r = 2 ^ k ∧ q % 2 = 1) then q + 1 else q

/-- An integer divided by `2^k`, rounded to nearest even. -/
def rneInt (a : Int) (k : Nat) : Int := sgn (decide (a < 0)) (rneShift a.natAbs k)

/-- `m · 2^e` in whole units of `2^q`, rounded to nearest even. -/
def toUnits (m : Nat) (e q : Int) : Nat :=
  if q ≤ e then m * 2 ^ (e - q).toNat else rneShift m (q - e).toNat

/-! ### IEEE 754 formats (R77 to R79) -/

/-- A binary format: precision, exponent of its smallest unit, code of infinity, position of the sign, code of the NaN
the block produces. -/
structure FpFmt where
  p : Nat
  qmin : Int
  infCode : Nat
  signAt : Nat
  nanCode : Nat
deriving DecidableEq, Repr

/-- FP32. -/
def fp32 : FpFmt := ⟨24, -149, 0x7F800000, 31, 0x7FC00000⟩
/-- BF16. -/
def bf16 : FpFmt := ⟨8, -133, 0x7F80, 15, 0x7FC0⟩
/-- FP16. -/
def fp16 : FpFmt := ⟨11, -24, 0x7C00, 15, 0x7E00⟩

/-- A value rounded once to nearest even; overflow gives an infinity (R77 to R79). -/
def FpFmt.encode (f : FpFmt) : Num → Nat
  | .nan => f.nanCode
  | .inf n => b2n n * 2 ^ f.signAt + f.infCode
  | .fin n m e =>
    if m = 0 then b2n n * 2 ^ f.signAt
    else
      let q := max ((Nat.log2 m : Int) + e - (f.p - 1 : Nat)) f.qmin
      let c := (q - f.qmin).toNat * 2 ^ (f.p - 1) + toUnits m e q
      b2n n * 2 ^ f.signAt + (if f.infCode ≤ c then f.infCode else c)

/-- The value of a code. -/
def FpFmt.decode (f : FpFmt) (c : Nat) : Num :=
  let n := bit f.signAt c
  let a := c % 2 ^ f.signAt
  if f.infCode < a then .nan
  else if a = f.infCode then .inf n
  else
    let x := a / 2 ^ (f.p - 1)
    let m := a % 2 ^ (f.p - 1)
    if x = 0 then .fin n m f.qmin else .fin n (m + 2 ^ (f.p - 1)) (f.qmin + x - 1)

/-- The value of an FP32 word. -/
def numOfWord (w : Word) : Num := fp32.decode w.toNat
/-- A value as an FP32 word. -/
def wordOfNum (v : Num) : Word := BitVec.ofNat 32 (fp32.encode v)

/-- The exact sum of finite values, as an integer times `2^e`, `e` no larger than any of theirs. -/
def sumFin (l : List Num) : Int × Int :=
  let e := l.foldl (fun acc v => match v with | .fin _ _ x => min acc x | _ => acc)
    (match l with | .fin _ _ x :: _ => x | _ => 0)
  (l.foldl (fun acc v => match v with | .fin n m x => acc + sgn n (m * 2 ^ (x - e).toNat) | _ => acc) 0, e)

/-- The sum of values as IEEE 754 gives it before rounding: NaN wins, infinities of both signs give NaN (R78); a sum of
zeros is negative only when every term is a negative zero. -/
def Num.sum (l : List Num) : Num :=
  if l.any (fun v => v == .nan) then .nan
  else if l.contains (.inf true) && l.contains (.inf false) then .nan
  else if l.contains (.inf true) then .inf true
  else if l.contains (.inf false) then .inf false
  else
    let r := sumFin l
    if r.1 = 0 then
      .fin (!l.isEmpty && l.all (fun v => match v with | .fin n m _ => n && m == 0 | _ => false)) 0 0
    else .ofInt r.1 r.2

/-- The exact product; infinity times zero is NaN (R78). -/
def Num.mul : Num → Num → Num
  | .nan, _ => .nan
  | _, .nan => .nan
  | .inf a, .inf b => .inf (a != b)
  | .inf a, .fin b m _ => if m = 0 then .nan else .inf (a != b)
  | .fin a m _, .inf b => if m = 0 then .nan else .inf (a != b)
  | .fin a m x, .fin b k y => .fin (a != b) (m * k) (x + y)

/-- A value times a power of two. -/
def Num.scale : Num → Int → Num
  | .fin n m e, k => .fin n m (e + k)
  | v, _ => v

/-- The value with its sign reversed. -/
def Num.neg : Num → Num
  | .nan => .nan
  | .inf n => .inf (!n)
  | .fin n m e => .fin (!n) m e

/-- FP32 addition. -/
def fpAdd (a b : Word) : Word := wordOfNum (Num.sum [numOfWord a, numOfWord b])
/-- FP32 subtraction. -/
def fpSub (a b : Word) : Word := wordOfNum (Num.sum [numOfWord a, (numOfWord b).neg])
/-- FP32 multiplication. -/
def fpMul (a b : Word) : Word := wordOfNum ((numOfWord a).mul (numOfWord b))
/-- FP32 multiply-add, rounded once (Table 9-6). -/
def fpFma (a b c : Word) : Word := wordOfNum (Num.sum [(numOfWord a).mul (numOfWord b), numOfWord c])

/-- The largest `n`-bit number that satisfies a predicate that holds downwards, above a start. -/
def bisect (p : Nat → Bool) : Nat → Nat → Nat
  | 0, acc => acc
  | n + 1, acc => bisect p n (if p (acc + 2 ^ n) then acc + 2 ^ n else acc)

/-- FP32 reciprocal, correctly rounded (R260): a quotient of 64 bits with a sticky bit rounds as the exact one. -/
def fpRecip (a : Word) : Word :=
  wordOfNum (match numOfWord a with
    | .nan => .nan
    | .inf n => .fin n 0 0
    | .fin n m e =>
      if m = 0 then .inf n
      else .fin n (2 * (2 ^ 88 / m) + (if 2 ^ 88 % m = 0 then 0 else 1)) (-88 - e - 1))

/-- FP32 reciprocal square root, correctly rounded (R260). -/
def fpRsqrt (a : Word) : Word :=
  wordOfNum (match numOfWord a with
    | .nan => .nan
    | .inf n => if n then .nan else .fin false 0 0
    | .fin n m e =>
      if m = 0 then .inf n
      else if n then .nan
      else
        let k := if e % 2 = 0 then m else 2 * m
        let h := if e % 2 = 0 then e / 2 else (e - 1) / 2
        let y := bisect (fun y => decide (y * y * k ≤ 2 ^ 160)) 81 0
        .fin false (2 * y + (if y * y * k = 2 ^ 160 then 0 else 1)) (-80 - h - 1))

/-- Order of two values other than NaN: −0 lies below +0 when `zeros` is set (R260). -/
def Num.lt (zeros : Bool) (a b : Num) : Bool :=
  match a, b with
  | .nan, _ => false
  | _, .nan => false
  | .inf true, .inf true => false
  | .inf true, _ => true
  | _, .inf true => false
  | .inf false, _ => false
  | _, .inf false => true
  | .fin n m x, .fin k l y =>
    let d := sumFin [.fin n m x, .fin (!k) l y]
    if d.1 = 0 then zeros && decide (m = 0) && n && !k else decide (d.1 < 0)

/-! ### MX and code-table elements (R66 to R72) -/

/-- The bits of an element of a Table 4-7 format. -/
def elemBits : Nat → Nat
  | 0 => 8 | 1 => 8 | 2 => 6 | 3 => 6 | 4 => 4 | 5 => 8 | 6 => 4 | 7 => 3 | 8 => 16 | 9 => 16 | _ => 32

/-- Mantissa bits, bias, exponent of the largest normal value, largest finite code and sign position of an MX
floating-point format (Table 3-2). -/
def mxParams : Nat → Nat × Nat × Int × Nat × Nat
  | 0 => (3, 7, 8, 0x7E, 7)
  | 1 => (2, 15, 15, 0x7B, 7)
  | 2 => (2, 3, 4, 0x1F, 5)
  | 3 => (3, 1, 2, 0x1F, 5)
  | 4 => (1, 1, 2, 0x7, 3)
  | _ => (0, 0, 0, 127, 7)

/-- The value of an MX element (R67, R69). -/
def mxDecode (fmt c : Nat) : Num :=
  if fmt = 5 then .ofInt (sext 8 c) (-6)
  else
    let (mb, bias, _, _, sa) := mxParams fmt
    let n := bit sa c
    let a := c % 2 ^ sa
    if fmt = 0 ∧ a = 0x7F then .nan
    else if fmt = 1 ∧ 0x7C < a then .nan
    else if fmt = 1 ∧ a = 0x7C then .inf n
    else
      let x := a / 2 ^ mb
      let m := a % 2 ^ mb
      if x = 0 then .fin n m (1 - bias - mb) else .fin n (m + 2 ^ mb) ((x : Int) - bias - mb)

/-- A magnitude in units of `2^q`: to nearest even, or by the draw of R266. -/
def roundUnits (draw : Option Nat) (m : Nat) (e q : Int) : Nat :=
  match draw with
  | none => toUnits m e q
  | some x =>
    if q ≤ e then m * 2 ^ (e - q).toNat
    else
      let k := (q - e).toNat
      m / 2 ^ k + (if 2 ^ 32 ≤ m % 2 ^ k * 2 ^ 32 / 2 ^ k + x then 1 else 0)

/-- A quotient of R80 step 3 as an element code: rounded, and saturated at the largest finite value. -/
def mxEncode (fmt : Nat) (draw : Option Nat) (neg : Bool) (m : Nat) (e : Int) : Nat :=
  if fmt = 5 then
    let k := min (roundUnits draw m e (-6)) 127
    tc 8 (sgn neg k)
  else
    let (mb, bias, _, top, sa) := mxParams fmt
    let qmin : Int := 1 - bias - mb
    if m = 0 then b2n neg * 2 ^ sa
    else
      let q := max ((Nat.log2 m : Int) + e - mb) qmin
      b2n neg * 2 ^ sa + min ((q - qmin).toNat * 2 ^ mb + roundUnits draw m e q) top

/-- The block conversion of R80: scale byte and 32 codes; `draw i` is the draw of element `i` for stochastic rounding. -/
def mxQuantise (fmt : Nat) (draw : Nat → Option Nat) (vs : List Num) : Nat × List Nat :=
  if vs.any (fun v => match v with | .nan => true | .inf _ => true | _ => false) then (0xFF, vs.map (fun _ => 0))
  else if vs.all (fun v => !v.live) then (0, vs.map (fun _ => 0))
  else
    let top := (vs.filter Num.live).foldl (fun acc v => max acc v.log2) (-100000)
    let x := clampInt (-127) 127 (top - (mxParams fmt).2.2.1)
    ((x + 127).toNat, vs.mapIdx (fun i v => match v with
      | .fin n m e => mxEncode fmt (draw i) n m (e - x)
      | _ => 0))

/-- Elements of `w` bits packed as one little-endian bit stream (R71). -/
def packBits (w : Nat) (cs : List Nat) : List Byte :=
  leBytes (cs.length * w / 8) (cs.foldr (fun c acc => acc * 2 ^ w + c) 0)

/-- The `n` elements of `w` bits of a little-endian bit stream (R71). -/
def unpackBits (w n : Nat) (bs : List Byte) : List Nat :=
  let v := leNat bs
  (List.range n).map (fun i => v / 2 ^ (w * i) % 2 ^ w)

/-- The bytes of a block's 32 elements. -/
def blockBytes (fmt : Nat) : Nat := 4 * elemBits fmt

/-- The value of a format's element code, a code-table element through its table (R67 to R70). -/
def elemDecode (fmt : Nat) (table : List Byte) (c : Nat) : Num :=
  if fmt ≤ 5 then mxDecode fmt c
  else if fmt ≤ 7 then mxDecode 0 (table.getD c 0).toNat
  else if fmt = 8 then bf16.decode c
  else if fmt = 9 then fp16.decode c
  else fp32.decode c

/-- An E8M0 scale's exponent; 0xFF is NaN (R68). -/
def scaleExp (s : Nat) : Option Int := if s = 255 then none else some ((s : Int) - 127)

/-- The 32 values of a block: elements times the scale (R68, R70). -/
def blockValues (fmt : Nat) (table : List Byte) (scale : Nat) (bs : List Byte) : List Num :=
  let es := (unpackBits (elemBits fmt) 32 bs).map (elemDecode fmt table)
  if 8 ≤ fmt then es
  else match scaleExp scale with
    | none => es.map (fun _ => .nan)
    | some x => es.map (·.scale x)

/-- A code table is refused when an entry is an E4M3 NaN (R72). -/
def tableGood (t : List Byte) : Bool := !t.contains 0x7F && !t.contains 0xFF

/-- The contribution of a group of 32 element pairs, rounded once to FP32 (R76 steps 1 to 4); a sum of exactly zero is +0.
[DESIGN CHOICE: log entry 151] -/
def groupSum (a b : List Num) (sa sb : Option Int) : Word :=
  match sa, sb with
  | some x, some y =>
    wordOfNum (match Num.sum (List.zipWith Num.mul a b) with
      | .fin n m e => if m = 0 then .fin false 0 0 else .fin n m (e + x + y)
      | v => v)
  | _, _ => wordOfNum .nan

/-- FP32 values drained in a narrow format other than MX (R79). -/
def narrowCode (fmt : Nat) (w : Word) : Nat :=
  if fmt = 8 then bf16.encode (numOfWord w) else if fmt = 9 then fp16.encode (numOfWord w) else w.toNat

end Sys2Proof.Machine
end

