-- ==== Sys2Proof/Machine/Flags.lean ====
section
/-! DEFINITION. Block fixed point (R81 to R93, R140 to R142, R196): rows, their arithmetic, and the two flags every
operation computes, saturation (R85) and invalid (R86, R87, R91). -/

namespace Sys2Proof.Machine

/-- What an operation on a row gives: the row and the flags it sets. -/
structure RowRes where
  row : BRow
  sat : Bool := false
  inv : Bool := false
deriving DecidableEq, Repr, Inhabited

/-- The mantissa that stands for −∞ (R82). -/
def satMin : Int := -8388608
/-- The largest mantissa (R82). -/
def satMax : Int := 8388607

/-- A finite mantissa clamped, and whether it was (R83). -/
def clampM (v : Int) : Int × Bool :=
  if satMax < v then (satMax, true) else if v < -satMax then (-satMax, true) else (v, false)

/-- A row from lanes that each carry a clamp flag. -/
def mkRow (e : Nat) (l : List (Int × Bool)) : RowRes :=
  { row := { e := e, m := l.map (·.1) }, sat := l.any (·.2) }

/-- A mantissa shifted right by alignment (R83); SATMIN never changes (R82). -/
def alignM (d : Nat) (m : Int) : Int :=
  if m = satMin then m else if d = 0 then m else if 24 ≤ d then 0 else rneInt m d

/-- Two rows brought to the larger of their exponents (R83). -/
def alignRows (a b : BRow) : Nat × List Int × List Int :=
  let e := max a.e b.e
  (e, a.m.map (alignM (e - a.e)), b.m.map (alignM (e - b.e)))

/-- An operation on aligned lanes that clamps, with SATMIN from any SATMIN input (R82, R83). -/
def laneOp (f : Int → Int → Int) (x y : Int) : Int × Bool :=
  if x = satMin ∨ y = satMin then (satMin, false) else clampM (f x y)

/-- ADD (R83). -/
def bfxAdd (a b : BRow) : RowRes :=
  let (e, x, y) := alignRows a b
  mkRow e (List.zipWith (laneOp (· + ·)) x y)

/-- SUB (R83). -/
def bfxSub (a b : BRow) : RowRes :=
  let (e, x, y) := alignRows a b
  mkRow e (List.zipWith (laneOp (· - ·)) x y)

/-- R84 steps 4 and 5: an exponent outside 0 to 255 is brought back by shifting the lanes. -/
def fixExp (er : Int) (ms : List Int) : RowRes :=
  if 255 < er then
    mkRow 255 (ms.map (fun m => if m = satMin then (m, false) else clampM (m * 2 ^ (er - 255).toNat)))
  else if er < 0 then
    mkRow 0 (ms.map (fun m => if m = satMin then (m, false) else (rneInt m (-er).toNat, false)))
  else mkRow er.toNat (ms.map (fun m => (m, false)))

/-- MUL (R84). -/
def bfxMul (a b : BRow) : RowRes :=
  fixExp ((a.e : Int) + b.e - 127)
    (List.zipWith (fun x y => if x = satMin ∨ y = satMin then satMin else rneInt (x * y) 23) a.m b.m)

/-- MAD (R84): the product is aligned with the addend and added once. -/
def bfxMad (a b c : BRow) : RowRes :=
  let p := bfxMul a b
  let r := bfxAdd p.row c
  { r with sat := p.sat || r.sat }

/-- MAX (R82, R83): SATMIN lies below every other mantissa. -/
def bfxMax (a b : BRow) : RowRes :=
  let (e, x, y) := alignRows a b
  { row := { e := e, m := List.zipWith max x y } }

/-- MIN (R82, R83). -/
def bfxMin (a b : BRow) : RowRes :=
  let (e, x, y) := alignRows a b
  { row := { e := e, m := List.zipWith min x y } }

/-- A CMP condition (Table 5-3). -/
def cmpCond (sub : Nat) (x y : Int) : Bool :=
  match sub with
  | 0 => decide (y < x) | 1 => decide (y ≤ x) | 2 => decide (x = y) | _ => decide (x ≠ y)

/-- CMP (R142). -/
def bfxCmp (sub : Nat) (a b : BRow) : RowRes :=
  let (_, x, y) := alignRows a b
  { row := { e := 128, m := List.zipWith (fun p q => if cmpCond sub p q then 4194304 else 0) x y } }

/-- SEL (R142). -/
def bfxSel (a b c : BRow) : RowRes :=
  let (e, x, y) := alignRows a b
  { row := { e := e, m := List.zipWith (fun pq z => if z ≠ 0 then pq.1 else pq.2) (List.zip x y) c.m } }

/-- SHL (R142): SATMIN unchanged, clamped as R83. -/
def bfxShl (n : Nat) (a : BRow) : RowRes :=
  mkRow a.e (a.m.map (fun m => if m = satMin then (m, false) else clampM (m * 2 ^ n)))

/-- SHR (R142). -/
def bfxShr (n : Nat) (a : BRow) : RowRes :=
  { row := { a with m := a.m.map (fun m => if m = satMin then m else rneInt m n) } }

/-- The 24-bit pattern operations (R142): A's exponent, sign-extended results. -/
def bfxBit (f : Nat → Nat → Nat) (a b : BRow) : RowRes :=
  { row := { a with m := List.zipWith (fun x y => sext 24 (f (tc 24 x) (tc 24 y))) a.m b.m } }

/-- ALGN (R142). -/
def bfxAlgn (a b : BRow) : RowRes :=
  if a.e ≤ b.e then { row := { e := b.e, m := a.m.map (alignM (b.e - a.e)) } }
  else mkRow b.e (a.m.map (fun m => if m = satMin then (m, false) else clampM (m * 2 ^ (a.e - b.e))))

/-- EADD (R84). -/
def bfxEadd (d : Int) (a : BRow) : RowRes := fixExp ((a.e : Int) + d) a.m

/-- The largest magnitude among lanes that are not SATMIN. -/
def rowTop (ms : List Int) : Nat := (ms.filter (· ≠ satMin)).foldl (fun acc m => max acc m.natAbs) 0

/-- A lane shifted by `k` bits, right when positive. -/
def shiftLane (k : Int) (m : Int) : Int := if 0 ≤ k then rneInt m k.toNat else m * 2 ^ (-k).toNat

/-- Normalisation of exact lanes at an exponent that may lie outside 0 to 255 (R140, R141, R196); `keep` lanes are
SATMIN and stay. [DEDUCED: log entry 42] -/
def normLanes (h : Nat) (keep : Int → Bool) (e0 : Int) (ms : List Int) : RowRes :=
  let top := (ms.filter (fun m => !keep m)).foldl (fun acc m => max acc m.natAbs) 0
  if top = 0 then { row := { e := (clampInt 0 255 e0).toNat, m := ms } }
  else
    let s : Int := (Nat.log2 top + 1 : Nat) - (23 - h : Nat)
    let s := max s (-e0)
    let s := if 0 < s ∧ 2 ^ (23 - h) ≤ rneShift top s.toNat then s + 1 else s
    let s := min s (255 - e0)
    mkRow (e0 + s).toNat (ms.map (fun m => if keep m then (m, false) else clampM (shiftLane s m)))

/-- NORM (R140). [DEDUCED: log entry 42] -/
def bfxNorm (h : Nat) (a : BRow) : RowRes := normLanes h (· == satMin) a.e a.m

/-- RSUM (R141). -/
def bfxRsum (h : Nat) (a : BRow) : RowRes :=
  if a.m.contains satMin then { row := { a with m := a.m.map (fun _ => satMin) } }
  else
    let t := a.m.foldl (· + ·) 0
    normLanes h (fun _ => false) a.e (a.m.map (fun _ => t))

/-- RMAX (R141). -/
def bfxRmax (a : BRow) : RowRes :=
  let t := a.m.foldl max satMin
  { row := { a with m := a.m.map (fun _ => t) } }

/-- The rows of a tile brought to their largest exponent (R142, TRN). -/
def alignTile (t : List BRow) : Nat × List (List Int) :=
  let e := t.foldl (fun acc r => max acc r.e) 0
  (e, t.map (fun r => r.m.map (alignM (e - r.e))))

/-- TRN (R142). -/
def bfxTrn (t : List BRow) : List RowRes :=
  let (e, rows) := alignTile t
  (List.range 32).map (fun i => { row := { e := e, m := rows.map (fun r => r.getD i 0) } })

/-- INS (R196): one lane taken from `a` after alignment. -/
def bfxIns (lane : Nat) (d a : BRow) : RowRes :=
  let (e, x, y) := alignRows d a
  { row := { e := e, m := listSet x lane (y.getD lane 0) } }

/-! ### FX16 (R93) -/

/-- A BFX mantissa as an FX16 mantissa (R93). -/
def toFx16 (m : Int) : Int × Bool :=
  if m = satMin then (-32768, false)
  else
    let v := rneInt m 8
    if 32767 < v then (32767, true) else if v < -32767 then (-32767, true) else (v, false)

/-- An FX16 mantissa as a BFX mantissa (R93). -/
def ofFx16 (v : Int) : Int := v * 256

/-- DOT (R196), at FX16 precision when `nx` is set. -/
def bfxDot (h : Nat) (nx : Bool) (a b : BRow) : RowRes :=
  let e0 : Int := (a.e : Int) + b.e - 150
  let cut := fun m : Int => if nx then ((ofFx16 (toFx16 m).1), (toFx16 m).2) else (m, false)
  let x := a.m.map cut
  let y := b.m.map cut
  let sat := x.any (·.2) || y.any (·.2)
  if a.m.contains satMin || b.m.contains satMin then
    { row := { e := (clampInt 0 255 e0).toNat, m := a.m.map (fun _ => satMin) }, sat := sat }
  else
    let t := (List.zipWith (fun p q => p.1 * q.1) x y).foldl (· + ·) 0
    let r := normLanes h (fun _ => false) e0 (a.m.map (fun _ => t))
    { r with sat := r.sat || sat }

/-! ### Conversions (R86 to R89) -/

/-- A lane of step 3 and 5 of R86 at exponent `e`: mantissa, clamp or fixed saturation, invalid. -/
def packLane (e : Nat) : Num → Int × Bool × Bool
  | .nan => (0, false, true)
  | .inf n => (if n then satMin else satMax, true, false)
  | .fin n m x => (sgn n (toUnits m x ((e : Int) - 150)), false, false)

/-- Pack (R86): exact values to a row. -/
def bfxPack (vs : List Num) : RowRes :=
  let live := vs.filter Num.live
  let e0 : Int := if live = [] then 0 else max 0 (live.foldl (fun acc v => max acc v.log2) (-100000) + 128)
  let lanes := fun e => vs.map (packLane e)
  let big := fun e => (lanes e).any (fun l => !l.2.1 && decide (8388608 ≤ l.1.natAbs))
  let e : Nat := if 255 ≤ e0 then 255 else if big e0.toNat then e0.toNat + 1 else e0.toNat
  let ls := (lanes e).map (fun l => if l.2.1 then (l.1, true, l.2.2) else ((clampM l.1).1, (clampM l.1).2, l.2.2))
  { row := { e := e, m := ls.map (·.1) }, sat := ls.any (·.2.1), inv := ls.any (·.2.2) }

/-- The exact value of a lane; SATMIN is −∞ (R81, R82). -/
def laneNum (e : Nat) (m : Int) : Num := if m = satMin then .inf true else .ofInt m ((e : Int) - 150)

/-- Unpack (R88). -/
def bfxUnpack (a : BRow) : List Word := a.m.map (fun m => wordOfNum (laneNum a.e m))

/-- Pack to MX (R89). -/
def bfxToMx (fmt : Nat) (a : BRow) : Nat × List Nat := mxQuantise fmt (fun _ => none) (a.m.map (laneNum a.e))

/-- Load of an MX or code-table block (R87): a NaN scale gives zeros at E = 0 and sets invalid. -/
def bfxOfMx (fmt : Nat) (table : List Byte) (scale : Nat) (bs : List Byte) : RowRes :=
  if scale = 255 then { row := { e := 0, m := List.replicate 32 0 }, inv := true }
  else bfxPack (blockValues fmt table scale bs)

/-! ### Function tables (R90, R91) -/

/-- `2^(i/256)` in units of `2^-64`, truncated. -/
def tabExp2 (i : Nat) : Nat := bisect (fun y => decide (y ^ 256 ≤ 2 ^ (i + 16384))) 66 0

/-- The binary digits of `log2` of `u` in units of `2^-256`, `1 ≤ u < 2`: `n` digits after those in `acc`. -/
def log2Digits : Nat → Nat → Nat → Nat
  | 0, _, acc => acc
  | n + 1, u, acc =>
    let v := u * u / 2 ^ 256
    if 2 ^ 257 ≤ v then log2Digits n (v / 2) (2 * acc + 1) else log2Digits n v (2 * acc)

/-- `log2(1 + i/256)` in units of `2^-64`. -/
def tabLog2 (i : Nat) : Nat := if i = 256 then 2 ^ 64 else log2Digits 64 ((256 + i) * 2 ^ 248) 0

/-- `e^(-x)` in units of `2^-256` by its series from term `k`, `x` in units of `2^-256`. -/
def expSeries : Nat → Nat → Int → Int → Int
  | 0, _, _, _ => 0
  | n + 1, k, x, t => t + expSeries n (k + 1) x (-(t * x / 2 ^ 256 / (k + 1)))

/-- The series of the normal distribution without its factor, in units of `2^-256`: term `t` is `u^(2k+1) / (2^k k!)`
with its sign. -/
def phiSeries : Nat → Nat → Int → Int → Int
  | 0, _, _, _ => 0
  | n + 1, k, sq, t => t / (2 * k + 1 : Nat) + phiSeries n (k + 1) sq (-(t * sq / 2 ^ 256 / (2 * (k + 1) : Nat)))

/-- `1/√(2π)` in units of `2^-256`. -/
def invSqrt2Pi : Int := 46194360132781112550002021175736725500524138381534012844286371432913401257262

/-- A reduced function at the start of segment `i`, in units of `2^-64` (Table 3-5): 0 exp2, 1 log2, 2 reciprocal,
3 rsqrt, 4 sigmoid, 5 GELU-shape. -/
def tabValue (f i : Nat) : Nat :=
  match f with
  | 0 => tabExp2 i
  | 1 => tabLog2 i
  | 2 => 256 * 2 ^ 64 / (256 + i)
  | 3 =>
    if i < 128 then bisect (fun y => decide (y * y * (128 + i) ≤ 128 * 2 ^ 128)) 65 0
    else bisect (fun y => decide (y * y * i ≤ 64 * 2 ^ 128)) 65 0
  | 4 => 2 ^ 320 / (2 ^ 256 + (expSeries 160 0 (i * 2 ^ 252 : Nat) (2 ^ 256 : Nat)).toNat)
  | _ =>
    (2 ^ 63 + phiSeries 220 0 (i * i * 2 ^ 246 : Nat) (i * 2 ^ 251 : Nat) * invSqrt2Pi / 2 ^ 448).toNat

/-- The coefficient `c0` of a segment (R90). -/
def coef0 (f i : Nat) : Int := rneShift (tabValue f i) 41
/-- The coefficient `c1` of a segment (R90). -/
def coef1 (f i : Nat) : Int := rneInt ((tabValue f (i + 1) : Int) - tabValue f i) 41

/-- A position in the table: segment times `2^15` plus position within it, to `y` in units of `2^-23` (R90 step 2). -/
def fnEval (f pos : Nat) : Int := coef0 f (pos / 32768) + rneInt (coef1 f (pos / 32768) * (pos % 32768 : Nat)) 15

/-- A lane's function result: `y · 2^k`, or a fixed result. -/
inductive FnRes where
  | val (y : Int) (k : Int)
  | zero | satMin | top
deriving DecidableEq, Repr, Inhabited

/-- `floor(m · 2^k)`. -/
def floorShift (m : Int) (k : Int) : Int := if 0 ≤ k then m * 2 ^ k.toNat else m / 2 ^ (-k).toNat

/-- The function of a lane before alignment (R90 steps 1 to 3, R91): result, saturation, invalid. -/
def fnLane (f e : Nat) (m : Int) : FnRes × Bool × Bool :=
  let a := m.natAbs
  let lg := Nat.log2 a
  let frac := a * 2 ^ (23 - lg) - 8388608
  let lx : Int := (lg : Int) + e - 150
  match f with
  | 0 =>
    if m = Sys2Proof.Machine.satMin then (.zero, false, false)
    else
      let n := floorShift m ((e : Int) - 150)
      if n < -149 then (.zero, false, false)
      else if 127 < n then (.top, true, false)
      else (.val (fnEval 0 (floorShift m ((e : Int) - 127) - n * 8388608).toNat) (n - 23), false, false)
  | 1 =>
    if m = 0 then (.satMin, true, false)
    else if m < 0 then (.satMin, false, true)
    else (.val (lx * 8388608 + fnEval 1 frac) (-23), false, false)
  | 2 =>
    if m = 0 then (.top, true, false)
    else if m = Sys2Proof.Machine.satMin then (.zero, false, false)
    else (.val (sgn (decide (m < 0)) (fnEval 2 frac).toNat) (-lx - 23), false, false)
  | 3 =>
    if m = 0 then (.top, true, false)
    else if m < 0 then (.zero, false, true)
    else
      let odd := lx % 2 = 1
      (.val (fnEval 3 (if odd then 4194304 + frac / 2 else frac / 2)) (-(lx / 2) - 23), false, false)
  | 4 =>
    if m = Sys2Proof.Machine.satMin then (.zero, false, false)
    else
      let p := (floorShift a ((e : Int) - 131)).toNat
      if 8388608 ≤ p then (if 0 ≤ m then .val 8388608 (-23) else .zero, false, false)
      else (.val (if 0 ≤ m then fnEval 4 p else 8388608 - fnEval 4 p) (-23), false, false)
  | _ =>
    if m = Sys2Proof.Machine.satMin then (.zero, false, false)
    else
      let p := (floorShift a ((e : Int) - 130)).toNat
      if 8388608 ≤ p then (if 0 ≤ m then .val 8388608 (-23) else .zero, false, false)
      else (.val (if 0 ≤ m then fnEval 5 p else 8388608 - fnEval 5 p) (-23), false, false)

/-- A lane result as a mantissa at its own exponent: `y` as it stands at `E = k + 150`, one bit lower where it needs
more than 23 bits, within 0 to 255; none is a zero (R90 step 4). [DESIGN CHOICE: log entry 152] -/
def fnNormal (y k : Int) : Option (Int × Nat) × Bool :=
  if y = 0 then (none, false)
  else
    let s : Int := (Nat.log2 y.natAbs + 1 : Nat) - 23
    let s := max s 0
    let s := if 0 < s ∧ 8388608 ≤ rneShift y.natAbs s.toNat then s + 1 else s
    let s := max s (-(k + 150))
    let ex := k + 150 + s
    if 255 < ex then (some ((clampM (y * 2 ^ 64)).1, 255), true)
    else
      let m := rneInt y s.toNat
      (if m = 0 then none else some (m, ex.toNat), false)

/-- FN on a row (R90, R91): lanes aligned to the largest result exponent by R83. -/
def bfxFn (f : Nat) (a : BRow) : RowRes :=
  let ls := a.m.map (fun m =>
    let r := fnLane f a.e m
    match r.1 with
    | .val y k => let z := fnNormal y k; (z.1, false, r.2.1 || z.2, r.2.2)
    | .zero => (none, false, r.2.1, r.2.2)
    | .satMin => (none, true, r.2.1, r.2.2)
    | .top => (some (satMax, 255), false, r.2.1, r.2.2))
  let e := ls.foldl (fun acc l => match l.1 with | some (_, x) => max acc x | none => acc) 0
  { row := { e := e, m := ls.map (fun l => if l.2.1 then satMin else match l.1 with
      | some (m, x) => alignM (e - x) m
      | none => 0) },
    sat := ls.any (·.2.2.1), inv := ls.any (·.2.2.2) }

/-! ### Tiles -/

/-- A row operation over the rows of tiles, flags collected. -/
def tileRes (rs : List RowRes) : List BRow × Bool × Bool := (rs.map (·.row), rs.any (·.sat), rs.any (·.inv))

/-- A container of a lane (R81): the mantissa sign-extended to 32 bits. -/
def container (m : Int) : Word := BitVec.ofInt 32 m

/-- A lane from a container. [DEDUCED: log entries 38, 38] -/
def ofContainer (w : Word) : Int := sext 24 (w.toNat % 2 ^ 24)

/-! ### CRCs (R380, R384) -/

/-- One byte into a non-reflected CRC of width `n`. -/
def crcByte (n poly : Nat) (v : Nat) (b : Byte) : Nat :=
  (List.range 8).foldl (fun c _ => if bit (n - 1) c then ((2 * c) % 2 ^ n).xor poly else 2 * c % 2 ^ n)
    (v.xor (b.toNat * 2 ^ (n - 8)))

/-- One byte into a reflected CRC, `poly` reflected. -/
def crcByteR (poly : Nat) (v : Nat) (b : Byte) : Nat :=
  (List.range 8).foldl (fun c _ => if c % 2 = 1 then (c / 2).xor poly else c / 2) (v.xor b.toNat)

/-- CRC-32C (Castagnoli) of bytes, as the block keeps it (Table 13-4). -/
def crc32c (bs : List Byte) : Nat := (bs.foldl (crcByteR 0x82F63B78) 0xFFFFFFFF).xor 0xFFFFFFFF

end Sys2Proof.Machine
end

