-- ==== Sys2Proof/Machine/Cut.lean ====
section
/-! DEFINITION. Cuts: the descriptor's fields (Table 4-6), operand layout (R107 to R109), the blocks a cut reads and writes
(R104), the checks of R111, the schedule of R98 and R117, and the FP32 result (R76, R97). -/

namespace Sys2Proof.Machine

/-- Word `i` of a descriptor. -/
def wordAt (ws : List Word) (i : Nat) : Nat := (ws.getD i 0).toNat

/-- `op` (Table 4-6). -/
def Cut.op (c : Cut) : Nat := bits 3 0 (wordAt c.words 0)
/-- `broad`. -/
def Cut.broad (c : Cut) : Bool := bit 4 (wordAt c.words 0)
/-- `fmt_s`. -/
def Cut.fmtS (c : Cut) : Nat := bits 8 5 (wordAt c.words 0)
/-- `fmt_t`. -/
def Cut.fmtT (c : Cut) : Nat := bits 12 9 (wordAt c.words 0)
/-- `fmt_o`. -/
def Cut.fmtO (c : Cut) : Nat := bits 16 13 (wordAt c.words 0)
/-- The arrays of `amask`, ascending. -/
def Cut.arrays (c : Cut) : List Nat := (List.range 4).filter (fun a => bit (17 + a) (wordAt c.words 0))
/-- `to_skip`. -/
def Cut.toSkip (c : Cut) : Bool := bit 21 (wordAt c.words 0)
/-- `acc`. -/
def Cut.acc (c : Cut) : Bool := bit 22 (wordAt c.words 0)
/-- `csum`. -/
def Cut.csum (c : Cut) : Bool := bit 23 (wordAt c.words 0)
/-- `xbar_s`. -/
def Cut.xbarS (c : Cut) : Bool := bit 24 (wordAt c.words 0)
/-- `xbar_t`. -/
def Cut.xbarT (c : Cut) : Bool := bit 25 (wordAt c.words 0)
/-- `tbl_id`. -/
def Cut.tblId (c : Cut) : Nat := bits 31 26 (wordAt c.words 0)
/-- M, the rows of the cut. -/
def Cut.m (c : Cut) : Nat := bits 7 0 (wordAt c.words 1) + 1
/-- K/32. -/
def Cut.kb (c : Cut) : Nat := bits 13 8 (wordAt c.words 1) + 1
/-- `seq`. -/
def Cut.seq (c : Cut) : Nat := bits 31 16 (wordAt c.words 1)
/-- `s_base`. -/
def Cut.sBase (c : Cut) : Nat := bits 14 0 (wordAt c.words 2)
/-- `s_stride`. -/
def Cut.sStride (c : Cut) : Nat := bits 30 16 (wordAt c.words 2)
/-- `t_base`. -/
def Cut.tBase (c : Cut) : Nat := bits 14 0 (wordAt c.words 3)
/-- `t_stride`. -/
def Cut.tStride (c : Cut) : Nat := bits 26 16 (wordAt c.words 3)
/-- `o_base`. -/
def Cut.oBase (c : Cut) : Nat := bits 14 0 (wordAt c.words 4)
/-- `o_stride`. -/
def Cut.oStride (c : Cut) : Nat := bits 26 16 (wordAt c.words 4)
/-- `sq_tag`. -/
def Cut.sqTag (c : Cut) : Nat := bits 15 0 (wordAt c.words 5)
/-- Nw: output columns of one array (Table 4-2). -/
def Cut.nw (c : Cut) : Nat := if c.broad then 128 else 32
/-- N: output columns of the cut (R96). -/
def Cut.n (c : Cut) : Nat := c.arrays.length * c.nw
/-- A code-table stationary format. -/
def Cut.cb (c : Cut) : Bool := c.fmtS == 6 || c.fmtS == 7
/-- The stationary format is MX or code-table, so that slabs have a scale area (R107). -/
def Cut.scaled (c : Cut) : Bool := decide (c.fmtS ≤ 7)
/-- Lines of the scale area of a slab (R107). -/
def Cut.scaleLines (c : Cut) : Nat := if c.scaled then c.nw / 64 + (if c.broad then 0 else 1) else 0
/-- Slab size in lines (Table 4-5). -/
def Cut.slab (c : Cut) : Nat := c.scaleLines + (c.nw * blockBytes c.fmtS + 63) / 64
/-- Lines of one array's stationary operand (R107). -/
def Cut.sLines (c : Cut) : Nat := c.kb * c.slab
/-- Lines of a streaming row (R108). -/
def Cut.tLines (c : Cut) : Nat := (if c.fmtT ≤ 5 then 1 else 0) + (c.kb * blockBytes c.fmtT + 63) / 64
/-- Lines of an output row (R109). -/
def Cut.oLines (c : Cut) : Nat := (if c.fmtO ≤ 5 then 1 else 0) + (c.n / 32 * blockBytes c.fmtO + 63) / 64
/-- Skip-queue tiles of the cut (R111, R112). -/
def Cut.tiles (c : Cut) : Nat := c.arrays.length * (c.nw / 32) * ((c.m + 31) / 32)

/-- The 1 KiB blocks that a run of lines touches (R104). -/
def blocksOf (line n : Nat) : List Nat :=
  if n = 0 then [] else (List.range ((line + n - 1) / 16 + 1 - line / 16)).map (· + line / 16)

/-- Blocks of the stationary ranges. -/
def Cut.sBlocks (c : Cut) : List Nat := c.arrays.flatMap (fun a => blocksOf (c.sBase + a * c.sStride) c.sLines)
/-- Blocks of the streaming rows. -/
def Cut.tBlocks (c : Cut) : List Nat := (List.range c.m).flatMap (fun i => blocksOf (c.tBase + i * c.tStride) c.tLines)
/-- Blocks of the output rows; none for the skip queue. -/
def Cut.oBlocks (c : Cut) : List Nat :=
  if c.toSkip then [] else (List.range c.m).flatMap (fun i => blocksOf (c.oBase + i * c.oStride) c.oLines)

/-- The store blocks a cut that runs on the hewer of `role` reads: role of the store and block. -/
def Cut.reads (c : Cut) (role : Nat) : List (Nat × Nat) :=
  c.sBlocks.map (fun b => (if c.xbarS then 1 - role else role, b))
    ++ c.tBlocks.map (fun b => (if c.xbarT then 1 - role else role, b))
    ++ (if c.acc then c.oBlocks.map (fun b => (role, b)) else [])

/-- The store blocks a cut writes. -/
def Cut.writes (c : Cut) (role : Nat) : List (Nat × Nat) := c.oBlocks.map (fun b => (role, b))

/-- The lines of its operand ranges that a cut on the hewer of role `h` reads: store role and line (R47, R126). -/
def cutLines (k : Cut) (h : Nat) : List (Nat × Nat) :=
  k.arrays.flatMap (fun a => (List.range k.sLines).map (fun i =>
      (if k.xbarS then 1 - h else h, k.sBase + a * k.sStride + i)))
    ++ (List.range k.m).flatMap (fun i => (List.range k.tLines).map (fun j =>
      (if k.xbarT then 1 - h else h, k.tBase + i * k.tStride + j)))
    ++ (if k.acc then (List.range k.m).flatMap (fun i => (List.range k.oLines).map (fun j =>
      (h, k.oBase + i * k.oStride + j))) else [])

/-- The formats that may be stationary, streaming and output (Table 4-7), and the pairs of R73. -/
def Cut.formatsGood (c : Cut) : Bool :=
  decide (c.fmtS ≤ 9) && (decide (c.fmtT ≤ 5) || c.fmtT == 8 || c.fmtT == 9)
    && (decide (c.fmtO ≤ 5) || c.fmtO == 8 || c.fmtO == 9 || c.fmtO == 10)
    && (if c.fmtS ≤ 7 then decide (c.fmtT ≤ 5) else c.fmtT == c.fmtS)

/-- No reserved field is nonzero (Table 4-6). -/
def Cut.reservedZero (c : Cut) : Bool :=
  bits 15 14 (wordAt c.words 1) == 0 && !bit 15 (wordAt c.words 2) && !bit 31 (wordAt c.words 2)
    && !bit 15 (wordAt c.words 3) && bits 31 27 (wordAt c.words 3) == 0
    && !bit 15 (wordAt c.words 4) && bits 31 27 (wordAt c.words 4) == 0
    && bits 31 16 (wordAt c.words 5) == 0 && wordAt c.words 6 == 0 && wordAt c.words 7 == 0

/-- A cut meets none of the conditions of R111; `mate`: the crew-mate is present. -/
def Cut.good (c : Cut) (mate : Bool) : Bool :=
  (c.op == 1 || c.op == 2) && c.reservedZero && c.arrays != [] && c.formatsGood
    && (c.cb || c.tblId == 0)
    && (!c.toSkip || c.fmtO == 10) && (c.toSkip || c.sqTag == 0)
    && (!c.acc || (!c.toSkip && c.fmtO == 10))
    && (decide (c.arrays.length ≤ 1) || decide (c.sLines ≤ c.sStride))
    && (c.m == 1 || decide (c.tLines ≤ c.tStride))
    && (c.m == 1 || c.toSkip || decide (c.oLines ≤ c.oStride))
    && c.sBlocks.all (· < 2048) && c.tBlocks.all (· < 2048) && c.oBlocks.all (· < 2048)
    && (!c.toSkip || decide (c.tiles ≤ 16))
    && (mate || (!c.xbarS && !c.xbarT))

/-- Busy HCLK cycles of one array for the cut: a streaming row takes one cycle per tile step, four for BF16 and FP16
(R98, R117). -/
def Cut.arrayBusy (c : Cut) : Nat :=
  let t := if c.broad then 4 * c.kb else c.kb
  let t := if c.fmtS = 4 ∧ c.fmtT = 4 then (if c.broad then 2 * c.kb else (c.kb + 1) / 2) else t
  t * c.m * (if 8 ≤ c.fmtS then 4 else 1)

/-- The busy cycles of the four arrays summed (R28). -/
def Cut.busySum (c : Cut) : Nat := c.arrays.length * c.arrayBusy

/-- The busy cycles R29 counts: the sum over four, rounded up (R98). -/
def Cut.busyCycles (c : Cut) : Nat := (c.busySum + 3) / 4

/-- The stationary block of array `a`, group `j`, column `n`: scale byte and element bytes (R107). -/
def Cut.sBlock (c : Cut) (rd : Nat → Nat → List Byte) (a j n : Nat) : Nat × List Byte :=
  let base := 64 * (c.sBase + a * c.sStride + j * c.slab)
  let sc := if c.scaled then leNat (rd (base + n) 1) else 127
  (sc, rd (base + 64 * c.scaleLines + n * blockBytes c.fmtS) (blockBytes c.fmtS))

/-- The streaming block of row `i`, group `j` (R108). -/
def Cut.tBlock (c : Cut) (rd : Nat → Nat → List Byte) (i j : Nat) : Nat × List Byte :=
  let base := 64 * (c.tBase + i * c.tStride)
  if c.fmtT ≤ 5 then (leNat (rd (base + j) 1), rd (base + 64 + j * blockBytes c.fmtT) (blockBytes c.fmtT))
  else (127, rd (base + j * blockBytes c.fmtT) (blockBytes c.fmtT))

/-- The elements of a block without its scale, and the scale's exponent. -/
def unscaled (fmt : Nat) (tab : List Byte) (b : Nat × List Byte) : List Num × Option Int :=
  ((unpackBits (elemBits fmt) 32 b.2).map (elemDecode fmt tab), if 8 ≤ fmt then some 0 else scaleExp b.1)

/-- One accumulator: groups added in ascending K order to its start (R76, R77). -/
def Cut.element (c : Cut) (rdS rdT : Nat → Nat → List Byte) (tab : List Byte) (start : Word) (i a n : Nat) : Word :=
  (List.range c.kb).foldl (fun acc j =>
    let x := unscaled c.fmtS tab (c.sBlock rdS a j n)
    let y := unscaled c.fmtT [] (c.tBlock rdT i j)
    fpAdd acc (groupSum x.1 y.1 x.2 y.2)) start

/-- The result, row by row: array ranks give the column blocks (R96). `rdS`, `rdT` and `rdO` read the stores.
[DESIGN CHOICE: log entry 36] -/
def Cut.compute (c : Cut) (rdS rdT rdO : Nat → Nat → List Byte) (tabs : Tbl (List Byte)) : List (List Word) :=
  (List.range c.m).map (fun i =>
    c.arrays.zipIdx.flatMap (fun ar =>
      (List.range c.nw).map (fun n =>
        let start : Word := if c.acc then
            BitVec.ofNat 32 (leNat (rdO (64 * (c.oBase + i * c.oStride) + 4 * (ar.2 * c.nw + n)) 4))
          else 0
        c.element rdS rdT (Tbl.look [] tabs ar.1) start i ar.1 n)))

/-- Bytes filled to a whole line. [DESIGN CHOICE: log entry 14] -/
def padLine (bs : List Byte) : List Byte :=
  bs ++ ((List.range 64).drop (64 - (64 - bs.length % 64) % 64)).map Config.padByte

/-- The bytes of an output row in the cut's output format (R79, R109). -/
def Cut.outRow (c : Cut) (row : List Word) : List Byte :=
  if c.fmtO ≤ 5 then
    let blocks := (List.range (c.n / 32)).map (fun j =>
      mxQuantise c.fmtO (fun _ => none) (((row.drop (32 * j)).take 32).map numOfWord))
    let scales := blocks.map (fun b => BitVec.ofNat 8 b.1)
    let els := blocks.flatMap (fun b => packBits (elemBits c.fmtO) b.2)
    padLine scales ++ padLine els
  else row.flatMap (fun w => leBytes (elemBits c.fmtO / 8) (narrowCode c.fmtO w))

/-- A tile of the result for the skip queue: tile `k` in ascending row-block then column order, and its valid rows; rows
beyond M hold +0.0 (R112). [DESIGN CHOICE: log entry 36] -/
def Cut.tile (c : Cut) (res : List (List Word)) (k : Nat) : List (List Word) × Nat :=
  let per := c.n / 32
  let r0 := k / per * 32
  let c0 := k % per * 32
  ((List.range 32).map (fun i => (List.range 32).map (fun j => (res.getD (r0 + i) []).getD (c0 + j) 0)),
    min 32 (c.m - r0))

end Sys2Proof.Machine
end

