-- ==== Sys2Proof/Machine/Landing.lean ====
section
/-! DEFINITION. The Mill's landing ranges: gradient lines that a write to the stockpile delivers to an engine (R252, R253,
R255, R258). -/

namespace Sys2Proof.Machine

/-- The landing buffer of an engine in bytes (Table 9-1). -/
def landingSize : Nat := 0x400000

/-- A range holds a byte. -/
def Range.has (g : Range) (dpa : Nat) : Bool := decide (g.base ≤ dpa) && decide (dpa < g.base + g.blocks * 0x4000)

/-- The range of any engine that a write of a requester other than the Mill falls into, ARMED or DISCARD (R252, R258).
[DEDUCED: log entry 53] -/
def landingOf (s : State) (r : Requester) (dpa : Nat) : Option (Nat × Range) :=
  match r with
  | .mill _ => none
  | _ =>
    (List.range 4).findSome? (fun e => ((s.eng e).ranges.find? (fun g => g.has dpa)).map (fun g => (e, g)))

/-- A narrower write falls into an ARMED range (R252). -/
def armedAt (s : State) (r : Requester) (dpa : Nat) : Bool :=
  match landingOf s r dpa with
  | some (_, g) => g.armed
  | none => false

/-- The block index at a position of the shard's order list: the list's entry, or the position itself (R250). -/
def orderAt (s : State) (sh : Shard) (i : Nat) : Nat :=
  let o := (sh.words.getD 12 0).toNat + 2 ^ 32 * (sh.words.getD 13 0).toNat
  if o = 0 then i
  else match rawDecode s (o + 4 * i) with
    | some (_, .ok l) => leNat (s.peek l 4)
    | _ => i

/-- The next two blocks of the running shard's list order (R253). -/
def nextBlocks (s : State) (e : Nat) : List Nat :=
  let x := s.eng e
  match x.cur with
  | none => []
  | some sh =>
    let p := match x.block, x.ahead with
      | some b, rest => if b.stage = 0 then b.pos else (rest.map (·.pos)).headD sh.seen.length
      | none, rest => (rest.map (·.pos)).headD sh.seen.length
    [orderAt s sh p, orderAt s sh (p + 1)]

/-- The buffer admits a line of block `b` of shard `id`, `more` lines having come before it (R253). -/
def admits (s : State) (e id b more : Nat) : Bool :=
  let x := s.eng e
  ((x.cur.any (fun sh => sh.id == id)) && (nextBlocks s e).contains b)
    || decide (64 * (x.landed.length + more + 1) + 0x8000 ≤ landingSize)

/-- The journal line of a block of the running shard says Half or Done at its step (R247, R255). -/
def journalLate (s : State) (sh : Shard) (b : Nat) : Bool :=
  let j := (sh.words.getD 10 0).toNat + 2 ^ 32 * (sh.words.getD 11 0).toNat
  match rawDecode s (j + 64 * b) with
  | some (_, .ok l) => leAt (s.peek l 4) 0 4 == (sh.words.getD 1 0).toNat
  | _ => false

/-- The line of the landing buffer that holds line `j` of a shard. [DEDUCED: log entry 54] -/
def landingLine (e j : Nat) : LineId := ⟨5, e, j % 65536⟩

/-- A line has its place in the landing buffer, or is discarded as late or as a duplicate (R253, R255).
[DEDUCED: log entry 53] -/
def landTake (e : Nat) (g : Range) (j : Nat) (bs : List Byte) (s : State) : State :=
  let x := s.eng e
  let b := j / 256
  if !g.armed || x.cur.any (fun sh => sh.id == g.shard && journalLate s sh b) then
    s.setEng e { x with late := satInc 0xFFFF x.late }
  else if x.landed.any (fun l => l.1 == g.shard && l.2.1 == j) then
    let bump := fun sh : Shard => if sh.id = g.shard then { sh with dup := satInc 0xFFFF sh.dup } else sh
    s.setEng e { x with dup := satInc 0xFFFF x.dup, dups := setAddPair x.dups (g.shard, b)
                        cur := x.cur.map bump, queue := x.queue.map bump }
  else (s.setEng e { x with landed := x.landed ++ [(g.shard, j, bs)] }).cleanLine (landingLine e j)
where
  /-- A pair added to a list used as a set. -/
  setAddPair (l : List (Nat × Nat)) (p : Nat × Nat) : List (Nat × Nat) := if l.contains p then l else l ++ [p]

/-- A gradient line arrives: taken, or held back while the buffer has no room for it (R253). -/
def landLine (r : Requester) (e : Nat) (g : Range) (dpa : Nat) (bs : List Byte) (s : State) : State :=
  let j := (dpa - g.base) / 64
  if !g.armed || admits s e g.shard (j / 256) 0 then landTake e g j bs s
  else
    let x := s.eng e
    s.setEng e { x with held := x.held ++ [(g.shard, j, bs, r)] }

/-- Every line of a write of `n` lines at `dpa` would be admitted (R253). [DESIGN CHOICE: log entry 130] -/
def landRoom (s : State) (r : Requester) (dpa n : Nat) : Bool :=
  (List.range n).all (fun i =>
    match landingOf s r (dpa + 64 * i) with
    | some (e, g) => !g.armed || admits s e g.shard ((dpa + 64 * i - g.base) / 64 / 256) i
    | none => true)

/-- A line of the requester is held back (R253). [DESIGN CHOICE: log entry 130] -/
def heldBack (s : State) (r : Requester) : Bool := (List.range 4).any (fun e => (s.eng e).held.any (fun h => h.2.2.2 == r))

end Sys2Proof.Machine
end

