-- ==== Sys2Proof/Machine/Access.lean ====
section
/-! DEFINITION. Accesses of requesters to lines and spans of device physical addresses: denied and recorded, held, aborted, or
performed under the line code (R39, R50, R57, R58, R106, R372, R374, R455). -/

namespace Sys2Proof.Machine

/-! ### The tally's traps (R159, R169, R177) -/

/-- The bin slice begins to poison the crew's send table (R169). [DEDUCED: log entry 29] -/
def poisonStart (c : Nat) (s : State) : State :=
  if (s.crew c).poisonAt.isSome then s else s.setCrew c { s.crew c with poisonAt := some 0 }

/-- The program traps: STOPPED with its cause, and its send table is poisoned (R159, R169, R177). -/
def tallyTrap (c cause : Nat) (tval : Dword) (s : State) : State :=
  poisonStart c (s.setCrew c { s.crew c with
    state := 5, trap := true, cause := cause % 16, mcause := cause, mtval := tval, wait := .none, user := false })

/-! ### Merges of narrow writes to seams (R206, R374, R375) -/

/-- The merge entries of a column's host share (Table 7-7). -/
def State.hostShare (s : State) : Nat := if !s.chr.narrowHost then 0 else if s.chr.narrowFace then 32 else 64

/-- The merge entries of a column's face share (Table 7-7). -/
def State.faceShare (s : State) : Nat := if !s.chr.narrowFace then 0 else if s.chr.narrowHost then 32 else 64

/-- A tally that waits for its narrow store goes on, or raises an access fault when the store failed (R158, R374). -/
def mergeWake (ok : Bool) (r : Requester) (s : State) : State :=
  match r with
  | .crew c => match (s.crew c).wait with
    | .merge a => if ok then s.setCrew c { s.crew c with wait := .none } else tallyTrap c 7 a s
    | _ => s
  | _ => s

/-- A waiting narrow write has its entry: the write of an Overseer or the Foreman that has all its entries is answered (R374). -/
def entryTaken (s : State) (r : Requester) : State :=
  match s.mergeAns.findIdx? (fun a => a.1 == r) with
  | none => s
  | some i =>
    let a := s.mergeAns.getD i default
    if a.2.1 ≤ 1 then { s with mergeAns := listDel s.mergeAns i, out := .answer r a.2.2 [] :: s.out }
    else { s with mergeAns := listSet s.mergeAns i (r, a.2.1 - 1, a.2.2) }

/-- Narrow parts of a requester's writes that wait for merge entries. -/
def waitingParts (s : State) (r : Requester) : Nat :=
  s.merges.foldl (fun n c => n + (c.2.hostWait.filter (fun m => m.reqs.contains r)).length) 0

/-- A line of a seam whose contents are undefined holds free bytes (R204). [DESIGN CHOICE: log entry 140] -/
def freeLine (n line : Nat) (s : State) : State :=
  { s.poke (.seam n (64 * line)) ((List.range 64).map (fun i => BitVec.ofNat 8 (Config.freeValue (s.free + i)))) with
    free := s.free + 64 }

/-- A write of another requester to a line of a seam whose face unit has programs queued or running: the results of a program
that reaches the line, and the line, are undefined (R204). [DESIGN CHOICE: log entry 140] -/
def taintFace (n line : Nat) (s : State) : State :=
  let x := s.face n
  if x.cur = none ∧ x.queue = [] then s
  else
    let s := s.setFace n { x with foreign := setAdd line x.foreign, tainted := x.tainted || x.touched.contains line }
    if x.touched.contains line then freeLine n line s else s

/-- A merge is done: its line is read, overlaid and written, or left as it is when it is uncorrectable (R374, R375). -/
def doMerge (m : Merge) (s : State) : State × Bool :=
  let r := mergeWrite (.seam m.seam (64 * m.line)) m.bytes s
  (m.reqs.foldl (fun s q => mergeWake r.2 q s) (if r.2 then taintFace m.seam m.line r.1 else r.1), r.2)

/-- A narrow write to a seam joins the entry of its line, takes an entry of the host share, or waits for one (R374). -/
def hostMerge (m : Merge) (s : State) : State :=
  let x := s.mergeCol (m.seam % 64)
  match x.host.findIdx? (fun k => k.seam == m.seam && k.line == m.line) with
  | some i =>
    let k := x.host.getD i default
    s.setMergeCol (m.seam % 64)
      { x with host := listSet x.host i { k with bytes := k.bytes ++ m.bytes, reqs := k.reqs ++ m.reqs } }
  | none =>
    if x.host.length < s.hostShare then s.setMergeCol (m.seam % 64) { x with host := x.host ++ [m] }
    else s.setMergeCol (m.seam % 64) { x with hostWait := x.hostWait ++ [m] }

/-- The oldest waiting narrow writes of a column take the entries that are free (R374); `n` bounds them. -/
def hostRefill (col : Nat) : Nat → State → State
  | 0, s => s
  | n + 1, s =>
    let x := s.mergeCol col
    match x.hostWait with
    | [] => s
    | m :: rest =>
      if x.host.length < s.hostShare then
        hostRefill col n (m.reqs.foldl entryTaken (hostMerge m (s.setMergeCol col { x with hostWait := rest })))
      else s

/-- The merges of the host share that hold or wait for a line are done before a later access of the line (R59). -/
def drainLine (n line : Nat) (s : State) : State :=
  let x := s.mergeCol (n % 64)
  let here := fun m : Merge => m.seam == n && m.line == line
  let ms := x.host.filter here ++ x.hostWait.filter here
  if ms = [] then s
  else
    let s := s.setMergeCol (n % 64)
      { x with host := x.host.filter (fun m => !here m), hostWait := x.hostWait.filter (fun m => !here m) }
    let s := (x.hostWait.filter here).foldl (fun s m => m.reqs.foldl entryTaken s) s
    hostRefill (n % 64) 64 (ms.foldl (fun s m => (doMerge m s).1) s)

/-- What an access of one line answers. -/
inductive Acc where
  | data (bs : List Byte)
  | bad (st : Status)
  | held
deriving DecidableEq, Repr, Inhabited

/-! ### The seam's two ports (R53 to R56) -/

/-- The bank of a seam's line: 32 banks, four to a bank group (R53). [DESIGN CHOICE: log entry 13] -/
def bankAt (line : Nat) : Nat := Config.bankOf line % 32

/-- The banks that the granted strokes of a seam hold (R56). -/
def banksHeld (s : State) (n : Nat) : List Nat :=
  ((s.face n).strokes.filter (·.granted)).flatMap (fun k => (List.range k.lines).map (fun i => bankAt (k.line + i)))

/-- A waiting request can be granted: none of its banks is held, its hewer's shaft is open and not idle, and no earlier
stroke of the face unit is open (R23, R56, R198, R201). [DEDUCED: log entry 45] -/
def grantable (s : State) (n : Nat) (q : SeamReq) : Bool :=
  !(s.seam n).selfRefresh
    && (List.range q.lines).all (fun i => !(banksHeld s n).contains (bankAt (q.first + i)))
    && (if q.shaft then s.crewRuns q.crew && s.hewerLive q.crew (roleOf (n % 64))
        else match (s.face n).strokes with | k :: _ => !k.granted && k.line == q.first | [] => false)

/-- The oldest request of a port that can be granted: its place in the queue and itself. -/
def oldestOf (s : State) (n : Nat) (shaft : Bool) : Option (Nat × SeamReq) :=
  match (s.seam n).queue.findIdx? (fun q => q.shaft == shaft && grantable s n q) with
  | some i => (s.seam n).queue[i]?.map (fun q => (i, q))
  | none => none

/-- The shaft port wins under the arbitration mode (R54). -/
def shaftWins (s : State) (n : Nat) : Bool :=
  match s.chr.seamArb with
  | 0 => true
  | 1 => false
  | _ => !(s.seam n).lastShaft

/-- When the access that is being performed reached its port (R55). -/
def State.since (s : State) : Nat := s.reqAt.getD s.now

/-- A request that arrived at `a` has waited 1 µs and one of the other port that arrived at `b` is newer (R55).
[DEDUCED: log entry 46] -/
def waitedLong (s : State) (a b : Nat) : Bool := decide (a + 1000 ≤ s.now) && decide (a < b)

/-- An access at a seam's face port waits: a stroke holds the line's bank, or the shaft port's request wins under the mode
or the guard (R54 to R56). [DEDUCED: log entry 139] -/
def portHeld (s : State) (n line : Nat) : Bool :=
  (banksHeld s n).contains (bankAt line)
    || match oldestOf s n true with
      | none => false
      | some (_, q) => waitedLong s q.at_ s.since || (shaftWins s n && !waitedLong s s.since q.at_)

/-- A place whose face port is busy (R54 to R56). -/
def portBusy (s : State) : Loc → Bool
  | .seam n off => portHeld s n (off / 64)
  | _ => false

/-- An access at a seam's face port is performed: the port has had its turn, and a grant under the guard counts (R54, R55). -/
def portTake (l : Loc) (s : State) : State :=
  match l with
  | .seam n _ =>
    let x := s.seam n
    match oldestOf s n true with
    | none => if x.lastShaft then s.setSeam n { x with lastShaft := false } else s
    | some (_, q) => s.setSeam n { x with
        lastShaft := false, guard := if shaftWins s n && waitedLong s s.since q.at_ then satInc 0xFFFF x.guard else x.guard }
  | _ => s

/-- A place whose requests wait: a seam or the stockpile in self-refresh (R57, R433), a face store of a parked gallery
(R106). [DEDUCED: log entry 25] -/
def lineHeld (s : State) : Loc → Bool
  | .seam n _ => (s.seam n).selfRefresh
  | .stock _ _ => s.brg.stockSelf && !s.brg.stockReset
  | .face c _ _ => (s.gal (galOf c)).parked
  | _ => false

/-- A place in a partition in reset (R455). -/
def lineAborted (s : State) : Loc → Bool
  | .stock _ _ => s.brg.stockReset
  | _ => false

/-- The cuts issued on a hewer that read a line of a store of the crew lose their output (R47). -/
def taintHewer (c h role line : Nat) (s : State) : State :=
  let x := s.hewer c h
  s.setHewer c h { x with issued := x.issued.map (fun k =>
    if k.phase < 2 && (cutLines k.cut h).contains (role, line) then { k with tainted := true } else k) }

/-- A write of another requester: the output of an issued cut that reads the face-store line is undefined (R47), and so are the
results of a face program that reaches the seam line (R204). -/
def taint (l : Loc) (s : State) : State :=
  match l with
  | .seam n off => taintFace n (off / 64) s
  | .face c role off => taintHewer c 1 role (off / 64) (taintHewer c 0 role (off / 64) s)
  | _ => s

/-- A whole line read for a requester; `first`: the first line of an access, whose denial is recorded. -/
def lineGet (r : Requester) (dpa : Nat) (first : Bool) (s : State) : State × Acc :=
  match decodeDpa s r dpa with
  | .error why => (if first then recordDeny r dpa false why s else s, .bad .denied)
  | .ok l =>
    if lineHeld s l then (s, .held)
    else if lineAborted s l then (s, .bad .abortedByReset)
    else
      let s := match l with | .seam n off => drainLine n (off / 64) s | _ => s
      let r := readLine l s
      (r.1, match r.2 with | some bs => .data bs | none => .bad .uncorrectable)

/-- A whole line written for a requester. -/
def linePut (r : Requester) (dpa : Nat) (bs : List Byte) (first : Bool) (s : State) : State × Acc :=
  match decodeDpa s r dpa with
  | .error why => (if first then recordDeny r dpa true why s else s, .bad .denied)
  | .ok l =>
    if lineHeld s l then (s, .held)
    else if lineAborted s l then (s, .bad .abortedByReset)
    else
      match landingOf s r dpa with
      | some (e, g) => (landLine r e g dpa bs s, .data [])
      | none =>
        let s := match l with | .seam n off => drainLine n (off / 64) s | _ => s
        (taint l (writeLine l bs s), .data [])

/-- Some bytes of one line written (R374): a seam's controller merges them through the host share; the bin, the face
stores and the stockpile merge in their own controllers. -/
def partPut (r : Requester) (dpa : Nat) (bs : List Byte) (first : Bool) (s : State) : State × Acc :=
  match decodeDpa s r dpa with
  | .error why => (if first then recordDeny r dpa true why s else s, .bad .denied)
  | .ok l =>
    if lineHeld s l then (s, .held)
    else if lineAborted s l then (s, .bad .abortedByReset)
    else
      let ups := bs.mapIdx (fun i b => (l.inLine + i, b))
      match l with
      | .seam n off =>
        if s.hostShare = 0 then (if first then recordDeny r dpa true 3 s else s, .bad .denied)
        else (hostMerge { seam := n, line := off / 64, bytes := ups, face := none, reqs := [r] } s, .data [])
      | _ =>
        if armedAt s r dpa then (if first then recordDeny r dpa true 3 s else s, .bad .denied)
        else
          let m := mergeWrite l ups s
          (taint l m.1, if m.2 then .data [] else .bad .uncorrectable)

/-- An access cut at every multiple of `unit`: address and length of each part; `fuel` bounds the parts. -/
def spans (unit : Nat) : Nat → Nat → Nat → List (Nat × Nat)
  | 0, _, _ => []
  | fuel + 1, a, n =>
    if n = 0 then [] else
      let k := min n (unit - a % unit)
      (a, k) :: spans unit fuel (a + k) (n - k)

/-- The parts of an access at the lines it touches. -/
def lineSpans (dpa n : Nat) : List (Nat × Nat) := spans 64 (n / 64 + 2) dpa n

/-- Some line of an access waits: its store takes no access, or its seam's face port is busy (R54 to R57, R106). -/
def spanHeld (s : State) (r : Requester) (dpa n : Nat) : Bool :=
  (lineSpans dpa n).any (fun p => match decodeDpa s r p.1 with | .ok l => lineHeld s l || portBusy s l | .error _ => false)

/-- The order of R64 among the reasons of a DENIED access. -/
def denyRank (why : Nat) : Nat := match why with | 0 => 0 | 4 => 1 | 3 => 2 | 2 => 3 | _ => 4

/-- Why a part of a piece within one line is DENIED, if it is: the decode's reason; or a narrow write to a seam without a
host share, or into an armed gradient range (R64, R206, R252). -/
def partDeny (s : State) (r : Requester) (write : Bool) (p : Nat × Nat) : Option Nat :=
  match decodeDpa s r p.1 with
  | .error why => some why
  | .ok (.seam _ _) => if write && p.2 != 64 && s.hostShare == 0 then some 3 else none
  | .ok _ => if write && p.2 != 64 && armedAt s r p.1 then some 3 else none

/-- Why a piece is DENIED, if it is: the reason among its parts that comes first in R64's order. -/
def pieceDeny (s : State) (r : Requester) (write : Bool) (dpa n : Nat) : Option Nat :=
  (lineSpans dpa n).foldl (fun acc p => match acc, partDeny s r write p with
    | none, w => w
    | some a, none => some a
    | some a, some b => some (if denyRank b < denyRank a then b else a)) none

/-- The access takes its turn at the face port of the seam it reaches, if any. -/
def takeTurn (r : Requester) (dpa : Nat) (s : State) : State :=
  match decodeDpa s r dpa with
  | .ok l => portTake l s
  | .error _ => s

/-- The lines of an access read in ascending order, until one fails; answers the bytes read and the failure. -/
def readSpans (r : Requester) : List (Nat × Nat) → Bool → State → State × List Byte × Status
  | [], _, s => (s, [], .ok)
  | (a, k) :: rest, first, s =>
    match lineGet r a first s with
    | (s, .data bs) =>
      let t := readSpans r rest false s
      (t.1, (bs.drop (a % 64)).take k ++ t.2.1, t.2.2)
    | (s, .bad st) => (s, [], st)
    | (s, .held) => (s, [], .ok)

/-- A read of at most 4 KiB within one piece (R39), decoded and checked as a whole: its bytes, or the status of its first
failure. One that meets a line which waits only says so. -/
def dpaRead (r : Requester) (dpa n : Nat) (s : State) : State × List Byte × Status :=
  match pieceDeny s r false dpa n with
  | some why => (recordDeny r dpa false why s, [], .denied)
  | none =>
    if spanHeld s r dpa n then ({ s with waited := true }, [], .ok)
    else readSpans r (lineSpans dpa n) true (takeTurn r dpa s)

/-- The lines of an access written in ascending order, until one fails. -/
def writeSpans (r : Requester) : List (Nat × Nat) → List Byte → Bool → State → State × Status
  | [], _, _, s => (s, .ok)
  | (a, k) :: rest, bs, first, s =>
    match (if k = 64 then linePut r a (bs.take 64) first s else partPut r a (bs.take k) first s) with
    | (s, .bad st) => (s, st)
    | (s, _) => writeSpans r rest (bs.drop k) false s

/-- A write of at most 4 KiB within one piece, decoded and checked as a whole (R39). One that meets a line which waits only
says so. -/
def dpaWrite (r : Requester) (dpa : Nat) (bs : List Byte) (s : State) : State × Status :=
  match pieceDeny s r true dpa bs.length with
  | some why => (recordDeny r dpa true why s, .denied)
  | none =>
    if spanHeld s r dpa bs.length then ({ s with waited := true }, .ok)
    else writeSpans r (lineSpans dpa bs.length) bs true (takeTurn r dpa s)


/-- A unit's step whose accesses wait for a line does not occur now (R54 to R57, R106). [DEDUCED: log entry 139] -/
def unlessHeld (f : State → State) (s : State) : State :=
  let t := f s
  if t.waited then s else t

/-- A record that a unit writes and nothing waits for: held while its line waits (R57, R229, R267). -/
def postWrite (r : Requester) (dpa : Nat) (bs : List Byte) (s : State) : State :=
  if spanHeld s r dpa bs.length then
    { s with heldReqs := s.heldReqs ++ [(s.since, .post r dpa bs)] }
  else (dpaWrite r dpa bs s).1

/-- The pieces of a request at 4 KiB boundaries (R39). -/
def pieces (dpa n : Nat) : List (Nat × Nat) := spans 4096 (n / 4096 + 2) dpa n

/-- A read of any length, piece by piece; bytes of a piece that fails read as zero, and the status is that of the
lowest-addressed piece that failed (R39). -/
def readPieces (r : Requester) : List (Nat × Nat) → State → State × List Byte × Status
  | [], s => (s, [], .ok)
  | (a, k) :: rest, s =>
    let x := dpaRead r a k s
    let t := readPieces r rest x.1
    (t.1, (if x.2.2 = .ok then x.2.1 else List.replicate k 0) ++ t.2.1, if x.2.2 = .ok then t.2.2 else x.2.2)

/-- A write of any length, piece by piece. -/
def writePieces (r : Requester) : List (Nat × Nat) → List Byte → State → State × Status
  | [], _, s => (s, .ok)
  | (a, k) :: rest, bs, s =>
    let x := dpaWrite r a (bs.take k) s
    let t := writePieces r rest (bs.drop k) x.1
    (t.1, if x.2 = .ok then t.2 else x.2)

/-! ### Stores without a DPA: dresser local stores, tally memory, face-unit buffers -/

/-- A store without a DPA; the slot table is one of them under the line code (Table 13-1). -/
inductive Local where
  | ls (c : Nat) | tly (c : Nat) | buf (n : Nat) | slots
deriving DecidableEq, Repr, Inhabited

/-- The memory that holds it. -/
def Local.mem (m : Local) (s : State) : Memory :=
  match m with
  | .ls _ => s.lsMem
  | .tly _ => s.tlyMem
  | .buf _ => s.bufMem
  | .slots => s.slotMem

/-- Where its byte 0 lies in that memory. -/
def Local.base : Local → Nat
  | .ls c => 0x80000 * c
  | .tly c => 0x20000 * c
  | .buf n => 0x10000 * n
  | .slots => 0

/-- The line of a byte. -/
def Local.line : Local → Nat → LineId
  | .ls c, a => lsLine c a
  | .tly c, a => tlyLine c a
  | .buf n, a => bufLine n a
  | .slots, a => ⟨6, 8, a / 64⟩

/-- Bytes stored. -/
def Local.poke (m : Local) (a : Nat) (bs : List Byte) (s : State) : State :=
  match m with
  | .ls _ => { s with lsMem := s.lsMem.write (m.base + a) bs }
  | .tly _ => { s with tlyMem := s.tlyMem.write (m.base + a) bs }
  | .buf _ => { s with bufMem := s.bufMem.write (m.base + a) bs }
  | .slots => { s with slotMem := s.slotMem.write (m.base + a) bs }

/-- The line that starts at byte `a` read under the line code. -/
def localGet (m : Local) (a : Nat) (s : State) : State × Option (List Byte) :=
  let d := (m.mem s).read (m.base + a) 64
  let v := s.verdict (m.line a) d
  (noteRead (m.line a) v false false s, if v = .uncorrectable then none else some (s.delivered (m.line a) d))

/-- The line that starts at byte `a` written whole (R372). -/
def localPut (m : Local) (a : Nat) (bs : List Byte) (s : State) : State :=
  m.poke a (bs.take 64) (s.cleanLine (m.line a))

/-- Some bytes of one line written; not performed when the line is uncorrectable (R374, R375). -/
def localPart (m : Local) (a : Nat) (bs : List Byte) (s : State) : State × Bool :=
  let b := a / 64 * 64
  let d := (m.mem s).read (m.base + b) 64
  let v := s.verdict (m.line b) d
  let s' := noteRead (m.line b) v false true s
  if v = .uncorrectable then (s', false)
  else (localPut m b (overlay (s.delivered (m.line b) d) (bs.mapIdx (fun i x => (a % 64 + i, x)))) s', true)

/-- Parts of a store read, until a line is uncorrectable. -/
def localReads (m : Local) : List (Nat × Nat) → State → State × Option (List Byte)
  | [], s => (s, some [])
  | (a, k) :: rest, s =>
    match localGet m (a / 64 * 64) s with
    | (s, none) => (s, none)
    | (s, some bs) =>
      let t := localReads m rest s
      (t.1, t.2.map (fun r => (bs.drop (a % 64)).take k ++ r))

/-- `n` bytes read. -/
def localRead (m : Local) (a n : Nat) (s : State) : State × Option (List Byte) := localReads m (lineSpans a n) s

/-- Parts of a store written, until a line is uncorrectable. -/
def localWrites (m : Local) : List (Nat × Nat) → List Byte → State → State × Bool
  | [], _, s => (s, true)
  | (a, k) :: rest, bs, s =>
    if k = 64 then localWrites m rest (bs.drop 64) (localPut m a bs s)
    else
      let r := localPart m a (bs.take k) s
      if r.2 then localWrites m rest (bs.drop k) r.1 else r

/-- Bytes written. -/
def localWrite (m : Local) (a : Nat) (bs : List Byte) (s : State) : State × Bool :=
  localWrites m (lineSpans a bs.length) bs s

end Sys2Proof.Machine
end

