-- ==== Sys2Proof/Machine/FieldOps.lean ====
section
/-! DEFINITION. What the stack sends to the field: messages and flits (R278 to R282), routes (R308 to R318) and the transmit
queues of the adits. -/

namespace Sys2Proof.Machine

/-- The number of flits of a message with `n` data bytes (R281). -/
def flitCount (n : Nat) : Nat := (16 + n + 239) / 240

/-- The message header of Table 10-5. -/
def msgHeader (m : Msg) : List Byte :=
  leBytes 8 m.addr.toNat ++ leBytes 2 m.tag ++ leBytes 1 m.op ++ leBytes 1 m.status ++ leBytes 4 m.len

/-- Bytes cut into payloads of 240, the last padded with zeros; `fuel` bounds the flits. -/
def payloads : Nat → List Byte → List (List Byte)
  | 0, _ => []
  | fuel + 1, bs =>
    let p := bs.take 240
    (p ++ List.replicate (240 - p.length) 0) :: (if bs.length ≤ 240 then [] else payloads fuel (bs.drop 240))

/-- The flits of a message (R281), with the hops, nm and via its router sets. -/
def msgFlits (m : Msg) (hops : Nat) (nm : Bool) (via : Nat) : List MsgFlit :=
  (payloads (flitCount m.data.length) (msgHeader m ++ m.data)).mapIdx (fun i p =>
    { vc := m.vc, first := i == 0, ordered := m.ordered, nm := nm, hops := hops, dst := m.dst, src := m.src,
      via := via, payload := p })

/-- The data bytes a message carries, by its op and length (Table 10-6). -/
def dataLen (op len : Nat) : Nat := if op = 0x02 ∨ op = 0x03 ∨ op = 0x04 ∨ op = 0x12 ∨ op = 0x13 then 0 else len

/-- The op and length in the header of a first flit. -/
def flitOpLen (f : MsgFlit) : Nat × Nat := (leAt f.payload 10 1, leAt f.payload 12 4)

/-- The message that whole flits carry. -/
def flitsMsg (fs : List MsgFlit) : Msg :=
  let f := fs.headD default
  let bs := fs.flatMap (·.payload)
  let op := leAt bs 10 1
  let len := leAt bs 12 4
  { vc := f.vc, ordered := f.ordered, src := f.src, dst := f.dst, addr := BitVec.ofNat 64 (leAt bs 0 8),
    tag := leAt bs 8 2, op := op, status := leAt bs 11 1, len := len, data := (bs.drop 16).take (dataLen op len) }

/-- The 64-bit header of a sequenced flit (Table 10-4), without credit fields. -/
def flitHeader (f : MsgFlit) : Nat :=
  f.vc + 4 * (if f.first then 1 else 2) + 32 * b2n f.ordered + 64 * b2n f.nm + 128 * f.hops + 1024 * f.dst
    + 2 ^ 24 * f.src + 2 ^ 42 * f.via

/-! ### Flits on the wire (R278 to R280) -/

/-- The credit-return fields of a header (Table 10-4). -/
def creditBits (creds : List (Nat × Nat × Nat)) : Nat :=
  match creds with
  | [] => 0
  | c :: _ => 2 ^ 52 * c.1 + 2 ^ 54 * c.2.1 + 2 ^ 57 * c.2.2

/-- The sequence word (Table 10-3). -/
def seqWord (seq : Option Nat) (ack : Nat) (nak : Bool) : Nat := seq.getD 0 + 2 ^ 12 * ack + 2 ^ 24 * b2n nak + 2 ^ 25 * b2n seq.isSome

/-- The 256 bytes of a flit: header, payload, sequence word and CRC (Table 10-3, R279). -/
def layFlit (header : Nat) (payload : List Byte) (sw : Nat) : List Byte :=
  let b := leBytes 8 header ++ (payload ++ List.replicate 240 0).take 240 ++ leBytes 4 sw
  b ++ leBytes 4 (crc32c b)

/-- The bytes of a sequenced flit. -/
def msgBytes (f : MsgFlit) (sh : Bool) (seq ack : Nat) (nak : Bool) (creds : List (Nat × Nat × Nat)) : List Byte :=
  layFlit (flitHeader f + 2 ^ 51 * b2n sh + creditBits creds) f.payload (seqWord (some seq) ack nak)

/-- The bytes of an unsequenced flit of a kind: 0 IDLE, 3 LINK, 4 TIME, on VC 3 with hops 0 (R278, R280). -/
def linkBytes (kind : Nat) (payload : List Byte) (ack : Nat) (nak : Bool) (creds : List (Nat × Nat × Nat)) : List Byte :=
  layFlit (3 + 4 * kind + creditBits creds) payload (seqWord none ack nak)

/-- A CAPS payload (Table 10-9). -/
def capsBytes (p : CapsPayload) : List Byte :=
  [1] ++ leBytes 2 p.stack ++ leBytes 1 p.adit ++ leBytes 1 (p.revMax + 16 * p.revMin) ++ leBytes 1 (p.lanes + 16 * p.rate)
    ++ leBytes 4 p.fieldId ++ leBytes 1 p.reserved ++ p.shared.flatMap (leBytes 2) ++ leBytes 1 (b2n p.seen)

/-- A TIME payload (Table 11-5). -/
def timeBytes (t : TimePayload) : List Byte :=
  [1] ++ leBytes 1 t.distance ++ leBytes 2 t.gm ++ leBytes 1 t.prio ++ [0, 0, 0] ++ leBytes 8 t.tTx ++ leBytes 8 t.tEcho
    ++ leBytes 8 t.tRx

/-- The credit return of the next outbound flit, at most 127 of one kind, and what is still due (R278, R290). -/
def takeCredit (x : Adit) : List (Nat × Nat × Nat) × Adit :=
  match x.credDue with
  | [] => ([], x)
  | c :: rest =>
    let n := min 127 c.2.2
    ([(c.1, c.2.1, n)], { x with credDue := if n < c.2.2 then (c.1, c.2.1, c.2.2 - n) :: rest else rest })

/-- What a flit in the next slot carries beside its own fields: credits, and nak once (R280, R286). -/
def withReturns (a : Nat) (k : List (Nat × Nat × Nat) → Bool → State → State) (s : State) : State :=
  let x := s.adit a
  let r := takeCredit x
  k r.1 x.nakDue (s.setAdit a { r.2 with nakDue := false })

/-- A LINK or TIME flit is sent, with ack, nak and credit return (R280). -/
def sendLink (a kind : Nat) (payload : List Byte) (s : State) : State :=
  withReturns a (fun cr nak s => s.emit (.flit a (linkBytes kind payload (s.adit a).rxAck nak cr))) s

/-! ### Topology and routes -/

/-- The group of a stack ID (R306). -/
def groupOf (x : Nat) : Nat := x / 32
/-- The member number of a stack ID (R306). -/
def memberOf (x : Nat) : Nat := x % 32

/-- A member of the field at this stack (R312, R323). -/
def State.isMember (s : State) (x : Nat) : Bool := (Tbl.look {} s.members x).member

/-- The port that carries a port's role: A47 in a takeover (R270). -/
def State.rolePort (s : State) (a : Nat) : Nat :=
  if s.chr.aditSpare = a ∧ (s.adit 47).spare = true then 47 else a

/-- The local port to a member of the own group (R308). -/
def State.localPort (s : State) (m : Nat) : Nat := (m + 32 - memberOf s.fld.id - 1) % 32

/-- The indices q of the copies from group `g` to group `t`, ascending (R309). -/
def copies (gs g t : Nat) : List Nat :=
  if gs ≤ 1 ∨ g = t then []
  else
    let o := (t + gs - g - 1) % gs
    (List.range (512 / (gs - 1))).map (fun c => c * (gs - 1) + o)

/-- The peer that R308 and R309 expect at a port: stack and adit. -/
def State.expectedPeer (s : State) (a : Nat) : Option (Nat × Nat) :=
  let g := groupOf s.fld.id
  let m := memberOf s.fld.id
  if a = 47 then none
  else if a ≤ 30 then some (32 * g + (m + a + 1) % 32, 30 - a)
  else
    let gs := s.chr.groups
    if gs ≤ 1 then none
    else
      let q := 16 * m + (a - 31)
      let n := 512 / (gs - 1)
      if q < n * (gs - 1) then
        let o := q % (gs - 1)
        let q' := q / (gs - 1) * (gs - 1) + gs - 2 - o
        some (32 * ((g + o + 1) % gs) + q' / 16, 31 + q' % 16)
      else none

/-- The occupancy of a port (R314). -/
def State.occupancy (s : State) (a : Nat) : Nat :=
  ((s.adit (s.rolePort a)).txq.length) + (s.adit (s.rolePort a)).replay.length

/-- A port in use and ACTIVE, or, for an ordered flit, one it may wait for (R313, R315, R317). -/
def State.portUp (s : State) (ordered nm : Bool) (hops a : Nat) : Bool :=
  let x := s.adit (s.rolePort a)
  x.inUse && (x.state == 5 || (ordered && decide (0 < s.fld.ordWait) && (x.state == 6 || x.state == 1)))
    && !(x.rev == 1 && (nm || decide (2 < hops)))

/-- A member's LINKMAP (R311). -/
def State.linkmap (s : State) (m : Nat) : LinkMap := Tbl.look {} s.linkmaps m

/-- Where a router sends a flit (R313, R316). -/
inductive Route where
  | deliver | port (a : Nat) (nm : Bool) | exhausted (a : Nat)
deriving DecidableEq, Repr, Inhabited

/-- The first of the indices with the least cost. -/
def argMin (cost : Nat → Nat) : List Nat → Option Nat
  | [] => none
  | x :: xs => some (xs.foldl (fun b y => if cost y < cost b then y else b) x)

/-- The next hop toward a member of the own group, or the detour over links that are ACTIVE (R316). -/
def localHop (s : State) (ordered nm : Bool) (hops md : Nat) : Route :=
  let a := s.localPort md
  if s.portUp ordered nm hops a then .port a nm
  else
    match (List.range 32).find? (fun k => k != md && k != memberOf s.fld.id
        && s.portUp false nm hops (s.localPort k) && (s.linkmap k).fresh && bit md (s.linkmap k).locals) with
    | some k => .port (s.localPort k) nm
    | none => .exhausted a

/-- The next hop of a flit that is sent with `hops`, whatever their number (R313, R316). -/
def hopOf (s : State) (f : MsgFlit) (fromGlobal : Bool) (hops : Nat) : Route :=
  let gx := groupOf s.fld.id
  let mx := memberOf s.fld.id
  if f.dst = s.fld.id then .deliver
  else
    let nm := f.nm && !(decide (gx = f.via) && fromGlobal)
    let t := if nm then f.via else groupOf f.dst
    if gx = t then localHop s f.ordered nm hops (memberOf f.dst)
    else
      let qs := copies s.chr.groups gx t
      let own := qs.filter (fun q => q / 16 = mx && s.portUp f.ordered nm hops (31 + q % 16))
      if own ≠ [] then
        let q := if f.ordered then own.headD 0 else (argMin (fun q => s.occupancy (31 + q % 16)) own).getD 0
        .port (31 + q % 16) nm
      else
        let el := qs.filter (fun q => q / 16 != mx && (s.linkmap (q / 16)).fresh
          && bit (q % 16) (s.linkmap (q / 16)).globals)
        if el = [] then .exhausted (31 + (qs.headD 0) % 16)
        else
          let q := if f.ordered then el.getD ((f.src + f.dst) % el.length) 0
            else (argMin (fun q => s.occupancy (s.localPort (q / 16))) el).getD 0
          localHop s f.ordered nm hops (q / 16)

/-- The route of a flit at this router: one that would need hops above 4 goes no further than the port it would have used
(R313 to R316). -/
def routeOf (s : State) (f : MsgFlit) (fromGlobal : Bool) (hops : Nat) : Route :=
  if 4 < hops then
    match hopOf s f fromGlobal 0 with
    | .port a _ => .exhausted a
    | r => r
  else hopOf s f fromGlobal hops

/-! ### Sending -/

/-- A discarded message counts at a port (R301, R316). -/
def lostAt (a : Nat) (s : State) : State :=
  let x := s.adit a
  s.setAdit a { x with lost := satInc 0xF x.lost }

/-- The flits of a message as a port holds them: with the message's number, tag and op (R281, R283). -/
def portFlits (s : State) (fs : List MsgFlit) (local_ : Bool) (id tag op : Nat) : List Flit :=
  fs.map (fun f => ({ f := f, local_ := local_, msg := id, tag := tag, op := op, at_ := s.now } : Flit))

/-- Flits join a port's transmit queue; of a port that is not ACTIVE, they wait for it (R314, R317). -/
def portPush (a : Nat) (es : List Flit) (s : State) : State :=
  let p := s.rolePort a
  let x := s.adit p
  if x.state = 5 then s.setAdit p { x with txq := x.txq ++ es }
  else s.setAdit p { x with ordHeld := x.ordHeld ++ es }

/-- The flits of a whole message join a port's transmit queue. -/
def txPush (a : Nat) (fs : List MsgFlit) (local_ : Bool) (s : State) : State :=
  let f := fs.headD default
  let id := s.fld.msgs
  portPush a (portFlits s fs local_ id (leAt f.payload 8 2) (leAt f.payload 10 1))
    { s with fld := { s.fld with msgs := id + 1 } }

/-- A message sent on one port, one hop: management (R324) and link-local traffic. -/
def sendOneHop (a : Nat) (m : Msg) (s : State) : State := txPush a (msgFlits m 0 false 0) true s

/-- The non-minimal route of an unordered message, when its source takes one (R318): the drawn group. -/
def chooseVia (m : Msg) (s : State) : Option Nat × State :=
  let gs := groupOf s.fld.id
  let gd := groupOf m.dst
  if m.ordered || gs == gd || !s.fld.nonmin then (none, s)
  else
    let cand := (List.range s.chr.groups).filter (fun v => v != gs && v != gd
      && s.members.any (fun e => e.2.member && groupOf e.1 == v))
    if cand = [] then (none, s)
    else
      let d := s.fresh
      let v := cand.getD (d.1 % cand.length) 0
      let q := fun f => match routeOf s f false 0 with | .port a _ => some (s.occupancy a) | _ => none
      let base : MsgFlit := { (default : MsgFlit) with vc := m.vc, dst := m.dst, src := m.src }
      match q base, q { base with nm := true, via := v } with
      | some qm, some qn => (if 2 * qn + s.fld.adaptT < qm then some v else none, d.2)
      | _, _ => (none, d.2)

/-- A message leaves for another stack: the status it ends with at once (NO_ROUTE, LINK_EXHAUSTED), or none when it is
on its way (R312, R313, R316, R318). -/
def sendMsg (m : Msg) (s : State) : State × Option Status :=
  if !s.isMember m.dst || (s.fld.left && m.vc != 1) then
    ({ s with fld := { s.fld with noroute := satInc 0xFFFF s.fld.noroute } }, some .noRoute)
  else
    let v := chooseVia m s
    let via := v.1.getD 0
    let fs := msgFlits m 0 v.1.isSome via
    match routeOf v.2 (fs.headD default) false 0 with
    | .port a _ => (txPush a fs true v.2, none)
    | .exhausted a => (if m.vc = 1 ∨ m.vc = 3 then lostAt (v.2.rolePort a) v.2 else v.2, some .linkExhausted)
    | .deliver => (v.2, some .linkExhausted)

/-- A request of this stack to the field: its tag is remembered with what waits for the answer. -/
def fieldRequest (m : Msg) (q : FieldReq) (s : State) : State × Option Status :=
  let tag := s.fld.tags
  let r := sendMsg { m with src := s.fld.id, tag := tag } s
  match r.2 with
  | some st => (r.1, some st)
  | none =>
    ({ r.1 with fld := { r.1.fld with tags := (tag + 1) % 65536, outst := r.1.fld.outst ++ [(tag, q)] } }, none)

end Sys2Proof.Machine
end

