-- ==== Sys2Proof/Machine/CrewOps.lean ====
section
/-! DEFINITION. What the parts of a crew share (04_hewer.md to 06_crew_programs.md): the tally's registers and traps, credits
and completion records, duty tokens, arrivals, the order of cuts, transfers and releases, and fences. -/

namespace Sys2Proof.Machine

/-! ### The tally -/

/-- Register `r` of a crew's tally; x0 reads zero (R157). -/
def tget (s : State) (c r : Nat) : Dword := if r = 0 then 0 else Tbl.look 0 (s.crew c).regs r

/-- Register `r` written; a write of x0 is discarded (R157). -/
def tset (c r : Nat) (v : Dword) (s : State) : State :=
  if r = 0 then s else s.setCrew c { s.crew c with regs := Tbl.put (s.crew c).regs r v }

/-- The crew's program can execute an instruction: RUNNING, not stalled, its HCLK running (R157, R177). -/
def State.tallyRuns (s : State) (c : Nat) : Bool :=
  s.crewPresent c && (s.crew c).state == 4 && (s.crew c).wait == .none && s.crewRuns c

/-- An instruction of the tally: it acts when the program can execute it; otherwise the command cannot occur.
[DESIGN CHOICE: log entry 7] -/
def tally (c : Nat) (f : State → State) (s : State) : Res := .next (if s.tallyRuns c then f s else s)

/-- An illegal-instruction exception; the privileged specification leaves mtval to the implementation. -/
def tallyIllegal (c : Nat) (s : State) : State := tallyTrap c 2 (BitVec.ofNat 64 s.fresh.1) s.fresh.2

/-- A heartbeat (R170). -/
def beat (c : Nat) (s : State) : State := s.setCrew c { s.crew c with hbFrom := s.hclkNs (galOf c) }

/-- Tally memory holds 128 KiB (Table 6-1). -/
def tlySize : Nat := 0x20000

/-- The 32-byte descriptor at a tally address is read and used, or the instruction traps and has no effect (R159, R372). -/
def withDescriptor (c : Nat) (a : Dword) (f : List Byte → State → State) (s : State) : State :=
  if a.toNat % 32 ≠ 0 then tallyTrap c 4 a s
  else if tlySize < a.toNat + 32 then tallyTrap c 5 a s
  else
    match localRead (.tly c) a.toNat 32 s with
    | (s, some bs) => f bs s
    | (s, none) => tallyTrap c 5 a s

/-! ### Redirection by a takeover (R179) -/

/-- The hewer that serves a role. [DEDUCED: log entry 28] -/
def hewerFor (s : State) (c role : Nat) : Nat :=
  if (s.crew c).buddy && (s.crew c).deadRole == role then 1 - role else role

/-- The role is redirected to the survivor. -/
def redirected (s : State) (c role : Nat) : Bool := (s.crew c).buddy && (s.crew c).deadRole == role

/-- A cut whose face-store line addresses are raised by 1 MiB. -/
def raiseCut (ws : List Word) : List Word :=
  ws.mapIdx (fun i w => if i = 2 ∨ i = 3 ∨ i = 4 then
    BitVec.ofNat 32 (w.toNat / 32768 * 32768 + (w.toNat % 32768 + 0x4000) % 32768) else w)

/-- A word with its bits `hi` down to `lo` replaced. -/
def setBits (hi lo v : Nat) (w : Nat) : Nat := w - bits hi lo w * 2 ^ lo + v % 2 ^ (hi - lo + 1) * 2 ^ lo

/-- One end of a transfer redirected to the survivor: its space code at `lo` of word 0 and its address at words `i`
and `i + 1`, raised by 1 MiB. -/
def redirectEnd (s : State) (c lo i : Nat) (ws : List Word) : List Word :=
  let sp := bits (lo + 2) lo (wordAt ws 0)
  if (sp = 1 ∨ sp = 2) ∧ redirected s c (sp - 1) = true then
    listSet (listSet ws 0 (BitVec.ofNat 32 (setBits (lo + 2) lo (3 - sp) (wordAt ws 0)))) i
      (BitVec.ofNat 32 (wordAt ws i + 0x100000))
  else ws

/-! ### Completion records and credits (R160, R161) -/

/-- The 64-bit word of a completion record (Table 6-3). -/
def recWord (r : CplRec) : Dword :=
  BitVec.ofNat 64 (r.tag % 65536 + 2 ^ 16 * r.status.code + 2 ^ 20 * r.source + 2 ^ 23 * r.flags + 2 ^ 63)

/-- The credit a record's source has in use is free once the program has read the record (R161). -/
def freeCredit (r : CplRec) (x : Crew) : Crew :=
  match r.source with
  | 0 => { x with cutUse0 := x.cutUse0 - 1 }
  | 1 => { x with cutUse1 := x.cutUse1 - 1 }
  | 3 => { x with sendUse := x.sendUse - 1 }
  | 4 => { x with tblUse0 := x.tblUse0 - 1 }
  | 5 => { x with tblUse1 := x.tblUse1 - 1 }
  | 6 => if r.tag % 2 = 0 then { x with revUse0 := false } else { x with revUse1 := false }
  | 7 => { x with sendUse := x.sendUse - 1 }
  | _ => x

/-- The oldest record is read into `rd`; zero when there is none (R160). -/
def cplTake (c rd : Nat) (s : State) : State :=
  match (s.crew c).cpl with
  | [] => tset c rd 0 s
  | r :: rest => tset c rd (recWord r) (s.setCrew c (freeCredit r { s.crew c with cpl := rest }))

/-- A waiting cpl.wait ends when a record is there and the tally's HCLK runs (R160, R170). -/
def wakeCpl (c : Nat) (s : State) : State :=
  match (s.crew c).wait with
  | .cpl rd _ =>
    if (s.crew c).cpl ≠ [] ∧ (s.crew c).state = 4 ∧ s.crewRuns c = true then
      beat c (cplTake c rd (s.setCrew c { s.crew c with wait := .none }))
    else s
  | _ => s

/-- A record enters the completion queue; during a takeover the dead role's UNIT_FAULT and UNIT_DEAD records, of cuts and of
table loads, are absorbed (R160, R179). -/
def postRec (c : Nat) (r : CplRec) (s : State) : State :=
  let x := s.crew c
  let dead := fun d => r.source == d || r.source == 4 + d
  if x.takeover.any dead ∧ (r.status = .unitFault ∨ r.status = .unitDead) then
    s.setCrew c { x with absorbed := x.absorbed ++ [r] }
  else wakeCpl c (s.setCrew c { x with cpl := x.cpl ++ [r] })

/-- Credits in use that keep an entry of the completion queue (R161). -/
def creditsUsed (s : State) (c : Nat) : Nat :=
  let x := s.crew c
  x.cutUse0 + x.cutUse1 + x.tblUse0 + x.tblUse1 + x.sendUse + b2n x.revUse0 + b2n x.revUse1
    + (s.dresser c).queue.length

/-- An entry that no credit keeps is free for a dresser record (R161). -/
def dresserRoom (s : State) (c : Nat) : Bool :=
  decide (creditsUsed s c + ((s.crew c).cpl.filter (fun r => r.source == 2)).length < 64)

/-- The cut credits of a role. -/
def cutUse (x : Crew) (role : Nat) : Nat := if role = 0 then x.cutUse0 else x.cutUse1
/-- A cut credit taken. -/
def takeCut (role : Nat) (x : Crew) : Crew :=
  if role = 0 then { x with cutUse0 := x.cutUse0 + 1 } else { x with cutUse1 := x.cutUse1 + 1 }
/-- The table-load credits of a role. -/
def tblUse (x : Crew) (role : Nat) : Nat := if role = 0 then x.tblUse0 else x.tblUse1
/-- A table-load credit taken. -/
def takeTbl (role : Nat) (x : Crew) : Crew :=
  if role = 0 then { x with tblUse0 := x.tblUse0 + 1 } else { x with tblUse1 := x.tblUse1 + 1 }

/-! ### Duty tokens (R28 to R35) -/

/-- The token limit of every column (Table 1-8). -/
def State.tokLimit (s : State) : Nat :=
  let base := if s.chr.testMode then s.chr.testTokens else if s.chr.air then 1 else 2
  let lim := if s.flowClamp then min base 1 else base
  max 1 (if s.layerSuspect then lim - 1 else lim)

/-- R32 applies: channel mode outside test mode. -/
def State.tokAdjacency (s : State) : Bool := !s.chr.air && !s.chr.testMode

/-- The hewer of a layer and column holds a token. -/
def State.holds (s : State) (layer col : Nat) : Bool := (s.tok col).holders.contains layer

/-- A token released (R33). -/
def tokRelease (layer col : Nat) (s : State) : State :=
  s.setTok col { s.tok col with holders := (s.tok col).holders.filter (· != layer) }

/-- The slice grants a request (R31, R32). -/
def tokGrants (s : State) (layer col : Nat) : Bool :=
  let h := (s.tok col).holders
  decide (h.length < s.tokLimit) && !(s.tokAdjacency && h.any (fun k => k + 1 == layer || layer + 1 == k))

/-- A revocation record of a role, merged while one is unread (R34, R161). -/
def postRevoked (c role : Nat) (s : State) : State :=
  let x := s.crew c
  if (if role = 0 then x.revUse0 else x.revUse1) then s
  else
    postRec c { tag := role, status := .ok, source := 6 }
      (s.setCrew c (if role = 0 then { x with revUse0 := true } else { x with revUse1 := true }))

/-- The core index of a hewer in its gallery (R414). -/
def hewerCore (c role : Nat) : Nat := 2 * (2 * (c % 32 / 4 % 2) + c % 2) + role

/-- The frequencies of Table 14-2 in MHz. -/
def pointMhz (p : Nat) : Nat :=
  [1000, 1400, 1800, 2000, 2200, 2400, 2600, 2800, 3000, 3200, 3400, 3600, 3800, 4000, 4200, 4400].getD p 4400

/-- VDD_GAL of a point in mV (Table 14-2). [DEDUCED: log entry 89] -/
def pointMv (p : Nat) : Nat :=
  [550, 570, 590, 600, 610, 625, 640, 660, 680, 700, 725, 750, 780, 810, 850, 900].getD p 900

/-- The setpoint at this moment of a slew of 10 mV/µs (R400). -/
def mvNow (s : State) (g : Nat) : Nat :=
  let x := s.gal g
  if !x.moving then x.mv
  else
    let n := (s.now - x.slewAt) / 100
    let goal := pointMv x.goal
    if x.mv ≤ goal then min goal (x.mv + n) else max goal (x.mv - n)

/-- The fused maxima of a core in MHz at 0.55, 0.65, 0.75 and 0.90 V (R395). -/
def fusedMax (s : State) (g n : Nat) : List Nat := Tbl.look [1700, 2700, 3750, 4400] s.fuses.fmax (16 * g + n)

/-- A core's cap in MHz at a setpoint: interpolated, less the ageing reduction, rounded down to 25 MHz (R395). -/
def capAt (s : State) (g n mv : Nat) : Nat :=
  let f := fusedMax s g n
  let i := if mv ≤ 650 then 0 else if mv ≤ 750 then 1 else 2
  let v0 := [550, 650, 750].getD i 0
  let d := [100, 100, 150].getD i 1
  let x : Int := (f.getD i 0 : Nat) * (d : Nat) + ((f.getD (i + 1) 0 : Nat) - (f.getD i 0 : Nat)) * ((mv : Int) - (v0 : Nat))
  25 * ((x - 25 * (s.core g n).aged * (d : Nat)) / (25 * (d : Nat))).toNat

/-- The edges of 16 that a core keeps at a setpoint and a point (R394). -/
def keepOf (s : State) (g n mv p : Nat) : Nat := min 16 (16 * capAt s g n mv / pointMhz p)

/-- The edges of 16 that a core keeps at this moment: the cap follows the setpoint through a slew (R394, R400). -/
def kNow (s : State) (g n : Nat) : Nat :=
  if (s.gal g).moving then keepOf s g n (mvNow s g) (s.gal g).point else (s.core g n).k

/-- A number of a hewer's clock cycles in ns, rounded up (R394). -/
def cyclesNs (s : State) (c role cycles : Nat) : Nat :=
  let f := kNow s (galOf c) (hewerCore c role) * pointMhz (s.gal (galOf c)).point
  if f = 0 then 0 else (cycles * 16000 + f - 1) / f

/-! ### Face-store blocks (R104) -/

/-- The state of a block. -/
def blockSt (s : State) (c role b : Nat) : Nat := Tbl.look 0 (s.hewer c role).blocks b

/-- Blocks of a store put in a state. -/
def setBlocks (c role : Nat) (bs : List Nat) (st : Nat) (s : State) : State :=
  s.setHewer c role { s.hewer c role with blocks := bs.foldl (fun t b => Tbl.put t b st) (s.hewer c role).blocks }

/-- Blocks of a store returned to the states they held (R116). -/
def restoreBlocks (c role : Nat) (saved : List (Nat × Nat)) (s : State) : State :=
  s.setHewer c role { s.hewer c role with
    blocks := saved.foldl (fun t p => Tbl.put t p.1 p.2) (s.hewer c role).blocks }

/-! ### Skip-queue entries (R147) -/

/-- Entry `k` of a crew's skip queue. -/
def skqEntry (s : State) (c k : Nat) : SkqEntry := Tbl.look {} (s.dresser c).skq k

/-- Entry `k` replaced. -/
def setSkq (c k : Nat) (e : SkqEntry) (s : State) : State :=
  s.setDresser c { s.dresser c with skq := Tbl.put (s.dresser c).skq k e }

/-- The FREE entries, ascending. -/
def skqFree (s : State) (c : Nat) : List Nat := (List.range 16).filter (fun k => (skqEntry s c k).st == 0)

/-- Reserved entries released (R116). -/
def skqRelease (c : Nat) (es : List Nat) (s : State) : State :=
  es.foldl (fun s k => if (skqEntry s c k).st = 1 then setSkq c k {} s else s) s

/-! ### Cut completions (R111, R114) -/

/-- The completion of a cut: its seq and status under its source (R160). -/
def cutRecord (k : CutRun) (st : Status) : CplRec := { tag := k.cut.seq, status := st, source := k.cut.role }

/-- Completions leave in issue order: those at the head of the issued list that have ended are posted (R114). -/
def flushCuts (c h : Nat) : Nat → State → State
  | 0, s => s
  | n + 1, s =>
    match (s.hewer c h).issued with
    | k :: rest =>
      if k.phase = 2 then
        flushCuts c h n (postRec c (cutRecord k k.st) (s.setHewer c h { s.hewer c h with issued := rest }))
      else s
    | [] => s

/-- Completions posted as far as they can be. -/
def flushDone (c h : Nat) (s : State) : State := flushCuts c h ((s.hewer c h).issued.length) s

/-- The oldest issued cut without a verdict: its place and itself. -/
def streaming (x : Hewer) : Option (Nat × CutRun) :=
  match x.issued.findIdx? (fun k => k.phase == 0) with
  | some i => (x.issued[i]?).map (fun k => (i, k))
  | none => none

/-- A cut's rows end: `n` more busy cycles count, and a hewer without a token is to idle as long as all the cut's attempts
kept its arrays busy (R28, R29, R98). -/
def ranFor (c h : Nat) (k : CutRun) (n : Nat) (s : State) : State :=
  let x := s.hewer c h
  s.setHewer c h { x with
    busy := x.busy + n
    idleUntil := if s.holds (layerOf c) (colOf c h) then x.idleUntil
      else s.hclkNs (galOf c) + cyclesNs s c h ((k.ran + n + 3) / 4) }

/-- A cut that streams is to end before its last row: a free part of its cycles was busy (R28, R98).
[DESIGN CHOICE: log entry 135] -/
def cutStops (c h i : Nat) (s : State) : State :=
  match streaming (s.hewer c h) with
  | some (j, k) => if j = i then ranFor c h k (s.fresh.1 % (k.cut.busySum + 1)) s.fresh.2 else s
  | none => s

/-- Issued cut `i` ends with a status without draining: blocks restored, reservations released (R116).
[DEDUCED: log entry 35] -/
def failCut (c h i : Nat) (st : Status) (s : State) : State :=
  match (s.hewer c h).issued[i]? with
  | none => s
  | some k =>
    let s := skqRelease c k.entries (restoreBlocks c h k.saved s)
    s.setHewer c h { s.hewer c h with
      issued := listSet (s.hewer c h).issued i { k with phase := 2, st := st, entries := [], saved := [] } }

/-! ### The order of cuts, transfers and releases (R164) -/

/-- The cuts of a crew not yet completed: the hewer that runs each, and the cut. -/
def openCuts (s : State) (c : Nat) : List (Nat × Cut) :=
  [0, 1].flatMap (fun h => ((s.hewer c h).issued.filter (fun k => k.phase < 2)).map (fun k => (h, k.cut))
    ++ (s.hewer c h).queue.map (fun k => (h, k)))

/-- An earlier cut reads or writes a block of a store. -/
def cutTouches (s : State) (c order role b : Nat) : Bool :=
  (openCuts s c).any (fun p => decide (p.2.order < order) && ((p.2.reads p.1 ++ p.2.writes p.1).contains (role, b)))

/-- An earlier cut writes a block of a store. -/
def cutWrites (s : State) (c order role b : Nat) : Bool :=
  (openCuts s c).any (fun p => decide (p.2.order < order) && (p.2.writes p.1).contains (role, b))

/-- A transfer's source space, destination space, length and addresses (Table 6-5). -/
def xKind (x : Xfer) : Nat := bits 3 0 (wordAt x.words 0)
def xSrc (x : Xfer) : Nat := bits 6 4 (wordAt x.words 0)
def xDst (x : Xfer) : Nat := bits 9 7 (wordAt x.words 0)
def xArrive (x : Xfer) : Bool := bit 10 (wordAt x.words 0)
def xTag (x : Xfer) : Nat := bits 31 16 (wordAt x.words 0)
def xLen (x : Xfer) : Nat := bits 24 0 (wordAt x.words 1)
def xSrcAddr (x : Xfer) : Nat := wordAt x.words 2 + 2 ^ 32 * wordAt x.words 3
def xDstAddr (x : Xfer) : Nat := wordAt x.words 4 + 2 ^ 32 * wordAt x.words 5
def xArrAddr (x : Xfer) : Nat := wordAt x.words 6 + 2 ^ 32 * wordAt x.words 7

/-- The destination is a field address: its stack field is not zero (R51, R162). -/
def xField (x : Xfer) : Bool := xDst x == 0 && decide (2 ^ 48 ≤ xDstAddr x)

/-- The destination is another stack. -/
def xRemote (s : State) (x : Xfer) : Bool := xField x && bits 61 48 (xDstAddr x) != s.fld.id

/-- The destination address within its space. -/
def xDstOff (x : Xfer) : Nat := if xDst x = 0 then xDstAddr x % 2 ^ 48 else xDstAddr x

/-- The face-store block of the crew that a byte of a space lies in: its own slots have DPAs too (R46, R104). -/
def spaceBlock (c sp a : Nat) : Option (Nat × Nat) :=
  if sp = 1 ∨ sp = 2 then some (sp - 1, a / 1024)
  else if sp = 0 ∧ 0x18000000000 ≤ a ∧ a < 0x18020000000 then
    let h := a % 0x8000000000 / 0x200000
    if crewOf (h / 64) (h % 64) = c then some (roleOf (h % 64), a % 0x200000 / 1024) else none
  else none

/-- The face-store blocks of the crew in a range of a space. -/
def spaceBlocks (c sp a n : Nat) : List (Nat × Nat) :=
  if 3 ≤ sp ∨ (sp = 0 ∧ (a + n ≤ 0x18000000000 ∨ 0x18020000000 ≤ a)) then []
  else (blocksOf (a / 64) (n / 64)).filterMap (fun b => spaceBlock c sp (1024 * b))

/-- The face-store blocks a transfer reads. -/
def xReads (c : Nat) (x : Xfer) : List (Nat × Nat) := spaceBlocks c (xSrc x) (xSrcAddr x) (xLen x)

/-- The face-store blocks a transfer writes. -/
def xWrites (s : State) (c : Nat) (x : Xfer) : List (Nat × Nat) :=
  if xRemote s x then [] else spaceBlocks c (xDst x) (xDstOff x) (xLen x)

/-- The blocks a transfer has still to complete, and those it goes through without completing them (R164, R165). -/
def xOpen (s : State) (c : Nat) (x : Xfer) : List (Nat × Nat) :=
  let left := min (xLen x) (x.done - x.done % 64)
  if xRemote s x then []
  else x.failed ++ spaceBlocks c (xDst x) (xDstOff x + left) (xLen x - left)

/-- An earlier transfer, queued or in flight, reads or writes a block of a store. -/
def xferTouches (s : State) (c order role b : Nat) : Bool :=
  ((s.crew c).xferQ ++ (s.crew c).xferRun).any (fun x => decide (x.order < order) && !x.arrSent
    && (xReads c x ++ xOpen s c x).contains (role, b))

/-- An earlier transfer writes a block of a store. -/
def xferWrites (s : State) (c order role b : Nat) : Bool :=
  ((s.crew c).xferQ ++ (s.crew c).xferRun).any (fun x => decide (x.order < order) && !x.arrSent
    && (xOpen s c x).contains (role, b))

/-- An earlier release of a block waits. -/
def relWaits (s : State) (c order role b : Nat) : Bool :=
  (s.crew c).rels.any (fun r => decide (r.2.2.2 < order) && r.1 == role && decide (r.2.1 ≤ b)
    && decide (b < r.2.1 + r.2.2.1))

/-- A release can take effect: no earlier cut or transfer on its blocks is open. -/
def relReady (s : State) (c : Nat) (r : Nat × Nat × Nat × Nat) : Bool :=
  (List.range r.2.2.1).all (fun i => !cutTouches s c r.2.2.2 r.1 (r.2.1 + i)
    && !xferTouches s c r.2.2.2 r.1 (r.2.1 + i))

/-- Waiting releases take effect in order, as far as they can (R164). -/
def applyRels (c : Nat) (s : State) : State :=
  ((s.crew c).rels).foldl (fun s r =>
    if relReady s c r then
      setBlocks c r.1 ((List.range r.2.2.1).map (· + r.2.1)) 0
        (s.setCrew c { s.crew c with rels := (s.crew c).rels.filter (· != r) })
    else s) s

/-! ### Arrivals (R161, R167 to R169) -/

/-- An arrival address has a nonzero reserved field or stack_ext (Table 6-7). -/
def arrBad (a : Dword) : Bool :=
  bits 15 11 a.toNat != 0 || bits 31 30 a.toNat != 0 || bits 63 48 a.toNat != 0

/-- The target stack of an arrival address. -/
def arrStack (a : Dword) : Nat := bits 29 16 a.toNat

/-- A transfer leaves the crew's list, and its record is posted (R165). -/
def xferRecord (c : Nat) (x : Xfer) (st : Status) (s : State) : State :=
  applyRels c (postRec c { tag := xTag x, status := st, source := 3 }
    (s.setCrew c { s.crew c with xferRun := (s.crew c).xferRun.filter (fun y => y.order != x.order) }))

/-- The answer to an arrival the crew sent: the record of the instruction, or of the transfer it ends (R161, R165). -/
def arrAnswered (c : Nat) (addr : Dword) (xo : Option Nat) (st : Status) (s : State) : State :=
  let here := fun a : ArrSend => a.sent && a.addr == addr && a.xfer == xo
  match (s.crew c).arrs.findIdx? here with
  | none => s
  | some i =>
    let s := s.setCrew c { s.crew c with arrs := listDel (s.crew c).arrs i }
    match xo with
    | none => postRec c { tag := addr.toNat % 65536, status := st, source := 7 } s
    | some o =>
      match (s.crew c).xferRun.find? (fun x => x.order == o) with
      | some x => xferRecord c x st s
      | none => s

/-- An arrival or poison leaves the tally: to a counter of this stack, or as a message to another (R52, R167). -/
def sendArrival (c : Nat) (a : ArrSend) (s : State) : State :=
  if arrBad a.addr then arrAnswered c a.addr a.xfer .badDescriptor s
  else if arrStack a.addr = s.fld.id then
    { s with arrQ := s.arrQ ++ [{ addr := a.addr, poison := a.poison, from_ := some (c, a.xfer), peer := none }] }
  else
    let m : Msg := { (default : Msg) with
      vc := 0, dst := arrStack a.addr, addr := a.addr, op := if a.poison then 0x04 else 0x03 }
    let r := fieldRequest m (.arrival c a.addr a.xfer) s
    match r.2 with
    | none => r.1
    | some st => arrAnswered c a.addr a.xfer st r.1

/-- An arrival that a face unit or a Mill engine sends for its own descriptor, and whose answer nothing waits for (R190,
R267): a bad descriptor may name another stack. [DEDUCED: log entries 31, 32] -/
def unitArrival (a : Dword) (poison : Bool) (s : State) : State :=
  if arrStack a = s.fld.id then { s with arrQ := s.arrQ ++ [{ addr := a, poison := poison, from_ := none, peer := none }] }
  else (fieldRequest { (default : Msg) with vc := 0, dst := arrStack a, addr := a, op := if poison then 0x04 else 0x03 }
    (.poison 128) s).1

/-- The transfers queued before an arrival have completed (R168). -/
def arrClear (s : State) (c : Nat) (a : ArrSend) : Bool :=
  a.poison || a.xfer.isSome || !((s.crew c).xferQ ++ (s.crew c).xferRun).any (fun x => decide (x.order < a.order) && !x.arrSent)

/-- The arrivals that may leave do (R168); `n` bounds them. -/
def pumpSends (c : Nat) : Nat → State → State
  | 0, s => s
  | n + 1, s =>
    match (s.crew c).arrs.findIdx? (fun a => !a.sent && arrClear s c a) with
    | none => s
    | some i =>
      match (s.crew c).arrs[i]? with
      | none => s
      | some a =>
        pumpSends c n (sendArrival c { a with sent := true }
          (s.setCrew c { s.crew c with arrs := listSet (s.crew c).arrs i { a with sent := true, at_ := s.now } }))

/-- The physical crew of a logical crew (R181). -/
def physCrew (s : State) (n : Nat) : Option Nat :=
  let e := Tbl.look (0, false) s.crewMap n
  if e.2 && s.crewPresent e.1 then some e.1 else none

/-- arr.wait is satisfied: `(int32)(count − target) ≥ 0` (R168). -/
def arrReached (count target : Word) : Bool := (count - target).toNat < 2 ^ 31

/-- A waiting arr.wait ends when its counter is dead or has reached the target (R168, R170). -/
def wakeArr (c : Nat) (s : State) : State :=
  match (s.crew c).wait with
  | .arr n target rd _ =>
    if (s.crew c).state = 4 ∧ s.crewRuns c = true then
      if (s.crew c).dead.contains n then
        beat c (tset c rd (BitVec.ofNat 64 Status.unitDead.code) (s.setCrew c { s.crew c with wait := .none }))
      else if arrReached (Tbl.look 0 (s.crew c).counts n) target then
        beat c (tset c rd 0 (s.setCrew c { s.crew c with wait := .none }))
      else s
    else s
  | _ => s

/-- An increment or poison applied to a counter of a physical crew (R167 to R169). -/
def counterApply (p n inc : Nat) (poison : Bool) (s : State) : State :=
  let x := s.crew p
  wakeArr p (s.setCrew p (if poison then { x with dead := setAdd n x.dead }
    else { x with counts := Tbl.put x.counts n (Tbl.look 0 x.counts n + BitVec.ofNat 32 inc) }))

/-- A response of this stack to a request from the field (R282). -/
def respond (dst tag op : Nat) (ordered : Bool) (st : Status) (data : List Byte) (s : State) : State :=
  (sendMsg { vc := 1, ordered := ordered, src := s.fld.id, dst := dst, addr := 0, tag := tag, op := op,
             status := st.code, len := data.length, data := data } s).1

/-- A local arrival is applied or refused, and its sender answered (R161, R167, R282). -/
def arrivalApply (a : Arrival) (s : State) : State :=
  let n := bits 3 0 a.addr.toNat
  let r : State × Status := match physCrew s (bits 10 4 a.addr.toNat) with
    | some p => (counterApply p n (bits 47 32 a.addr.toNat) a.poison s, .ok)
    | none => (s, .denied)
  let s := match a.from_ with
    | some (c, xo) => arrAnswered c a.addr xo r.2 r.1
    | none => r.1
  match a.peer with
  | some (x, tag, ord) => respond x tag 0x13 ord r.2 [] s
  | none => s

/-! ### Fences (R127, R153, R402, R458) -/

/-- A loss in service is to be recorded in the survey (R458). [DESIGN CHOICE: log entry 27; DEDUCED: log entry 41] -/
def noteLoss (grain index cause : Nat) (s : State) : State :=
  if s.brg.unwritten.any (fun u => u.1 == grain && u.2.1 == index) then s
  else { s with brg := { s.brg with unwritten := s.brg.unwritten ++ [(grain, index, cause, s.now)] } }

/-- The cuts of a fenced hewer end UNIT_DEAD, but for one whose drain has begun unless the fence is of its crew or
gallery (R127); `i` runs over the issued list. -/
def killIssued (c h : Nat) (hard : Bool) : Nat → State → State
  | 0, s => s
  | i + 1, s =>
    let s := killIssued c h hard i s
    match (s.hewer c h).issued[i]? with
    | some k => if k.phase = 0 ∨ (k.phase = 1 ∧ hard = true) then failCut c h i .unitDead s else s
    | none => s

/-- A hewer is fenced (R127): its cuts end, its token is released, the cause is recorded; `lossCause` is the survey's.
In a running crew the microcode is to attempt a takeover (R179). [DEDUCED: log entry 41] -/
def fenceHewer (c h cause lossCause : Nat) (s : State) : State :=
  let x := s.hewer c h
  let hard := decide (cause = 3 ∨ cause = 4)
  if x.fenceCause ≠ 0 then
    if hard then applyRels c (flushDone c h (killIssued c h true x.issued.length s)) else s
  else
    let s := match streaming x with | some (i, _) => cutStops c h i s | none => s
    let x := s.hewer c h
    let s := s.setHewer c h { x with
      fenceCause := cause, queue := [], checked := false
      issued := x.issued ++ x.queue.map (fun k => ({ cut := k, phase := 2, st := .unitDead } : CutRun)) }
    let s := killIssued c h hard x.issued.length s
    let s := tokRelease (layerOf c) (colOf c h) s
    let s := if !hard && (s.crew c).state == 4 && (s.crew c).takeover.isNone then
        s.setCrew c { s.crew c with takeover := some h } else s
    noteLoss 1 c lossCause (applyRels c (flushDone c h s))

/-- The skip queue of a fenced crew is freed (R153). -/
def skqClear (c : Nat) (s : State) : State :=
  s.setDresser c { s.dresser c with skq := (s.dresser c).skq.map (fun p => (p.1, ({} : SkqEntry))) }

/-- The dresser's work ends UNIT_DEAD: pending launches and the running routine, unless it has already ended with
UNIT_FAULT (R153, R155); the routine's record carries its flags (R136), and is held while no entry is free (R161). -/
def dresserDead (c : Nat) (s : State) : State :=
  let d := s.dresser c
  let flags := b2n d.rsat + 2 * b2n d.rinv
  let kept : List CplRec := match d.done with
    | some r => [{ tag := r.1, status := r.2, source := 2, flags := flags }]
    | none => match d.run with
      | some r => [{ tag := r.tag, status := .unitDead, source := 2, flags := flags }]
      | none => []
  let ends := kept ++ d.queue.map (fun r => ({ tag := r.tag, status := .unitDead, source := 2 } : CplRec))
  let room := dresserRoom s c
  let s := s.setDresser c { d with
    queue := [], run := none, waitFrom := none
    done := if room then none else kept.head?.map (fun e => (e.tag, e.status))
    lastStatus := match ends.getLast? with | some e => e.status.code | none => d.lastStatus }
  (if room then ends else ends.drop kept.length).foldl (fun s e => postRec c e s) s

/-- A whole crew is fenced (R153, Table 1-7): both hewers, the dresser, the skip queue, the tally; its send table is
poisoned. `cause` is 3 for the crew, 4 for its gallery. [DEDUCED: log entry 41] -/
def fenceCrew (c cause : Nat) (s : State) : State :=
  if (s.crew c).fenced then s
  else
    let s := s.setCrew c { s.crew c with fenced := true, takeover := none }
    let s := fenceHewer c 1 cause 3 (fenceHewer c 0 cause 3 s)
    let s := dresserDead c (skqClear c s)
    let s := s.setCrew c { s.crew c with state := 6, wait := .none, user := false,
                                         cpl := (s.crew c).cpl ++ (s.crew c).absorbed, absorbed := [] }
    noteLoss 1 c 3 (poisonStart c s)

end Sys2Proof.Machine
end

