-- ==== Sys2Proof/Machine/HostOps.lean ====
section
/-! DEFINITION. Completion rings and the records of host requests (R357 to R360, R364). -/

namespace Sys2Proof.Machine

/-- A function's host-memory traffic is held (R364). -/
def Fn.hold (x : Fn) : Bool := !x.bme || x.d3

/-- The records of a function's ring (R366). -/
def Fn.ringSize (x : Fn) : Nat := 2 ^ (if 6 ≤ x.cqLog2 ∧ x.cqLog2 ≤ 16 then x.cqLog2 else 6)

/-- A record enters the ring: written to host memory with its phase, counted, and signalled when the count is reached; its
request is outstanding no longer (R357 to R360, R366). [DEDUCED: log entry 77] -/
def cqPut (f : Nat) (rec : List Byte) (s : State) : State :=
  let x := s.fn f
  let wrap := decide (x.ringSize ≤ x.tail + 1)
  let n := x.unsig + 1
  let full := decide (max 1 x.modCount ≤ n)
  let s := s.emit (.dmaWrite f (x.cqBase + 32 * x.tail) (listSet rec 6 (BitVec.ofNat 8 x.phase)))
  let s := s.setFn f { x with
    tail := if wrap then 0 else x.tail + 1, phase := if wrap then 1 - x.phase else x.phase
    oldestAt := if x.unsig = 0 then s.now else x.oldestAt, unsig := if full then 0 else n
    outstanding := x.outstanding - 1 }
  if full then msix f x.vector s else s

/-- A record is written to an enabled ring, or held while the function's DMA is held; a disabled ring takes none (R357,
R364). [DEDUCED: log entry 77] -/
def cqWrite (f : Nat) (rec : List Byte) (s : State) : State :=
  let x := s.fn f
  if !x.cqEn then s.setFn f { x with outstanding := x.outstanding - 1 }
  else if x.hold then s.setFn f { x with heldRecs := x.heldRecs ++ [rec] } else cqPut f rec s

/-- A completion record without its phase (Table 12-8). -/
def cqRecord (r : HostReq) (st : Status) (result : Nat) (detail : List Byte) : List Byte :=
  (r.bytes.drop 2).take 2 ++ leBytes 2 r.slot ++ leBytes 1 st.code ++ (r.bytes.drop 1).take 1 ++ [0, 0]
    ++ leBytes 8 result ++ (detail ++ List.replicate 16 0).take 16

/-- The request numbered `id` leaves the runtime's list; its record is written unless a reset of its function removed it
(R359, R363). -/
def completeReq (id : Nat) (st : Status) (result : Nat) (detail : List Byte) (s : State) : State :=
  match s.hif.reqs.find? (fun r => r.id == id) with
  | none => s
  | some r =>
    let s := { s with hif := { s.hif with reqs := s.hif.reqs.filter (fun q => q.id != id) } }
    if r.dead then s else cqWrite r.fn (cqRecord r st result detail) s

/-- As `completeReq`, for a unit's work that may have come from no host request. -/
def completeOpt (id : Option Nat) (st : Status) (result : Nat) (detail : List Byte) (s : State) : State :=
  match id with
  | some i => completeReq i st result detail s
  | none => s

end Sys2Proof.Machine
end

