-- ==== Sys2Proof/Machine/Bus.lean ====
section
/-! DEFINITION. The bus: a face unit's launches and their completion (R185 to R190, R199), accesses through BAR2 and of the
fabric's requesters to the memory windows (R342 to R346), and the requests that wait (R54, R57, R106, R208). -/

namespace Sys2Proof.Machine

/-! ### Units and launches (R185 to R190, R199, R210) -/

/-- The face unit exists: its seam is present and assay has not failed it. -/
def faceHere (s : State) (n : Nat) : Bool := s.seamPresent n && (s.face n).present

/-- The face unit works: it exists and the stack is not STOPPED (Table 15-5). -/
def faceRuns (s : State) (n : Nat) : Bool := faceHere s n && !s.thm.stopped

/-- The requester may launch (R186). -/
def faceOwner (s : State) : Requester → Bool
  | .foreman => true
  | .overseer _ => !s.chr.faceLauncherHost
  | .host f => s.chr.faceLauncherHost && f == 0
  | _ => false

/-- Word `i` of a launch descriptor (Table 7-2). -/
def fWord (l : FLaunch) (i : Nat) : Nat := (l.words.getD i 0).toNat

/-- The arrival address of a launch. -/
def fArr (l : FLaunch) : Nat := fWord l 6 + 2 ^ 32 * fWord l 7

/-- FACE_DONE (Table 7-12). -/
def faceDoneWord (x : Face) : Nat := x.doneTag + 2 ^ 16 * x.doneStatus + 2 ^ 20 * x.doneCount

/-- An arrival address that a launch may carry: no reserved field set, and the stack's own ID (R187, R189).
[DEDUCED: log entry 31] -/
def faceArrGood (s : State) (a : Nat) : Bool := !arrBad (BitVec.ofNat 64 a) && arrStack (BitVec.ofNat 64 a) == s.fld.id

/-- A launch completes: FACE_DONE advances, its arrival is sent or its counter poisoned, and a host request gets its
record (R190, R356). [DEDUCED: log entry 31] -/
def faceDone (n : Nat) (l : FLaunch) (st : Status) (s : State) : State :=
  let x := s.face n
  let x' := { x with doneTag := bits 31 16 (fWord l 0), doneStatus := st.code, doneCount := (x.doneCount + 1) % 256
                     lastStatus := st.code }
  let s := s.setFace n x'
  let a := fArr l
  let s := if a ≠ 0 then unitArrival (BitVec.ofNat 64 a) (st != .ok) s else s
  completeOpt l.req st (faceDoneWord x') [] s

/-- A launch enters the queue, or ends at once with UNIT_DEAD on a fenced unit, or is dropped (R187, R199). -/
def faceEnqueue (n : Nat) (l : FLaunch) (s : State) : State :=
  let x := s.face n
  if x.state = 3 then faceDone n l .unitDead s
  else if x.queue.length < 4 then s.setFace n { x with queue := x.queue ++ [l] }
  else s.setFace n { x with dropped := true }

/-! ### Functions and apertures (R340 to R350) -/

/-- A function that exists: the physical one, or a virtual one while VF Enable is set (R340). -/
def State.fnExists (s : State) (f : Nat) : Bool := f == 0 || (s.hif.vfEn && decide (f ≤ s.hif.numVfs))

/-- The size of a function's apertures in bytes (R342, R349). -/
def aptSize (s : State) (f : Nat) : Nat :=
  if f = 0 then 2 ^ (s.hif.bar2Log2 - 4) else 2 ^ (s.hif.vfBar2Log2 - 2)

/-- The number of a function's apertures. -/
def aptCount (f : Nat) : Nat := if f = 0 then 16 else 4

/-- An aperture's register contents: base and enable. -/
def aptOf (s : State) (f n : Nat) : Nat × Bool :=
  if f = 0 then Tbl.look (0, false) s.hif.apt n else Tbl.look (0, false) (s.fn f).vapt n

/-- The windows that are closed to virtual functions: face stores and registers (R349). -/
def vfClosed (s : State) (dpa : Nat) : Bool :=
  match rawDecode s dpa with
  | some (w, _) => w == 3 || w == 5
  | none => false

/-- The DPA of a BAR2 offset and its DENIED reason, if any: 0 for a disabled aperture, 3 for a window closed to virtual
functions (R342, R349). None: the offset lies outside BAR2. [DESIGN CHOICE: log entry 79] -/
def bar2Dpa (s : State) (f off : Nat) : Option (Nat × Option Nat) :=
  let a := aptSize s f
  let n := off / a
  if aptCount f ≤ n then none
  else
    let p := aptOf s f n
    let dpa := p.1 / a * a + off % a
    some (dpa, if !p.2 then some 0 else if f ≠ 0 ∧ vfClosed s dpa = true then some 3 else none)

/-- The apertures' bases of Table 12-3. -/
def defaultBase (n : Nat) : Nat :=
  if n < 6 then n * 0x1000000000 else if n = 6 then 0x10000000000 else if n = 7 then 0x18000000000
  else 0x20000000000 + (n - 8) * 0x1000000000

/-- The apertures at reset (R343). -/
def aptReset (s : State) : Tbl (Nat × Bool) :=
  if s.chr.bar2Log2 ≠ 40 then []
  else match s.chr.apertures with
    | none => (List.range 16).map (fun n => (n, (defaultBase n, true)))
    | some l => (List.range 16).filterMap (fun n => (l.getD n none).map (fun b => (n, (b, true))))

/-- Every byte of a range lies in an enabled aperture of the function, in a window open to it (R349, R356). -/
def reachable (s : State) (f dpa len : Nat) : Bool :=
  let a := aptSize s f
  (spans a (len / a + 2) dpa len).all (fun p =>
    (List.range (aptCount f)).any (fun n => (aptOf s f n).2 && (aptOf s f n).1 / a == p.1 / a)
      && (f == 0 || !(vfClosed s p.1 || vfClosed s (p.1 + p.2 - 1))))

/-! ### Accesses through BAR2 and the fabric (R342 to R346, R57, R106) -/

/-- A host read's outcome as a PCIe completion (Table 12-4). -/
def hostReadOut (f : Nat) (st : Status) (bs : List Byte) (s : State) : State :=
  match st with
  | .ok => s.emit (.cplData f bs)
  | .denied => s.emit (.cplUR f)
  | _ => s.emit (.cplCA f)

/-- A host read at the DPA its aperture gave it; it waits while a line of it waits. -/
def hostGet (f dpa len : Nat) (s : State) : State :=
  if spanHeld s (.host f) dpa len then { s with heldReqs := s.heldReqs ++ [(s.since, .read f dpa len)] }
  else
    let r := dpaRead (.host f) dpa len s
    hostReadOut f r.2.2 r.2.1 r.1

/-- A read through BAR2. -/
def bar2Get (f off len : Nat) (s : State) : State :=
  if s.thm.stopped then s.emit (.cplCA f)
  else
    match bar2Dpa s f off with
    | none => s
    | some (dpa, some why) => (recordDeny (.host f) dpa false why s).emit (.cplUR f)
    | some (dpa, none) => hostGet f dpa len s

/-- A write that ended without effect for a reason of Table 12-4's last row is logged; the spec gives the record no code.
[DESIGN CHOICE: log entry 79] -/
def hostWriteLost (f : Nat) (st : Status) (s : State) : State :=
  match st with
  | .abortedByReset | .timeout | .unitDead =>
    logEvent (s.fresh.1 % 32) 0 (s.fresh.1 / 32 % 65536) [(0, 1, f), (1, 1, st.code)] s.fresh.2
  | _ => s

/-- A host write at the DPA its aperture gave it; it waits while a line of it waits. -/
def hostPut (f dpa : Nat) (data : List Byte) (relaxed : Bool) (s : State) : State :=
  if spanHeld s (.host f) dpa data.length then
    { s with heldReqs := s.heldReqs ++ [(s.since, .write f dpa data relaxed)] }
  else
    let r := dpaWrite (.host f) dpa data s
    hostWriteLost f r.2 r.1

/-- A write through BAR2. -/
def bar2Put (f off : Nat) (data : List Byte) (poisoned relaxed : Bool) (s : State) : State :=
  if poisoned then s.setFn f { s.fn f with aerPoison := true }
  else if s.thm.stopped then s
  else
    match bar2Dpa s f off with
    | none => s
    | some (dpa, some why) => recordDeny (.host f) dpa true why s
    | some (dpa, none) => hostPut f dpa data relaxed s

/-- The lines of a requester that a landing buffer holds back (R253). -/
def landWaiting (s : State) (r : Requester) : Nat :=
  ((List.range 4).map (fun e => ((s.eng e).held.filter (fun h => h.2.2.2 == r)).length)).sum

/-- An access of the memory windows by a requester on the fabric; a write is answered once its narrow parts have their merge
entries and its gradient lines are admitted (R253, R374). -/
def dpaAccess (r : Requester) (store : Bool) (dpa len : Nat) (data : List Byte) (s : State) : State :=
  let n := if store then data.length else len
  let hold := { s with heldReqs := s.heldReqs ++ [(s.since, .dpa r store dpa len data)] }
  if spanHeld s r dpa n then hold
  else if store then
    let x := writePieces r (pieces dpa n) data s
    let wait := waitingParts x.1 r + landWaiting x.1 r - waitingParts s r - landWaiting s r
    if x.1.waited then hold
    else if wait = 0 then x.1.emit (.answer r x.2 []) else { x.1 with mergeAns := x.1.mergeAns ++ [(r, wait, x.2)] }
  else
    let x := readPieces r (pieces dpa n) s
    if x.1.waited then hold else x.1.emit (.answer r x.2.2 (if x.2.2 = .ok then x.2.1 else []))

/-- A BAR2 write of a function that did not carry Relaxed Ordering is not yet performed (R208). -/
def writesOpen (s : State) (f : Nat) : Bool :=
  s.heldReqs.any (fun h => match h.2 with | .write g _ _ rel => g == f && !rel | _ => false)
    || s.merges.any (fun c => (c.2.host ++ c.2.hostWait).any (fun m => m.reqs.contains (.host f)))
    || (List.range 4).any (fun e => (s.eng e).held.any (fun h => h.2.2.2 == .host f))

/-- Launches whose function's earlier writes are performed take effect, oldest first (R208); `n` bounds them. -/
def releaseLaunches : Nat → State → State
  | 0, s => s
  | n + 1, s =>
    match s.launchWait.findIdx? (fun l => !writesOpen s l.1) with
    | none => s
    | some i =>
      let l := s.launchWait.getD i default
      releaseLaunches n (faceEnqueue l.2.1 l.2.2 { s with launchWait := listDel s.launchWait i })

/-- A request that waited is tried again. -/
def serveOne (s : State) (h : Nat × Held) : State :=
  let s := { s with reqAt := some h.1 }
  let s := match h.2 with
    | .read f dpa len => hostGet f dpa len s
    | .write f dpa data rel => hostPut f dpa data rel s
    | .dpa r st dpa len data => dpaAccess r st dpa len data s
    | .message a m => { s with fld := { s.fld with inbox := s.fld.inbox ++ [(a, m)] } }
    | .post r dpa data => postWrite r dpa data s
  { s with reqAt := none }

/-- Requests that wait are tried again, oldest first (R54, R57, R106, R253). [DEDUCED: log entry 25] -/
def serveHeld (s : State) : State :=
  if s.heldReqs = [] ∧ s.launchWait = [] then s
  else
    let t := s.heldReqs.foldl serveOne { s with heldReqs := [] }
    releaseLaunches t.launchWait.length t

end Sys2Proof.Machine
end

