-- ==== Sys2Proof/Machine/Tally.lean ====
section
/-! DEFINITION. The tally's crew extension (R157 to R174): cuts, tables, launches, records, transfers, tokens, notices,
heartbeats and arrivals. -/

namespace Sys2Proof.Machine

/-! ### Duty tokens (R28 to R35, R172) -/

/-- The slice judges a request for a hewer's token (R31, R32, R34): the state and whether it is held. -/
def tokRequest (layer col : Nat) (s : State) : State × Bool :=
  if s.holds layer col then (s, true)
  else if tokGrants s layer col then
    let t := s.tok col
    (s.setTok col { t with holders := t.holders ++ [layer], revoked := setDel layer t.revoked }, true)
  else (s, false)

/-- TOK_ACQ. [DEDUCED: log entry 28] -/
def execTokAcq (c rd rs1 : Nat) (s : State) : Res :=
  tally c (fun s =>
    let h := hewerFor s c ((tget s c rs1).toNat % 2)
    let r := tokRequest (layerOf c) (colOf c h) s
    tset c rd (BitVec.ofNat 64 (b2n r.2)) r.1) s

/-- TOK_REL. -/
def execTokRel (c rs1 : Nat) (s : State) : Res :=
  tally c (fun s => tokRelease (layerOf c) (colOf c (hewerFor s c ((tget s c rs1).toNat % 2))) s) s

/-- The token state word of a column (Table 6-2, tok.stat). -/
def tokWord (s : State) (col : Nat) : Nat :=
  s.tokLimit + 8 * maskOf 4 (fun i => (s.tok col).holders.contains i)
    + 128 * maskOf 4 (fun i => (s.tok col).revoked.contains i) + 2048 * b2n s.flowClamp + 4096 * b2n s.layerSuspect
    + 8192 * b2n s.tokAdjacency

/-- TOK_STAT. -/
def execTokStat (c rd rs1 : Nat) (s : State) : Res :=
  tally c (fun s => tset c rd (BitVec.ofNat 64 (tokWord s (colOf c ((tget s c rs1).toNat % 2)))) s) s

/-- The newest tokens of a column revoked until the holders fit (R34); `n` bounds them. -/
def revokeOver (col : Nat) : Nat → State → State
  | 0, s => s
  | n + 1, s =>
    let t := s.tok col
    if t.holders.length ≤ s.tokLimit then s
    else
      let layer := t.holders.getLastD 0
      revokeOver col n (postRevoked (crewOf layer col) (roleOf col)
        (s.setTok col { holders := t.holders.dropLast, revoked := setAdd layer t.revoked }))

/-- TOKEN_REVOKE. -/
def execTokenRevoke (col : Nat) (s : State) : Res := .next (if col < 64 then revokeOver col 4 s else s)

/-! ### Cuts, tables, releases and launches (R159, R161, R164) -/

/-- A cut is queued, or completes at once when its hewer is fenced (R127, R159, R179). -/
def pushCut (c role : Nat) (ws : List Word) (s : State) : State :=
  let x := s.crew c
  let k : Cut := { words := ws, role := role, order := x.order }
  let ring := fun l : List Cut => (l ++ [k]).drop (l.length + 1 - 19)
  let x := takeCut role { x with order := x.order + 1, ring0 := if role = 0 then ring x.ring0 else x.ring0,
                                 ring1 := if role = 1 then ring x.ring1 else x.ring1 }
  let s' := s.setCrew c x
  let h := hewerFor s c role
  if (s.hewer c h).fenceCause ≠ 0 then postRec c { tag := k.seq, status := .unitDead, source := role } s'
  else
    let k := if redirected s c role then { k with words := raiseCut ws } else k
    let s' := s'.setDresser c { s'.dresser c with popped := (s'.dresser c).popped.filter (· != (role, k.seq)) }
    s'.setHewer c h { s.hewer c h with queue := (s.hewer c h).queue ++ [k] }

/-- CUT_PUSH. -/
def execCutPush (c rd rs1 rs2 : Nat) (s : State) : Res :=
  tally c (fun s =>
    let role := (tget s c rs2).toNat % 2
    withDescriptor c (tget s c rs1) (fun bs s =>
      if 19 ≤ cutUse (s.crew c) role then tset c rd 0 s else tset c rd 1 (pushCut c role (wordsOf bs) s)) s) s

/-- A code-table load begins, or waits for the load of its array's shadow (R118, R119). -/
def startLoad (c h : Nat) (q : TblReq) (s : State) : State :=
  let x := s.hewer c h
  let busy := x.loads.any (fun l => l.arr == q.arr)
  s.setHewer c h { x with
    loads := x.loads ++ [q]
    shd := if busy then x.shd else Tbl.put x.shd q.arr { id := q.id, kind := q.kind, st := 1 } }

/-- TBL_LOAD. -/
def execTblLoad (c rd rs1 rs2 : Nat) (s : State) : Res :=
  tally c (fun s =>
    let a := (tget s c rs1).toNat
    let o := (tget s c rs2).toNat
    let role := bits 2 2 o
    let q : TblReq := { arr := bits 1 0 o, addr := a, id := bits 8 3 o, kind := bits 9 9 o, role := role }
    if a % 16 ≠ 0 ∨ 0x200000 < a + (if q.kind = 0 then 16 else 8) then tallyIllegal c s
    else if 4 ≤ tblUse (s.crew c) role then tset c rd 0 s
    else
      let s := tset c rd 1 (s.setCrew c (takeTbl role (s.crew c)))
      let h := hewerFor s c role
      let x := s.hewer c h
      let post := fun st s => postRec c { tag := q.id, status := st, source := 4 + role } s
      if x.fenceCause ≠ 0 then post .unitDead s
      else if redirected s c role then
        let act := Tbl.look {} x.act q.arr
        let shd := Tbl.look {} x.shd q.arr
        if (act.valid && act.id == q.id) || (shd.st == 2 && shd.id == q.id) then post .ok s
        else startLoad c h { q with addr := a + 0x100000 } s
      else startLoad c h q s) s

/-- BLK_REL. -/
def execBlkRel (c rs1 rs2 : Nat) (s : State) : Res :=
  tally c (fun s =>
    let first := bits 10 0 (tget s c rs1).toNat
    let o := (tget s c rs2).toNat
    let count := bits 11 0 o
    let role := bits 16 16 o
    if 2048 < first + count then tallyIllegal c s
    else if count = 0 then s
    else
      let up := if redirected s c role then 1024 else 0
      let x := s.crew c
      applyRels c (s.setCrew c { x with
        order := x.order + 1
        rels := x.rels ++ [(hewerFor s c role, first + up, min count (2048 - (first + up)), x.order)] })) s

/-- A launch of the two operand registers of drs.launch (Table 6-2). -/
def launchOf (v1 v2 : Dword) : Routine :=
  { start := bits 12 0 v1.toNat, base := bits 28 16 v1.toNat, tag := bits 15 0 v2.toNat }

/-- DRS_LAUNCH. -/
def execDrsLaunch (c rs1 rs2 : Nat) (s : State) : Res :=
  tally c (fun s =>
    let d := s.dresser c
    if 4 ≤ d.queue.length then s.setCrew c { s.crew c with wait := .launch (tget s c rs1) (tget s c rs2) }
    else s.setDresser c { d with queue := d.queue ++ [launchOf (tget s c rs1) (tget s c rs2)] }) s

/-- An entry that sq.drop frees (R149). -/
def sqDrops (role seq : Nat) (e : SkqEntry) : Bool := e.st == 2 && !e.selected && e.role == role && e.seq == seq

/-- The FULL entries of a role and seq that no SQPOP has selected freed (R149). -/
def dropTiles (c role seq : Nat) (s : State) : State :=
  s.setDresser c { s.dresser c with
    skq := (s.dresser c).skq.map (fun p => if sqDrops role seq p.2 then (p.1, ({} : SkqEntry)) else p) }

/-- SQ_DROP. -/
def execSqDrop (c rd rs1 : Nat) (s : State) : Res :=
  tally c (fun s =>
    let v := (tget s c rs1).toNat
    let n := ((s.dresser c).skq.filter (fun p => sqDrops (bits 16 16 v) (bits 15 0 v) p.2)).length
    tset c rd (BitVec.ofNat 64 n) (dropTiles c (bits 16 16 v) (bits 15 0 v) s)) s

/-! ### Completion records (R160, R161, R170) -/

/-- CPL_GET. -/
def execCplGet (c rd : Nat) (s : State) : Res := tally c (cplTake c rd) s

/-- The bound of a wait (Table 6-2). -/
def waitNs (v : Dword) : Nat := min v.toNat 16000

/-- CPL_WAIT. [DESIGN CHOICE: log entry 34] -/
def execCplWait (c rd rs1 : Nat) (s : State) : Res :=
  tally c (fun s =>
    let t := waitNs (tget s c rs1)
    let s := beat c s
    if (s.crew c).cpl ≠ [] ∨ t = 0 then cplTake c rd s
    else s.setCrew c { s.crew c with wait := .cpl rd (s.hclkNs (galOf c) + t) }) s

/-- A wait of the tally that has run out ends in a value (R168, R170). [DESIGN CHOICE: log entry 8] -/
def waitEnds (c rd : Nat) (v : Dword) (s : State) : State :=
  beat c (tset c rd v (s.setCrew c { s.crew c with wait := .none }))

/-- CPL_WAIT_TIMEOUT. -/
def execCplWaitTimeout (c : Nat) (s : State) : Res :=
  .next (match (s.crew c).wait with
    | .cpl rd dl =>
      if (s.crew c).state = 4 ∧ s.crewRuns c = true ∧ (s.crew c).cpl = [] ∧ dl ≤ s.hclkNs (galOf c) then waitEnds c rd 0 s
      else s
    | _ => s)

/-- XFER. -/
def execXfer (c rd rs1 : Nat) (s : State) : Res :=
  tally c (fun s =>
    withDescriptor c (tget s c rs1) (fun bs s =>
      let x := s.crew c
      if 8 ≤ x.sendUse then tset c rd 0 s
      else
        let ws := redirectEnd s c 7 4 (redirectEnd s c 4 2 (wordsOf bs))
        tset c rd 1 (s.setCrew c { x with
          sendUse := x.sendUse + 1, order := x.order + 1, xferQ := x.xferQ ++ [{ words := ws, order := x.order }] })) s) s

/-! ### Notices and heartbeats (R170 to R174, R405, R427) -/

/-- A step is added to the sum of its slot of 250 ns, slots ascending (R407). -/
def demandAdd (slot : Nat) (x : Int) : List (Nat × Int) → List (Nat × Int)
  | [] => [(slot, x)]
  | (k, y) :: t => if slot < k then (slot, x) :: (k, y) :: t else if slot = k then (k, y + x) :: t
    else (k, y) :: demandAdd slot x t

/-- NOTICE: the gallery regulator and the Foreman take the step (R405, R427). -/
def execNotice (c rd rs1 rs2 : Nat) (s : State) : Res :=
  tally c (fun s =>
    let a := (tget s c rs1).toNat
    let b := (tget s c rs2).toNat
    if bits 15 10 a ≠ 0 ∨ bits 63 32 a ≠ 0 ∨ bits 63 16 b ≠ 0 then tallyIllegal c s
    else
      let at_ := s.tclk + BitVec.ofNat 64 b
      let g := galOf c
      let n := (c, at_.toNat, sext 10 (bits 9 0 a), bits 31 16 a)
      let x := s.gal g
      let s := s.setGal g { x with
        notices := x.notices ++ [n]
        forecast := x.forecast ++ [n] }
      let s := if s.chr.boardDemand then
          { s with pwr := { s.pwr with steps := demandAdd (at_.toNat / 250) (n.2.2.1 * mvNow s g) s.pwr.steps } } else s
      let s := if b < 1500 then s.setCrew c { s.crew c with late := true } else s
      tset c rd at_ s) s

/-- HBEAT. -/
def execHbeat (c rs1 : Nat) (s : State) : Res :=
  tally c (fun s =>
    let v := bits 15 0 (tget s c rs1).toNat
    beat c (s.setCrew c { s.crew c with progress := v })) s

/-- HEARTBEAT_EXPIRED: 20 µs of HCLK running time without a heartbeat fence the crew. [DESIGN CHOICE: log entry 8] -/
def execHeartbeatExpired (c : Nat) (s : State) : Res :=
  .next (
    let x := s.crew c
    if s.crewPresent c = true ∧ x.state = 4 ∧ s.crewRuns c = true ∧ x.hbFrom + 20000 ≤ s.hclkNs (galOf c) then
      logEvent 0x08 c 0x0803 [(0, 2, c), (2, 2, x.progress)] (fenceCrew c 3 s)
    else s)

/-! ### Arrivals (R161, R167 to R169, R183) -/

/-- An arr.send or arr.poison takes a credit and leaves when it may. -/
def queueSend (c rd : Nat) (addr : Dword) (poison : Bool) (s : State) : State :=
  let x := s.crew c
  if 8 ≤ x.sendUse then tset c rd 0 s
  else
    let s := s.setCrew c { x with
      sendUse := x.sendUse + 1
      arrs := x.arrs ++ [{ addr := addr, poison := poison, at_ := s.now, order := x.order }] }
    pumpSends c 16 (tset c rd 1 s)

/-- ARR_SEND. -/
def execArrSend (c rd rs1 : Nat) (s : State) : Res := tally c (fun s => queueSend c rd (tget s c rs1) false s) s

/-- ARR_POISON. -/
def execArrPoison (c rd rs1 : Nat) (s : State) : Res := tally c (fun s => queueSend c rd (tget s c rs1) true s) s

/-- ARR_READ. -/
def execArrRead (c rd rs1 : Nat) (s : State) : Res :=
  tally c (fun s =>
    let n := (tget s c rs1).toNat % 16
    tset c rd (BitVec.ofNat 64 ((Tbl.look 0 (s.crew c).counts n).toNat + 2 ^ 32 * b2n ((s.crew c).dead.contains n))) s) s

/-- ARR_WAIT: its limit counts HCLK running time. [DESIGN CHOICE: log entries 34, 141] -/
def execArrWait (c rd rs1 rs2 : Nat) (s : State) : Res :=
  tally c (fun s =>
    let v := tget s c rs1
    let t := waitNs (tget s c rs2)
    let n := v.toNat % 16
    let target : Word := BitVec.ofNat 32 (bits 63 32 v.toNat)
    let s := beat c s
    if (s.crew c).dead.contains n then tset c rd (BitVec.ofNat 64 Status.unitDead.code) s
    else if arrReached (Tbl.look 0 (s.crew c).counts n) target then tset c rd 0 s
    else if t = 0 then tset c rd (BitVec.ofNat 64 Status.timeout.code) s
    else s.setCrew c { s.crew c with wait := .arr n target rd (s.hclkNs (galOf c) + t) }) s

/-- ARR_WAIT_TIMEOUT. -/
def execArrWaitTimeout (c : Nat) (s : State) : Res :=
  .next (match (s.crew c).wait with
    | .arr _ _ rd dl =>
      if (s.crew c).state = 4 ∧ s.crewRuns c = true ∧ dl ≤ s.hclkNs (galOf c) then
        waitEnds c rd (BitVec.ofNat 64 Status.timeout.code) s
      else s
    | _ => s)

/-- A counter of a crew set, and its dead bit cleared (R168, R183). -/
def counterSet (c n : Nat) (v : Word) (s : State) : State :=
  s.setCrew c { s.crew c with counts := Tbl.put (s.crew c).counts n v, dead := setDel n (s.crew c).dead }

/-- ARR_CLR. -/
def execArrClr (c rs1 : Nat) (s : State) : Res := tally c (fun s => counterSet c ((tget s c rs1).toNat % 16) 0 s) s

/-- A send that timed out is no longer waited for. -/
def forgetSend (c : Nat) (addr : Dword) (s : State) : State :=
  let s := match s.arrQ.findIdx? (fun a => a.addr == addr && a.from_ == some (c, none)) with
    | some i => { s with arrQ := listSet s.arrQ i { s.arrQ.getD i {} with from_ := none } }
    | none => s
  match s.fld.outst.findIdx? (fun p => p.2 == .arrival c addr none) with
  | some i => { s with fld := { s.fld with outst := listDel s.fld.outst i } }
  | none => s

/-- ARR_SEND_TIMEOUT. [DEDUCED: log entry 30] -/
def execArrSendTimeout (c i : Nat) (s : State) : Res :=
  .next (match (s.crew c).arrs[i]? with
    | some a =>
      if a.sent = true ∧ a.xfer = none ∧ a.at_ + 1000000 ≤ s.now then
        postRec c { tag := a.addr.toNat % 65536, status := .timeout, source := 7 }
          (forgetSend c a.addr (s.setCrew c { s.crew c with arrs := listDel (s.crew c).arrs i }))
      else s
    | none => s)

/-- ARRIVAL_APPLY. -/
def execArrivalApply (i : Nat) (s : State) : Res :=
  .next (match s.arrQ[i]? with
    | some a => arrivalApply a { s with arrQ := listDel s.arrQ i }
    | none => s)

/-- A requester that reaches registers: the physical function through BAR0, the Overseers and the Foreman through the
register window, and field peers on the management channel (R8, R50, Table 2-3). -/
def reachesRegs : Requester → Bool
  | .host f => f == 0
  | .overseer _ => true
  | .foreman => true
  | .peer _ _ => true
  | _ => false

/-- ARR_COUNT_WRITE. -/
def execArrCountWrite (r : Requester) (c n : Nat) (v : Word) (s : State) : Res :=
  .next (if reachesRegs r = true ∧ s.crewPresent c = true ∧ n < 16 then wakeArr c (counterSet c n v s) else s)

/-- A poison of the bin slice to the counter of an arrival address, whose answer nothing waits for (R169). -/
def slicePoison (c : Nat) (a : Dword) (s : State) : State :=
  if arrBad a then s
  else if arrStack a = s.fld.id then { s with arrQ := s.arrQ ++ [{ addr := a, poison := true, from_ := none, peer := none }] }
  else (fieldRequest { (default : Msg) with vc := 0, dst := arrStack a, addr := a, op := 0x04 } (.poison c) s).1

/-- SEND_TABLE_POISON. -/
def execSendTablePoison (c : Nat) (s : State) : Res :=
  .next (match (s.crew c).poisonAt with
    | some i => match (s.crew c).sends[i]? with
      | some a => slicePoison c a (s.setCrew c { s.crew c with poisonAt := some (i + 1) })
      | none => s
    | none => s)

/-! ### The crew state word (Table 6-4) -/

/-- The crew state word; the 6 bits of records show 63 for a full queue of 64. [DESIGN CHOICE: log entry 141] -/
def crewWord (s : State) (c : Nat) : Nat :=
  let x := s.crew c
  let tok := fun h => s.holds (layerOf c) (colOf c (hewerFor s c h))
  x.cutUse0 + 2 ^ 5 * x.cutUse1 + 2 ^ 10 * (s.dresser c).queue.length + 2 ^ 13 * x.sendUse
    + 2 ^ 17 * min 63 x.cpl.length + 2 ^ 23 * maskOf 2 tok + 2 ^ 25 * maskOf 2 (fun h => !tok h)
    + 2 ^ 27 * maskOf 2 (fun h => (s.hewer c h).fenceCause != 0) + 2 ^ 29 * b2n x.buddy

/-- CREW_STAT. -/
def execCrewStat (c rd : Nat) (s : State) : Res := tally c (fun s => tset c rd (BitVec.ofNat 64 (crewWord s c)) s) s

/-! ### Loads and stores of the device address space (R158) -/

/-- The value a load of `size` bytes gives its register (R157). -/
def loadValue (signed : Bool) (size : Nat) (bs : List Byte) : Dword :=
  if signed then BitVec.ofInt 64 (sext (8 * size) (leNat bs)) else BitVec.ofNat 64 (leNat bs)

/-- A load gives its value or an access fault. -/
def tallyLoad (c reg size : Nat) (signed : Bool) (addr : Dword) (dpa : Nat) (s : State) : State :=
  match dpaRead (.crew c) dpa size s with
  | (s, bs, .ok) => tset c reg (loadValue signed size bs) s
  | (s, _, _) => tallyTrap c 5 addr s

/-- A store is done, waits for its merge, or raises an access fault. -/
def tallyStore (c reg size : Nat) (addr : Dword) (dpa : Nat) (s : State) : State :=
  match dpaWrite (.crew c) dpa (leBytes size (tget s c reg).toNat) s with
  | (s', .ok) => match decodeDpa s (.crew c) dpa with
    | .ok (.seam _ _) => s'.setCrew c { s'.crew c with wait := .merge addr }
    | _ => s'
  | (s', _) => tallyTrap c 7 addr s'

/-- An access of tally memory by the program (Table 6-1): a store of user mode to the microcode region faults. -/
def tallyOwn (c : Nat) (store : Bool) (addr : Dword) (size reg : Nat) (signed : Bool) (s : State) : State :=
  if store then
    if addr.toNat < 0x8000 ∧ (s.crew c).user = true then tallyTrap c 7 addr s
    else
      match localWrite (.tly c) addr.toNat (leBytes size (tget s c reg).toNat) s with
      | (s, true) => s
      | (s, false) => tallyTrap c 7 addr s
  else
    match localRead (.tly c) addr.toNat size s with
    | (s, some bs) => tset c reg (loadValue signed size bs) s
    | (s, none) => tallyTrap c 5 addr s

/-- TALLY_DPA_ACCESS: a misaligned address traps whichever range it lies in. A request that a seam or a parked gallery holds
waits with its command. [DEDUCED: log entry 30; DESIGN CHOICE: log entry 141] -/
def execTallyDpaAccess (c : Nat) (store : Bool) (addr : Dword) (size : Nat) (reg : Nat × Bool) (s : State) : Res :=
  tally c (fun s =>
    if !(size == 1 || size == 2 || size == 4 || size == 8) then s
    else if addr.toNat % size ≠ 0 then tallyTrap c (if store then 6 else 4) addr s
    else if addr.toNat + size ≤ tlySize then tallyOwn c store addr size reg.1 reg.2 s
    else if addr.toNat < 2 ^ 63 ∨ 2 ^ 63 + 2 ^ 48 ≤ addr.toNat then tallyTrap c (if store then 7 else 5) addr s
    else if spanHeld s (.crew c) (addr.toNat - 2 ^ 63) size then s
    else if store then tallyStore c reg.1 size addr (addr.toNat - 2 ^ 63) s
    else tallyLoad c reg.1 size reg.2 addr (addr.toNat - 2 ^ 63) s) s

end Sys2Proof.Machine
end

