-- ==== Sys2Proof/Machine/DresserOps.lean ====
section
/-! DEFINITION. What the dresser's instructions share (R131 to R145, R154, R155): the fetched word, its fields, operands,
residue verdicts, and the end of a routine. -/

namespace Sys2Proof.Machine

/-! ### Fields (Table 5-2) -/

/-- Opcode. -/
def dOp (w : InstrWord) : Nat := bits 7 0 w.toNat
/-- Destination tile. -/
def dTd (w : InstrWord) : Nat := bits 10 8 w.toNat
/-- Source tile A. -/
def dTa (w : InstrWord) : Nat := bits 13 11 w.toNat
/-- Source tile B. -/
def dTb (w : InstrWord) : Nat := bits 16 14 w.toNat
/-- Source tile C. -/
def dTc (w : InstrWord) : Nat := bits 19 17 w.toNat
/-- Operand B is a scalar register. -/
def dSb (w : InstrWord) : Bool := bit 20 w.toNat
/-- Scalar register. -/
def dSreg (w : InstrWord) : Nat := bits 23 21 w.toNat
/-- Function, condition or format. -/
def dSub (w : InstrWord) : Nat := bits 27 24 w.toNat
/-- Row layout. -/
def dLay (w : InstrWord) : Bool := bit 28 w.toNat
/-- Immediate. -/
def dImm (w : InstrWord) : Nat := bits 63 32 w.toNat

/-- The opcodes of Table 5-3. -/
def dListed (op : Nat) : Bool :=
  (decide (1 ≤ op) && decide (op ≤ 9)) || (decide (0x10 ≤ op) && decide (op ≤ 0x17)) || (decide (0x20 ≤ op) && decide (op ≤ 0x24))
    || (decide (0x30 ≤ op) && decide (op ≤ 0x35)) || op == 0x40 || op == 0x7F

/-- Operand B is listed for an opcode (R139). -/
def dHasB (op : Nat) : Bool := (decide (0x10 ≤ op) && decide (op ≤ 0x17)) || (decide (0x22 ≤ op) && decide (op ≤ 0x24)) || op == 0x30

/-- An opcode reads tile A. -/
def dHasA (op : Nat) : Bool := op == 2 || op == 4 || op == 6 || (decide (9 ≤ op) && op != 0x7F)

/-- An opcode writes a tile. -/
def dHasD (op : Nat) : Bool := op == 1 || op == 3 || op == 5 || op == 7 || (decide (9 ≤ op) && op != 0x7F)

/-- An opcode reads the scalar register otherwise than as operand B: LDS, code tables and row layouts (R143). -/
def dHasS (op sub : Nat) (lay : Bool) : Bool := op == 8 || (op == 5 && (lay || decide (6 ≤ sub))) || (op == 6 && lay)

/-- Fields an opcode does not use are zero (R139). [DEDUCED: log entry 39] -/
def dUnusedZero (w : InstrWord) : Bool :=
  let op := dOp w
  (dHasD op || dTd w == 0) && (dHasA op || dTa w == 0) && ((dHasB op && !dSb w) || dTb w == 0)
    && (op == 0x13 || op == 0x17 || dTc w == 0) && (dHasB op || !dSb w)
    && ((dHasB op && dSb w) || dHasS op (dSub w) (dLay w) || dSreg w == 0)
    && (op == 5 || op == 6 || op == 0x16 || op == 0x40 || dSub w == 0)
    && (op == 5 || op == 6 || !dLay w) && bits 31 29 w.toNat == 0

/-- The sub and imm values of an opcode lie where Table 5-3 and R137 allow. [DEDUCED: log entry 39] -/
def dValuesGood (w : InstrWord) : Bool :=
  let imm := dImm w
  match dOp w with
  | 0x01 => decide (imm < 0x2000) | 0x02 => decide (imm < 0x2000) | 0x03 => decide (imm < 0x2000) | 0x04 => decide (imm < 0x2000)
  | 0x05 => decide (imm < 0x2000) && decide (dSub w ≤ (if dLay w then 5 else 7))
  | 0x06 => decide (imm < 0x2000) && decide (dSub w ≤ 5)
  | 0x07 => true
  | 0x08 => decide (imm < 0x20000)
  | 0x16 => imm == 0 && decide (dSub w ≤ 3)
  | 0x20 => decide (imm ≤ 23)
  | 0x21 => decide (imm ≤ 31)
  | 0x31 => true
  | 0x32 => decide (imm ≤ 8)
  | 0x35 => decide (imm ≤ 8)
  | 0x40 => imm == 0 && decide (dSub w ≤ 5)
  | _ => imm == 0

/-! ### State -/

/-- Tile `t` of the tile file (R131). -/
def Dresser.tile (d : Dresser) (t : Nat) : List BRow := Tbl.look (List.replicate 32 {}) d.tiles t

/-- A scalar register as a tile (R132). -/
def Dresser.scalarTile (d : Dresser) (r : Nat) : List BRow :=
  let v := (Tbl.look 0 d.sregs r).toNat
  List.replicate 32 { e := bits 31 24 v, m := List.replicate 32 (sext 24 (bits 23 0 v)) }

/-- Operand A. -/
def Dresser.opA (d : Dresser) (w : InstrWord) : List BRow := d.tile (dTa w)
/-- Operand B (R139). -/
def Dresser.opB (d : Dresser) (w : InstrWord) : List BRow := if dSb w then d.scalarTile (dSreg w) else d.tile (dTb w)
/-- Operand C. -/
def Dresser.opC (d : Dresser) (w : InstrWord) : List BRow := d.tile (dTc w)

/-- The routine ends with a status; its completion is still to post (R136). -/
def endRoutine (c : Nat) (st : Status) (s : State) : State :=
  let d := s.dresser c
  match d.run with
  | some r => s.setDresser c { d with done := some (r.tag, st), waitFrom := none }
  | none => s

/-- The next instruction; a routine with none left in the local store ends with BAD_DESCRIPTOR (R136). -/
def drsNext (c : Nat) (s : State) : State :=
  let d := s.dresser c
  let s := s.setDresser c { d with pc := d.pc + 1, waitFrom := none }
  if 0x80000 ≤ 64 * (match d.run with | some r => r.start | none => 0) + 8 * (d.pc + 1) then endRoutine c .badDescriptor s else s

/-- The routine's next instruction can run: its crew is present and clocked, and the routine has not ended (R130, R136).
[DEDUCED: log entry 39] -/
def drsRuns (s : State) (c : Nat) : Bool :=
  s.crewPresent c && !(s.crew c).fenced && s.crewRuns c && (s.dresser c).run.isSome && (s.dresser c).done.isNone

/-- An instruction of the dresser. The command's word is the one the routine has at its next place; the local store's
line may be uncorrectable (R372). A code outside Table 5-3, an unused field that is not zero and a value out of range end
the routine (R137, R139); a word of another row's opcode is not this command's. [DEDUCED: log entry 20] -/
def drsStep (c op : Nat) (w : InstrWord) (f : Routine → State → State) (s : State) : Res :=
  .next (
    if drsRuns s c then
      let d := s.dresser c
      match d.run with
      | none => s
      | some r =>
        let a := 64 * r.start + 8 * d.pc
        let m := localRead (.ls c) a 8 s
        match m.2 with
        | none => endRoutine c .uncorrectable m.1
        | some bs =>
          if leNat bs ≠ w.toNat ∨ (dListed (dOp w) = true ∧ dOp w ≠ op) then s
          else if !dListed (dOp w) || !dUnusedZero w || !dValuesGood w then endRoutine c .badDescriptor m.1
          else f r m.1
    else s)

/-! ### Residue verdicts (R154, R155, R383) -/

/-- What `mm` residue mismatches of an instruction come to. -/
inductive Residue where
  | clean | retried | ignored | fault
deriving DecidableEq, Repr, Inhabited

/-- One mismatch is retried and a second is a fault; with RESIDUE_EN 0 a mismatch is only counted (R155, R383).
[DEDUCED: log entry 21] -/
def residue (s : State) (mm : Nat) : Residue :=
  if mm = 0 then .clean else if !s.chr.residueEn then .ignored else if mm = 1 then .retried else .fault

/-- Rows of free values: a result that failed its check and is used all the same (R383). -/
def freeRows (n : Nat) (s : State) : State × List BRow :=
  ({ s with free := s.free + 33 * n },
    (List.range n).map (fun r =>
      { e := Config.freeValue (s.free + 33 * r) % 256,
        m := (List.range 32).map (fun i => sext 24 (Config.freeValue (s.free + 33 * r + 1 + i))) }))

/-- A second mismatch: the routine ends with UNIT_FAULT, and the crew is fenced (R155). -/
def drsFault (c op : Nat) (s : State) : State :=
  let s := s.setDresser c { s.dresser c with faultOp := op }
  fenceCrew c 3 (endRoutine c .unitFault s)

/-- The residue of an integer (R382). -/
def mod3 (v : Int) : Nat := (v % 3).toNat

/-- Some lane does not agree with the code stored beside it; a code of 3 never agrees, and a missing one is 0 (R382). -/
def lanesBad : List Int → List Nat → Bool
  | [], _ => false
  | m :: ms, codes => codes.headD 0 != mod3 m || lanesBad ms codes.tail

/-- The codes stored beside the lanes of a tile agree with them (R154). -/
def Dresser.tileGood (d : Dresser) (t : Nat) : Bool :=
  !lanesBad ((d.tile t).flatMap (·.m)) (Tbl.look [] d.codes t)

/-- The mismatches that the lanes an instruction reads add: a corrupted lane fails the retry as well (R154, R155). -/
def Dresser.laneFaults (d : Dresser) (w : InstrWord) : Nat :=
  let op := dOp w
  if (!dHasA op || d.tileGood (dTa w)) && (!(dHasB op && !dSb w) || d.tileGood (dTb w))
      && (!(op == 0x13 || op == 0x17) || d.tileGood (dTc w)) then 0 else 2

/-- A tile result written, with the flags it sets (R85, R136). -/
def drsWrite (c : Nat) (w : InstrWord) (rs : List RowRes) (s : State) : State :=
  let d := s.dresser c
  let t := tileRes rs
  s.setDresser c { d with
    tiles := Tbl.put d.tiles (dTd w) t.1, codes := Tbl.put d.codes (dTd w) (t.1.flatMap (fun r => r.m.map mod3))
    rsat := d.rsat || t.2.1, rinv := d.rinv || t.2.2, sat := d.sat || t.2.1, inv := d.inv || t.2.2 }

/-- A checked result: written after its verdict, to which `mm` mismatches of the check and the corrupted lanes of its sources
come (R145, R154, R155). [DEDUCED: log entry 21] -/
def drsChecked (c : Nat) (w : InstrWord) (mm : Nat) (rs : List RowRes) (s : State) : State :=
  let bump := fun s : State => s.setDresser c { s.dresser c with retries := satInc 0xFFFF (s.dresser c).retries }
  match residue s (mm + (s.dresser c).laneFaults w) with
  | .clean => drsNext c (drsWrite c w rs s)
  | .retried => drsNext c (drsWrite c w rs (bump s))
  | .ignored =>
    let f := freeRows 32 (bump s)
    drsNext c (drsWrite c w (f.2.map (fun r => { row := r })) f.1)
  | .fault => drsFault c (dOp w) s

/-- An arithmetic instruction: its rows from the dresser's state. -/
def drsArith (c op : Nat) (w : InstrWord) (mm : Nat) (g : Dresser → List RowRes) (s : State) : Res :=
  drsStep c op w (fun _ s => drsChecked c w mm (g (s.dresser c)) s) s

/-- The byte address of a line operand, when `n` lines from it on lie in the local store (R137). -/
def lineOperand (r : Routine) (w : InstrWord) (n : Nat) : Option Nat :=
  let l := r.base + dImm w
  if l + n ≤ 8192 then some (64 * l) else none

/-- A move instruction that reads `n` bytes from a line operand. -/
def drsLoad (c op n : Nat) (w : InstrWord) (k : List Byte → State → State) (s : State) : Res :=
  drsStep c op w (fun r s =>
    match lineOperand r w ((n + 63) / 64) with
    | none => endRoutine c .badDescriptor s
    | some a =>
      match localRead (.ls c) a n s with
      | (s, none) => endRoutine c .uncorrectable s
      | (s, some bs) => k bs s) s

/-- Parts of the local store written, all or none (R136, R375). [DEDUCED: log entry 40] -/
def drsStore (c : Nat) (parts : List (Nat × List Byte)) (s : State) : State :=
  let r := parts.foldl (fun (acc : State × Bool) p =>
    let x := localWrite (.ls c) p.1 p.2 acc.1
    (x.1, acc.2 && x.2)) (s, true)
  if r.2 then drsNext c r.1 else endRoutine c .uncorrectable { r.1 with lsMem := s.lsMem, errs := s.errs }

/-- A move instruction that writes whole lines at a line operand. -/
def drsSave (c op : Nat) (w : InstrWord) (g : Dresser → List Byte) (s : State) : Res :=
  drsStep c op w (fun r s =>
    let bs := g (s.dresser c)
    match lineOperand r w (bs.length / 64) with
    | none => endRoutine c .badDescriptor s
    | some a => drsStore c [(a, bs)] s) s

/-- Words of a byte list as rows of 32. -/
def wordRows (bs : List Byte) (n : Nat) : List (List Word) :=
  (List.range n).map (fun r => wordsOf ((bs.drop (128 * r)).take 128))

end Sys2Proof.Machine
end

