-- ==== Sys2Proof/Machine/Transfer.lean ====
section
/-! DEFINITION. Crew transfers in flight (R162 to R166): start, block by block, end. -/

namespace Sys2Proof.Machine

/-! ### Checks (R163) -/

/-- The bytes of a space (Table 6-6): first and limit. -/
def spaceRange (sp : Nat) : Nat × Nat :=
  match sp with
  | 0 => (0, 2 ^ 48)
  | 3 => (0, 0x80000)
  | 4 => (0x8000, 0x20000)
  | _ => (0, 0x200000)


/-- A hewer that the crew does not have: lost at bring-up. [DESIGN CHOICE: log entry 33] -/
def hewerAbsent (s : State) (c h : Nat) : Bool := !s.crewPresent c || (s.hewer c h).fenceCause == 5

/-- A space names an absent hewer. -/
def spaceAbsent (s : State) (c sp : Nat) : Bool := (sp == 1 || sp == 2) && hewerAbsent s c (sp - 1)

/-- The descriptor breaks R163, apart from EMPTY source blocks. -/
def xferBad (s : State) (c : Nat) (x : Xfer) : Bool :=
  xKind x != 1 || decide (4 < xSrc x) || decide (4 < xDst x) || bits 15 11 (wordAt x.words 0) != 0
    || bits 31 25 (wordAt x.words 1) != 0 || xLen x % 64 != 0 || xLen x == 0 || decide (0x1000000 < xLen x)
    || xSrcAddr x % 64 != 0 || xDstAddr x % 64 != 0
    || decide (xSrcAddr x < (spaceRange (xSrc x)).1) || decide ((spaceRange (xSrc x)).2 < xSrcAddr x + xLen x)
    || decide (xDstOff x < (spaceRange (xDst x)).1) || decide ((spaceRange (xDst x)).2 < xDstOff x + xLen x)
    || (xField x && bits 63 62 (xDstAddr x) != 0)
    || (if xArrive x then arrBad (BitVec.ofNat 64 (xArrAddr x)) else xArrAddr x != 0)
    || spaceAbsent s c (xSrc x) || spaceAbsent s c (xDst x)

/-- A face-store source touches an EMPTY block. -/
def xferEmpty (s : State) (c : Nat) (x : Xfer) : Bool := (xReads c x).any (fun p => blockSt s c p.1 p.2 == 0)

/-! ### Order (R105, R164) -/

/-- The transfer may write a block. -/
def blockFree (s : State) (c : Nat) (x : Xfer) (p : Nat × Nat) : Bool :=
  !cutTouches s c x.order p.1 p.2 && !xferTouches s c x.order p.1 p.2 && !relWaits s c x.order p.1 p.2
    && blockSt s c p.1 p.2 != 3

/-- The transfer may read its source blocks. -/
def sourceFree (s : State) (c : Nat) (x : Xfer) : Bool :=
  (xReads c x).all (fun p => !cutWrites s c x.order p.1 p.2 && !xferWrites s c x.order p.1 p.2 && !relWaits s c x.order p.1 p.2)

/-- The face-store block of the crew that the transfer's next byte goes to, if it goes to one. -/
def nextBlock (c : Nat) (x : Xfer) : Option (Nat × Nat) :=
  if x.done < xLen x then spaceBlock c (xDst x) (xDstOff x + x.done) else none

/-- The order lets the transfer write its next destination block. -/
def nextFree (s : State) (c : Nat) (x : Xfer) : Bool := (nextBlock c x).all (blockFree s c x)

/-- The next destination block is FILLING once the order lets the transfer write it (R104, R164). -/
def fillNext (c : Nat) (x : Xfer) (s : State) : State :=
  match nextBlock c x with
  | some p => if blockFree s c x p then setBlocks c p.1 [p.2] 1 s else s
  | none => s

/-! ### Data (R39, R46, R60) -/

/-- The DPA of a space's byte, for spaces 0 to 2. -/
def spaceDpa (c sp a : Nat) : Nat := if sp = 0 then a else 0x18000000000 + faceSlot c (sp - 1) * 0x200000 + a

/-- What a line of a local store answers. -/
def localAcc (r : State × Option (List Byte)) : State × Acc :=
  (r.1, match r.2 with | some bs => .data bs | none => .bad .uncorrectable)

/-- A line read in a space. -/
def spaceGet (c sp a : Nat) (first : Bool) (s : State) : State × Acc :=
  match sp with
  | 3 => localAcc (localGet (.ls c) a s)
  | 4 => localAcc (localGet (.tly c) a s)
  | _ => lineGet (.crew c) (spaceDpa c sp a) first s

/-- A line written in a space. -/
def spacePut (c sp a : Nat) (bs : List Byte) (first : Bool) (s : State) : State × Acc :=
  match sp with
  | 3 => (localPut (.ls c) a bs s, .data [])
  | 4 => (localPut (.tly c) a bs s, .data [])
  | _ => linePut (.crew c) (spaceDpa c sp a) bs first s


/-- The seam and its byte that a byte of a transfer reaches through the shaft of a live hewer of the seam's own column
(R23, R60). -/
def shaftPlace (s : State) (c role dpa : Nat) : Option (Nat × Nat) :=
  match rawDecode s dpa with
  | some (_, .ok (.seam n off)) => if n % 64 = colOf c role ∧ s.hewerLive c role = true then some (n, off) else none
  | _ => none

/-- Some line of a range of a space waits; a line that role `h`'s shaft reaches does not pass its seam's face port. -/
def spaceHeld (s : State) (c sp a n : Nat) (h : Option Nat) : Bool :=
  if sp = 3 ∨ sp = 4 then false
  else (lineSpans (spaceDpa c sp a) n).any (fun p =>
    match decodeDpa s (.crew c) p.1 with
    | .ok l => lineHeld s l || (portBusy s l && (h.all (fun r => (shaftPlace s c r p.1).isNone)))
    | .error _ => false)

/-- Why the piece that a line of a transfer's range lies in is DENIED, if it is (R39); `a0`, `n`: the range. -/
def linePieceDeny (s : State) (c sp a0 n a : Nat) (write : Bool) : Option Nat :=
  if sp = 3 ∨ sp = 4 then none
  else
    let d := spaceDpa c sp a
    let lo := max (spaceDpa c sp a0) (d / 4096 * 4096)
    let hi := min (spaceDpa c sp a0 + n) (d / 4096 * 4096 + 4096)
    pieceDeny s (.crew c) write lo (hi - lo)

/-- The status of a part that failed is kept when the part lies lowest (R39). [DESIGN CHOICE: log entry 37] -/
def xferFail (off : Nat) (st : Status) (x : Xfer) : Xfer :=
  match x.badAt with
  | some b => if off < b then { x with status := st, badAt := some off } else x
  | none => { x with status := st, badAt := some off }

/-- The role whose shaft a transfer may use, and the DPA of its byte 0 (R60, R166). -/
def shaftLeg (s : State) (x : Xfer) : Option (Nat × Nat) :=
  if (xSrc x = 1 ∨ xSrc x = 2) ∧ xDst x = 0 ∧ xRemote s x = false then some (xSrc x - 1, xDstOff x)
  else if (xDst x = 1 ∨ xDst x = 2) ∧ xSrc x = 0 then some (xDst x - 1, xSrcAddr x)
  else none

/-- The transfer's line at byte `off` passes its shaft, which carries decoded data under its own CRC (R60, R369). -/
def viaShaft (s : State) (c : Nat) (x : Xfer) (off : Nat) : Bool :=
  match shaftLeg s x with
  | some (role, a) => (shaftPlace s c role (a + off)).isSome
  | none => false

/-- The line of the line code that a byte of a space lies in. -/
def spaceLine (s : State) (c sp a : Nat) : Option LineId :=
  match sp with
  | 3 => some (lsLine c a)
  | 4 => some (tlyLine c a)
  | _ =>
    match rawDecode s (spaceDpa c sp a) with
    | some (_, .ok l) => some (lineOf l)
    | _ => none

/-- A line that took errors on its way is decoded by the receiving store: found corrected it counts in that store's bucket,
found uncorrectable it is an uncorrectable read of its source (R369). -/
def transitTake (src dst : Option LineId) (errs : List (Nat × Byte)) (bs : List Byte) (s : State) : State × Option (List Byte) :=
  if errs = [] then (s, some bs)
  else
    let cw := (codeword bs []).mapIdx (fun i b => errs.foldl (fun acc e => if e.1 = i then acc ^^^ e.2 else acc) b)
    match rsDecode cw with
    | (.clean, d) => (s, some d)
    | (.corrected, d) => (match dst with | some l => bucketAdd l.kind l.inst s | none => s, some d)
    | (.uncorrectable, _) => (match src with | some l => noteUe l false false s | none => s, none)

/-- One line moved, with the errors it takes on its way; answers its status. [DESIGN CHOICE: log entry 37] -/
def moveLine (c : Nat) (x : Xfer) (errs : List (Nat × Byte)) (off : Nat) (s : State) : State × Status :=
  let a := xSrcAddr x + off
  let b := xDstOff x + off
  let first := off == 0 || a % 4096 == 0
  let firstW := off == 0 || b % 4096 == 0
  match linePieceDeny s c (xSrc x) (xSrcAddr x) (xLen x) a false with
  | some why => (if first then recordDeny (.crew c) (spaceDpa c (xSrc x) a) false why s else s, .denied)
  | none =>
    match spaceGet c (xSrc x) a first s with
    | (s, .bad st) => (s, st)
    | (s, .held) => (s, .ok)
    | (s, .data bs) =>
      match linePieceDeny s c (xDst x) (xDstOff x) (xLen x) b true with
      | some why => (if firstW then recordDeny (.crew c) (spaceDpa c (xDst x) b) true why s else s, .denied)
      | none =>
        match transitTake (spaceLine s c (xSrc x) a) (spaceLine s c (xDst x) b) (if viaShaft s c x off then [] else errs) bs s with
        | (s, none) => (s, .uncorrectable)
        | (s, some bs) =>
          match spacePut c (xDst x) b bs firstW s with
          | (s, .bad st) => (s, st)
          | (s, _) => (s, .ok)

/-- `n` lines moved from byte `off` on, `tr` giving the errors of the lines, by number from there, that took some on their
way; the failures are kept in the transfer. [DESIGN CHOICE: log entry 37] -/
def moveLines (c : Nat) (tr : List (Nat × List (Nat × Byte))) : Nat → Nat → Nat → Xfer → State → State × Xfer
  | 0, _, _, x, s => (s, x)
  | n + 1, i, off, x, s =>
    let r := moveLine c x (Tbl.look [] tr i) off s
    moveLines c tr n (i + 1) (off + 64) (if r.2 = .ok then x else xferFail off r.2 x) r.1

/-- Lines read from the source, until one fails. -/
def gatherLines (c : Nat) (x : Xfer) : Nat → Nat → State → State × List Byte × Status
  | 0, _, s => (s, [], .ok)
  | n + 1, off, s =>
    let a := xSrcAddr x + off
    match spaceGet c (xSrc x) a (off == 0 || a % 4096 == 0) s with
    | (s, .data bs) =>
      let t := gatherLines c x n (off + 64) s
      (t.1, bs ++ t.2.1, t.2.2)
    | (s, .bad st) => (s, [], st)
    | (s, .held) => (s, [], .ok)

/-- The pieces of a transfer to the field leave as WRITE messages on the bulk channel (R163, R282). -/
def sendPieces (c : Nat) : List (Nat × Nat) → Xfer → State → State × Xfer
  | [], x, s => (s, x)
  | (b, k) :: rest, x, s =>
    let off := b - xDstAddr x
    let g := gatherLines c x (k / 64) off s
    if g.2.2 ≠ .ok then sendPieces c rest (xferFail off g.2.2 x) g.1
    else
      let m : Msg := { (default : Msg) with
        vc := 2, dst := bits 61 48 b, addr := BitVec.ofNat 64 b, op := 0x01, len := k, data := g.2.1 }
      let r := fieldRequest m (.xferWrite c x.order off) g.1
      match r.2 with
      | some st => sendPieces c rest (xferFail off st x) r.1
      | none => sendPieces c rest { x with waits := x.waits + 1 } r.1

/-! ### Shaft requests (R53, R60) -/

/-- The transfer's next request of at most 256 bytes is put at its seam's shaft port (R53); granules that take another
route ask for no grant (R60). `fuel` bounds the granules. -/
def shaftAsk (c : Nat) : Nat → Xfer → State → State × Xfer
  | 0, x, s => (s, x)
  | fuel + 1, x, s =>
    if xLen x ≤ x.granted then (s, x)
    else
      match shaftLeg s x with
      | none => (s, { x with granted := xLen x })
      | some (role, a0) =>
        let a := a0 + x.granted
        let left := xLen x - x.granted
        match shaftPlace s c role a with
        | none => shaftAsk c fuel { x with granted := x.granted + min left (4096 - a % 4096) } s
        | some (n, off) =>
          let k := min left (256 - off % 256)
          let q : SeamReq := { shaft := true, first := off / 64, lines := k / 64, at_ := s.now, crew := c, order := x.order }
          (s.setSeam n { s.seam n with queue := (s.seam n).queue ++ [q] }, x)

/-- The granules of a transfer. -/
def granules (x : Xfer) : Nat := xLen x / 4096 + 2

/-- The first `n` bytes of a transfer need no grant of a shaft port any more: granted, or the shaft is closed (R23). -/
def shaftClear (s : State) (c : Nat) (x : Xfer) (n : Nat) : Bool :=
  decide (n ≤ x.granted) || (match shaftLeg s x with | none => true | some (role, _) => !s.hewerLive c role)

/-! ### Events -/

/-- A transfer in flight replaced. -/
def setXfer (c i : Nat) (x : Xfer) (s : State) : State :=
  s.setCrew c { s.crew c with xferRun := listSet (s.crew c).xferRun i x }

/-- A transfer that moves `n` bytes from byte `off` on through face ports takes its turn there (R54). -/
def xferTurn (c : Nat) (x : Xfer) (off n : Nat) (s : State) : State :=
  let leg := (shaftLeg s x).map (·.1)
  let turn := fun (sp a : Nat) (s : State) =>
    if sp = 3 ∨ sp = 4 then s
    else (spans 4096 (n / 4096 + 2) (spaceDpa c sp a) n).foldl (fun s p =>
      if leg.all (fun r => (shaftPlace s c r p.1).isNone) then takeTurn (.crew c) p.1 s else s) s
  turn (xDst x) (xDstOff x + off) (turn (xSrc x) (xSrcAddr x + off) s)

/-- A transfer in flight takes its place; into a face store its first block is FILLING. -/
def launchXfer (c : Nat) (x : Xfer) (s : State) : State :=
  if xRemote s x then
    let r := sendPieces c (pieces (xDstAddr x) (xLen x)) { x with sent := true } s
    r.1.setCrew c { r.1.crew c with xferRun := (r.1.crew c).xferRun ++ [r.2] }
  else
    let r := shaftAsk c (granules x) x s
    fillNext c r.2 (r.1.setCrew c { r.1.crew c with xferRun := (r.1.crew c).xferRun ++ [r.2] })

/-- XFER_START. -/
def execXferStart (c : Nat) (s : State) : Res :=
  .next (
    match (s.crew c).xferQ with
    | x :: rest =>
      let s' := s.setCrew c { s.crew c with xferQ := rest }
      let refuse := pumpSends c 16 (applyRels c (postRec c { tag := xTag x, status := .badDescriptor, source := 3 } s'))
      if s.crewPresent c = true ∧ s.crewRuns c = true ∧ ((s.crew c).xferRun.filter (fun y => !y.arrSent)).length < 4 then
        if xferBad s c x then refuse
        else if !sourceFree s c x then s
        else if xferEmpty s c x then refuse
        else if xWrites s c x ≠ [] ∧ nextFree s c x = false then s
        else if xRemote s x = true ∧ spaceHeld s c (xSrc x) (xSrcAddr x) (xLen x) none = true then s
        else launchXfer c x s'
      else s
    | [] => s)

/-- The bytes a transfer still has to write into its next destination block. -/
def blockRest (x : Xfer) : Nat := min (1024 - (xDstOff x + x.done) % 1024) (xLen x - x.done)

/-- A range of a transfer's source or destination waits. -/
def rangeHeld (s : State) (c : Nat) (x : Xfer) (off n : Nat) : Bool :=
  let leg := (shaftLeg s x).map (·.1)
  spaceHeld s c (xSrc x) (xSrcAddr x + off) n leg || (!xRemote s x && spaceHeld s c (xDst x) (xDstOff x + off) n leg)

/-- The failure of a later part kept behind that of an earlier one: the lowest-addressed counts (R39, R165). -/
def keepFail (old new : Xfer) : Xfer :=
  match old.badAt with
  | some b => if new.badAt.any (fun a => decide (a < b)) then new else { new with status := old.status, badAt := some b }
  | none => new

/-- XFER_BLOCK_DONE: the next block is RESIDENT, or stays to become EMPTY at the end (R165); the block after it is
FILLING as soon as the order lets the transfer write it. -/
def execXferBlockDone (c : Nat) (ix : Nat × List (Nat × List (Nat × Byte))) (s : State) : Res :=
  .next (
    match (s.crew c).xferRun[ix.1]? with
    | some x =>
      let k := blockRest x
      if s.crewPresent c = true ∧ s.crewRuns c = true ∧ xWrites s c x ≠ [] ∧ k ≠ 0 ∧ nextFree s c x = true
          ∧ rangeHeld s c x x.done k = false ∧ shaftClear s c x (x.done + k) = true then
        let r := moveLines c ix.2 (k / 64) 0 x.done { x with badAt := none, status := .ok } (xferTurn c x x.done k s)
        let good := r.2.badAt.isNone
        let b := (nextBlock c x).toList
        let x' := { keepFail x r.2 with done := x.done + k, failed := if good then x.failed else x.failed ++ b }
        let s := b.foldl (fun s p => setBlocks c p.1 [p.2] (if good then 2 else 1) s) (setXfer c ix.1 x' r.1)
        fillNext c x' s
      else s
    | none => s)

/-- A transfer whose data has ended: its failed blocks are EMPTY, and its arrival is sent or its record posted. -/
def endXfer (c i : Nat) (x : Xfer) (s : State) : State :=
  let s := x.failed.foldl (fun s p => setBlocks c p.1 [p.2] 0 s) s
  if x.status = .ok ∧ xArrive x = true then
    let a : ArrSend := { addr := BitVec.ofNat 64 (xArrAddr x), at_ := s.now, order := x.order, sent := true, xfer := some x.order }
    let s := setXfer c i { x with arrSent := true } s
    let s := s.setCrew c { s.crew c with arrs := (s.crew c).arrs ++ [a] }
    pumpSends c 16 (applyRels c (sendArrival c a s))
  else pumpSends c 16 (xferRecord c x x.status s)

/-- XFER_COMPLETE: a transfer whose gradient lines the Mill holds back ends once they are admitted (R253). -/
def execXferComplete (c : Nat) (ix : Nat × List (Nat × List (Nat × Byte))) (s : State) : Res :=
  .next (
    match (s.crew c).xferRun[ix.1]? with
    | some x =>
      if s.crewPresent c = true ∧ s.crewRuns c = true ∧ x.arrSent = false then
        if x.sent then (if x.waits = 0 then endXfer c ix.1 x s else s)
        else if xWrites s c x ≠ [] then (if x.done = xLen x then endXfer c ix.1 x s else s)
        else if x.done = xLen x then (if heldBack s (.crew c) then s else endXfer c ix.1 x s)
        else if rangeHeld s c x 0 (xLen x) || !shaftClear s c x (xLen x) then s
        else
          let r := moveLines c ix.2 (xLen x / 64) 0 0 x (xferTurn c x 0 (xLen x) s)
          let x' := { r.2 with done := xLen x }
          if heldBack r.1 (.crew c) then setXfer c ix.1 x' r.1 else endXfer c ix.1 x' r.1
      else s
    | none => s)

end Sys2Proof.Machine
end

