-- ==== Sys2Proof/Machine/SeamMem.lean ====
section
/-! DEFINITION. The seam controllers: grants to the shaft port and the face port (R53 to R57), the merges of narrow writes
(R206, R207, R374, R375) and a seam's return from self-refresh (R57, R191). -/

namespace Sys2Proof.Machine

/-- What a face unit has issued and the seam has not granted is dropped (R198). -/
def faceDrop (n : Nat) (s : State) : State :=
  let s := s.setSeam n { s.seam n with queue := (s.seam n).queue.filter (fun q => !q.stroke) }
  s.setFace n { s.face n with strokes := [] }

/-- A face unit's program ends with a status: no instruction after it has any effect (R198). -/
def faceStop (n : Nat) (st : Status) (s : State) : State :=
  let s := faceDrop n s
  s.setFace n { s.face n with ended := some st }

/-- A stroke failed: the program ends with UNCORRECTABLE; one that has reached its time limit keeps TIMEOUT, and no instruction
after the stroke's has any effect (R184, R191, R198, R202). -/
def strokeFail (n : Nat) (s : State) : State :=
  if (s.face n).ended.isSome then faceDrop n s else faceStop n .uncorrectable s


/-- The transfer of a shaft request goes on: its next request follows (R53). -/
def grantShaft (q : SeamReq) (s : State) : State :=
  match (s.crew q.crew).xferRun.findIdx? (fun x => x.order == q.order) with
  | none => s
  | some i =>
    match (s.crew q.crew).xferRun[i]? with
    | none => s
    | some x =>
      let r := shaftAsk q.crew (granules x) { x with granted := x.granted + 64 * q.lines } s
      setXfer q.crew i r.2 r.1

/-- The bytes an SNW writes, with their places in the line. -/
def snwBytes (k : Stroke) (bs : List Byte) : List (Nat × Byte) := bs.mapIdx (fun i b => (k.p + i, b))

/-- A stroke reaches its lines: one that another requester has written since the program was queued leaves the results and the
line undefined (R204). [DESIGN CHOICE: log entry 140] -/
def strokeReach (n : Nat) (k : Stroke) (s : State) : State :=
  let f := s.face n
  let ls := (List.range k.lines).map (· + k.line)
  let bad := ls.filter f.foreign.contains
  let s := s.setFace n { f with
    touched := f.touched ++ ls.filter (fun l => !f.touched.contains l), tainted := f.tainted || bad != [] }
  bad.foldl (fun s l => freeLine n l s) s

/-- The bytes a program with undefined results stores (R204). -/
def strokeData (n : Nat) (bs : List Byte) (s : State) : State × List Byte :=
  if (s.face n).tainted then
    ({ s with free := s.free + bs.length }, bs.mapIdx (fun i _ => BitVec.ofNat 8 (Config.freeValue (s.free + i))))
  else (s, bs)

/-- A granted SNW takes an entry of the face share, or waits for one (R207); a buffer line that reads uncorrectable ends
the program (R184). -/
def grantSnw (n : Nat) (k : Stroke) (s : State) : State :=
  match localRead (.buf n) (64 * k.buf + k.p) (k.q + 1) s with
  | (s, none) => strokeFail n s
  | (s, some bs) =>
    let d := strokeData n bs s
    let s := d.1
    let m : Merge := { seam := n, line := k.line, bytes := snwBytes k d.2, face := some n, reqs := [] }
    let x := s.mergeCol (n % 64)
    let free := decide (x.face.length < s.faceShare)
    let f := s.face n
    let s := s.setMergeCol (n % 64)
      (if free then { x with face := x.face ++ [m] } else { x with faceWait := x.faceWait ++ [m] })
    s.setFace n { f with strokes := { k with granted := true, held := !free, at_ := s.now } :: f.strokes.drop 1 }

/-- The face unit's oldest stroke is granted. -/
def grantStroke (n : Nat) (s : State) : State :=
  match (s.face n).strokes with
  | [] => s
  | k :: rest =>
    let s := strokeReach n k s
    if k.op = 3 then grantSnw n k s
    else s.setFace n { s.face n with strokes := { k with granted := true, at_ := s.now } :: rest }

/-- Request `i` of a seam's queue is granted; `guard`: under R55. -/
def grantReq (n i : Nat) (q : SeamReq) (guard : Bool) (s : State) : State :=
  let x := s.seam n
  let s := s.setSeam n { x with queue := listDel x.queue i, lastShaft := q.shaft
                                guard := if guard then satInc 0xFFFF x.guard else x.guard }
  if q.shaft then grantShaft q s else grantStroke n s

/-- A request has waited 1 µs and a request of the other port is newer (R55). [DEDUCED: log entry 46] -/
def overdue (s : State) (old other : SeamReq) : Bool := waitedLong s old.at_ other.at_

/-- The seam's controller grants the request that the mode and the guard choose (R54, R55). -/
def seamGrant (n : Nat) (s : State) : State :=
  if s.seamPresent n then
    match oldestOf s n true, oldestOf s n false with
    | none, none => s
    | some a, none => grantReq n a.1 a.2 false s
    | none, some b => grantReq n b.1 b.2 false s
    | some a, some b =>
      let win := if shaftWins s n then a else b
      let lose := if shaftWins s n then b else a
      if overdue s lose.2 win.2 then grantReq n lose.1 lose.2 true s else grantReq n win.1 win.2 false s
  else s

/-- SEAM_GRANT: an access that has waited long enough at the face port goes first, and those behind the granted request are
tried again. [DEDUCED: log entry 45] -/
def execSeamGrant (n : Nat) (s : State) : Res := .next (serveHeld (seamGrant n (serveHeld s)))

/-- A request that has waited 1 µs is granted before any newer one of the other port (R55). -/
def guardGrant (n : Nat) (shaft : Bool) (s : State) : State :=
  if s.seamPresent n then
    match oldestOf s n shaft, oldestOf s n (!shaft) with
    | some a, some b => if overdue s a.2 b.2 then grantReq n a.1 a.2 true s else s
    | _, _ => s
  else s

/-- SEAM_GUARD_EXPIRY: an access that waits at the face port is tried again under the guard. [DEDUCED: log entry 46] -/
def execSeamGuardExpiry (n : Nat) (shaft : Bool) (s : State) : Res := .next (serveHeld (guardGrant n shaft s))

/-! ### Merges -/

/-- The face share's waiting SNWs take the entries that are free (R207). -/
def faceRefill (col : Nat) (s : State) : State :=
  let x := s.mergeCol col
  match x.faceWait with
  | m :: rest =>
    if x.face.length < s.faceShare then
      let s := s.setMergeCol col { x with face := x.face ++ [m], faceWait := rest }
      let f := s.face m.seam
      s.setFace m.seam { f with strokes := f.strokes.map (fun k => if k.granted then { k with held := false } else k) }
    else s
  | [] => s

/-- An SNW's line is written, or reads uncorrectable and ends the program (R207, R375). -/
def faceMerge (m : Merge) (s : State) : State :=
  let r := mergeWrite (.seam m.seam (64 * m.line)) m.bytes s
  if r.2 then
    let f := r.1.face m.seam
    r.1.setFace m.seam { f with strokes := f.strokes.map (fun k => if k.granted then { k with merged := true } else k) }
  else strokeFail m.seam r.1

/-- The oldest merge of a column's share whose seam is awake is done, and a waiting write takes its entry (R207, R374). -/
def mergeDone (col : Nat) (face : Bool) (s : State) : State :=
  let x := s.mergeCol col
  let go := fun m : Merge => !(s.seam m.seam).selfRefresh
  if face then
    match x.face.findIdx? go with
    | some i => faceRefill col (faceMerge (x.face.getD i default) (s.setMergeCol col { x with face := listDel x.face i }))
    | none => s
  else
    match x.host.findIdx? go with
    | some i =>
      hostRefill col 64 (doMerge (x.host.getD i default) (s.setMergeCol col { x with host := listDel x.host i })).1
    | none => s

/-- MERGE_DONE. -/
def execMergeDone (col : Nat) (face : Bool) (s : State) : Res := .next (serveHeld (mergeDone col face s))

/-! ### Self-refresh -/

/-- A seam enters self-refresh (R57). -/
def seamSleep (n : Nat) (s : State) : State :=
  if (s.seam n).selfRefresh then s else s.setSeam n { s.seam n with selfRefresh := true, refreshAt := s.now }

/-- A seam leaves self-refresh; the time a face program was held does not count (R57, R191). -/
def seamExit (n : Nat) (s : State) : State :=
  let x := s.seam n
  if x.selfRefresh then
    let f := s.face n
    let s := s.setSeam n { x with selfRefresh := false }
    if f.cur.isSome then s.setFace n { f with pausedNs := f.pausedNs + (s.now - max x.refreshAt f.startAt) } else s
  else s

end Sys2Proof.Machine
end

