-- ==== Sys2Proof/Machine/Face.lean ====
section
/-! DEFINITION. Face units (07_face_units.md): launches, programs, strokes, instructions. -/

namespace Sys2Proof.Machine

/-! ### Launches (R185 to R190, R199, R208, R210) -/

/-- A write of FACE_LAUNCH_i (R186, R187, R498). -/
def faceWord (r : Requester) (n i : Nat) (v : Word) (s : State) : State :=
  if !faceHere s n then s
  else if !faceOwner s r then logIgnored 0x0A n r (0x03000000 + 0x1000 * n + 0x100 + 4 * i) 1 s
  else
    let x := s.face n
    let st := Tbl.put x.staged i v
    let s := s.setFace n { x with staged := st }
    let l : FLaunch := { words := (List.range 8).map (fun k => Tbl.look 0 st k), req := none }
    if i ≠ 7 then s
    else match r with
      | .host f =>
        if writesOpen s f || s.launchWait.any (fun w => w.1 == f) then { s with launchWait := s.launchWait ++ [(f, n, l)] }
        else faceEnqueue n l s
      | _ => faceEnqueue n l s

/-- FACE_LAUNCH_ENQUEUE. -/
def execFaceLaunchEnqueue (r : Requester) (n : Nat) (v : Word) (s : State) : Res :=
  .next (if reachesRegs r then faceWord r n 7 v s else s)

/-- A fence: the running program ends with its status, queued launches with UNIT_DEAD (R199, R458). -/
def faceFence (n : Nat) (st : Status) (s : State) : State :=
  let x := s.face n
  let s := s.setFace n { x with state := 3, cur := none, ended := none, queue := [] }
  let s := match x.cur with | some l => faceDone n l st s | none => s
  let s := x.queue.foldl (fun s l => faceDone n l .unitDead s) s
  noteLoss 5 n 3 s

/-! ### Strokes (R200 to R202) -/

/-- The DPA of a byte of a unit's own seam; an offset outside the seam is a byte of another place. -/
def faceDpa (n : Nat) (off : Int) : Nat := ((0x6000000000 + 0x20000000 * n : Nat) + off : Int).toNat

/-- The first line of a run that is not a line of the seam-linear part of the unit's own seam, with its DPA and the
reason (R61, R64). -/
def faceDenies (s : State) (n : Nat) (off : Int) : Nat → Option (Nat × Nat)
  | 0 => none
  | k + 1 =>
    match faceDenies s n off k with
    | some d => some d
    | none =>
      match decodeDpa s (.face n) (faceDpa n (off + 64 * k)) with
      | .error why => some (faceDpa n (off + 64 * k), why)
      | .ok _ => none

/-- A stroke is issued: in flight, and waiting at the seam's face port. [DEDUCED: log entry 44] -/
def faceIssue (n : Nat) (k : Stroke) (s : State) : State :=
  let f := s.face n
  let x := s.seam n
  let q : SeamReq := { stroke := true, first := k.line, lines := k.lines, at_ := s.now }
  (s.setSeam n { x with queue := x.queue ++ [q] }).setFace n { f with strokes := f.strokes ++ [{ k with at_ := s.now }] }

/-- FACE_FETCH: the launch is checked, and its text asked for in strokes of at most 2 KiB (R189). -/
def faceTake (n : Nat) (l : FLaunch) (rest : List FLaunch) (s : State) : State :=
  let x := s.face n
  let xi := fun i : Nat => sext 32 (fWord l (1 + i))
  let s := s.setFace n { x with
    state := 1, cur := some l, queue := rest, pc := 0, startAt := s.now, pausedNs := 0, ended := none, strokes := []
    touched := [], tainted := false
    xs := [(1, xi 1), (2, xi 2), (3, xi 3), (4, xi 4), (5, 0), (6, 0), (7, 0)] }
  let p := fWord l 1
  let len := 8 * (bits 7 0 (fWord l 0) + 1)
  if bits 15 8 (fWord l 0) ≠ 0 ∨ bits 31 29 p ≠ 0 ∨ p % 64 ≠ 0 ∨ fWord l 2 % 64 ≠ 0
      ∨ (fArr l ≠ 0 ∧ faceArrGood s (fArr l) = false) then
    faceStop n .badDescriptor s
  else
    match faceDenies s n p ((len + 63) / 64) with
    | some (a, why) => faceStop n .denied (recordDeny (.face n) a false why s)
    | none =>
      (spans 4096 3 p (64 * ((len + 63) / 64))).foldl (fun s q =>
        faceIssue n { op := 0, line := q.1 / 64, lines := q.2 / 64, buf := (q.1 - p) / 64 } s) s

/-- FACE_FETCH. -/
def execFaceFetch (n : Nat) (s : State) : Res :=
  .next (
    match (s.face n).queue with
    | l :: rest => if faceRuns s n = true ∧ (s.face n).state = 0 then faceTake n l rest s else s
    | [] => s)

/-- FACE_FETCH_DONE. -/
def execFaceFetchDone (n : Nat) (s : State) : Res :=
  .next (
    let x := s.face n
    if faceRuns s n = true ∧ x.state = 1 ∧ x.ended = none ∧ x.strokes = [] then s.setFace n { x with state := 2 } else s)

/-- Lines of a seam read; the counts of every line are kept, and none is answered when one is uncorrectable. -/
def seamLines (n first : Nat) : Nat → State → State × Option (List Byte)
  | 0, s => (s, some [])
  | k + 1, s =>
    let r := seamLines n first k s
    let l := readLine (.seam n (64 * (first + k))) (drainLine n (first + k) r.1)
    (l.1, match r.2, l.2 with | some a, some b => some (a ++ b) | _, _ => none)

/-- Lines of a seam written whole. -/
def putLines (n first : Nat) (bs : List Byte) (k : Nat) (s : State) : State :=
  (List.range k).foldl (fun s i =>
    writeLine (.seam n (64 * (first + i))) ((bs.drop (64 * i)).take 64) (drainLine n (first + i) s)) s

/-- The first stroke in flight is over. -/
def popStroke (n : Nat) (s : State) : State := s.setFace n { s.face n with strokes := (s.face n).strokes.drop 1 }


/-- The program words that text bytes spell. -/
def dwords (bs : List Byte) : List Dword := (List.range (bs.length / 8)).map (fun i => BitVec.ofNat 64 (leAt bs (8 * i) 8))

/-- The line of the program memory that holds an instruction; it follows the buffer's lines in its store's numbering. -/
def progLine (n pc : Nat) : LineId := ⟨4, n, 1024 + pc / 8⟩

/-- A granted stroke ends (R201, R202). [DEDUCED: log entry 44] -/
def strokeOver (n : Nat) (k : Stroke) (s : State) : State :=
  match k.op with
  | 0 =>
    match seamLines n k.line k.lines s with
    | (s, none) => strokeFail n s
    | (s, some bs) =>
      let f := s.face n
      let at_ := 8 * k.buf
      let ws := dwords bs
      let s := (List.range k.lines).foldl (fun s i => s.cleanLine (progLine n (8 * (k.buf + i)))) s
      popStroke n (s.setFace n { f with prog := f.prog.take at_ ++ ws ++ f.prog.drop (at_ + ws.length) })
  | 1 =>
    match seamLines n k.line k.lines s with
    | (s, none) => strokeFail n s
    | (s, some bs) =>
      popStroke n ((List.range k.lines).foldl (fun s i =>
        localPut (.buf n) (64 * (k.buf + i)) ((bs.drop (64 * i)).take 64) s) s)
  | 2 =>
    match localRead (.buf n) (64 * k.buf) (64 * k.lines) s with
    | (s, none) => strokeFail n s
    | (s, some bs) =>
      let d := strokeData n bs s
      popStroke n (putLines n k.line d.2 k.lines d.1)
  | _ => if k.merged then popStroke n s else s

/-- STROKE_END: the requests that waited for the stroke's banks are tried again (R56). -/
def execStrokeEnd (n : Nat) (s : State) : Res :=
  .next (
    match (s.face n).strokes with
    | k :: _ => if faceHere s n && k.granted then serveHeld (strokeOver n k s) else s
    | [] => s)

/-- FACE_PROGRAM_COMPLETE: every stroke is over, and the ended program completes (R190). -/
def execFaceProgramComplete (n : Nat) (s : State) : Res :=
  .next (
    let x := s.face n
    match x.cur, x.ended with
    | some l, some st =>
      if faceRuns s n = true ∧ (x.state = 1 ∨ x.state = 2) ∧ x.strokes = [] then
        faceDone n l st (s.setFace n { x with
          state := 0, cur := none, ended := none, foreign := if x.queue = [] then [] else x.foreign })
      else s
    | _, _ => s)

/-- FACE_TIME_LIMIT: no instruction starts any more, and the strokes in flight go on (R191). -/
def execFaceTimeLimit (n : Nat) (s : State) : Res :=
  .next (
    let x := s.face n
    if faceRuns s n = true ∧ (x.state = 1 ∨ x.state = 2) ∧ x.ended = none ∧ x.limit ≠ 0 ∧ (s.seam n).selfRefresh = false
        ∧ x.startAt + x.pausedNs + 1000 * x.limit ≤ s.now then
      s.setFace n { x with ended := some .timeout }
    else s)

/-! ### Instruction fields (Table 7-4) -/

/-- Destination row register. -/
def fVd (w : InstrWord) : Nat := bits 11 8 w.toNat
/-- Source A. -/
def fVa (w : InstrWord) : Nat := bits 15 12 w.toNat
/-- Source B. -/
def fVb (w : InstrWord) : Nat := bits 19 16 w.toNat
/-- Source C. -/
def fVc (w : InstrWord) : Nat := bits 23 20 w.toNat
/-- Index register. -/
def fXs (w : InstrWord) : Nat := bits 26 24 w.toNat
/-- Format, function or option. -/
def fSub (w : InstrWord) : Nat := bits 30 27 w.toNat
/-- FX16 operands. -/
def fNx (w : InstrWord) : Bool := bit 31 w.toNat
/-- Immediate. -/
def fImm (w : InstrWord) : Nat := bits 63 32 w.toNat
/-- SNW: first byte p. -/
def fP (w : InstrWord) : Nat := bits 13 8 w.toNat
/-- SNW: bytes minus one q. -/
def fQ (w : InstrWord) : Nat := bits 19 14 w.toNat

/-- The opcodes of Table 7-6. -/
def fListed (op : Nat) : Bool :=
  [0x01, 0x02, 0x03, 0x08, 0x09, 0x0A, 0x10, 0x11, 0x12, 0x13, 0x14, 0x15, 0x18, 0x31, 0x32, 0x34, 0x35, 0x36, 0x40,
    0x50, 0x51, 0x7F].contains op

/-- An opcode reads row register A, or B. -/
def fUsesA (op : Nat) : Bool :=
  [0x09, 0x10, 0x11, 0x12, 0x13, 0x14, 0x15, 0x18, 0x31, 0x32, 0x34, 0x35, 0x36, 0x40].contains op
def fUsesB (op : Nat) : Bool := [0x10, 0x11, 0x12, 0x13, 0x14, 0x15, 0x36].contains op

/-- Fields an opcode does not use are zero (R192): SNW reuses bits 19 to 8. -/
def fUnusedZero (w : InstrWord) : Bool :=
  let op := bits 7 0 w.toNat
  let usesD := [0x08, 0x0A, 0x10, 0x11, 0x12, 0x13, 0x14, 0x15, 0x18, 0x31, 0x32, 0x34, 0x35, 0x36, 0x40].contains op
  let usesA := fUsesA op
  let usesB := fUsesB op
  let usesX := [0x01, 0x02, 0x03, 0x08, 0x09, 0x0A, 0x50, 0x51].contains op
  let usesS := [0x01, 0x02, 0x03, 0x08, 0x09, 0x40].contains op
  (op == 0x03 || ((usesD || fVd w == 0) && (usesA || fVa w == 0) && (usesB || fVb w == 0))) && (op == 0x13 || fVc w == 0)
    && (usesX || fXs w == 0) && (usesS || fSub w == 0) && (op == 0x36 || !fNx w)

/-- The sub and imm values of an opcode lie where Tables 7-5 and 7-6 allow (R193 to R195). -/
def fValuesGood (w : InstrWord) : Bool :=
  let imm := fImm w
  match bits 7 0 w.toNat with
  | 0x01 => decide (fSub w ≤ 1)
  | 0x02 => decide (fSub w ≤ 1)
  | 0x03 => decide (fSub w ≤ 1) && bits 14 10 imm == 0 && decide (fP w + fQ w ≤ 63)
  | 0x08 => [0, 1, 2, 3, 4, 5, 8, 9, 0xA, 0xC, 0xD].contains (fSub w) && bits 31 22 imm == 0 && decide (bits 21 18 imm ≤ 8)
  | 0x09 => [0, 1, 2, 3, 4, 5, 8, 9, 0xA, 0xC, 0xD].contains (fSub w) && bits 31 18 imm == 0
  | 0x0A => decide (imm < 1024)
  | 0x18 => decide (imm < 32)
  | 0x31 => true
  | 0x32 => decide (imm ≤ 8)
  | 0x35 => decide (imm ≤ 8)
  | 0x36 => decide (imm ≤ 8)
  | 0x40 => decide (fSub w ≤ 5) && imm == 0
  | 0x50 => true
  | 0x51 => decide (imm < 256)
  | _ => imm == 0

/-! ### Execution -/

/-- Index register `i`; X0 reads zero (Table 7-1). -/
def xget (x : Face) (i : Nat) : Int := if i = 0 then 0 else Tbl.look 0 x.xs i
/-- Index register `i` written, modulo 2^32; X0 ignores writes. -/
def xput (i : Nat) (v : Int) (x : Face) : Face := if i = 0 then x else { x with xs := Tbl.put x.xs i (sext 32 (tc 32 v)) }
/-- Row register `i`. -/
def vget (x : Face) (i : Nat) : BRow := Tbl.look {} x.rows i

/-- The next instruction. [DEDUCED: log entry 43] -/
def faceNext (n : Nat) (s : State) : State := s.setFace n { s.face n with pc := ((s.face n).pc + 1) % 256 }

/-- A program-memory line read for an instruction that starts: a corrected one is counted, and its write-back becomes due (R184,
R370, R371). -/
def progRead (n pc : Nat) (s : State) : State := noteRead (progLine n pc) (s.verdict (progLine n pc) []) false false s

/-- An instruction of the face unit at the place its program has reached; `stroke`: it may go on while an earlier stroke is
in flight, since any other instruction takes effect only once every earlier one has delivered (R198). An opcode outside
Table 7-6 and a field or value it does not allow end the program (R192, R194). [DEDUCED: log entries 20, 43] -/
def faceStep (n op : Nat) (stroke : Bool) (w : InstrWord) (f : State → State) (s : State) : Res :=
  .next (
    let x := s.face n
    if faceRuns s n = true ∧ x.state = 2 ∧ x.ended = none ∧ x.prog[x.pc]? = some w
        ∧ (fListed (bits 7 0 w.toNat) = false ∨ bits 7 0 w.toNat = op) then
      if s.verdict (progLine n x.pc) [] = .uncorrectable then
        (if x.strokes = [] then faceStop n .uncorrectable (noteRead (progLine n x.pc) .uncorrectable false false s) else s)
      else if !fListed (bits 7 0 w.toNat) || !fUnusedZero w || !fValuesGood w then
        (if x.strokes = [] then faceStop n .badDescriptor (progRead n x.pc s) else s)
      else if stroke then (if x.strokes.length < 2 then f (progRead n x.pc s) else s)
      else if x.strokes = [] then f (progRead n x.pc s)
      else s
    else s)

/-- Why a stroke instruction is not issued (R193, R200): none when it can be. -/
inductive StrokeCheck where
  | good (buf line : Nat)
  | bad
  | denied (dpa why : Nat)
deriving DecidableEq, Repr, Inhabited

/-- The checks of a stroke instruction: buffer lines, alignment, 4 KiB, the own seam's linear part (R193, R200). -/
def strokeCheck (s : State) (n : Nat) (w : InstrWord) (lines : Nat) : StrokeCheck :=
  let x := s.face n
  let imm := fImm w
  let xs := xget x (fXs w)
  let b : Int := (bits 9 0 imm : Nat) + (if fSub w = 1 then xs / 64 else 0)
  let a : Int := xget x 1 + xs + 64 * (bits 31 15 imm : Nat)
  if (fSub w = 1 ∧ xs % 64 ≠ 0) ∨ b < 0 ∨ 1024 < b + lines ∨ a % 64 ≠ 0 ∨ 4096 < a % 4096 + 64 * lines then .bad
  else
    match faceDenies s n a lines with
    | some (d, why) => .denied d why
    | none => .good b.toNat (a / 64).toNat

/-- A stroke instruction is issued, or ends the program once every earlier stroke is over (R198, R200).
[DEDUCED: log entry 44] -/
def faceStroke (n op lines p q : Nat) (w : InstrWord) (s : State) : State :=
  match strokeCheck s n w lines with
  | .good b l => faceNext n (faceIssue n { op := op, line := l, buf := b, lines := lines, p := p, q := q } s)
  | .bad => if (s.face n).strokes = [] then faceStop n .badDescriptor s else s
  | .denied a why =>
    if (s.face n).strokes = [] then faceStop n .denied (recordDeny (.face n) a (op != 1) why s) else s

/-- FACE_SLD. -/
def execFaceSld (n : Nat) (w : InstrWord) (s : State) : Res :=
  faceStep n 0x01 true w (faceStroke n 1 (bits 14 10 (fImm w) + 1) 0 0 w) s

/-- FACE_SST. -/
def execFaceSst (n : Nat) (w : InstrWord) (s : State) : Res :=
  faceStep n 0x02 true w (faceStroke n 2 (bits 14 10 (fImm w) + 1) 0 0 w) s

/-- FACE_SNW: a column whose face share is zero ends the program (R206). -/
def execFaceSnw (n : Nat) (w : InstrWord) (s : State) : Res :=
  faceStep n 0x03 true w (fun s =>
    if s.faceShare = 0 then (if (s.face n).strokes = [] then faceStop n .badDescriptor s else s)
    else faceStroke n 3 1 (fP w) (fQ w) w s) s

/-- The codes stored beside the lanes of a row register agree with them (R199, R382). -/
def rowGood (x : Face) (i : Nat) : Bool := !lanesBad (vget x i).m (Tbl.look [] x.codes i)

/-- The mismatches that the lanes an instruction reads add (R199, R382). -/
def faceLaneFaults (x : Face) (w : InstrWord) : Nat :=
  let op := bits 7 0 w.toNat
  if (!fUsesA op || rowGood x (fVa w)) && (!fUsesB op || rowGood x (fVb w)) && (op != 0x13 || rowGood x (fVc w))
      && (op != 0x18 || rowGood x (fVd w)) then 0 else 2

/-- A row result written, with the flags it sets. -/
def faceWrite (n : Nat) (w : InstrWord) (r : RowRes) (s : State) : State :=
  let x := s.face n
  s.setFace n {
    x with
    rows := Tbl.put x.rows (fVd w) r.row, codes := Tbl.put x.codes (fVd w) (r.row.m.map mod3), sat := x.sat || r.sat, inv := x.inv || r.inv }

/-- A checked result: written after its verdict, to which `mm` mismatches of the check and the corrupted lanes of its sources
come; a second mismatch fences the unit (R199, R383). [DEDUCED: log entry 21] -/
def faceChecked (n : Nat) (w : InstrWord) (mm : Nat) (r : RowRes) (s : State) : State :=
  let bump := fun s : State => s.setFace n { s.face n with retries := satInc 0xFFFF (s.face n).retries }
  match residue s (mm + faceLaneFaults (s.face n) w) with
  | .clean => faceNext n (faceWrite n w r s)
  | .retried => faceNext n (faceWrite n w r (bump s))
  | .ignored =>
    let f := freeRows 1 (bump s)
    faceNext n (faceWrite n w { row := f.2.getD 0 {} } f.1)
  | .fault => faceFence n .unitFault (s.setFace n { s.face n with faultOp := bits 7 0 w.toNat })

/-- An arithmetic instruction. -/
def faceArith (n op : Nat) (w : InstrWord) (mm : Nat) (g : Face → RowRes) (s : State) : Res :=
  faceStep n op false w (fun s => faceChecked n w mm (g (s.face n)) s) s

/-- Sources A, B and C, and the destination as a source. -/
def vA (x : Face) (w : InstrWord) : BRow := vget x (fVa w)
def vB (x : Face) (w : InstrWord) : BRow := vget x (fVb w)
def vC (x : Face) (w : InstrWord) : BRow := vget x (fVc w)
def vD (x : Face) (w : InstrWord) : BRow := vget x (fVd w)

/-! ### Row loads and stores (R195, R197) -/

/-- Line and block of an LDR or STR. -/
def ldPlace (x : Face) (w : InstrWord) : Int × Int :=
  let imm := fImm w
  ((bits 9 0 imm : Nat) + (if bit 16 imm then xget x (fXs w) else 0),
   (bits 15 10 imm : Nat) + (if bit 17 imm then xget x (fXs w) else 0))

/-- The parts of the buffer that a row in a format occupies: byte and length of each; none when one leaves the buffer or
the block index of a row image is not zero (R195). -/
def ldParts (fmt : Nat) (l j : Int) : Option (List (Nat × Nat)) :=
  let fits := fun (ps : List (Int × Nat)) =>
    if ps.all (fun p => decide (0 ≤ p.1) && decide (p.1 + p.2 ≤ 65536)) then some (ps.map (fun p => (p.1.toNat, p.2))) else none
  if fmt ≤ 5 then fits [(64 * l + j, 1), (64 * l + 64 + j * blockBytes fmt, blockBytes fmt)]
  else if fmt ≤ 0xA then fits [(64 * l + j * blockBytes fmt, blockBytes fmt)]
  else if j ≠ 0 then none
  else if fmt = 0xC then fits [(64 * l, 64), (64 * l + 64, 64)]
  else fits [(64 * l, 128), (64 * l + 128, 64)]

/-- Parts of the buffer read; none when a line is uncorrectable. -/
def bufReads (n : Nat) : List (Nat × Nat) → State → State × Option (List (List Byte))
  | [], s => (s, some [])
  | p :: rest, s =>
    match localRead (.buf n) p.1 p.2 s with
    | (s, none) => (s, none)
    | (s, some bs) =>
      let t := bufReads n rest s
      (t.1, t.2.map (fun l => bs :: l))

/-- The row that a format's parts spell (R86, R87, R93). [DEDUCED: log entry 42] -/
def ldRow (fmt : Nat) (ps : List (List Byte)) : RowRes :=
  let a := ps.getD 0 []
  let b := ps.getD 1 []
  if fmt ≤ 5 then bfxOfMx fmt [] (leNat a) b
  else if fmt ≤ 0xA then bfxPack (blockValues fmt [] 127 a)
  else if fmt = 0xC then { row := { e := leAt b 0 1, m := (unpackBits 16 32 a).map (fun v => ofFx16 (sext 16 v)) } }
  else { row := { e := leAt b 0 1, m := (wordsOf a).map ofContainer } }

/-- NORM of a loaded row, the flags of the load kept. -/
def normRes (h : Nat) (r : RowRes) : RowRes :=
  let q := bfxNorm h r.row
  { row := q.row, sat := r.sat || q.sat, inv := r.inv || q.inv }

/-- FACE_LDR. -/
def execFaceLdr (n : Nat) (w : InstrWord) (mm : Nat) (s : State) : Res :=
  faceStep n 0x08 false w (fun s =>
    let p := ldPlace (s.face n) w
    match ldParts (fSub w) p.1 p.2 with
    | none => faceStop n .badDescriptor s
    | some ps =>
      match bufReads n ps s with
      | (s, none) => faceStop n .uncorrectable s
      | (s, some bs) => faceChecked n w mm (normRes (bits 21 18 (fImm w)) (ldRow (fSub w) bs)) s) s

/-- The bytes of a row in a format, part by part, and whether a lane saturates (R79, R88, R89, R93).
[DESIGN CHOICE: log entry 153] -/
def stBytes (fmt : Nat) (r : BRow) : List (List Byte) × Bool :=
  if fmt ≤ 5 then
    let q := bfxToMx fmt r
    ([leBytes 1 q.1, packBits (elemBits fmt) q.2], false)
  else if fmt ≤ 0xA then ([(bfxUnpack r).flatMap (fun v => leBytes (elemBits fmt / 8) (narrowCode fmt v))], false)
  else
    let last := leBytes 64 r.e
    if fmt = 0xC then
      let v := r.m.map toFx16
      ([v.flatMap (fun q => leBytes 2 (tc 16 q.1)), last], v.any (·.2))
    else ([r.m.flatMap (fun m => leBytes 4 (container m).toNat), last], false)

/-- Parts of the buffer written, all or none (R375). -/
def bufWrites (n : Nat) (parts : List (Nat × List Byte)) (s : State) : State × Bool :=
  let r := parts.foldl (fun (acc : State × Bool) p =>
    let x := localWrite (.buf n) p.1 p.2 acc.1
    (x.1, acc.2 && x.2)) (s, true)
  if r.2 then r else ({ r.1 with bufMem := s.bufMem, errs := s.errs }, false)

/-- FACE_STR. -/
def execFaceStr (n : Nat) (w : InstrWord) (s : State) : Res :=
  faceStep n 0x09 false w (fun s =>
    let x := s.face n
    let p := ldPlace x w
    match ldParts (fSub w) p.1 p.2 with
    | none => faceStop n .badDescriptor s
    | some ps =>
      let b := stBytes (fSub w) (vA x w)
      let r := bufWrites n (List.zip (ps.map (·.1)) b.1) s
      if r.2 then faceNext n (r.1.setFace n { r.1.face n with sat := (r.1.face n).sat || b.2 })
      else faceStop n .uncorrectable r.1) s

/-- The lanes of a bias row: none stands for SATMIN, else the index of the table entry (R197). -/
def biasIndex (d : Int) (i : Nat) : Option Nat :=
  let k := d - i
  if k < 0 then none else some (min k.toNat 4095)

/-- The entries of a bias row read from the table at a line. -/
def biasLanes (n line : Nat) : List (Option Nat) → State → State × Option (List Int)
  | [], s => (s, some [])
  | o :: rest, s =>
    let r : State × Option Int := match o with
      | none => (s, some satMin)
      | some k =>
        match localRead (.buf n) (64 * line + 2 * k) 2 s with
        | (s, none) => (s, none)
        | (s, some bs) => (s, some (ofFx16 (sext 16 (leNat bs))))
    match r.2 with
    | none => (r.1, none)
    | some v =>
      let t := biasLanes n line rest r.1
      (t.1, t.2.map (fun l => v :: l))

/-- FACE_LDB. -/
def execFaceLdb (n : Nat) (w : InstrWord) (mm : Nat) (s : State) : Res :=
  faceStep n 0x0A false w (fun s =>
    let l := fImm w
    if 1024 < l + 129 then faceStop n .badDescriptor s
    else
      match localRead (.buf n) (64 * (l + 128)) 1 s with
      | (s, none) => faceStop n .uncorrectable s
      | (s, some e) =>
        match biasLanes n l ((List.range 32).map (biasIndex (xget (s.face n) (fXs w)))) s with
        | (s, none) => faceStop n .uncorrectable s
        | (s, some ms) => faceChecked n w mm { row := { e := leNat e, m := ms } } s) s

/-! ### Arithmetic (R196) -/

/-- FACE_ADD. -/
def execFaceAdd (n : Nat) (w : InstrWord) (mm : Nat) (s : State) : Res :=
  faceArith n 0x10 w mm (fun x => bfxAdd (vA x w) (vB x w)) s
/-- FACE_SUB. -/
def execFaceSub (n : Nat) (w : InstrWord) (mm : Nat) (s : State) : Res :=
  faceArith n 0x11 w mm (fun x => bfxSub (vA x w) (vB x w)) s
/-- FACE_MUL. -/
def execFaceMul (n : Nat) (w : InstrWord) (mm : Nat) (s : State) : Res :=
  faceArith n 0x12 w mm (fun x => bfxMul (vA x w) (vB x w)) s
/-- FACE_MAD. -/
def execFaceMad (n : Nat) (w : InstrWord) (mm : Nat) (s : State) : Res :=
  faceArith n 0x13 w mm (fun x => bfxMad (vA x w) (vB x w) (vC x w)) s
/-- FACE_MAX. -/
def execFaceMax (n : Nat) (w : InstrWord) (mm : Nat) (s : State) : Res :=
  faceArith n 0x14 w mm (fun x => bfxMax (vA x w) (vB x w)) s
/-- FACE_MIN. -/
def execFaceMin (n : Nat) (w : InstrWord) (mm : Nat) (s : State) : Res :=
  faceArith n 0x15 w mm (fun x => bfxMin (vA x w) (vB x w)) s
/-- FACE_INS. -/
def execFaceIns (n : Nat) (w : InstrWord) (mm : Nat) (s : State) : Res :=
  faceArith n 0x18 w mm (fun x => bfxIns (fImm w) (vD x w) (vA x w)) s
/-- FACE_EADD. -/
def execFaceEadd (n : Nat) (w : InstrWord) (mm : Nat) (s : State) : Res :=
  faceArith n 0x31 w mm (fun x => bfxEadd (sext 32 (fImm w)) (vA x w)) s
/-- FACE_NORM. -/
def execFaceNorm (n : Nat) (w : InstrWord) (mm : Nat) (s : State) : Res :=
  faceArith n 0x32 w mm (fun x => bfxNorm (fImm w) (vA x w)) s
/-- FACE_RMAX. -/
def execFaceRmax (n : Nat) (w : InstrWord) (mm : Nat) (s : State) : Res :=
  faceArith n 0x34 w mm (fun x => bfxRmax (vA x w)) s
/-- FACE_RSUM. -/
def execFaceRsum (n : Nat) (w : InstrWord) (mm : Nat) (s : State) : Res :=
  faceArith n 0x35 w mm (fun x => bfxRsum (fImm w) (vA x w)) s
/-- FACE_DOT. -/
def execFaceDot (n : Nat) (w : InstrWord) (mm : Nat) (s : State) : Res :=
  faceArith n 0x36 w mm (fun x => bfxDot (fImm w) (fNx w) (vA x w) (vB x w)) s
/-- FACE_FN. -/
def execFaceFn (n : Nat) (w : InstrWord) (mm : Nat) (s : State) : Res :=
  faceArith n 0x40 w mm (fun x => bfxFn (fSub w) (vA x w)) s

/-! ### Index registers and the end -/

/-- FACE_XADD. -/
def execFaceXadd (n : Nat) (w : InstrWord) (s : State) : Res :=
  faceStep n 0x50 false w (fun s =>
    faceNext n (s.setFace n (xput (fXs w) (xget (s.face n) (fXs w) + sext 32 (fImm w)) (s.face n)))) s

/-- FACE_LOOP. -/
def execFaceLoop (n : Nat) (w : InstrWord) (s : State) : Res :=
  faceStep n 0x51 false w (fun s =>
    let x := s.face n
    let v := sext 32 (tc 32 (xget x (fXs w) - 1))
    let s := s.setFace n (xput (fXs w) v x)
    if v = 0 then faceNext n s else s.setFace n { s.face n with pc := fImm w }) s

/-- FACE_END. -/
def execFaceEnd (n : Nat) (w : InstrWord) (s : State) : Res := faceStep n 0x7F false w (faceStop n .ok) s

end Sys2Proof.Machine
end

