-- ==== Sys2Proof/Machine/LinkOps.lean ====
section
/-! DEFINITION. What the adits, the router and the membership share: answers to the field's requests, the management messages
(R311, R324 to R329), a port's way into ACTIVE, RETRAIN, TRAIN and FAILED (R293, R299 to R304, R310). -/

namespace Sys2Proof.Machine

/-! ### Answers -/

/-- The status of a 4-bit code; a code the stack never produces is a failure, of a kind the spec does not name (R14).
[DEDUCED: log entry 73] -/
def statusOf (code : Nat) (s : State) : Status :=
  match code with
  | 0 => .ok | 1 => .uncorrectable | 2 => .abortedByReset | 3 => .timeout | 4 => .noRoute | 5 => .denied
  | 6 => .linkExhausted | 7 => .unitDead | 8 => .badDescriptor | 9 => .unitFault
  | _ => [Status.uncorrectable, .abortedByReset, .timeout, .noRoute, .denied, .linkExhausted, .unitDead, .badDescriptor,
          .unitFault].getD (Config.freeValue s.free % 9) .unitFault

/-- What waited for an answer of the field goes on with a status (R161, R163, R282). -/
def fieldDone (q : FieldReq) (st : Status) (s : State) : State :=
  match q with
  | .arrival c addr xo => arrAnswered c addr xo st s
  | .xferWrite c order off =>
    match (s.crew c).xferRun.findIdx? (fun x => x.order == order) with
    | none => s
    | some i => match (s.crew c).xferRun[i]? with
      | none => s
      | some x =>
        let x' := if st = .ok then x else xferFail off st x
        setXfer c i { x' with waits := x'.waits - 1 } s
  | .poison _ => s

/-- The request of this stack with a tag is answered; an answer nothing waits for is dropped. -/
def fieldAnswer (tag : Nat) (st : Status) (s : State) : State :=
  match s.fld.outst.find? (fun q => q.1 == tag) with
  | none => s
  | some q =>
    fieldDone q.2 st { s with fld := { s.fld with outst := s.fld.outst.filter (fun p => p.1 != tag) } }

/-- The op of the response to a request's op (Table 10-6). -/
def responseOp (op : Nat) : Nat := if op = 0x01 then 0x12 else if op = 0x02 then 0x11 else 0x13

/-- A message that goes no further (R301, R312, R316): a request or bulk message is answered toward its source with a
status; a response or management message is discarded. Answers whether it was discarded. -/
def endMessage (f : MsgFlit) (local_ : Bool) (tag op : Nat) (st : Status) (s : State) : State × Bool :=
  if f.vc = 0 ∨ f.vc = 2 then
    (if local_ then fieldAnswer tag st s else respond f.src tag (responseOp op) f.ordered st [] s, false)
  else (s, true)

/-- One message of a port given up with a status (R301, R302). -/
def giveUp (a : Nat) (st : Status) (e : Flit) (s : State) : State :=
  let r := endMessage e.f e.local_ e.tag e.op st s
  if r.2 then lostAt a r.1 else r.1

/-- The first flit a port holds of each message. -/
def messagesOf (es : List Flit) : List Flit :=
  es.foldl (fun acc e => if acc.any (fun k => k.msg == e.msg) then acc else acc ++ [e]) []

/-! ### The survey (R323, R451) -/

/-- The valid copy with the higher write count, and whether it is the second. [DEDUCED: log entry 96] -/
def surveyNow (s : State) : Option (Bool × Survey) :=
  let a := s.brg.surveyA
  let b := s.brg.surveyB
  if a.valid && b.valid then (if a.count < b.count then some (true, b) else some (false, a))
  else if a.valid then some (false, a) else if b.valid then some (true, b) else none

/-- The entries of the survey as it stands. [DEDUCED: log entry 96] -/
def surveyEntries (s : State) : List SurveyEnt := match surveyNow s with | some p => p.2.entries | none => []

/-- Entries compacted: the most recent of each kind, grain and index is kept (R458). [DEDUCED: log entry 96] -/
def compact : List SurveyEnt → List SurveyEnt
  | [] => []
  | e :: rest =>
    let t := compact rest
    if rest.any (fun x => x.kind == e.kind && x.grain == e.grain && x.index == e.index) then t else e :: t

/-- How many entries a copy of 1 MiB holds. -/
def surveyRoom : Nat := 65532

/-- A new survey is written to the other copy (R451). [DEDUCED: log entry 96] -/
def writeSurvey (es : List SurveyEnt) (s : State) : State :=
  let es := if surveyRoom < es.length then compact es else es
  let n := (max s.brg.surveyA.count s.brg.surveyB.count + 1) % 2 ^ 32
  let x : Survey := { valid := true, count := n, entries := es }
  match surveyNow s with
  | some (false, _) => { s with brg := { s.brg with surveyB := x } }
  | _ => { s with brg := { s.brg with surveyA := x } }

/-- The incarnation that the survey holds (R323). -/
def heldIncarnation (es : List SurveyEnt) : Nat := ((es.filter (fun e => e.kind == 5)).map (·.data)).getLastD 0

/-- The stack's own member entry at its next incarnation, held in the survey too (R323). -/
def newIncarnation (s : State) : State :=
  let n := (heldIncarnation (surveyEntries s) + 1) % 2 ^ 32
  let s := writeSurvey ((surveyEntries s).filter (fun e => e.kind != 5) ++ [{ kind := 5, cause := 0, grain := 0, index := 0, data := n }]) s
  { s with members := Tbl.put s.members s.fld.id { member := true, inc := n, serial := s.fuses.serial.toNat } }

/-! ### Management messages (R324, R329) -/

/-- A management message to the neighbour of a port. [DEDUCED: log entry 73] -/
def mgmtMsg (s : State) (a : Nat) (data : List Byte) : Msg :=
  { (default : Msg) with vc := 3, ordered := true, src := s.fld.id, dst := (s.adit a).peerStack, op := 0x20,
                         len := data.length, data := data }

/-- A message sent one hop from a physical port. -/
def sendNeighbour (a : Nat) (data : List Byte) (s : State) : State :=
  let fs := msgFlits (mgmtMsg s a data) 0 false 0
  let id := s.fld.msgs
  let es := portFlits s fs true id 0 0x20
  let s := { s with fld := { s.fld with msgs := id + 1 } }
  let x := s.adit a
  if x.state = 5 then s.setAdit a { x with txq := x.txq ++ es } else s.setAdit a { x with ordHeld := x.ordHeld ++ es }

/-- The ports in use, ascending (R310). [DEDUCED: log entry 70] -/
def State.usedPorts (s : State) : List Nat := (List.range 48).filter (fun a => (s.adit a).inUse)

/-- The link of a port's role is in use and ACTIVE. -/
def State.linkUp (s : State) (a : Nat) : Bool :=
  let x := s.adit (s.rolePort a)
  x.inUse && x.state == 5

/-- A message to every in-use peer but the one on a port. -/
def sendPeers (but : Option Nat) (data : List Byte) (s : State) : State :=
  s.usedPorts.foldl (fun s a => if but = some a then s else sendNeighbour a data s) s

/-- The data of a LINKMAP (Table 11-3). -/
def linkmapData (s : State) : List Byte :=
  let l := maskOf 32 (fun m => m != memberOf s.fld.id && s.linkUp (s.localPort m))
  let g := maskOf 16 (fun j => s.linkUp (31 + j))
  [0x12, 0, 0, 0] ++ leBytes 4 l ++ leBytes 2 g ++ List.replicate 6 0

/-- LINKMAP to every in-use local peer (R311). -/
def sendLinkmaps (s : State) : State :=
  let d := linkmapData s
  (((List.range 31).map s.rolePort).filter (fun p => (s.adit p).inUse)).foldl (fun s p => sendNeighbour p d s) s

/-- The 16 bytes of a member entry (Table 11-4). -/
def entryBytes (stack : Nat) (m : Member) : List Byte :=
  leBytes 2 stack ++ [BitVec.ofNat 8 (b2n m.member), 0] ++ leBytes 4 m.inc ++ leBytes 8 m.serial

/-- A JOIN (type 0x10) or LEAVE (type 0x11) that carries an entry. -/
def memberData (type stack : Nat) (m : Member) : List Byte :=
  BitVec.ofNat 8 type :: List.replicate 15 0 ++ entryBytes stack m

/-- The member table cut into SNAPSHOT messages of at most 255 entries; `fuel` bounds them. -/
def snapshotData : Nat → List (Nat × Member) → List (List Byte)
  | 0, _ => []
  | fuel + 1, es =>
    if es = [] then []
    else
      let k := es.take 255
      ([0x13, 0] ++ leBytes 2 k.length ++ List.replicate 12 0 ++ k.flatMap (fun e => entryBytes e.1 e.2))
        :: snapshotData fuel (es.drop 255)

/-- The member table sent to the neighbour of a port (R324). -/
def sendSnapshot (a : Nat) (s : State) : State :=
  (snapshotData 65 s.members).foldl (fun s d => sendNeighbour a d s) s

/-- The member entry of a stack. -/
def State.memberOf (s : State) (x : Nat) : Member := Tbl.look {} s.members x

/-- The stack's own JOIN to every in-use peer, once in an incarnation (R324). -/
def sendJoin (s : State) : State :=
  let s := sendPeers none (memberData 0x10 s.fld.id (s.memberOf s.fld.id)) s
  { s with fld := { s.fld with joinSent := true, joinAt := s.now } }

/-- A LEAVE at an incarnation is applied and sent on; the stack's own makes it leave the field (R325, R326). -/
def applyLeave (src : Option Nat) (x inc : Nat) (s : State) : State :=
  let m := s.memberOf x
  if m.member = true ∧ m.inc ≤ inc then
    let m' := { m with member := false, inc := inc }
    let own := decide (x = s.fld.id) && decide (inc = m.inc)
    let s := { s with members := Tbl.put s.members x m' }
    let s := if own then { s with fld := { s.fld with joined := false, left := true } } else s
    sendPeers src (memberData 0x11 x m') s
  else s

/-- A JOIN is applied and sent on, or flags a duplicate of the own ID (R325, R328). -/
def applyJoin (src : Option Nat) (x inc serial : Nat) (s : State) : State :=
  if x = s.fld.id ∧ serial ≠ s.fuses.serial.toNat then
    logEvent 0x10 0 0x0904 [(0, 8, s.fuses.serial.toNat), (8, 8, serial)] { s with fld := { s.fld with dupId := true } }
  else if (s.memberOf x).inc < inc then
    let m : Member := { member := true, inc := inc, serial := serial }
    sendPeers src (memberData 0x10 x m) { s with members := Tbl.put s.members x m }
  else s

/-! ### The states of a port (R293) -/

/-- The port's entry into or exit from RETRAIN is logged (Table 18-7). -/
def logRetrain (a : Nat) (s : State) : State :=
  let x := s.adit a
  logEvent 0x0F a 0x0901 [(0, 1, a), (1, 1, x.cause), (2, 1, x.state)] s

/-- A port reaching ACTIVE is compared with its expected peer (R310, R324): in use with an exchange of member tables, and
with the stack's JOIN if that is still to be sent; or miscabled. A47 in standby carries no traffic (R270). -/
def portUse (a : Nat) (s : State) : State :=
  let x := s.adit a
  if a = 47 ∧ s.chr.aditSpare < 47 then s
  else if s.expectedPeer a = some (x.peerStack, x.peerAdit) then
    if x.spare then s.setAdit a { x with miscabled := false }
    else
      let s := sendSnapshot a (s.setAdit a { x with inUse := true, miscabled := false })
      if s.fld.ready = true ∧ s.fld.joinSent = false ∧ s.fld.left = false then sendJoin s else s
  else
    let e := (s.expectedPeer a).getD (0xFFFF, 0)
    let s := s.setAdit a { x with inUse := false, miscabled := true }
    let s := { s with fld := { s.fld with miscabled := true } }
    logEvent 0x0F a 0x0903 [(0, 1, a), (2, 2, e.1), (4, 1, e.2), (6, 2, x.peerStack), (8, 1, x.peerAdit)] s

/-- A port becomes ACTIVE: held flits go first, those that waited for it follow (R300, R304, R317). -/
def goActive (a : Nat) (s : State) : State :=
  let x := s.adit a
  let was := x.state
  let s := s.setAdit a { x with
    state := 5, stateAt := s.now, ackAt := s.now, resend := x.replay, txq := x.txq ++ x.ordHeld, ordHeld := []
    fullTrain := false }
  let s := if was = 6 then logRetrain a s else s
  sendLinkmaps (portUse a s)

/-- Every message that a router is passing with a number goes on by another port, or nowhere. [DEDUCED: log entry 69] -/
def retarget (id : Nat) (out : Option Nat) (s : State) : State :=
  let go := fun t : Transit => if t.msg = id ∧ t.out.isSome then { t with out := out } else t
  { s with
    adits := s.adits.map (fun p => (p.1, { p.2 with rxRoute := p.2.rxRoute.map (fun q => (q.1, go q.2)) }))
    fld := { s.fld with txRoute := s.fld.txRoute.map (fun q => (q.1, go q.2)) } }

/-- The flits of one message that waited for a port take the route without it (R317); a message of which the port has
sent flits stays with it. -/
def rerouteMsg (es : List Flit) (s : State) : State :=
  match es with
  | [] => s
  | e :: _ =>
    if e.f.first then
      match routeOf { s with fld := { s.fld with ordWait := 0 } } e.f false e.f.hops with
      | .port b nm =>
        portPush b (es.map (fun k => { k with f := { k.f with nm := nm } })) (retarget e.msg (some b) s)
      | .exhausted b =>
        let r := endMessage e.f e.local_ e.tag e.op .linkExhausted (retarget e.msg none s)
        if r.2 then lostAt (s.rolePort b) r.1 else r.1
      | .deliver => s
    else s

/-- The first flit of a message that travels one hop: a membership message (R324). -/
def oneHop (f : MsgFlit) : Bool := f.vc == 3 && decide (0x10 ≤ leAt f.payload 16 1)

/-- Some of the flits that wait for a port are rerouted, message by message; a membership message is not. -/
def rerouteHeld (a : Nat) (p : Flit → Bool) (s : State) : State :=
  let x := s.adit a
  let go := x.ordHeld.filter (fun e => p e && x.ordHeld.any (fun k => k.msg == e.msg && k.f.first && !oneHop k.f))
  let s := s.setAdit a { x with ordHeld := x.ordHeld.filter (fun e => !go.contains e) }
  (messagesOf go).foldl (fun s e => rerouteMsg (go.filter (fun k => k.msg == e.msg)) s) s

/-- The buffered flits of one VC that belong to messages wholly received; `left` flits of the message being passed come
first, and `n` bounds the messages. -/
def wholeFlits : Nat → Nat → List MsgFlit → List MsgFlit
  | 0, _, _ => []
  | n + 1, left, fs =>
    if left ≠ 0 then
      if fs.length < left then [] else fs.take left ++ wholeFlits n 0 (fs.drop left)
    else
      match fs with
      | [] => []
      | f :: _ =>
        let k := flitCount (dataLen (flitOpLen f).1 (flitOpLen f).2)
        if fs.length < k then [] else fs.take k ++ wholeFlits n 0 (fs.drop k)

/-- The flits of a port's receive buffer that belong to messages wholly received, and the passages they complete (R301). -/
def wholeRx (x : Adit) : List (MsgFlit × Bool) × Tbl Transit × Tbl (List MsgFlit) :=
  let part := fun v => ((x.rxbuf.zip x.rxSh).filter (fun p => p.1.vc == v)).map (·.1)
  let left := fun v => (Tbl.look {} x.rxRoute v).left
  let keep := fun v => (wholeFlits (x.rxbuf.length + 1) (left v) (part v)).length
  let go := fun v => decide (left v ≤ keep v)
  let kept := (List.range x.rxbuf.length).filter (fun i =>
    let v := (x.rxbuf.getD i default).vc
    decide (((x.rxbuf.take i).filter (fun f => f.vc == v)).length < keep v))
  (kept.map (fun i => (x.rxbuf.getD i default, x.rxSh.getD i false)),
    x.rxRoute.filter (fun q => go q.1), x.rxPart.filter (fun q => go q.1))

/-- The messages that a port holds are given up, and the partial messages of its receive buffer discarded without a return
of their credits (R301, R302). [DEDUCED: log entry 69] -/
def flushPort (a : Nat) (st : Status) (s : State) : State :=
  let x := s.adit a
  let ms := messagesOf (x.replay ++ x.txq ++ x.ordHeld)
  let w := wholeRx x
  let s := s.setAdit a { x with
    replay := [], txq := [], ordHeld := [], resend := [], rxbuf := w.1.map (·.1), rxSh := w.1.map (·.2), rxOld := w.1.length, credDue := []
    rxRoute := w.2.1, rxPart := w.2.2, rxBad := [], txCur := [] }
  ms.foldl (fun s e => giveUp a st e (retarget e.msg none s)) s

/-- A port in a partial takeover or standby gives the role back: neither end shows spare_active. [DEDUCED: log entry 70] -/
def spareOff (s : State) : State :=
  let p := s.chr.aditSpare
  let s := s.setAdit 47 { s.adit 47 with spare := false, inUse := false }
  s.setAdit p { s.adit p with spare := false }

/-- The takeover of A47 ends when A47 itself leaves the links in use. [DEDUCED: log entry 70] -/
def spareDrop (a : Nat) (s : State) : State := if a = 47 ∧ (s.adit 47).spare = true then spareOff s else s

/-- A port enters FAILED with a cause (R293, R301, R317). [DEDUCED: log entry 69] -/
def aditFail (a cause : Nat) (s : State) : State :=
  let x := s.adit a
  let was := x.state
  let s := s.setAdit a { x with state := 7, cause := cause, stateAt := s.now, inUse := false, fullTrain := false,
                                 qualSent := false, qualGot := false }
  let s := if was = 6 then logRetrain a s else s
  let s := spareDrop a s
  let s := flushPort a .linkExhausted (rerouteHeld a (fun _ => true) s)
  if was = 5 then sendLinkmaps s else s

/-- A port starts training (R293, R294); `keep`: with its replay and sequence state (R300). -/
def aditTrain (a cause : Nat) (keep : Bool) (s : State) : State :=
  let x := s.adit a
  s.setAdit a { x with
    state := 1, cause := cause, stateAt := s.now, fullTrain := keep, capsGot := false, peerSeen := false
    rxDone := false, peerDone := false, qualGot := false, passRx := false, passPeer := false }

/-- A port that the ADIT_TRAIN step or the end of a reset starts; one that assay has condemned is as one that is not enabled
(R453). -/
def aditStart (a : Nat) (s : State) : State :=
  if bit a s.chr.aditEnable && !s.glb.badAdits.contains a then aditTrain a (s.adit a).cause false s else s

/-- A port leaves ACTIVE to train: the flits in its transmit queue wait for it from now on, and unordered messages of which it
has sent nothing are rerouted at once (R300, R317). [DEDUCED: log entry 68] -/
def holdQueue (a : Nat) (s : State) : State :=
  let x := s.adit a
  rerouteHeld a (fun e => !e.f.ordered) (s.setAdit a { x with
    txq := [], ordHeld := x.txq.map (fun e => { e with at_ := s.now }) ++ x.ordHeld })

/-- A port enters RETRAIN with a cause, and tells its peer unless the lanes have lost alignment (R299, R300). -/
def enterRetrain (a cause : Nat) (s : State) : State :=
  let x := s.adit a
  let s := s.setAdit a { x with state := 6, cause := cause, stateAt := s.now, retrains := satInc 0xF x.retrains,
                                 resend := [] }
  let s := logRetrain a s
  let s := if cause = 9 then s else sendLink a 3 [4] s
  sendLinkmaps (holdQueue a s)

/-- A stop of the stack is told to the peers (R303). -/
def stopAdit (a : Nat) (s : State) : State :=
  let st := (s.adit a).state
  if st = 3 ∨ st = 4 ∨ st = 5 then aditFail a 12 (sendLink a 3 [5] (sendLink a 3 [5] (sendLink a 3 [5] s))) else s

end Sys2Proof.Machine
end

