-- ==== Sys2Proof/Machine/FieldTime.lean ====
section
/-! DEFINITION. Field time: the grandmaster, the parent and the steering of TCLK (R330 to R334). -/

namespace Sys2Proof.Machine

/-- The grandmaster candidates advertised on the ports in use: priority, stack, distance, port. -/
def allAdverts (s : State) : List (Nat × Nat × Nat × Nat) :=
  s.usedPorts.filterMap (fun a => match (s.adit a).advert with
    | some (pr, g, d) => if pr ≠ 0 then some (pr, g, d, a) else none
    | none => none)

/-- Those with a distance below 7. -/
def advertsOf (s : State) : List (Nat × Nat × Nat × Nat) := (allAdverts s).filter (fun x => decide (x.2.2.1 < 7))

/-- The stack is a candidate better than every advertisement it receives (R332). -/
def selfBest (s : State) : Bool :=
  s.chr.gmPrio != 0 && (allAdverts s).all (fun x =>
    decide (s.chr.gmPrio < x.1) || (s.chr.gmPrio == x.1 && decide (s.fld.id ≤ x.2.1)))

/-- Priority, then stack, then distance, then port: the lower first (R332). -/
def advertLt (x y : Nat × Nat × Nat × Nat) : Bool :=
  decide (x.1 < y.1) || (x.1 == y.1 && (decide (x.2.1 < y.2.1) || (x.2.1 == y.2.1
    && (decide (x.2.2.1 < y.2.2.1) || (x.2.2.1 == y.2.2.1 && decide (x.2.2.2 < y.2.2.2))))))

/-- The best advertisement. -/
def bestAdvert (l : List (Nat × Nat × Nat × Nat)) : Option (Nat × Nat × Nat × Nat) :=
  match l with
  | [] => none
  | x :: xs => some (xs.foldl (fun b y => if advertLt y b then y else b) x)

/-- The stack is the grandmaster (R332, R333). -/
def becomeGm (s : State) : State :=
  { s with fld := { s.fld with tstate := 3, gm := s.fld.id, distance := 0, parent := 0, hasParent := false
                               within4Since := none } }

/-- A grandmaster and a parent are adopted; a grandmaster that adopts another goes to LOCKING without a step (R333). -/
def adoptGm (x : Nat × Nat × Nat × Nat) (s : State) : State :=
  let was := s.fld.tstate
  { s with fld := { s.fld with
      gm := x.2.1, distance := x.2.2.1 + 1, parent := x.2.2.2, hasParent := true
      tstate := if was = 3 then 1 else was
      within4Since := if was = 3 then none else s.fld.within4Since } }

/-- The grandmaster is chosen again (R332). [DESIGN CHOICE: log entry 76] -/
def selectGm (s : State) : State :=
  if selfBest s then becomeGm s
  else match bestAdvert (advertsOf s) with
    | none =>
      if s.fld.tstate = 3 ∨ s.fld.hasParent = true then
        { s with fld := { s.fld with
            hasParent := false, noParentAt := s.now, tstate := if s.fld.tstate = 3 then 0 else s.fld.tstate } }
      else s
    | some x => adoptGm x s

/-- The priority of the grandmaster the stack advertises; 0 while it has none. -/
def gmPrioOf (s : State) : Nat :=
  if s.fld.tstate = 3 then s.chr.gmPrio
  else if s.fld.hasParent then match (s.adit s.fld.parent).advert with | some x => x.1 | none => 0
  else 0

/-- The difference of two stamps, which wrap modulo 2^64. [DEDUCED: log entry 75] -/
def stampDiff (a b : Nat) : Int := sext 64 ((a + 2 ^ 64 - b % 2 ^ 64) % 2 ^ 64)

/-- TCLK steps on entry to LOCKING by the measured offset, and the step is logged (R333). [DEDUCED: log entry 75] -/
def stepTclk (ofs : Int) (s : State) : State :=
  logEvent 0x10 0 0x0905 [(0, 8, tc 64 (-ofs)), (8, 1, s.fld.parent), (10, 2, s.fld.gm)]
    (let t := BitVec.ofInt 64 ((s.tclk.toNat : Int) - ofs / 256)
     { s with tclk := t
              fld := { s.fld with
                tstate := 1, within4Since := none, steer := 0
                ppsDue := s.fld.ppsDue || decide (s.tclk.toNat / 1000000000 < t.toNat / 1000000000) } })

/-- A measured offset moves the time state (Table 11-6) and steers TCLK. [DEDUCED: log entry 75] -/
def useOffset (ofs : Int) (s : State) : State :=
  let f := s.fld
  match f.tstate with
  | 0 => stepTclk ofs s
  | 1 => { s with fld := { f with
            within4Since := if ofs.natAbs ≤ 1024 then (match f.within4Since with | some t => some t | none => some s.now) else none
            steer := -(ofs / 256) } }
  | 2 => if 256000 < ofs then { s with fld := { f with tstate := 0, within4Since := none } }
         else if ofs < -256000 then { s with fld := { f with tstate := 0, within4Since := none } }
         else { s with fld := { f with steer := -(ofs / 256) } }
  | _ => s

/-- A TIME flit received on a port at a local stamp (R331, R332). [DEDUCED: log entry 75] -/
def timeTake (a : Nat) (t : TimePayload) (rxStamp : Nat) (s : State) : State :=
  let x := s.adit a
  if x.inUse = true ∧ x.state = 5 then
    let s := s.setAdit a { x with
      lastTtx := t.tTx, lastTrx := rxStamp, timeGot := true
      advert := if t.prio = 0 then none else some (t.prio, t.gm, t.distance), advertAt := s.now }
    let s := selectGm s
    if s.fld.hasParent = true ∧ s.fld.parent = a ∧ x.timeGot = true ∧ t.tEcho ≠ 0 then
      let d21 := stampDiff x.lastTrx x.lastTtx
      let d43 := stampDiff t.tRx t.tEcho
      let ofs := (d21 - d43) / 2
      let delay := (stampDiff t.tRx x.lastTtx - stampDiff t.tEcho x.lastTrx) / 2
      useOffset ofs { s with fld := { s.fld with offset := ofs, delay := delay } }
    else s
  else s

/-- TIME. -/
def execTimeFlit (a : Nat) (t : TimePayload) (rxStamp : Nat) (s : State) : Res := .next (timeTake a t rxStamp s)

/-- TIME_FLIT_TIMER: the stamp's part below a nanosecond is open. [DESIGN CHOICE: log entry 76] -/
def execTimeFlitTimer (a : Nat) (s : State) : Res :=
  .next (
    if (s.adit a).inUse = true ∧ (s.adit a).state = 5 then
      let s := selectGm s
      let x := s.adit a
      let d := s.fresh
      sendLink a 4 (timeBytes { distance := s.fld.distance, gm := s.fld.gm, prio := gmPrioOf s
                                tTx := (s.tclk.toNat * 256 + d.1 % 256) % 2 ^ 64, tEcho := x.lastTtx, tRx := x.lastTrx }) d.2
    else s)

/-- TIME_LOCKED. -/
def execTimeLocked (s : State) : Res :=
  .next (match s.fld.within4Since with
    | some t => if s.fld.tstate = 1 ∧ t + 1000000 ≤ s.now then { s with fld := { s.fld with tstate := 2 } } else s
    | none => s)

/-- PARENT_TIMEOUT. -/
def execParentTimeout (s : State) : Res :=
  .next (
    if s.fld.hasParent = false ∧ s.fld.tstate ≠ 3 ∧ s.fld.noParentAt + 1000000000 ≤ s.now then
      selectGm { s with fld := { s.fld with tstate := 0, within4Since := none } }
    else s)

/-- GM_ADVERT_STALE. -/
def execGmAdvertStale (a : Nat) (s : State) : Res :=
  .next (
    if (s.adit a).advert.isSome = true ∧ (s.adit a).advertAt + 64000 < s.now then
      selectGm (s.setAdit a { s.adit a with advert := none })
    else s)

/-- PPS_IN_EDGE: a grandmaster's TCLK is steered so that the edge falls at a multiple of 10^9 ns (R334).
[DESIGN CHOICE: log entry 76] -/
def execPpsInEdge (s : State) : Res :=
  .next (
    let s := selectGm s
    if s.chr.auxPpsIn.isSome = true ∧ s.fld.tstate = 3 then
      let p : Nat := s.tclk.toNat % 1000000000
      { s with fld := { s.fld with steer := if p ≤ 500000000 then -(p : Int) else 1000000000 - (p : Int) } }
    else s)

/-- PPS_OUT_EDGE: the pin rises when TCLK passes a multiple of 10^9 (R334). -/
def execPpsOutEdge (s : State) : Res :=
  .next (
    if s.chr.auxPpsOut.isSome = true ∧ s.fld.ppsDue = true then
      ({ s with fld := { s.fld with ppsDue := false } }).emit (.ppsOut s.tclk)
    else s)

end Sys2Proof.Machine
end

