-- ==== Sys2Proof/Machine/Link.lean ====
section
/-! DEFINITION. One Oluba link (10_oluba_links.md): flits received and sent, sequencing, replay and credits (R278 to R292), and
the states of a port (R293 to R304, R511). -/

namespace Sys2Proof.Machine

/-! ### Flits received -/

/-- The routed flit that 256 bytes carry (Tables 10-3 and 10-4). -/
def parseFlit (bs : List Byte) : MsgFlit :=
  let h := leAt bs 0 8
  { vc := bits 1 0 h, first := bits 4 2 h == 1, ordered := bit 5 h, nm := bit 6 h, hops := bits 9 7 h, dst := bits 23 10 h
    src := bits 37 24 h, via := bits 50 42 h, payload := (bs.drop 8).take 240 }

/-- An op is permitted on a VC (Table 10-6). -/
def opOnVc (vc op : Nat) : Bool :=
  match vc with
  | 0 => op == 1 || op == 2 || op == 3 || op == 4
  | 1 => op == 0x11 || op == 0x12 || op == 0x13
  | 2 => op == 1
  | _ => op == 0x20

/-- A management type of Table 11-3. -/
def mgmtType (t : Nat) : Bool := decide (1 ≤ t) && decide (t ≤ 0x13)

/-- A header error that the header itself shows (R288, R315, R329). [DEDUCED: log entry 63] -/
def badHeader (rev h : Nat) (f : MsgFlit) : Bool :=
  let kind := bits 4 2 h
  decide (5 ≤ kind) || bits 41 38 h != 0 || (rev == 1 && bits 51 42 h != 0)
    || ((bits 56 54 h == 5 || bits 56 54 h == 6) && bits 63 57 h != 0)
    || ((kind == 1 || kind == 2) && decide ((if rev = 1 then 2 else 4) < f.hops))
    || (kind == 1 && bits 7 4 (leAt f.payload 11 1) != 0)
    || (kind == 1 && !(opOnVc f.vc (leAt f.payload 10 1)
          && (leAt f.payload 10 1 != 0x20 || mgmtType (leAt f.payload 16 1))))

/-- A port's receive limits: reserved credits per class and shared credits of a VC (Table 10-7, R296). -/
def creditLimit (rev vc cls : Nat) : Nat :=
  if cls = 7 then (if rev = 1 then 0 else [108, 108, 716, 12].getD vc 0) else 4

/-- The kind of credit a flit consumed. -/
def creditKind (f : MsgFlit) (sh : Bool) : Nat × Nat := (f.vc, if sh then 7 else f.hops)

/-- Credits of a kind the port still has from its peer: of flits in the buffer and of credits not yet returned. -/
def creditUsed (x : Adit) (k : Nat × Nat) : Nat :=
  (((x.rxbuf.zip x.rxSh).drop x.rxOld).filter (fun p => creditKind p.1 p.2 == k)).length
    + (x.credDue.filter (fun c => (c.1, c.2.1) == k)).foldl (fun n c => n + c.2.2) 0

/-- Credits to return, one entry for each kind (R290). -/
def creditAdd (k : Nat × Nat) (l : List (Nat × Nat × Nat)) : List (Nat × Nat × Nat) :=
  if l.any (fun c => (c.1, c.2.1) == k) then l.map (fun c => if (c.1, c.2.1) = k then (c.1, c.2.1, c.2.2 + 1) else c)
  else l ++ [(k.1, k.2, 1)]

/-- Flit `i` leaves the receive buffer, and its credit is due (R290, R291); not that of a flit from before a failure (R301). -/
def leaveBuffer (a i : Nat) (s : State) : State :=
  let x := s.adit a
  match x.rxbuf[i]? with
  | none => s
  | some f =>
    s.setAdit a { x with rxbuf := listDel x.rxbuf i, rxSh := listDel x.rxSh i, rxOld := if i < x.rxOld then x.rxOld - 1 else x.rxOld
                         credDue := if i < x.rxOld then x.credDue
                                    else creditAdd (creditKind f (x.rxSh.getD i false)) x.credDue }

/-- The buffered flits of the last message of a VC leave the buffer, from the end back; `n` bounds them. Answers whether
its first flit was among them. -/
def dropTail (a vc : Nat) : Nat → State → State × Bool
  | 0, s => (s, false)
  | n + 1, s =>
    let x := s.adit a
    match (List.range x.rxbuf.length).reverse.find? (fun i => (x.rxbuf.getD i default).vc == vc) with
    | none => (s, false)
    | some i =>
      let s' := leaveBuffer a i s
      if (x.rxbuf.getD i default).first then (s', true) else dropTail a vc n s'

/-- The message that a router is passing from a port's VC is dropped where it stands. -/
def dropTransit (a vc : Nat) (s : State) : State :=
  let x := s.adit a
  let t := Tbl.look {} x.rxRoute vc
  let s := s.setAdit a { x with rxRoute := Tbl.del x.rxRoute vc, rxPart := Tbl.del x.rxPart vc }
  match t.out with
  | none => s
  | some b =>
    let p := s.rolePort b
    let y := s.adit p
    s.setAdit p { y with
      txq := y.txq.filter (fun e => e.msg != t.msg), ordHeld := y.ordHeld.filter (fun e => e.msg != t.msg)
      txCur := y.txCur.filter (fun c => c.2.1 != t.msg) }

/-- The message of a flit with a header error is discarded whole (R288). -/
def dropMessage (a : Nat) (f : MsgFlit) (s : State) : State :=
  let x := s.adit a
  let s := s.setAdit a { x with rxBad := setAdd f.vc x.rxBad }
  if f.first then s
  else
    let r := dropTail a f.vc x.rxbuf.length s
    if r.2 then r.1 else dropTransit a f.vc r.1

/-- A header error counts, and the first in 1 ms is logged (R288). -/
def headerError (a h : Nat) (s : State) : State :=
  let x := s.adit a
  let again := match x.hdrAt with | some t => decide (s.now < t + 1000000) | none => false
  let x := { x with hdr := satInc 0xFF x.hdr, hdrMs := if again then satInc 0xFFFF x.hdrMs else 1
                    hdrAt := if again then x.hdrAt else some s.now }
  let s := s.setAdit a x
  if again then s else logEvent 0x0F a 0x0902 [(0, 1, a), (2, 2, x.hdrMs), (8, 8, h)] s

/-- A sequenced flit that is neither bad nor out of order (R286, R288, R290). [DEDUCED: log entry 63] -/
def acceptFlit (a h : Nat) (f : MsgFlit) (sh : Bool) (s : State) : State :=
  let x := s.adit a
  let k := creditKind f sh
  let credit := decide (creditUsed x k < creditLimit x.rev k.1 k.2)
  let x := { x with rxAck := x.rxNext, rxNext := (x.rxNext + 1) % 4096, nakSent := false }
  let free := fun y : Adit => if credit then { y with credDue := creditAdd k y.credDue } else y
  if badHeader x.rev h f || !credit then
    headerError a h (dropMessage a f (s.setAdit a (free x)))
  else if !f.first && x.rxBad.contains f.vc then s.setAdit a (free x)
  else s.setAdit a { x with rxbuf := x.rxbuf ++ [f], rxSh := x.rxSh ++ [sh], rxBad := setDel f.vc x.rxBad }

/-- The first bad or out-of-order sequenced flit makes the next outbound flit carry nak (R286). [DEDUCED: log entry 63] -/
def refuseFlit (a : Nat) (s : State) : State :=
  let x := s.adit a
  if x.nakSent then s else s.setAdit a { x with nakSent := true, nakDue := true }

/-- Every held flit is to be sent again, or the port goes to RETRAIN at the replay limit (R286, R287).
[DEDUCED: log entry 68] -/
def linkReplay (a : Nat) (s : State) : State :=
  let x := s.adit a
  if x.replay.any (fun e => decide (16 ≤ e.sends)) then enterRetrain a 8 s
  else s.setAdit a { x with resend := x.replay, ackAt := s.now }

/-- An ack covers every held flit up to its sequence number (R285). [DEDUCED: log entry 64] -/
def applyAck (a ack : Nat) (s : State) : State :=
  let x := s.adit a
  match x.replay with
  | [] => s
  | e :: _ =>
    let k := (ack + 4096 - e.seq) % 4096 + 1
    if k ≤ x.replay.length then
      let left := x.replay.drop k
      s.setAdit a { x with replay := left, ackAt := s.now
                           resend := x.resend.filter (fun q => left.any (fun p => p.seq == q.seq)) }
    else s

/-- A credit return is added to the pool it names (R290). -/
def applyCredit (a h : Nat) (s : State) : State :=
  let x := s.adit a
  let vc := bits 53 52 h
  let cls := bits 56 54 h
  let n := bits 63 57 h
  if cls = 7 then s.setAdit a { x with credS := Tbl.put x.credS vc (Tbl.look 0 x.credS vc + n) }
  else if cls ≤ 4 then s.setAdit a { x with credR := Tbl.put x.credR (vc * 5 + cls) (Tbl.look 0 x.credR (vc * 5 + cls) + n) }
  else s

/-! ### Link states -/

/-- A port enters FAILED with a cause that the spec does not state. -/
def failOpen (a : Nat) (s : State) : State := aditFail a (s.fresh.1 % 16) s.fresh.2

/-- The CAPS payload the port sends (Table 10-9, R296). -/
def capsOf (s : State) (a : Nat) : CapsPayload :=
  let x := s.adit a
  { stack := s.fld.id, adit := a, revMax := 2, revMin := s.chr.aditRevMin, lanes := x.lanes, rate := x.rate
    fieldId := s.chr.fieldId, reserved := 4
    shared := if x.capsGot && x.rev == 1 then [0, 0, 0, 0] else [108, 108, 716, 12], seen := x.capsGot }

/-- The peer's credits at the start of a link (R290, R296). -/
def capsCredits (p : CapsPayload) (rev : Nat) (x : Adit) : Adit :=
  { x with
    credR := (List.range 20).map (fun i => (i, p.reserved))
    credS := (List.range 4).map (fun v => (v, if rev = 1 then 0 else p.shared.getD v 0)) }

/-- The link's sequence state from the start (R285); messages wholly received before it failed stay in the buffer (R301). -/
def seqStart (x : Adit) : Adit :=
  { x with txSeq := 0, replay := [], resend := [], rxNext := 0, rxAck := 4095, nakSent := false, nakDue := false
           credDue := [], rxBad := [], txCur := [] }

/-- The state in which an idle flit carries the PRBS31 sequence starts it afresh (R298). [DESIGN CHOICE: log entry 146] -/
def Adit.qualify (x : Adit) (now : Nat) : Adit := { x with state := 4, stateAt := now, prbs := 0x7FFFFFFF }

/-- Capabilities are agreed: WAIT before READY, QUALIFY after (R293). A port that comes to WAIT after ADIT_QUALIFY has run is
ready to qualify (R444). [DEDUCED: log entry 66] -/
def capsAgreed (a : Nat) (s : State) : State :=
  let x := s.adit a
  if s.fld.ready then s.setAdit a ({ x with peerValid := true }.qualify s.now)
  else s.setAdit a { x with peerValid := true, state := 3, stateAt := s.now
                            qualSent := decide (10 ≤ s.brg.done) || (s.brg.step == 10 && s.brg.result.isSome) }

/-- A received CAPS flit (R295 to R297). [DEDUCED: log entry 66] -/
def capsTake (a : Nat) (p : CapsPayload) (s : State) : State :=
  let x := s.adit a
  let rev := min 2 p.revMax
  if x.state ≠ 2 then s
  else if p.fieldId ≠ s.chr.fieldId then aditFail a 3 s
  else if p.stack = s.fld.id then aditFail a 13 s
  else if rev < s.chr.aditRevMin ∨ rev < p.revMin then aditFail a 4 s
  else if p.rate ≠ x.rate ∨ p.lanes ≠ x.lanes then failOpen a s
  else
    let keep := x.fullTrain && x.peerValid && x.peerStack == p.stack && x.peerAdit == p.adit
    let s := if x.capsGot || keep then s else
        let s := flushPort a .linkExhausted s
        s.setAdit a (capsCredits p rev (seqStart (s.adit a)))
    let s := s.setAdit a { s.adit a with
      rev := rev, peerStack := p.stack, peerAdit := p.adit, capsGot := true, peerSeen := p.seen, stateAt := s.now }
    if p.seen then capsAgreed a s else s

/-- QUAL_REQ of the peer; both ends have sent it when the port's own has gone, as it does after READY (R293, R444). -/
def qualTake (a : Nat) (s : State) : State :=
  let x := s.adit a
  if x.state = 3 then
    if x.qualSent then s.setAdit a ({ x with qualGot := true }.qualify s.now)
    else if s.fld.ready then sendLink a 3 [2] (s.setAdit a ({ x with qualGot := true, qualSent := true }.qualify s.now))
    else s.setAdit a { x with qualGot := true }
  else s

/-- The peer's verdict (R298). -/
def resultTake (a : Nat) (pass : Bool) (s : State) : State :=
  let x := s.adit a
  if x.state = 4 then
    let s := s.setAdit a { x with peerDone := true, passPeer := pass }
    if !pass then aditFail a 5 s
    else if x.rxDone && x.passRx then goActive a s
    else s
  else s

/-- RETRAIN_REQ of the peer (R299). -/
def retrainTake (a : Nat) (s : State) : State := if (s.adit a).state = 5 then enterRetrain a 10 s else s

/-- STOP of the peer: the port fails, and a LEAVE for the peer is originated (R303, R326). -/
def stopTake (a : Nat) (s : State) : State :=
  let x := s.adit a
  if x.state = 0 ∨ x.state = 7 then s
  else
    let s := aditFail a 11 s
    if x.peerValid then applyLeave none x.peerStack (s.memberOf x.peerStack).inc s else s

/-- The CAPS payload in a flit's payload (Table 10-9). -/
def parseCaps (p : List Byte) : CapsPayload :=
  { stack := bits 13 0 (leAt p 1 2), adit := leAt p 3 1, revMax := bits 3 0 (leAt p 4 1), revMin := bits 7 4 (leAt p 4 1)
    lanes := bits 3 0 (leAt p 5 1), rate := bits 5 4 (leAt p 5 1), fieldId := leAt p 6 4, reserved := leAt p 10 1
    shared := [leAt p 11 2, leAt p 13 2, leAt p 15 2, leAt p 17 2], seen := bit 0 (leAt p 19 1) }

/-- The TIME payload in a flit's payload (Table 11-5). -/
def parseTime (p : List Byte) : TimePayload :=
  { distance := bits 2 0 (leAt p 1 1), gm := bits 13 0 (leAt p 2 2), prio := bits 3 0 (leAt p 4 1), tTx := leAt p 8 8
    tEcho := leAt p 16 8, tRx := leAt p 24 8 }

/-- An unsequenced flit's payload acts (Tables 10-10, 11-5); the moment it crossed the PMA is open below a nanosecond. -/
def takeUnsequenced (a kind : Nat) (p : List Byte) (s : State) : State :=
  if kind = 3 then
    match leAt p 0 1 with
    | 1 => capsTake a (parseCaps p) s
    | 2 => qualTake a s
    | 3 => resultTake a (bit 0 (leAt p 1 1)) s
    | 4 => retrainTake a s
    | 5 => stopTake a s
    | _ => s
  else if kind = 4 then timeTake a (parseTime p) ((s.tclk.toNat * 256 + s.fresh.1 % 256) % 2 ^ 64) s.fresh.2
  else s

/-- The ack, nak and credit return that every flit carries (R280, R285, R286, R290). [DEDUCED: log entry 64] -/
def takeReturns (a h sw : Nat) (s : State) : State :=
  let s := applyCredit a h (applyAck a (bits 23 12 sw) s)
  if bit 24 sw && (s.adit a).state == 5 then linkReplay a s else s

/-- The errors of the codewords that came with a flit are recorded: lane, bits corrected, and 1 for an uncorrectable codeword
(R276). [DESIGN CHOICE: log entry 65] -/
def fecTake (a : Nat) (errs : List (Nat × Nat × Nat)) (s : State) : State :=
  let x := s.adit a
  let recent := x.fec.filter (fun e => decide (s.now < e.1 + 1000000))
  s.setAdit a { x with
    fec := errs.map (fun e => (s.now, e)) ++ recent
    uncorr := if x.state = 4 then x.uncorr else satAdd 0xFFFF x.uncorr (errs.map (fun e => e.2.2)).sum }

/-- FLIT_RECEIVE. [DEDUCED: log entry 63; DESIGN CHOICE: log entry 65] -/
def execFlitReceive (a : Nat) (flit : List Byte) (fec : Bool × List (Nat × Nat × Nat)) (s : State) : Res :=
  .next (
    let st := (s.adit a).state
    if st = 0 ∨ st = 1 ∨ st = 7 then s
    else
      let h := leAt flit 0 8
      let sw := leAt flit 248 4
      let kind := bits 4 2 h
      let good := !fec.1 && flit.length == 256 && leAt flit 252 4 == crc32c (flit.take 252)
      let s := fecTake a fec.2 s
      if !good then (if bit 25 sw && st == 5 then refuseFlit a s else s)
      else
        let f := parseFlit flit
        let s := takeReturns a h sw s
        if kind = 1 ∨ kind = 2 ∨ bit 25 sw = true then
          if (s.adit a).state = 5 then
            if bits 11 0 sw = (s.adit a).rxNext then acceptFlit a h f (bit 51 h) s else refuseFlit a s
          else s
        else if badHeader (s.adit a).rev h f then headerError a h s
        else takeUnsequenced a kind f.payload s)

/-! ### Flits sent -/

/-- A credit to send flit `e`: none, or whether it is a shared one (R290). -/
def creditFor (x : Adit) (e : Flit) : Option Bool :=
  if 0 < Tbl.look 0 x.credR (e.f.vc * 5 + e.f.hops) then some false
  else if 0 < Tbl.look 0 x.credS e.f.vc then some true
  else none

/-- The place in the transmit queue of the next flit of a VC: of the message that is being sent, if there is one (R283). -/
def nextOf (x : Adit) (vc : Nat) : Option Nat :=
  match Tbl.look (0, 0) x.txCur vc with
  | (_, 0) => x.txq.findIdx? (fun e => e.f.vc == vc)
  | (id, _ + 1) => x.txq.findIdx? (fun e => e.msg == id)

/-- The next flit of a VC that the port has a credit for: its place, itself, and whether the credit is shared. -/
def readyOf (x : Adit) (vc : Nat) : Option (Nat × Flit × Bool) :=
  match nextOf x vc with
  | none => none
  | some i => match x.txq[i]? with
    | none => none
    | some e => (creditFor x e).map (fun sh => (i, e, sh))

/-- A weight of ADT_CTRL; 0 is taken as 1 (Table 10-12). -/
def weightOf (x : Adit) (vc : Nat) : Nat := max 1 (if vc = 0 then x.wReq else if vc = 1 then x.wRsp else x.wBulk)

/-- The VC that sends next (R292), and the deficits after the choice: management first, but one flit in eight while
another VC is ready; then deficit round robin counted in flits. -/
def pickVc (x : Adit) : Option (Nat × List Nat) :=
  let ready := [0, 1, 2].filter (fun v => (readyOf x v).isSome)
  if (readyOf x 3).isSome && (ready == [] || decide (7 ≤ x.mgmtRun)) then some (3, x.deficit)
  else
    match ready.find? (fun v => decide (0 < x.deficit.getD v 0)) with
    | some v => some (v, listSet x.deficit v (x.deficit.getD v 0 - 1))
    | none =>
      match ready with
      | [] => none
      | v :: _ =>
        let d := [0, 1, 2].map (fun k => if ready.contains k then weightOf x k else 0)
        some (v, listSet d v (d.getD v 0 - 1))

/-- One bit of the PRBS31 sequence x^31 + x^28 + 1, and the last 31 bits after it (R298). -/
def prbsStep (r : Nat) : Nat := (2 * r + (bits 30 30 r + bits 27 27 r) % 2) % 2 ^ 31

/-- Bytes of the sequence, the first bit in bit 0 of the first byte, and the last 31 bits after them; O.150 inverts it.
[DESIGN CHOICE: log entry 146] -/
def prbsBytes : Nat → Nat → List Byte × Nat
  | 0, r => ([], r)
  | n + 1, r =>
    let q := (List.range 8).foldl (fun p k => let t := prbsStep p.2; (p.1 + 2 ^ k * (1 - t % 2), t)) (0, r)
    let t := prbsBytes n q.2
    (BitVec.ofNat 8 q.1 :: t.1, t.2)

/-- An IDLE flit; in QUALIFY its payload is the PRBS31 sequence, continued across flits (R280, R298). -/
def sendIdle (a : Nat) (s : State) : State :=
  let x := s.adit a
  let p := if x.state = 4 then prbsBytes 240 x.prbs else ([], x.prbs)
  withReturns a (fun cr nak s => s.emit (.flit a (linkBytes 0 p.1 (s.adit a).rxAck nak cr))) (s.setAdit a { x with prbs := p.2 })

/-- The oldest flit to be sent again is sent (R286, R287). [DEDUCED: log entry 68] -/
def sendAgain (a : Nat) (e : Flit) (rest : List Flit) (s : State) : State :=
  let x := s.adit a
  let s := s.setAdit a { x with
    resend := rest, replays := satInc 0xFFFF x.replays
    replay := x.replay.map (fun p => if p.seq = e.seq then { p with sends := p.sends + 1 } else p) }
  withReturns a (fun cr nak s => s.emit (.flit a (msgBytes e.f e.sh e.seq (s.adit a).rxAck nak cr))) s

/-- The flits still to come of a message after one of its flits (R281). -/
def leftAfter (x : Adit) (e : Flit) : Nat :=
  if e.f.first then flitCount (dataLen (flitOpLen e.f).1 (flitOpLen e.f).2) - 1
  else (Tbl.look (0, 0) x.txCur e.f.vc).2 - 1

/-- A new sequenced flit is numbered, kept and sent (R285, R290). -/
def sendNew (a i : Nat) (e : Flit) (sh : Bool) (deficit : List Nat) (s : State) : State :=
  let x := s.adit a
  let v := e.f.vc
  let e' := { e with seq := x.txSeq, sends := 1, sh := sh }
  let x' := { x with
    txq := listDel x.txq i, txSeq := (x.txSeq + 1) % 4096, replay := x.replay ++ [e'], deficit := deficit
    ackAt := if x.replay = [] then s.now else x.ackAt
    txCur := Tbl.put x.txCur v (e.msg, leftAfter x e)
    mgmtRun := if v = 3 then 0 else min 7 (x.mgmtRun + 1)
    credR := if sh then x.credR else Tbl.put x.credR (v * 5 + e.f.hops) (Tbl.look 0 x.credR (v * 5 + e.f.hops) - 1)
    credS := if sh then Tbl.put x.credS v (Tbl.look 0 x.credS v - 1) else x.credS }
  withReturns a (fun cr nak s => s.emit (.flit a (msgBytes e'.f sh e'.seq (s.adit a).rxAck nak cr))) (s.setAdit a x')

/-- FLIT_SLOT. -/
def execFlitSlot (a : Nat) (s : State) : Res :=
  .next (
    let x := s.adit a
    if x.state = 0 ∨ x.state = 1 ∨ x.state = 7 then s
    else if x.state ≠ 5 then sendIdle a s
    else
      match x.resend with
      | e :: rest => sendAgain a e rest s
      | [] =>
        if 512 ≤ x.replay.length then sendIdle a s
        else
          match pickVc x with
          | none => sendIdle a s
          | some (v, d) =>
            match readyOf x v with
            | some (i, e, sh) => sendNew a i e sh d s
            | none => sendIdle a s)

/-- REPLAY_TIMEOUT. [DEDUCED: log entry 68] -/
def execReplayTimeout (a : Nat) (s : State) : Res :=
  .next (
    let x := s.adit a
    if x.state = 5 ∧ x.replay ≠ [] ∧ x.ackAt + 10000 ≤ s.now then linkReplay a s else s)

/-! ### Link flits and timers -/

/-- CAPS. -/
def execCapsFlit (a : Nat) (p : CapsPayload) (s : State) : Res := .next (capsTake a p s)

/-- CAPS_RESEND_TIMER. -/
def execCapsResendTimer (a : Nat) (s : State) : Res :=
  .next (if (s.adit a).state = 2 then sendLink a 3 (capsBytes (capsOf s a)) s else s)

/-- CAPS_TIMEOUT. [DEDUCED: log entry 66] -/
def execCapsTimeout (a : Nat) (s : State) : Res :=
  .next (if (s.adit a).state = 2 ∧ (s.adit a).stateAt + 10000000 ≤ s.now then failOpen a s else s)

/-- QUAL_REQ. [DESIGN CHOICE: log entry 72] -/
def execQualReq (a : Nat) (s : State) : Res := .next (qualTake a s)

/-- QUAL_REQ_TIMER. -/
def execQualReqTimer (a : Nat) (s : State) : Res :=
  .next (if (s.adit a).state = 3 ∧ (s.adit a).qualSent = true then sendLink a 3 [2] s else s)

/-- QUAL_RESULT. -/
def execQualResult (a : Nat) (pass : Bool) (s : State) : Res := .next (resultTake a pass s)

/-- A bit error ratio of `err` in `bits` as −10·log10, rounded down, at most 255 (Table 10-16). [DEDUCED: log entry 67] -/
def berCode (nbits err : Nat) : Nat :=
  ((List.range 256).reverse.find? (fun q => decide (err ^ 10 * 10 ^ q ≤ nbits ^ 10))).getD 0

/-- Errors of a lane: corrected bits, and ten for each symbol of an uncorrectable codeword (R298). [DEDUCED: log entry 67] -/
def laneErrs (l : Nat × Nat × Nat) : Nat := l.2.1 + 10 * l.2.2

/-- The active lanes, ascending. -/
def lanesOf (m : Nat) : List Nat := (List.range 4).filter (fun l => bit l m)

/-- The worst of the lanes: place, of those with the lowest code. -/
def worstLane (ls : List (Nat × Nat × Nat)) : Nat :=
  (argMin (fun i => match ls[i]? with | some l => berCode l.1 (laneErrs l) | none => 256) (List.range ls.length)).getD 0

/-- QUALIFY_DONE: the verdict on the port's own receive direction (R298), once its bits are counted, and its uncorrectable
codewords of 544 symbols (R274, R276). [DESIGN CHOICE: log entry 72] -/
def execQualifyDone (a : Nat) (lanes : List (Nat × Nat × Nat)) (s : State) : Res :=
  .next (
    let x := s.adit a
    if x.state ≠ 4 ∨ x.rxDone = true ∨ lanes.length ≠ (lanesOf x.lanes).length
        ∨ lanes.foldl (fun n l => n + l.1) 0 < 10 ^ 12 then s
    else
      let pass := lanes.all (fun l => decide (10 ^ 11 ≤ l.1) && decide (laneErrs l * 10 ^ 5 ≤ l.1) && l.2.2 == 0)
      let w := worstLane lanes
      let l := lanes.getD w (1, 0, 0)
      let s := s.setAdit a { x with
        rxDone := true, passRx := pass, berQ := berCode l.1 (laneErrs l), worstLane := (lanesOf x.lanes).getD w 0
        uncorr := satAdd 0xFFFF x.uncorr (lanes.map (fun l => l.2.2 / 544)).sum }
      let s := sendLink a 3 [3, BitVec.ofNat 8 (b2n pass)] s
      if !pass then aditFail a 5 s
      else if x.peerDone && x.passPeer then goActive a s
      else s)

/-- QUALIFY_TIMEOUT. [DEDUCED: log entry 66] -/
def execQualifyTimeout (a : Nat) (s : State) : Res :=
  .next (if (s.adit a).state = 4 ∧ (s.adit a).stateAt + 30000000000 ≤ s.now then aditFail a 5 s else s)

/-- RETRAIN_REQ. -/
def execRetrainReq (a : Nat) (s : State) : Res := .next (retrainTake a s)

/-- STOP. -/
def execLinkStop (a : Nat) (s : State) : Res := .next (stopTake a s)

/-- The width a port takes of its good lanes: the lowest-numbered lanes of the largest permitted width (R272, R294). -/
def widthOf (good : Nat) : List Nat :=
  let l := lanesOf good
  if l.length = 3 then l.take 2 else l

/-- TRAIN_DONE: lanes `lanes` are good at both ends at rate code `rate` (R294). [DESIGN CHOICE: log entry 72] -/
def execTrainDone (a rate lanes : Nat) (s : State) : Res :=
  .next (
    let x := s.adit a
    let good := maskOf 4 (fun l => bit l lanes && !bit l x.laneFault)
    let w := widthOf good
    if x.state = 1 ∧ (rate = s.chr.aditRate ∨ (s.chr.aditFallback = true ∧ s.chr.aditRate < rate))
        ∧ s.chr.aditMinWidth ≤ w.length ∧ w ≠ [] then
      s.setAdit a { x with
        state := 2, stateAt := s.now, rate := rate, lanes := maskOf 4 (fun l => w.contains l)
        laneFault := maskOf 4 (fun l => !bit l good) }
    else s)

/-- TRAIN_TIMEOUT. -/
def execTrainTimeout (a : Nat) (signal : Bool) (s : State) : Res :=
  .next (
    let x := s.adit a
    if x.state = 1 ∧ x.stateAt + (if signal then 500000000 else 100000000) ≤ s.now then
      aditFail a (if signal then 2 else 1) s
    else s)

/-- The bits that a lane carries in 1 ms (Table 10-1). -/
def laneMsBits (rate : Nat) : Nat := 212500000 / 2 ^ rate

/-- The errors of the codewords that a lane received in the last 1 ms: corrected bits, and ten for each of the 544 symbols of
an uncorrectable one (R298, R299). -/
def laneMsErrs (s : State) (a l : Nat) : Nat :=
  (((s.adit a).fec.filter (fun e => e.2.1 == l && decide (s.now < e.1 + 1000000))).map (fun e => e.2.2.1 + 5440 * e.2.2.2)).sum

/-- ADT_FEC.ber_live: the worst lane's ratio over the last 1 ms, of a port whose lanes are trained (Table 10-16). -/
def berLive (s : State) (a : Nat) : Nat :=
  let x := s.adit a
  if x.state < 2 ∨ x.state = 7 then 0
  else ((lanesOf x.lanes).map (fun l => berCode (laneMsBits x.rate) (laneMsErrs s a l))).foldl min 255

/-- What trips a port into RETRAIN for a cause (R299); the loss of signal or alignment comes with the command. -/
def faultTrips (s : State) (a cause : Nat) : Bool :=
  let x := s.adit a
  match cause with
  | 6 => (lanesOf x.lanes).any (fun l => decide (laneMsBits x.rate < 10000 * laneMsErrs s a l))
  | 7 => decide (8 < ((x.fec.filter (fun e => decide (s.now < e.1 + 1000000))).map (fun e => e.2.2.2)).sum)
  | 8 => x.replay.any (fun e => decide (16 ≤ e.sends))
  | 9 => true
  | _ => false

/-- LINK_FAULT_TRIP: causes 6 to 9 of Table 10-13 (R299). -/
def execLinkFaultTrip (a cause : Nat) (s : State) : Res :=
  .next (
    let x := s.adit a
    if x.state = 5 ∧ faultTrips s a cause = true then enterRetrain a cause s else s)

/-- FAST_RETRAIN_DONE (R300). -/
def execFastRetrainDone (a : Nat) (pass : Bool) (badLanes : Nat) (s : State) : Res :=
  .next (
    let x := s.adit a
    if x.state = 6 then
      if pass then goActive a s
      else
        let s := s.setAdit a { x with laneFault := maskOf 4 (fun l => bit l x.laneFault || bit l badLanes) }
        logRetrain a (aditTrain a x.cause true s)
    else s)

/-- The edge of an adit (Table 19-3). -/
def edgeOf (a : Nat) : Nat := a / 12

/-- SIGNAL_DETECT. -/
def execSignalDetect (a : Nat) (s : State) : Res :=
  .next (
    let x := s.adit a
    if x.state = 7 ∧ x.cause = 1 ∧ s.clk.refLost.contains (edgeOf a) = false then aditTrain a x.cause false s else s)

/-- ADT_CTRL.retrain (Table 10-12): training with all lanes, or A47 back to standby once the port it backs is ACTIVE.
[DEDUCED: log entry 71] -/
def aditRetrain (a : Nat) (s : State) : State :=
  let x := s.adit a
  if a = 47 ∧ x.spare = true then
    if (s.adit s.chr.aditSpare).state = 5 then sendLinkmaps (portUse s.chr.aditSpare (spareOff s)) else s
  else if x.state = 5 then
    let s := sendLink a 3 [4] (s.setAdit a { x with laneFault := 0 })
    sendLinkmaps (holdQueue a (aditTrain a 15 true s))
  else if x.state = 7 then aditTrain a 15 false (s.setAdit a { x with laneFault := 0 })
  else s

/-- ADT_RETRAIN. -/
def execAdtRetrain (r : Requester) (a : Nat) (s : State) : Res := .next (if reachesRegs r then aditRetrain a s else s)

/-- ADT_CTRL.reset (R302): what waits is aborted, the adit goes to OFF, and trains again after READY.
[DEDUCED: log entry 71] -/
def aditReset (a : Nat) (s : State) : State :=
  let was := (s.adit a).state
  let s := flushPort a .abortedByReset (spareDrop a s)
  let x := s.adit a
  let s := s.setAdit a {
    wReq := x.wReq, wRsp := x.wRsp, wBulk := x.wBulk, replays := x.replays, hdr := x.hdr, lost := x.lost
    retrains := x.retrains, uncorr := x.uncorr, laneFault := x.laneFault, cause := 14, stateAt := s.now, spare := x.spare }
  let s := if was = 5 then sendLinkmaps s else s
  if s.fld.ready then aditStart a s else s

/-- ADT_RESET. [DEDUCED: log entry 71] -/
def execAdtReset (r : Requester) (a : Nat) (s : State) : Res := .next (if reachesRegs r then aditReset a s else s)

/-- SPARE_TAKEOVER: A47 takes the role of the failed port it backs, and comes into use (R270, R310, R324).
[DEDUCED: log entry 70] -/
def execSpareTakeover (s : State) : Res :=
  .next (
    let p := s.chr.aditSpare
    if p < 47 ∧ (s.adit p).state = 7 ∧ (s.adit 47).state = 5 ∧ (s.adit 47).spare = false then
      let s := s.setAdit p { s.adit p with spare := true }
      let s := sendSnapshot 47 (s.setAdit 47 { s.adit 47 with spare := true, inUse := true })
      let s := if s.fld.ready = true ∧ s.fld.joinSent = false ∧ s.fld.left = false then sendJoin s else s
      sendLinkmaps s
    else s)

/-- The adits of an edge. -/
def aditsOf (edge : Nat) : List Nat := (List.range 48).filter (fun a => edgeOf a == edge)

/-- ADIT_REFCLK_LOSS. -/
def execAditRefclkLoss (edge : Nat) (s : State) : Res :=
  .next (
    if s.clk.refLost.contains edge then s
    else
      let s := logEvent 0x05 0 0x0404 [(0, 1, 9 + edge)] { s with clk := { s.clk with refLost := setAdd edge s.clk.refLost } }
      (aditsOf edge).foldl (fun s a => if (s.adit a).state = 0 ∨ (s.adit a).state = 7 then s else aditFail a 1 s) s)

/-- ADIT_REFCLK_RETURN. -/
def execAditRefclkReturn (edge : Nat) (s : State) : Res :=
  .next (
    if s.clk.refLost.contains edge then
      (aditsOf edge).foldl (fun s a => if (s.adit a).state = 7 ∧ (s.adit a).cause = 1 then aditTrain a 1 false s else s)
        { s with clk := { s.clk with refLost := setDel edge s.clk.refLost } }
    else s)

end Sys2Proof.Machine
end

