-- ==== Sys2Proof/Machine/Field.lean ====
section
/-! DEFINITION. Operating as a field (11_field.md): the router (R312 to R317), the messages at the endpoint (R282, R327),
LINKMAPs (R311) and membership (R323 to R328). -/

namespace Sys2Proof.Machine

/-! ### The router -/

/-- A whole message has come: it waits to be performed (R282). -/
def deliverMsg (a : Nat) (fs : List MsgFlit) (s : State) : State :=
  { s with fld := { s.fld with inbox := s.fld.inbox ++ [(a, flitsMsg fs)] } }

/-- A port of a global link. -/
def isGlobal (s : State) (a : Nat) : Bool :=
  let r := if a = 47 then s.chr.aditSpare else a
  decide (31 ≤ r) && decide (r ≤ 46)

/-- A flit goes to the transmit queue of a port, as part of a message (R313). -/
def forward (b : Nat) (f : MsgFlit) (local_ : Bool) (t : Transit) (s : State) : State :=
  let p := s.rolePort b
  let st := (s.adit p).state
  if st ≠ 0 ∧ st ≠ 7 then portPush b (portFlits s [f] local_ t.msg t.tag t.op) s else s

/-- The passage of a message whose first flit is `f` (R281, R313). -/
def transitOf (s : State) (f : MsgFlit) (out : Option Nat) (local_ : Bool) : Transit :=
  let o := flitOpLen f
  { out := out, local_ := local_, left := flitCount (dataLen o.1 o.2) - 1, msg := s.fld.msgs, tag := leAt f.payload 8 2
    op := o.1 }

/-- A message that goes no further counts as lost at a port when it is discarded (R316). -/
def endLost (f : MsgFlit) (local_ : Bool) (st : Status) (b : Nat) (s : State) : State :=
  let r := endMessage f local_ (leAt f.payload 8 2) (leAt f.payload 10 1) st s
  if r.2 then lostAt (s.rolePort b) r.1 else r.1

/-- A message to a stack that is no member ends with NO_ROUTE or is discarded, and counts (R312). -/
def endNoRoute (f : MsgFlit) (local_ : Bool) (s : State) : State :=
  (endMessage f local_ (leAt f.payload 8 2) (leAt f.payload 10 1) .noRoute
    { s with fld := { s.fld with noroute := satInc 0xFFFF s.fld.noroute } }).1

/-- A first flit that is not for this stack is routed, with the hops it is to be sent with (R312 to R316). Answers how its
message passes. -/
def routeFirst (f : MsgFlit) (fromGlobal local_ : Bool) (hops : Nat) (s : State) : State × Transit :=
  if !s.isMember f.dst then (endNoRoute f local_ s, transitOf s f none false)
  else
    match routeOf s f fromGlobal hops with
    | .port b nm =>
      let t := transitOf s f (some b) false
      (forward b { f with nm := nm, hops := hops } local_ t { s with fld := { s.fld with msgs := s.fld.msgs + 1 } }, t)
    | .exhausted b => (endLost f local_ .linkExhausted b s, transitOf s f none false)
    | .deliver => (s, transitOf s f none false)

/-- A bulk WRITE to a landing range that holds it back stays in the receive buffer (R253, R291). -/
def bulkHeld (s : State) (a : Nat) (f : MsgFlit) : Bool :=
  f.vc == 2 && f.first && !landRoom s (.peer a f.src) (leAt f.payload 0 6) ((leAt f.payload 12 4 + 63) / 64)

/-- A first flit leaves a port's receive buffer for the router (R291, R313). -/
def takeFirst (a i : Nat) (f : MsgFlit) (s : State) : State :=
  if f.dst = s.fld.id then
    if bulkHeld s a f then s
    else
      let t := transitOf s f none true
      let s := leaveBuffer a i s
      let s := s.setAdit a { s.adit a with rxRoute := Tbl.put (s.adit a).rxRoute f.vc t
                                           rxPart := if t.left = 0 then Tbl.del (s.adit a).rxPart f.vc
                                                     else Tbl.put (s.adit a).rxPart f.vc [f] }
      if t.left = 0 then deliverMsg a [f] s else s
  else
    let r := routeFirst f (isGlobal s a) false (f.hops + 1) (leaveBuffer a i s)
    r.1.setAdit a { r.1.adit a with rxRoute := Tbl.put (r.1.adit a).rxRoute f.vc r.2 }

/-- A later flit follows its message (R283, R313). -/
def takeNext (a i : Nat) (f : MsgFlit) (s : State) : State :=
  let x := s.adit a
  let t := Tbl.look {} x.rxRoute f.vc
  let s := leaveBuffer a i s
  if t.left = 0 then s
  else
    let t' := { t with left := t.left - 1 }
    let s := s.setAdit a { s.adit a with rxRoute := Tbl.put (s.adit a).rxRoute f.vc t' }
    if t.local_ then
      let fs := Tbl.look [] x.rxPart f.vc ++ [f]
      let s := s.setAdit a { s.adit a with rxPart := if t'.left = 0 then Tbl.del x.rxPart f.vc
                                                     else Tbl.put x.rxPart f.vc fs }
      if t'.left = 0 then deliverMsg a fs s else s
    else
      match t.out with
      | none => s
      | some b => forward b { f with nm := f.nm && !(groupOf s.fld.id == f.via && isGlobal s a), hops := f.hops + 1 }
                    false t s

/-- A flit of the local endpoint reaches the router, which chooses the turning group of its message (R312, R313, R318). -/
def routeLocal (f : MsgFlit) (s : State) : State :=
  if f.first then
    if f.dst = s.fld.id then s
    else
      let v := chooseVia { (default : Msg) with vc := f.vc, ordered := f.ordered, dst := f.dst, src := s.fld.id } s
      let r := routeFirst { f with nm := v.1.isSome, via := v.1.getD 0 } false true 0 v.2
      { r.1 with fld := { r.1.fld with txRoute := Tbl.put r.1.fld.txRoute f.vc { r.2 with via := v.1 } } }
  else
    let t := Tbl.look {} s.fld.txRoute f.vc
    if t.left = 0 then s
    else
      let s := { s with fld := { s.fld with txRoute := Tbl.put s.fld.txRoute f.vc { t with left := t.left - 1 } } }
      match t.out with
      | none => s
      | some b => forward b { f with hops := 0, nm := t.via.isSome, via := t.via.getD 0 } true t s

/-- ROUTE_FLIT: the oldest buffered flit of its VC of an adit, or a flit of the local endpoint. -/
def execRouteFlit (port : Option Nat) (f : MsgFlit) (s : State) : Res :=
  .next (match port with
    | none => routeLocal f s
    | some a =>
      let x := s.adit a
      match x.rxbuf.findIdx? (fun g => g.vc == f.vc) with
      | none => s
      | some i =>
        if x.rxbuf[i]? = some f then (if f.first then takeFirst a i f s else takeNext a i f s) else s)

/-- ORD_WAIT_EXPIRY: flits that have waited ord_wait milliseconds for a port that is still not ACTIVE take a route without
it (R317). -/
def execOrdWaitExpiry (a : Nat) (s : State) : Res :=
  .next (
    if (s.adit a).state ≠ 5 then rerouteHeld a (fun e => decide (e.at_ + s.fld.ordWait * 1000000 ≤ s.now)) s else s)

/-! ### Messages at the endpoint -/

/-- The first message of a kind in the inbox is taken from it. -/
def takeMsg (p : Nat × Msg → Bool) (s : State) : Option (State × (Nat × Msg)) :=
  match s.fld.inbox.findIdx? p with
  | none => none
  | some i => match s.fld.inbox[i]? with
    | none => none
    | some e => some ({ s with fld := { s.fld with inbox := listDel s.fld.inbox i } }, e)

/-- A request breaks the limits of R282, or its address reserves stack_ext (R52). -/
def badRange (m : Msg) : Bool :=
  m.len % 64 != 0 || decide (m.len < 64) || decide (4096 < m.len) || decide (4096 < m.addr.toNat % 4096 + m.len)
    || bits 63 62 m.addr.toNat != 0

/-- A request from the field is performed, or discarded when its source is no member (R327). -/
def fieldServe (a op : Nat) (m : Msg) (f : State → State) (s : State) : State :=
  if m.op ≠ op then s
  else
    match takeMsg (fun e => e == (a, m)) s with
    | none => s
    | some (s', _) =>
      if !s'.isMember m.src then { s' with fld := { s'.fld with unknownSrc := satInc 0xFFFF s'.fld.unknownSrc } }
      else if !opOnVc m.vc op then respond m.src m.tag (responseOp op) m.ordered .badDescriptor [] s'
      else f s'

/-- A WRITE's data waits: its seam or gallery sleeps, or the Mill holds it back (R57, R106, R253). -/
def writeWaits (s : State) (a : Nat) (m : Msg) : Bool :=
  !badRange m && (spanHeld s (.peer a m.src) (m.addr.toNat % 2 ^ 48) m.len
    || !landRoom s (.peer a m.src) (m.addr.toNat % 2 ^ 48) ((m.len + 63) / 64))

/-- WRITE. -/
def execMsgWrite (a : Nat) (m : Msg) (s : State) : Res :=
  .next (
    if writeWaits s a m && s.isMember m.src then s
    else
      fieldServe a 0x01 m (fun s =>
        if badRange m || m.data.length != m.len then respond m.src m.tag 0x12 m.ordered .badDescriptor [] s
        else
          let r := dpaWrite (.peer a m.src) (m.addr.toNat % 2 ^ 48) m.data s
          respond m.src m.tag 0x12 m.ordered r.2 [] r.1) s)

/-- READ. -/
def execMsgRead (a : Nat) (m : Msg) (s : State) : Res :=
  .next (
    if !badRange m && spanHeld s (.peer a m.src) (m.addr.toNat % 2 ^ 48) m.len && s.isMember m.src then s
    else
      fieldServe a 0x02 m (fun s =>
        if badRange m then respond m.src m.tag 0x11 m.ordered .badDescriptor [] s
        else
          let r := dpaRead (.peer a m.src) (m.addr.toNat % 2 ^ 48) m.len s
          respond m.src m.tag 0x11 m.ordered r.2.2 (if r.2.2 = .ok then r.2.1 else []) r.1) s)

/-- An increment or poison from the field, answered once it is applied (R167, R282). -/
def arriveTake (m : Msg) (poison : Bool) (s : State) : State :=
  if arrBad m.addr then respond m.src m.tag 0x13 m.ordered .badDescriptor [] s
  else arrivalApply { addr := m.addr, poison := poison, from_ := none, peer := some (m.src, m.tag, m.ordered) } s

/-- ARRIVE. -/
def execMsgArrive (a : Nat) (m : Msg) (s : State) : Res := .next (fieldServe a 0x03 m (arriveTake m false) s)

/-- POISON. -/
def execMsgPoison (a : Nat) (m : Msg) (s : State) : Res := .next (fieldServe a 0x04 m (arriveTake m true) s)

/-- A response is given to what waits for it (R282). [DEDUCED: log entry 73] -/
def responseTake (a op : Nat) (m : Msg) (s : State) : State :=
  if m.op ≠ op then s
  else
    match takeMsg (fun e => e == (a, m)) s with
    | none => s
    | some (s', _) => fieldAnswer m.tag (statusOf m.status s') s'

/-- READ_DATA. -/
def execMsgReadData (a : Nat) (m : Msg) (s : State) : Res := .next (responseTake a 0x11 m s)

/-- WRITE_ACK. -/
def execMsgWriteAck (a : Nat) (m : Msg) (s : State) : Res := .next (responseTake a 0x12 m s)

/-- ARRIVE_ACK. -/
def execMsgArriveAck (a : Nat) (m : Msg) (s : State) : Res := .next (responseTake a 0x13 m s)

/-! ### Management messages -/

/-- A management message of a type came by a port. -/
def mgmtFrom (a type : Nat) (e : Nat × Msg) : Bool := e.1 == a && e.2.op == 0x20 && leAt e.2.data 0 1 == type

/-- The entry at a byte of a management message (Table 11-4). -/
def parseEntry (d : List Byte) (off : Nat) : MemberEntry :=
  { stack := bits 13 0 (leAt d off 2), member := leAt d (off + 2) 1 == 1, incarnation := leAt d (off + 4) 4
    serial := leAt d (off + 8) 8 }

/-- LINKMAP: of a member of the own group, by the port it is cabled to (R311). -/
def execLinkmapMsg (a member localMap globalMap : Nat) (s : State) : Res :=
  .next (
    match takeMsg (fun e => mgmtFrom a 0x12 e && groupOf e.2.src == groupOf s.fld.id && memberOf e.2.src == member
        && leAt e.2.data 4 4 == localMap && leAt e.2.data 8 2 == globalMap) s with
    | none => s
    | some (s, _) =>
      let l : LinkMap := { locals := localMap, globals := globalMap, at_ := s.now, fresh := true }
      { s with linkmaps := Tbl.put s.linkmaps member l })

/-- LINKMAP_TIMER. -/
def execLinkmapTimer (s : State) : Res := .next (sendLinkmaps s)

/-- LINKMAP_STALE. -/
def execLinkmapStale (member : Nat) (s : State) : Res :=
  .next (
    let l := s.linkmap member
    if l.fresh = true ∧ l.at_ + 3000000 < s.now then
      { s with linkmaps := Tbl.put s.linkmaps member { l with fresh := false } }
    else s)

/-- JOIN. -/
def execJoinMsg (a : Nat) (m : MemberEntry) (s : State) : Res :=
  .next (
    match takeMsg (fun e => mgmtFrom a 0x10 e && parseEntry e.2.data 16 == m) s with
    | none => s
    | some (s, _) => applyJoin (some a) m.stack m.incarnation m.serial s)

/-- LEAVE. -/
def execLeaveMsg (a : Nat) (m : MemberEntry) (s : State) : Res :=
  .next (
    match takeMsg (fun e => mgmtFrom a 0x11 e && parseEntry e.2.data 16 == m) s with
    | none => s
    | some (s, _) => applyLeave (some a) m.stack m.incarnation s)

/-- The entries of a SNAPSHOT. -/
def parseSnapshot (d : List Byte) : List MemberEntry := (List.range (leAt d 2 2)).map (fun i => parseEntry d (16 + 16 * i))

/-- SNAPSHOT: every entry acts as a JOIN or a LEAVE (R324, R325). -/
def execSnapshotMsg (a : Nat) (es : List MemberEntry) (s : State) : Res :=
  .next (
    match takeMsg (fun e => mgmtFrom a 0x13 e && parseSnapshot e.2.data == es) s with
    | none => s
    | some (s, _) =>
      es.foldl (fun s m => if m.member then applyJoin (some a) m.stack m.incarnation m.serial s
        else applyLeave (some a) m.stack m.incarnation s) s)

/-- JOIN_SETTLE: 100 µs after the stack's own JOIN (R325). -/
def execJoinSettle (s : State) : Res :=
  .next (
    if s.fld.joinSent = true ∧ s.fld.left = false ∧ s.fld.joinAt + 100000 ≤ s.now then
      { s with fld := { s.fld with joined := true } }
    else s)

/-- FLD_ID: set until ADIT_TRAIN starts, to an ID whose group number is below G (R306). -/
def fldIdWrite (r : Requester) (v : Word) (s : State) : State :=
  let id := bits 13 0 v.toNat
  if s.fld.idLocked then logIgnored 0x10 0 r 0x03A00100 0 s
  else if s.chr.groups ≤ groupOf id then logIgnored 0x10 0 r 0x03A00100 4 s
  else { s with fld := { s.fld with id := id } }

/-- FLD_ID_WRITE. -/
def execFldIdWrite (r : Requester) (v : Word) (s : State) : Res := .next (if reachesRegs r then fldIdWrite r v s else s)

/-- FLD_MEMBER_CMD (R326): op leave originates a LEAVE for a member; op rejoin, for the own ID after a leave, a JOIN at the
next incarnation, which the survey's counter takes (R323). [DEDUCED: log entry 74] -/
def memberCmd (op stack : Nat) (s : State) : State :=
  if op = 1 then applyLeave none stack (s.memberOf stack).inc s
  else if op = 2 ∧ stack = s.fld.id ∧ s.fld.left = true then
    let s := newIncarnation s
    sendJoin { s with fld := { s.fld with left := false } }
  else s

/-- MEMBER_LEAVE. [DEDUCED: log entry 74] -/
def execMemberLeave (r : Requester) (stack : Nat) (s : State) : Res :=
  .next (if reachesRegs r then memberCmd 1 stack s else s)

/-- MEMBER_REJOIN. [DEDUCED: log entry 74] -/
def execMemberRejoin (r : Requester) (stack : Nat) (s : State) : Res :=
  .next (if reachesRegs r then memberCmd 2 stack s else s)

end Sys2Proof.Machine
end

