-- ==== Sys2Proof/Machine/Integrity.lean ====
section
/-! DEFINITION. Data integrity (13_data_integrity.md): write-backs, the leak of the buckets, the scrubbers, injection, the
shafts' re-sends and spare lanes, and the check units. -/

namespace Sys2Proof.Machine

/-! ### Lines of the stores, by kind and instance (Tables 13-1 and 18-8a) -/

/-- The stored bytes of a line; the Overseers' caches and the Mill's staging buffer are not kept as bytes.
[DEDUCED: log entry 23] -/
def idRead (s : State) (l : LineId) : List Byte :=
  match l.kind with
  | 0 => s.seamMem.read (0x20000000 * l.inst + 64 * l.line) 64
  | 1 => s.stockMem.read (0x2000000000 * l.inst + 64 * l.line) 64
  | 2 => s.binMem.read (0x1000000 * l.inst + 64 * l.line) 64
  | 3 =>
    if l.line < 65536 then s.storeMem.read (0x400000 * l.inst + 64 * l.line) 64
    else if l.line < 73728 then s.lsMem.read (0x80000 * l.inst + 64 * (l.line - 65536)) 64
    else s.tlyMem.read (0x20000 * l.inst + 64 * (l.line - 73728)) 64
  | 4 =>
    if l.line < 1024 then s.bufMem.read (0x10000 * l.inst + 64 * l.line) 64
    else (List.range 8).flatMap (fun i => leBytes 8 ((s.face l.inst).prog.getD (8 * (l.line - 1024) + i) 0).toNat)
  | 5 =>
    if l.line < 65536 then (((s.eng l.inst).landed.find? (fun p => p.2.1 % 65536 == l.line)).map (·.2.2)).getD []
    else if l.line < 81920 then []
    else (List.range 16).flatMap (fun i => leBytes 4 ((s.eng l.inst).prog.getD (16 * (l.line - 81920) + i) 0).toNat)
  | 6 => if l.inst = 8 then s.slotMem.read (64 * l.line) 64 else []
  | _ => []

/-- The bytes of a line replaced. [DEDUCED: log entry 23] -/
def idWrite (l : LineId) (bs : List Byte) (s : State) : State :=
  match l.kind with
  | 0 => { s with seamMem := s.seamMem.write (0x20000000 * l.inst + 64 * l.line) bs }
  | 1 => { s with stockMem := s.stockMem.write (0x2000000000 * l.inst + 64 * l.line) bs }
  | 2 => { s with binMem := s.binMem.write (0x1000000 * l.inst + 64 * l.line) bs }
  | 3 =>
    if l.line < 65536 then { s with storeMem := s.storeMem.write (0x400000 * l.inst + 64 * l.line) bs }
    else if l.line < 73728 then { s with lsMem := s.lsMem.write (0x80000 * l.inst + 64 * (l.line - 65536)) bs }
    else { s with tlyMem := s.tlyMem.write (0x20000 * l.inst + 64 * (l.line - 73728)) bs }
  | 4 =>
    if l.line < 1024 then { s with bufMem := s.bufMem.write (0x10000 * l.inst + 64 * l.line) bs }
    else
      let x := s.face l.inst
      s.setFace l.inst { x with prog := x.prog.mapIdx (fun i w =>
        if i / 8 = l.line - 1024 then BitVec.ofNat 64 (leAt bs (8 * (i % 8)) 8) else w) }
  | 5 =>
    let x := s.eng l.inst
    if l.line < 65536 then
      s.setEng l.inst { x with landed := x.landed.map (fun p => if p.2.1 % 65536 = l.line then (p.1, p.2.1, bs) else p) }
    else if l.line < 81920 then s
    else s.setEng l.inst { x with prog := x.prog.mapIdx (fun i w =>
        if i / 16 = l.line - 81920 then BitVec.ofNat 32 (leAt bs (4 * (i % 16)) 4) else w) }
  | 6 => if l.inst = 8 then { s with slotMem := s.slotMem.write (64 * l.line) bs } else s
  | _ => s

/-- The stores of an instance, each with a scrubber of its own: first line in the instance's numbering and number of lines
(Tables 13-1 and 13-3). [DEDUCED: log entry 23; DESIGN CHOICE: log entry 145] -/
def storeParts (kind inst : Nat) : List (Nat × Nat) :=
  match kind with
  | 0 => [(0, 8388608)]
  | 1 => [(0, 2147483648)]
  | 2 => [(0, 262144)]
  | 3 => [(0, 32768), (32768, 32768), (65536, 8192), (73728, 2048)]
  | 4 => [(0, 1024), (1024, 32)]
  | 5 => [(0, 65536), (65536, 16384), (81920, 3)]
  | _ =>
    if inst < 8 then [(0, 524288), (524288, Config.cacheLines % 32768 + 1)]
    else if inst = 8 then [(0, 8192)] else [(0, 2048)]

/-- The lines of a store of an instance. -/
def storeLines (kind inst part : Nat) : Nat := ((storeParts kind inst).getD part (0, 0)).2

/-- The key of a store's scrubber. -/
def scrubKey (kind inst part : Nat) : Nat := 4 * (1024 * kind + inst) + part

/-- The store exists and its memory is awake (R57, R376). -/
def storeAwake (s : State) (kind inst : Nat) : Bool :=
  match kind with
  | 0 => s.seamPresent inst && !(s.seam inst).selfRefresh
  | 1 => s.stockStacks.contains inst && !s.brg.stockReset && !s.brg.stockSelf
  | 2 => decide (inst < 64)
  | 3 => s.crewPresent inst
  | 4 => s.seamPresent inst
  | 5 => decide (inst < 4)
  | 6 => decide (inst < 10)
  | _ => false

/-! ### Write-backs, buckets, injection -/

/-- ECC_WRITEBACK: the corrected line is written back, unless a newer write has replaced it (R370). -/
def execEccWriteback (kind inst line : Nat) (s : State) : Res :=
  let l : LineId := ⟨kind, inst, line⟩
  .next (
    match s.lineErr l with
    | some e =>
      if e.wb && storeAwake s kind inst then idWrite l (s.delivered l (idRead s l)) (s.cleanLine l) else s
    | none => s)

/-- ECC_LEAK: every bucket loses one (R371). -/
def execEccLeak (s : State) : Res :=
  .next { s with buckets := s.buckets.map (fun p => (p.1, { p.2 with level := p.2.level - 1 })) }

/-- A write of SEAM_INJ: the word is taken; arm is set by a 1 (R379, Table 13-12). -/
def seamInj (n w : Nat) (s : State) : State :=
  if s.seamPresent n then
    s.setSeam n { s.seam n with inj := [bits 6 0 w, bits 13 7 w, bits 20 14 w, bits 22 21 w]
                                injArm := (s.seam n).injArm || bit 23 w }
  else s

/-- SEAM_INJ_ARM. -/
def execSeamInjArm (r : Requester) (n : Nat) (v : Word) (s : State) : Res :=
  .next (if reachesRegs r then seamInj n v.toNat s else s)

/-! ### Scrubbing (R376, R377) -/

/-- No request waits at a seam (R376). -/
def seamIdle (s : State) (n : Nat) : Bool :=
  let m := s.mergeCol (n % 64)
  !((s.seam n).queue.any (fun q => q.stroke || s.hewerLive q.crew (roleOf (n % 64))))
    && !(s.face n).strokes.any (·.granted)
    && !(m.host ++ m.hostWait ++ m.face ++ m.faceWait).any (fun k => k.seam == n)

/-- The store a DPA lies in: kind and instance. -/
def storeOf (s : State) (dpa : Nat) : Option (Nat × Nat) :=
  match rawDecode s dpa with
  | some (_, .ok l) => some ((lineOf l).kind, (lineOf l).inst)
  | _ => none

/-- A request of the bus or the field waits for a store. -/
def heldFor (s : State) (kind inst : Nat) : Bool :=
  s.heldReqs.any (fun h => match h.2 with
    | .read _ dpa _ | .write _ dpa _ _ | .dpa _ _ dpa _ _ | .post _ dpa _ => storeOf s dpa == some (kind, inst)
    | .message _ _ => false)

/-- The store is idle and may be scrubbed (R376). -/
def storeIdle (s : State) (kind inst : Nat) : Bool :=
  storeAwake s kind inst && (kind != 0 || seamIdle s inst) && (kind != 3 || s.crewRuns inst)
    && (kind != 5 || (s.eng inst).held == []) && !heldFor s kind inst

/-- A scrubber's next line is read and decoded (R376); the lap's duration counts from its first line to its last (R377).
[DEDUCED: log entry 47] -/
def scrubLine (kind inst part : Nat) (s : State) : State :=
  let k := scrubKey kind inst part
  let b := Tbl.look {} s.scrubs k
  let l : LineId := ⟨kind, inst, ((storeParts kind inst).getD part (0, 0)).1 + b.line⟩
  let last := decide (storeLines kind inst part ≤ b.line + 1)
  let start := if b.line = 0 then s.now else b.lapStart
  let b' : Scrub := { line := if last then 0 else b.line + 1, lapStart := start
                      lap := if last then some (min 0xFFFFFF ((s.now - start) / 1000000000)) else b.lap }
  let v := s.verdict l (idRead s l)
  let s := { s with scrubs := Tbl.put s.scrubs k b' }
  noteRead l v true false s

/-- SCRUB_READ. [DEDUCED: log entry 47] -/
def execScrubRead (kind : Nat) (store : Nat × Nat) (s : State) : Res :=
  .next (if s.chr.scrubEn && storeIdle s kind store.1 && decide (store.2 < (storeParts kind store.1).length)
    then scrubLine kind store.1 store.2 s else s)

/-! ### Shafts (R380, R381) -/

/-- The shaft requests of a crew at the seams of a column are dropped. -/
def dropShaft (c col : Nat) (s : State) : State :=
  { s with seams := s.seams.map (fun p =>
      if p.1 % 64 = col then (p.1, { p.2 with queue := p.2.queue.filter (fun q => !(q.shaft && q.crew == c)) }) else p) }

/-- The request that a shaft carried fails with UNIT_FAULT (R380). -/
def failShaft (c role : Nat) (s : State) : State :=
  match (s.crew c).xferRun.findIdx? (fun x => !x.arrSent && (match shaftLeg s x with
      | some (r, _) => r == role && decide (x.done < xLen x) | none => false)) with
  | none => s
  | some i =>
    match (s.crew c).xferRun[i]? with
    | none => s
    | some x => setXfer c i (xferFail x.done .unitFault x) s

/-- A shaft is exhausted: logged, its request failed, its hewer fenced (R23, R127, R380). -/
def exhaustShaft (c role group : Nat) (s : State) : State :=
  let s := s.setHewer c role { s.hewer c role with exhausted := true }
  let s := logEvent 0x08 c 0x0305 [(0, 2, faceSlot c role), (2, 1, group)] s
  fenceHewer c role 2 5 (dropShaft c (colOf c role) (failShaft c role s))

/-- The free spare lane that a remap of a shaft takes: the lowest (R22, R381). [DESIGN CHOICE: log entry 150] -/
def freeSpare (x : Hewer) : Option Nat := (List.range 32).find? (fun k => !x.spares.any (fun p => p.2 == k))

/-- A lane that a good copy names: named 4 times within 1 ms it is remapped, or exhausts the shaft (R381). -/
def nameLane (c role group lane : Nat) (s : State) : State :=
  let x := s.hewer c role
  let named := x.named.filter (fun p => decide (s.now < p.2 + 1000000)) ++ [(lane, s.now)]
  if x.fenceCause ≠ 0 then s
  else if (named.filter (fun p => p.1 == lane)).length < 4 then s.setHewer c role { x with named := named }
  else
    match freeSpare x with
    | none => exhaustShaft c role group (s.setHewer c role { x with named := named })
    | some k =>
      let s := s.setHewer c role { x with named := named.filter (fun p => p.1 != lane), spares := x.spares ++ [(lane, k)] }
      let s := logEvent 0x08 c 0x0304 [(0, 2, faceSlot c role), (2, 2, lane), (4, 1, k)] s
      { s with brg := { s.brg with remapUnwritten := s.brg.remapUnwritten ++ [(faceSlot c role, lane, k)] } }

/-- SHAFT_RESEND. -/
def execShaftResend (c role : Nat) (command : Bool) (fails group : Nat) (lanes : List Nat) (s : State) : Res :=
  let g := if command then 0xFF else group
  .next (
    if role < 2 ∧ s.hewerLive c role = true ∧ s.crewRuns c = true ∧ 0 < fails then
      let x := s.hewer c role
      let s := s.setHewer c role { x with resends := satAdd 0xFFFF x.resends (min fails 7) }
      if 8 ≤ fails then exhaustShaft c role g s
      else lanes.eraseDups.foldl (fun s lane => if lane < 1112 then nameLane c role g lane s else s) s
    else s)

/-! ### Check units (R384 to R387) -/

/-- The lowest `n` bits of a number in reverse order. -/
def revBits : Nat → Nat → Nat
  | 0, _ => 0
  | n + 1, v => v % 2 * 2 ^ n + revBits n (v / 2)

/-- A CRC of Table 13-4: width, polynomial, initial value, reflected, final XOR. -/
structure CrcKind where
  width : Nat
  poly : Nat
  init : Nat
  refl : Bool
  final : Nat
deriving DecidableEq, Repr, Inhabited

/-- The CRCs of Table 13-4 by their codes. -/
def crcKind : Nat → CrcKind
  | 0 => ⟨32, 0x1EDC6F41, 0xFFFFFFFF, true, 0xFFFFFFFF⟩
  | 1 => ⟨32, 0x04C11DB7, 0xFFFFFFFF, true, 0xFFFFFFFF⟩
  | 2 => ⟨64, 0x42F0E1EBA9EA3693, 0, false, 0⟩
  | _ => ⟨16, 0x1021, 0xFFFF, false, 0⟩

/-- Bytes taken into an unreflected register. -/
def crcRun (k : CrcKind) (v : Nat) (bs : List Byte) : Nat :=
  bs.foldl (fun v b => crcByte k.width k.poly v (if k.refl then BitVec.ofNat 8 (revBits 8 b.toNat) else b)) v

/-- A register between its reflected and unreflected forms. -/
def crcFlip (k : CrcKind) (v : Nat) : Nat := if k.refl then revBits k.width v else v

/-- The product of two residues modulo the polynomial; `n` bits of the multiplier. -/
def crcMul (k : CrcKind) (a : Nat) : Nat → Nat → Nat
  | 0, _ => 0
  | n + 1, b =>
    let t := crcMul k a n (b / 2)
    let d := if bit (k.width - 1) t then (2 * t % 2 ^ k.width).xor k.poly else 2 * t % 2 ^ k.width
    if b % 2 = 1 then d.xor a else d

/-- x to a power modulo the polynomial; `n` bits of the exponent. -/
def crcPow (k : CrcKind) : Nat → Nat → Nat
  | 0, _ => 1
  | n + 1, e =>
    let t := crcPow k n (e / 2)
    let q := crcMul k t k.width t
    if e % 2 = 1 then crcMul k q k.width 2 else q

/-- A register moved past `n` zero bytes. -/
def crcShift (k : CrcKind) (v n : Nat) : Nat := crcMul k v k.width (crcPow k 48 (8 * n))

/-- CHK_RES: the CRC after the final XOR (R384); zero before a computation, with both values zero (R387, Table 13-14). -/
def chkRes (x : Chk) : Dword :=
  if x.val = 0 ∧ x.cnt = 0 then 0 else BitVec.ofNat 64 (x.val.toNat.xor (crcKind x.poly).final)

/-- CHK_STAT.done (Table 13-14). -/
def chkDone (x : Chk) : Bool := x.window && x.cnt.toNat == 64 * x.wlen.toNat

/-- A line is in a unit's window (R385). -/
def chkInside (x : Chk) (dpa : Nat) : Bool :=
  (!x.window && x.wlen == 0) || (decide (x.win ≤ dpa) && decide (dpa < x.win + 64 * x.wlen.toNat))

/-- A line taken in STREAM mode. -/
def chkStream (x : Chk) (data : List Byte) : Chk :=
  let k := crcKind x.poly
  { x with val := BitVec.ofNat 64 (crcFlip k (crcRun k (crcFlip k x.val.toNat) data)), cnt := x.cnt + 64 }

/-- A line passes twice: its position has been taken, or the count goes past the window (R386). After a resume from saved
values, only the count shows it. -/
def chkTwice (x : Chk) (pos : Nat) : Bool := x.lines.contains pos || decide (64 * x.wlen.toNat < (x.cnt + 64).toNat)

/-- A line taken at its position in WINDOW mode (R386); `free` replaces the register when a line passes twice. -/
def chkWindow (x : Chk) (pos : Nat) (data : List Byte) (free : Nat) : Chk :=
  let k := crcKind x.poly
  let n := x.wlen.toNat
  let v := crcFlip k x.val.toNat
  let base := if x.cnt = 0 then crcShift k v (64 * n) else v
  let add := crcShift k (crcRun k 0 data) (64 * (n - 1 - pos))
  let cnt := x.cnt + 64
  { x with
    val := if chkTwice x pos then BitVec.ofNat 64 (free % 2 ^ k.width) else BitVec.ofNat 64 (crcFlip k (base.xor add))
    cnt := cnt, lines := x.lines ++ [pos], over_ := x.over_ || decide (64 * n < cnt.toNat) }

/-- A unit snoops a line's stream. [DEDUCED: log entry 48] -/
def chkSnoops (s : State) (u src index dpa : Nat) : Bool :=
  let x := s.chk u
  decide (s.chr.veinChk ≤ u) && x.arm && !x.fenced && x.src == src && (src == 2 || src == 3 || x.index == index)
    && chkInside x dpa

/-- A unit takes a line (R385, R386). [DEDUCED: log entry 48] -/
def chkTake (u dpa : Nat) (data : List Byte) (s : State) : State :=
  let x := s.chk u
  if x.window then
    let pos := (dpa - x.win) / 64
    if chkTwice x pos then
      let d := s.fresh
      d.2.setChk u (chkWindow x pos data d.1)
    else s.setChk u (chkWindow x pos data 0)
  else s.setChk u (chkStream x data)

/-- CHK_LINE: a whole line passes a snoop point. [DEDUCED: log entry 48] -/
def execChkLine (src index dpa : Nat) (data : List Byte) (s : State) : Res :=
  .next (
    if 1 ≤ src ∧ src ≤ 7 ∧ dpa % 64 = 0 ∧ data.length = 64 then
      (List.range 32).foldl (fun s u => if chkSnoops s u src index dpa then chkTake u dpa data s else s) s
    else s)

/-- CHK_CTRL takes a word: armed with both values zero, the register starts from the polynomial's initial value (R387). -/
def chkCtrl (x : Chk) (w : Nat) : Chk :=
  let arm := bit 0 w
  let k := crcKind (bits 3 2 w)
  let start := arm && x.val == 0 && x.cnt == 0
  { x with arm := arm, window := bit 1 w, poly := bits 3 2 w, src := if bits 7 4 w ≤ 7 then bits 7 4 w else 0, index := bits 16 8 w
           val := if start then BitVec.ofNat 64 k.init else x.val
           lines := if x.cnt = 0 then [] else x.lines }

/-- A write of a check unit's register at an offset; one to a reserved unit is ignored and logged (R387, R498). -/
def chkPut (r : Requester) (u off : Nat) (f : Chk → Chk) (s : State) : State :=
  if u < s.chr.veinChk then logIgnored 0x11 u r (0x03C01000 + 0x40 * u + off) 3 s else s.setChk u (f (s.chk u))

/-- CHK_CTRL_WRITE. -/
def execChkCtrlWrite (r : Requester) (u : Nat) (v : Word) (s : State) : Res :=
  .next (if reachesRegs r = true ∧ u < 32 then chkPut r u 0 (fun x => chkCtrl x v.toNat) s else s)

end Sys2Proof.Machine
end

