-- ==== Sys2Proof/Machine/Mill.lean ====
section
/-! DEFINITION. The Mill (09_mill_training.md): shards, gradient arrival, blocks and their journal, programs. -/

namespace Sys2Proof.Machine

/-! ### Descriptors (Table 9-4) -/

/-- Word `i` of a shard descriptor. -/
def hw (sh : Shard) (i : Nat) : Nat := (sh.words.getD i 0).toNat
/-- A DPA in words `i` and `i + 1`. -/
def hdpa (sh : Shard) (i : Nat) : Nat := hw sh i + 2 ^ 32 * hw sh (i + 1)
/-- Mode: 1 UPDATE, 2 RESUME. -/
def shMode (sh : Shard) : Nat := bits 1 0 (hw sh 0)
/-- The step t. -/
def shStep (sh : Shard) : Nat := hw sh 1
/-- The number of blocks B. -/
def shBlocks (sh : Shard) : Nat := bits 20 0 (hw sh 2)
/-- The format of the compute copy; 0xF is none. -/
def shFmt (sh : Shard) : Nat := bits 3 0 (hw sh 3)
/-- Broad slabs. -/
def shBroad (sh : Shard) : Bool := bit 4 (hw sh 3)

/-- A range of bytes lies in the stockpile window. -/
def inStock (a n : Nat) : Bool := decide (0x20000000000 ≤ a) && decide (a + n ≤ 0x28000000000)
/-- A range of bytes lies in a seam window. -/
def inSeams (a n : Nat) : Bool := decide (a + n ≤ 0xC000000000)

/-- A state array is aligned and lies in present stockpile stacks (R245, R249). -/
def arrayGood (s : State) (sh : Shard) (i : Nat) : Bool :=
  let a := hdpa sh i
  let n := 2 * shBlocks sh * 0x4000
  a % 0x4000 == 0 && inStock a n && decide (a % 0x20000000000 + n ≤ s.stockStacks.length * 0x2000000000)

/-- The arrival address of a shard is none, or of this stack without a reserved field set (Table 9-4, R249). -/
def shArrGood (s : State) (sh : Shard) : Bool :=
  let a := BitVec.ofNat 64 (hdpa sh 22)
  a == 0 || (!arrBad a && arrStack a == s.fld.id)

/-- The record address lies in a seam window and is aligned (Table 9-4). -/
def recordGood (sh : Shard) : Bool := hdpa sh 24 % 32 == 0 && inSeams (hdpa sh 24) 32

/-- The landing range of a shard: bank 0 of w (R249). -/
def shRange (sh : Shard) (id : Nat) : Range := { base := hdpa sh 8, blocks := shBlocks sh, armed := true, shard := id }

/-- Two ranges overlap. -/
def rangesMeet (g h : Range) : Bool := decide (g.base < h.base + h.blocks * 0x4000) && decide (h.base < g.base + g.blocks * 0x4000)

/-- A DISCARD range of the same engine that equals a new shard's landing range is taken over (R258). -/
def takesOver (g h : Range) : Bool := !h.armed && h.base == g.base && h.blocks == g.blocks

/-- An UPDATE shard's landing range overlaps one that an engine holds (R249, R258). -/
def rangeClash (s : State) (e : Nat) (sh : Shard) : Bool :=
  let g := shRange sh 0
  (List.range 4).any (fun k => (s.eng k).ranges.any (fun h => rangesMeet g h && !(k == e && takesOver g h)))

/-- A descriptor breaks R249. -/
def shardBad (s : State) (e : Nat) (sh : Shard) : Bool :=
  let b := shBlocks sh
  let copy := if shFmt sh = 0xF then hdpa sh 14 == 0 else decide (shFmt sh ≤ 5) && hdpa sh 14 % 64 == 0 && inSeams (hdpa sh 14) 1
  let inProg := fun a => a % 64 == 0 && (inStock a 16 || inSeams a 16)
  !((shMode sh == 1 || shMode sh == 2) && bits 15 2 (hw sh 0) == 0 && shStep sh != 0
    && decide (1 ≤ b) && decide (b ≤ 1048576) && bits 31 21 (hw sh 2) == 0 && bits 31 5 (hw sh 3) == 0
    && arrayGood s sh 4 && arrayGood s sh 6 && arrayGood s sh 8
    && hdpa sh 10 % 64 == 0 && inStock (hdpa sh 10) (64 * b)
    && (hdpa sh 12 == 0 || (hdpa sh 12 % 64 == 0 && inStock (hdpa sh 12) (4 * b)))
    && copy && inProg (hdpa sh 16) && hdpa sh 18 % 64 == 0 && decide (hdpa sh 18 < 2 ^ 48)
    && (match numOfWord (BitVec.ofNat 32 (hw sh 20)) with | .nan => false | .inf n => !n | .fin n m _ => !n || m == 0)
    && shArrGood s sh && recordGood sh && (List.range 6).all (fun i => hw sh (26 + i) == 0)
    && !(shMode sh == 1 && rangeClash s e sh))

/-! ### Completion (R257, R265 to R267) -/

/-- The shard's sumsq (R257). -/
def shSumsq (sh : Shard) : Word := wordOfNum (Num.sum (sh.sumsq.map numOfWord))

/-- Blocks whose wtag is still N, with those not reached (Table 9-8). [DEDUCED: log entry 56] -/
def shPending (sh : Shard) : Nat := shBlocks sh - (sh.updated + sh.replayed + sh.skipped + sh.doneBefore)

/-- The completion record (Table 9-8). [DEDUCED: log entry 32] -/
def shRecord (sh : Shard) (st : Status) : List Byte :=
  leBytes 2 (bits 31 16 (hw sh 0)) ++ leBytes 1 (st.code + 16 * b2n sh.flagged.isSome) ++ [0]
    ++ leBytes 4 sh.updated ++ leBytes 4 sh.replayed ++ leBytes 4 sh.skipped ++ leBytes 4 (shPending sh)
    ++ leBytes 4 sh.doneBefore ++ leBytes 4 (shSumsq sh).toNat ++ leBytes 2 sh.dup ++ [0, 0]

/-- A shard completes: its record, MILL_ENG_DONE, its range to DISCARD, its arrival, its host request (R267).
[DEDUCED: log entries 32, 56] -/
def shardEnd (e : Nat) (sh : Shard) (st : Status) (s : State) : State :=
  let rec_ := shRecord sh st
  let s := if recordGood sh then postWrite (.mill e) (hdpa sh 24) rec_ s else s
  let x := s.eng e
  let s := s.setEng e { x with
    doneTag := bits 31 16 (hw sh 0), doneStatus := st.code, doneCount := (x.doneCount + 1) % 256, lastStatus := st.code
    ranges := x.ranges.map (fun g => if g.shard = sh.id then { g with armed := false } else g)
    landed := x.landed.filter (fun l => l.1 != sh.id), dups := x.dups.filter (fun d => d.1 != sh.id) }
  let a := hdpa sh 22
  let s := if a ≠ 0 then unitArrival (BitVec.ofNat 64 a) (st != .ok) s else s
  completeOpt sh.req st 0 (rec_.take 16) s

/-- The staging buffer and the compute unit are emptied. -/
def Eng.idle (x : Eng) : Eng := { x with ahead := [], block := none, wback := [], phase := 0 }

/-- The running shard stops with a status (R265); its blocks' writes stop. -/
def shardStop (e : Nat) (st : Status) (s : State) : State := s.setEng e { (s.eng e).idle with ended := some st }

/-- The engine is fenced: the running shard ends UNIT_FAULT, the queued ones UNIT_DEAD, its ranges go to DISCARD (R258,
R262, R458). -/
def millFence (e : Nat) (s : State) : State :=
  let x := s.eng e
  let s := s.setEng e { x.idle with state := 2, cur := none, queue := [], ended := none }
  let s := match x.cur with | some sh => shardEnd e sh .unitFault s | none => s
  let s := x.queue.foldl (fun s sh => shardEnd e sh .unitDead s) s
  let s := s.setEng e { s.eng e with ranges := (s.eng e).ranges.map (fun g => { g with armed := false }) }
  noteLoss 6 e 3 s

/-! ### Submission (R248, R249) -/

/-- A shard's landing range is armed: it takes over an equal DISCARD entry, or a free one (R249, R258). -/
def armRange (e : Nat) (sh : Shard) (s : State) : State :=
  if shMode sh ≠ 1 then s
  else
    let x := s.eng e
    let g := shRange sh sh.id
    s.setEng e { x with ranges := x.ranges.filter (fun h => !takesOver g h) ++ [g] }

/-- The engine's range table has no entry for an UPDATE shard (R249). -/
def rangesFull (s : State) (e : Nat) (sh : Shard) : Bool :=
  shMode sh == 1 && decide (8 ≤ ((s.eng e).ranges.filter (fun h => !takesOver (shRange sh 0) h)).length)

/-- A descriptor is submitted (R248, R249, R262). -/
def shardSubmit (e : Nat) (ws : List Word) (req : Option Nat) (s : State) : State :=
  let x := s.eng e
  if 4 ≤ x.queue.length then s.setEng e { x with dropped := true }
  else
    let sh : Shard := { words := ws, id := x.nextId, req := req }
    let s := s.setEng e { x with nextId := x.nextId + 1 }
    if x.state = 2 then shardEnd e sh .unitDead s
    else if shardBad s e sh then shardEnd e sh .badDescriptor s
    else if rangesFull s e sh then shardEnd e sh .denied s
    else
      let s := armRange e sh s
      s.setEng e { s.eng e with queue := (s.eng e).queue ++ [sh] }

/-- An Overseer or the Foreman (R248). -/
def millOwner : Requester → Bool
  | .overseer _ => true
  | .foreman => true
  | _ => false

/-- A write of MILL_SHARD_i (R248, R498). -/
def millWord (r : Requester) (e i : Nat) (v : Word) (s : State) : State :=
  if !millOwner r then logIgnored 0x0D e r (0x03601000 + 0x1000 * e + 0x100 + 4 * i) 1 s
  else
    let x := s.eng e
    let st := Tbl.put x.staged i v
    let s := s.setEng e { x with staged := st }
    if i = 31 then shardSubmit e ((List.range 32).map (fun k => Tbl.look 0 st k)) none s else s

/-- The mode of the descriptor that an engine's words hold. [DEDUCED: log entry 55] -/
def stagedMode (s : State) (e : Nat) : Nat := bits 1 0 (Tbl.look 0 (s.eng e).staged 0).toNat

/-- SHARD_UPDATE: the write of MILL_SHARD_31 on a descriptor of any mode but RESUME. [DEDUCED: log entry 55] -/
def execShardUpdate (r : Requester) (e : Nat) (v : Word) (s : State) : Res :=
  .next (if reachesRegs r = true ∧ e < 4 ∧ stagedMode s e ≠ 2 then millWord r e 31 v s else s)

/-- SHARD_RESUME: the write of MILL_SHARD_31 on a RESUME descriptor. [DEDUCED: log entry 55] -/
def execShardResume (r : Requester) (e : Nat) (v : Word) (s : State) : Res :=
  .next (if reachesRegs r = true ∧ e < 4 ∧ stagedMode s e = 2 then millWord r e 31 v s else s)

/-! ### Programs (R259, R261) -/

/-- Opcode. -/
def mOp (w : Word) : Nat := bits 5 0 w.toNat
/-- Destination register. -/
def mFd (w : Word) : Nat := bits 9 6 w.toNat
/-- Source A. -/
def mFa (w : Word) : Nat := bits 13 10 w.toNat
/-- Source B. -/
def mFb (w : Word) : Nat := bits 17 14 w.toNat
/-- Source B is a scalar. -/
def mKb (w : Word) : Bool := bit 18 w.toNat
/-- Source C. -/
def mFc (w : Word) : Nat := bits 22 19 w.toNat
/-- Option. -/
def mSub (w : Word) : Nat := bits 26 23 w.toNat

/-- The opcodes of Table 9-6. -/
def mListed (op : Nat) : Bool := (decide (1 ≤ op) && decide (op ≤ 0xA)) || op == 0x10 || op == 0x11 || op == 0x3F
/-- An opcode writes fd. -/
def mHasD (op : Nat) : Bool := decide (1 ≤ op) && decide (op ≤ 0xA)
/-- An opcode reads fa. -/
def mHasA (op : Nat) : Bool := mHasD op || op == 0x11
/-- An opcode reads source B. -/
def mHasB (op : Nat) : Bool := decide (1 ≤ op) && decide (op ≤ 8)
/-- An opcode reads fc. -/
def mHasC (op : Nat) : Bool := op == 4 || op == 8

/-- An instruction is listed and sets no field its opcode does not use (R261, Table 9-6). -/
def mWordGood (w : Word) : Bool :=
  let op := mOp w
  mListed op && (mHasD op || mFd w == 0) && (mHasA op || mFa w == 0) && (mHasB op || (mFb w == 0 && !mKb w))
    && (mHasC op || mFc w == 0)
    && (if op = 7 then decide (mSub w ≤ 3) else if op = 0x11 then decide (mSub w ≤ 1) else mSub w == 0) && bits 31 27 w.toNat == 0

/-- The registers an instruction reads. -/
def mReads (w : Word) : List Nat :=
  (if mHasA (mOp w) then [mFa w] else []) ++ (if mHasB (mOp w) && !mKb w then [mFb w] else [])
    ++ (if mHasC (mOp w) then [mFc w] else [])

/-- The weight phase reads nothing that does not survive an interruption (R261); `wr` are the registers it has written. -/
def weightGood : List Nat → List Word → Bool
  | _, [] => true
  | wr, w :: ws =>
    (mReads w).all (fun r => r != 0 && (decide (r ≤ 3) || wr.contains r))
      && weightGood (if mHasD (mOp w) then mFd w :: wr else wr) ws

/-- A program meets R261; `fmt` is the copy format of the shard. -/
def progGood (fmt : Nat) (ws : List Word) : Bool :=
  let count := fun op => (ws.filter (fun w => mOp w == op)).length
  let at_ := ws.findIdx (fun w => mOp w == 0x10)
  ws.all mWordGood && count 0x10 == 1 && count 0x3F == 1 && (ws.getLast?.any (fun w => mOp w == 0x3F))
    && (ws.take at_).all (fun w => mOp w != 0x11) && count 0x11 == (if fmt = 0xF then 0 else 1)
    && weightGood [] (ws.drop (at_ + 1))

/-- A program's header and the number of its instructions (R259). -/
def progHeader (bs : List Byte) : Option Nat :=
  let h := leAt bs 4 4
  if leAt bs 0 4 = 0x4C4C494D ∧ bits 7 6 h = 0 ∧ bits 15 8 h = 1 ∧ bits 31 16 h = 0 ∧ leAt bs 8 8 = 0
      ∧ 1 ≤ bits 5 0 h ∧ bits 5 0 h ≤ 48 then some (bits 5 0 h) else none

/-- Bytes read by an engine. -/
def mRead (e a n : Nat) (s : State) : State × List Byte × Status := readPieces (.mill e) (pieces a n) s
/-- Bytes written by an engine. -/
def mWrite (e a : Nat) (bs : List Byte) (s : State) : State × Status := writePieces (.mill e) (pieces a bs.length) bs s

/-- The engine works on a shard, and the stack is not STOPPED. -/
def millRuns (s : State) (e : Nat) : Bool :=
  decide (e < 4) && (s.eng e).state == 1 && (s.eng e).ended.isNone && !s.thm.stopped

/-- The running shard, stopped with the status of a read or write that failed. -/
def orStop (e : Nat) (r : State × List Byte × Status) (f : List Byte → State → State) : State :=
  if r.2.2 = .ok then f r.2.1 r.1 else shardStop e r.2.2 r.1

/-- The lines of an engine's stores that a step reads are decoded (R244): whether one of them is uncorrectable. -/
def millDecode (e lo n : Nat) (s : State) : State × Bool :=
  let bad := s.errs.filter (fun x => x.kind == 5 && x.inst == e && decide (lo ≤ x.line) && decide (x.line < lo + n))
  let v := fun x : LineErr => s.verdict ⟨5, e, x.line⟩ (idRead s ⟨5, e, x.line⟩)
  (bad.foldl (fun t x => noteRead ⟨5, e, x.line⟩ (v x) false false t) s, bad.any (fun x => v x == .uncorrectable))

/-- A step that reads lines of an engine's stores: an uncorrectable one stops the shard (R265). -/
def decoded (e lo n : Nat) (f : State → State) (s : State) : State :=
  let r := millDecode e lo n s
  if r.2 then shardStop e .uncorrectable r.1 else f r.1

/-- Lines written afresh carry fresh check bytes (R372). -/
def freshLines (e lo n : Nat) (s : State) : State :=
  { s with errs := s.errs.filter (fun x => !(x.kind == 5 && x.inst == e && decide (lo ≤ x.line) && decide (x.line < lo + n))) }

/-- The first line of a block's place in the staging buffer. [DEDUCED: log entry 54] -/
def stageLine (b : Block) : Nat := 65536 + 1024 * (b.pos % 16)

/-- SHARD_START (R250): the scalars and the program are read, and the program is checked. -/
def execShardStart (e : Nat) (s : State) : Res :=
  .next (unlessHeld (fun s =>
    let x := s.eng e
    match x.queue with
    | sh :: rest =>
      if e < 4 ∧ x.state = 0 ∧ s.thm.stopped = false ∧ s.brg.stockReset = false then
        let s := s.setEng e { x.idle with state := 1, cur := some sh, queue := rest, ended := none, progressAt := s.now }
        orStop e (mRead e (hdpa sh 18) 64 s) (fun ks s =>
          orStop e (mRead e (hdpa sh 16) 16 s) (fun h s =>
            match progHeader h with
            | none => shardStop e .badDescriptor s
            | some n =>
              orStop e (mRead e (hdpa sh 16 + 16) (4 * n) s) (fun bs s =>
                let p := wordsOf bs
                let s := freshLines e 81920 3
                  (s.setEng e { s.eng e with prog := p, kregs := (wordsOf ks).mapIdx (fun i k => (i, k)) })
                if progGood (shFmt sh) p then s else shardStop e .badDescriptor s)))
      else s
    | [] => s) s)

/-! ### Blocks (R246, R247, R251, R256, R263) -/

/-- The DPA of bank `k` of block `b` of the array in words `i` and `i + 1` (R245). -/
def bankDpa (sh : Shard) (i k b : Nat) : Nat := hdpa sh i + k * shBlocks sh * 0x4000 + b * 0x4000

/-- The DPA of a block's journal line (R246). -/
def jrnlDpa (sh : Shard) (b : Nat) : Nat := hdpa sh 10 + 64 * b

/-- A journal line (Table 9-2). -/
def jrnlLine (mtag wtag mbank wbank : Nat) (skipped : Bool) (sumsq : Word) : List Byte :=
  leBytes 4 mtag ++ leBytes 4 wtag ++ leBytes 1 (mbank + 2 * wbank + 4 * b2n skipped) ++ [0, 0, 0] ++ leBytes 4 sumsq.toNat
    ++ List.replicate 48 0

/-- The landed lines of a block are discarded and counted as late (R255). -/
def dropLanded (e id b : Nat) (s : State) : State :=
  let x := s.eng e
  let here := fun l : Nat × Nat × List Byte => l.1 == id && l.2.1 / 256 == b
  s.setEng e { x with landed := x.landed.filter (fun l => !here l), late := satAdd 0xFFFF x.late (x.landed.filter here).length }

/-- The running shard replaced. -/
def setShard (e : Nat) (sh : Shard) (s : State) : State := s.setEng e { s.eng e with cur := some sh }

/-- A state block as 4,096 words. [DEDUCED: log entry 54] -/
def blockWords (bs : List Byte) : List Word := wordsOf bs

/-- The registers at the start of a weight phase (R261). -/
def weightRegs (x : Eng) (m v w : List Word) : Tbl (List Word) := Tbl.put (Tbl.put (Tbl.put x.fregs 1 m) 2 v) 3 w

/-- The place in a program after MEND. -/
def weightStart (p : List Word) : Nat := p.findIdx (fun w => mOp w == 0x10) + 1

/-- The list position that MILL_ENG_POS shows: of the block being computed, or of the next one (R268). -/
def listPos (x : Eng) (sh : Shard) : Nat :=
  match x.block, x.ahead with
  | some b, _ => b.pos
  | none, b :: _ => b.pos
  | none, [] => sh.seen.length

/-- The shard's list position follows its blocks. -/
def showPos (e : Nat) (s : State) : State :=
  let x := s.eng e
  s.setEng e { x with cur := x.cur.map (fun sh => { sh with pos := listPos x sh }) }

/-- A Half block's weight phase starts from the state read from its current banks (R263). -/
def startReplay (e : Nat) (b : Block) (s : State) : State :=
  let x := s.eng e
  decoded e (stageLine b) 768 (fun s =>
    s.setEng e { s.eng e with
      fregs := weightRegs x b.m b.v b.w, pc := weightStart x.prog, phase := 3, progressAt := s.now
      block := some { b with stage := 2 } })
    (s.setEng e { x with block := some b })

/-- The block read ahead first is taken to be computed once no other is, a Half one at once (R251).
[DEDUCED: log entry 54] -/
def advance (e : Nat) (s : State) : State :=
  let x := s.eng e
  showPos e (match x.block, x.ahead with
    | none, b :: rest =>
      let s := s.setEng e { x with ahead := rest, block := some b }
      if b.cls = 1 then startReplay e b s else s
    | _, _ => s)

/-- The state of a block is read from its current banks into the staging buffer (R245, R251). -/
def readAhead (e : Nat) (sh : Shard) (b : Block) (s : State) : State :=
  orStop e (mRead e (bankDpa sh 4 b.mbank b.index) 0x4000 s) (fun m s =>
    orStop e (mRead e (bankDpa sh 6 b.mbank b.index) 0x4000 s) (fun v s =>
      orStop e (mRead e (bankDpa sh 8 b.wbank b.index) 0x4000 s) (fun w s =>
        let x := s.eng e
        advance e (freshLines e (stageLine b) 768 (s.setEng e { x with
          ahead := x.ahead ++ [{ b with m := blockWords m, v := blockWords v, w := blockWords w }] })))))

/-- A block is classified by its journal line (R247). -/
def classify (e : Nat) (sh : Shard) (b : Nat) (j : List Byte) (s : State) : State :=
  let t := shStep sh
  let n := t - 1
  let mtag := leAt j 0 4
  let wtag := leAt j 4 4
  let flags := leAt j 8 1
  let blk : Block := { index := b, pos := sh.seen.length, mbank := bits 0 0 flags, wbank := bits 1 1 flags, mtag := mtag
                       wtag := wtag, sumsq := BitVec.ofNat 32 (leAt j 12 4) }
  let sh := { sh with seen := sh.seen ++ [b] }
  if mtag = n ∧ wtag = n then
    if shMode sh = 1 then readAhead e sh blk (setShard e sh s)
    else showPos e (setShard e { sh with left := sh.left + 1 } s)
  else if mtag = t ∧ wtag = n then
    readAhead e sh { blk with cls := 1 } (dropLanded e sh.id b (setShard e sh s))
  else if mtag = t ∧ wtag = t then
    let s := dropLanded e sh.id b (setShard e { sh with doneBefore := sh.doneBefore + 1 } s)
    showPos e (s.setEng e { s.eng e with progressAt := s.now })
  else shardStop e .denied (setShard e sh s)

/-- The order list's entry at the place that reading has reached (R250, R251). -/
def orderRead (e : Nat) (sh : Shard) (s : State) : State × Nat × Status :=
  if hdpa sh 12 = 0 then (s, sh.seen.length, .ok)
  else
    let r := mRead e (hdpa sh 12 + 4 * sh.seen.length) 4 s
    (r.1, leNat r.2.1, r.2.2)

/-- The blocks in flight: read ahead, computed or written back (R244, R251). -/
def inFlight (x : Eng) : Nat := x.ahead.length + x.block.toList.length + x.wback.length

/-- BLOCK_CLASSIFY: the next block of the list is read ahead while the staging buffer has room. [DEDUCED: log entry 54] -/
def execBlockClassify (e : Nat) (s : State) : Res :=
  .next (unlessHeld (fun s =>
    let x := s.eng e
    match x.cur with
    | some sh =>
      if millRuns s e = true ∧ inFlight x < 16 ∧ sh.seen.length < shBlocks sh then
        let o := orderRead e sh s
        if o.2.2 ≠ .ok then shardStop e o.2.2 o.1
        else if shBlocks sh ≤ o.2.1 ∨ sh.seen.contains o.2.1 = true then shardStop e .badDescriptor o.1
        else orStop e (mRead e (jrnlDpa sh o.2.1) 64 o.1) (fun j s => classify e sh o.2.1 j s)
      else s
    | none => s) s)

/-- A value is NaN or infinite. -/
def notFinite (w : Word) : Bool := match numOfWord w with | .fin _ _ _ => false | _ => true

/-- The block's sum of squares: exact, rounded once (R256). -/
def blockSumsq (g : List Word) : Word :=
  wordOfNum (Num.sum (g.map (fun w => (numOfWord w).mul (numOfWord w))))

/-- A landed line of a block. -/
def landedLine (x : Eng) (id j : Nat) : Option (List Byte) :=
  (x.landed.find? (fun l => l.1 == id && l.2.1 == j)).map (·.2.2)

/-- The gradient of a block, once all its 256 lines have landed (R256). -/
def gradient (x : Eng) (id b : Nat) : Option (List Word) :=
  ((List.range 256).mapM (fun i => landedLine x id (256 * b + i))).map (fun l => l.flatMap wordsOf)

/-- A computed block goes to its write-back, and the next one is taken (R251, R263). -/
def toWriteback (e : Nat) (b : Block) (s : State) : State :=
  let x := s.eng e
  advance e (s.setEng e { x with block := none, phase := 0, wback := x.wback ++ [b] })

/-- A block fails its checks: it is to be skipped, and the first flagged shard of a step is logged (R256). -/
def failBlock (e : Nat) (sh : Shard) (b : Block) (s : State) : State :=
  let first := sh.flagged.isNone
  let sh' := if first then { sh with flagged := some b.pos } else sh
  let s := toWriteback e { b with stage := 8 } (setShard e sh' s)
  if first && !s.millFlagged.contains (shStep sh) then
    logEvent 0x0D e 0x0805 [(0, 1, e), (2, 2, bits 31 16 (hw sh 0)), (4, 4, shStep sh), (8, 4, b.pos)]
      { s with millFlagged := s.millFlagged ++ [shStep sh] }
  else s

/-- The moment phase of a block starts from its gradient and the state read from its current banks (R261).
[DEDUCED: log entry 54] -/
def startMoment (e : Nat) (b : Block) (g : List Word) (s : State) : State :=
  decoded e (stageLine b) 768 (fun s =>
    let x := s.eng e
    s.setEng e { x with
      fregs := Tbl.put (weightRegs x b.m b.v b.w) 0 g, pc := 0, phase := 1, block := some { b with stage := 1 } }) s

/-- BLOCK_COMPUTE: the gradient has landed; it is checked, and the moment phase starts or the block is skipped (R256).
[DEDUCED: log entry 54] -/
def execBlockCompute (e : Nat) (s : State) : Res :=
  .next (
    let x := s.eng e
    match x.cur, x.block with
    | some sh, some b =>
      if millRuns s e = true ∧ b.stage = 0 then
        match gradient x sh.id b.index with
        | none => s
        | some g =>
         decoded e (256 * b.index % 65536) 256 (fun s =>
          let x := s.eng e
          let bad := g.any notFinite
          let sq := if bad then (0x7FC00000 : Word) else blockSumsq g
          let dup := x.dups.contains (sh.id, b.index)
          let sh := if bad then sh else { sh with sumsq := sh.sumsq ++ [sq] }
          let b := { b with sumsq := sq }
          let s := s.setEng e { x with
            cur := some sh, block := some b, progressAt := s.now
            landed := x.landed.filter (fun l => !(l.1 == sh.id && l.2.1 / 256 == b.index)) }
          if bad || dup || (numOfWord (BitVec.ofNat 32 (hw sh 20))).lt false (numOfWord sq) then failBlock e sh b s
          else startMoment e b g s) s
      else s
    | _, _ => s)

/-- A write of a block is done with a status; the block goes to its next stage. -/
def afterWrite (e : Nat) (r : State × Status) (b : Block) (stage : Nat) : State :=
  if r.2 = .ok then r.1.setEng e { r.1.eng e with wback := { b with stage := stage } :: (r.1.eng e).wback.drop 1 }
  else shardStop e r.2 r.1

/-- The last write of a block is done: it is counted and leaves the staging buffer. -/
def finishBlock (e : Nat) (r : State × Status) (sh : Shard) : State :=
  if r.2 = .ok then r.1.setEng e { r.1.eng e with wback := (r.1.eng e).wback.drop 1, cur := some sh }
  else shardStop e r.2 r.1

/-- The words of a block as bytes. -/
def wordBytes (ws : List Word) : List Byte := ws.flatMap (fun w => leBytes 4 w.toNat)

/-- The slab bytes of a block's compute copy (R107, R266). -/
def copyBytes (broad : Bool) (gs : List (List Byte × Byte)) : List Byte :=
  let wc := if broad then 128 else 32
  (List.range (128 / wc)).flatMap (fun k =>
    let l := (gs.drop (k * wc)).take wc
    padLine (l.map (·.2)) ++ padLine (l.flatMap (·.1)))

/-- The bytes of a block's compute copy: C of R266. -/
def copySize (sh : Shard) : Nat :=
  let bb := blockBytes (shFmt sh)
  if shBroad sh then 128 + 128 * bb else 4 * (64 + 32 * bb)

/-- Two writes, the second only after the first (R263). -/
def thenWrite (e : Nat) (r : State × Status) (a : Nat) (bs : List Byte) : State × Status :=
  if r.2 = .ok then mWrite e a bs r.1 else r

/-- BLOCK_WRITEBACK_DONE: the next write of R263 for the oldest block in write-back, or the journal line of a skipped one
(R256). -/
def execBlockWritebackDone (e : Nat) (s : State) : Res :=
  .next (unlessHeld (fun s =>
    let x := s.eng e
    match x.cur, x.wback with
    | some sh, b :: _ =>
      let t := shStep sh
      let j := jrnlDpa sh b.index
      if millRuns s e then
        match b.stage with
        | 4 =>
          let r := mWrite e (bankDpa sh 4 (1 - b.mbank) b.index) (wordBytes b.m) s
          afterWrite e (thenWrite e r (bankDpa sh 6 (1 - b.mbank) b.index) (wordBytes b.v)) b 5
        | 5 =>
          let b' := { b with mtag := t, mbank := 1 - b.mbank }
          afterWrite e (mWrite e j (jrnlLine t b.wtag b'.mbank b.wbank false b.sumsq) s) b' 6
        | 6 =>
          let r := mWrite e (bankDpa sh 8 (1 - b.wbank) b.index) (wordBytes b.w) s
          if shFmt sh = 0xF then afterWrite e r b 7
          else afterWrite e (thenWrite e r (hdpa sh 14 + b.index * copySize sh) (copyBytes (shBroad sh) b.copy)) b 7
        | 7 =>
          finishBlock e (mWrite e j (jrnlLine t t b.mbank (1 - b.wbank) false b.sumsq) s)
            (if b.cls = 0 then { sh with updated := sh.updated + 1 } else { sh with replayed := sh.replayed + 1 })
        | 8 => finishBlock e (mWrite e j (jrnlLine t t b.mbank b.wbank true b.sumsq) s) { sh with skipped := sh.skipped + 1 }
        | _ => s
      else s
    | _, _ => s) s)

/-! ### Gradient arrival (R252, R253) -/

/-- GRADIENT_WRITE: whole lines written to an armed or DISCARD range by a requester of Table 2-3; a narrower write to an
armed range is DENIED and recorded. -/
def execGradientWrite (r : Requester) (addr : Nat) (data : List Byte) (s : State) : Res :=
  .next (unlessHeld (fun s =>
    match landingOf s r addr with
    | some (_, g) =>
      if addr % 64 = 0 ∧ data.length % 64 = 0 then (writePieces r (pieces addr data.length) data s).1
      else if g.armed then recordDeny r addr true 3 s
      else s
    | none => s) s)

/-- The range entry of a shard. -/
def rangeOf (x : Eng) (id : Nat) : Range :=
  (x.ranges.find? (fun g => g.shard == id)).getD { armed := false, shard := id }

/-- LANDING_ADMIT: the oldest line held back that the buffer now admits; its sender goes on (R253).
[DESIGN CHOICE: log entry 130] -/
def execLandingAdmit (e : Nat) (s : State) : Res :=
  .next (
    let x := s.eng e
    let free := fun h : Nat × Nat × List Byte × Requester =>
      !(rangeOf x h.1).armed || admits s e h.1 (h.2.1 / 256) 0
    if e < 4 then
      match x.held.findIdx? free with
      | some i =>
        match x.held[i]? with
        | some h =>
          entryTaken (landTake e (rangeOf x h.1) h.2.1 h.2.2.1 (s.setEng e { x with held := listDel x.held i })) h.2.2.2
        | none => s
      | none => s
    else s)

/-! ### Instructions (R259 to R262, R266) -/

/-- A lane register. -/
def freg (x : Eng) (i : Nat) : List Word := Tbl.look (List.replicate 4096 0) x.fregs i
/-- Source B. -/
def srcB (x : Eng) (w : Word) : List Word :=
  if mKb w then List.replicate 4096 (Tbl.look 0 x.kregs (mFb w)) else freg x (mFb w)

/-- Free words: a result that failed its check and is used all the same (R383). -/
def freeWords (s : State) : State × List Word :=
  ({ s with free := s.free + 4096 }, (List.range 4096).map (fun i => BitVec.ofNat 32 (Config.freeValue (s.free + i))))

/-- An instruction of the engine's program at the place the block has reached (R251, R261). [DEDUCED: log entry 20] -/
def millStep (e op : Nat) (w : Word) (f : Shard → Block → State → State) (s : State) : Res :=
  .next (
    let x := s.eng e
    match x.cur, x.block with
    | some sh, some b =>
      if millRuns s e = true ∧ (b.stage = 1 ∨ b.stage = 2) ∧ x.prog[x.pc]? = some w ∧ mOp w = op then
        decoded e (81920 + x.pc / 16) 1 (f sh b) s
      else s
    | _, _ => s)

/-- A lane register written, and the next instruction. -/
def millWrite (e : Nat) (w : Word) (v : List Word) (s : State) : State :=
  let x := s.eng e
  s.setEng e { x with fregs := Tbl.put x.fregs (mFd w) v, pc := x.pc + 1 }

/-- Retries counted. -/
def millBump (e : Nat) (s : State) : State := s.setEng e { s.eng e with retries := satInc 0xFFFF (s.eng e).retries }

/-- A checked instruction: its result after its verdict; `free` gives the result that is used unchecked (R262, R383).
[DEDUCED: log entries 21, 131] -/
def millChecked (e : Nat) (w : Word) (mm : Nat) (good free : State → State) (s : State) : State :=
  match residue s mm with
  | .clean => good s
  | .retried => good (millBump e s)
  | .ignored => free (millBump e s)
  | .fault => millFence e (s.setEng e { s.eng e with faultOp := mOp w })

/-- An arithmetic instruction over the block. [DEDUCED: log entry 131] -/
def millArith (e op : Nat) (w : Word) (mm : Nat) (g : Eng → List Word) (s : State) : Res :=
  millStep e op w (fun _ _ s =>
    millChecked e w mm (fun s => millWrite e w (g (s.eng e)) s)
      (fun s => millWrite e w (freeWords s).2 (freeWords s).1) s) s

/-- A word with any NaN as the NaN the block produces (R78, R260). [DEDUCED: log entry 131] -/
def canonNan (w : Word) : Word := wordOfNum (numOfWord w)

/-- MIN and MAX: NaN if either is; −0 below +0 (R260). -/
def fpMin (a b : Word) : Word :=
  if numOfWord a = .nan ∨ numOfWord b = .nan then wordOfNum .nan else if (numOfWord b).lt true (numOfWord a) then b else a
def fpMax (a b : Word) : Word :=
  if numOfWord a = .nan ∨ numOfWord b = .nan then wordOfNum .nan else if (numOfWord a).lt true (numOfWord b) then b else a

/-- CMP: false for NaN, except NE (R260). -/
def fpCmp (sub : Nat) (a b : Word) : Word :=
  let x := numOfWord a
  let y := numOfWord b
  let nan := decide (x = .nan) || decide (y = .nan)
  let gt := !nan && y.lt false x
  let lt := !nan && x.lt false y
  let r := match sub with
    | 0 => gt
    | 1 => !nan && !lt
    | 2 => !nan && !gt && !lt
    | _ => nan || gt || lt
  if r then 0x3F800000 else 0

/-- SEL: −0 counts as zero (R260). -/
def fpSel (a b c : Word) : Word := if c.toNat % 2 ^ 31 = 0 then canonNan b else canonNan a

/-- A function of sources A and B over the block. -/
def lanes2 (f : Word → Word → Word) (w : Word) (x : Eng) : List Word := List.zipWith f (freg x (mFa w)) (srcB x w)
/-- A function of the three sources over the block. -/
def lanes3 (f : Word → Word → Word → Word) (w : Word) (x : Eng) : List Word :=
  List.zipWith (fun p c => f p.1 p.2 c) (List.zip (freg x (mFa w)) (srcB x w)) (freg x (mFc w))

/-- MILL_ADD. -/
def execMillAdd (e : Nat) (w : Word) (mm : Nat) (s : State) : Res := millArith e 0x01 w mm (lanes2 fpAdd w) s
/-- MILL_SUB. -/
def execMillSub (e : Nat) (w : Word) (mm : Nat) (s : State) : Res := millArith e 0x02 w mm (lanes2 fpSub w) s
/-- MILL_MUL. -/
def execMillMul (e : Nat) (w : Word) (mm : Nat) (s : State) : Res := millArith e 0x03 w mm (lanes2 fpMul w) s
/-- MILL_FMA. -/
def execMillFma (e : Nat) (w : Word) (mm : Nat) (s : State) : Res := millArith e 0x04 w mm (lanes3 fpFma w) s
/-- MILL_MIN. -/
def execMillMin (e : Nat) (w : Word) (mm : Nat) (s : State) : Res := millArith e 0x05 w mm (lanes2 fpMin w) s
/-- MILL_MAX. -/
def execMillMax (e : Nat) (w : Word) (mm : Nat) (s : State) : Res := millArith e 0x06 w mm (lanes2 fpMax w) s
/-- MILL_CMP. -/
def execMillCmp (e : Nat) (w : Word) (mm : Nat) (s : State) : Res := millArith e 0x07 w mm (lanes2 (fpCmp (mSub w)) w) s
/-- MILL_SEL. -/
def execMillSel (e : Nat) (w : Word) (mm : Nat) (s : State) : Res := millArith e 0x08 w mm (lanes3 fpSel w) s
/-- MILL_RSQRT. -/
def execMillRsqrt (e : Nat) (w : Word) (mm : Nat) (s : State) : Res :=
  millArith e 0x09 w mm (fun x => (freg x (mFa w)).map fpRsqrt) s
/-- MILL_RECIP. -/
def execMillRecip (e : Nat) (w : Word) (mm : Nat) (s : State) : Res :=
  millArith e 0x0A w mm (fun x => (freg x (mFa w)).map fpRecip) s

/-- MILL_MEND: F1 and F2 are the new moments, and the weight phase starts with the old w in F3 (R261). -/
def execMillMend (e : Nat) (w : Word) (s : State) : Res :=
  millStep e 0x10 w (fun _ b s =>
    let x := s.eng e
    s.setEng e { x with pc := x.pc + 1, phase := 2, fregs := Tbl.put x.fregs 3 b.w
                        block := some { b with stage := 2, m := freg x 1, v := freg x 2 } }) s

/-- The 32-bit draw of the element with shard index `i` (R266). -/
def sround (seed t i : Nat) : Nat :=
  let w := 2 ^ 32
  let x := ((seed % w).xor (i % w)).xor (t * 0x9E3779B9 % w)
  let x := (x.xor (x / 2 ^ 16)) * 0x7FEB352D % w
  let x := (x.xor (x / 2 ^ 15)) * 0x846CA68B % w
  x.xor (x / 2 ^ 16)

/-- The groups of a block converted to the copy format: elements packed, and the scale (R80, R266). -/
def quantGroups (sh : Shard) (b : Nat) (stoch : Bool) (v : List Word) : List (List Byte × Byte) :=
  (List.range 128).map (fun j =>
    let draw := fun i : Nat => if stoch then some (sround (hw sh 21) (shStep sh) (4096 * b + 32 * j + i)) else none
    let q := mxQuantise (shFmt sh) draw (((v.drop (32 * j)).take 32).map numOfWord)
    (packBits (elemBits (shFmt sh)) q.2, BitVec.ofNat 8 q.1))

/-- The compute copy of a block taken. -/
def millCopy (e : Nat) (b : Block) (gs : List (List Byte × Byte)) (s : State) : State :=
  let x := s.eng e
  s.setEng e { x with pc := x.pc + 1, block := some { b with copy := gs } }

/-- MILL_QMX (R266). -/
def execMillQmx (e : Nat) (w : Word) (mm : Nat) (s : State) : Res :=
  millStep e 0x11 w (fun sh b s =>
    let conv := fun v => quantGroups sh b.index (mSub w == 1) v
    millChecked e w mm (fun s => millCopy e b (conv (freg (s.eng e) (mFa w))) s)
      (fun s => millCopy e b (conv (freeWords s).2) (freeWords s).1) s) s

/-- MILL_END: F3 is the new weight; a value that is not finite makes the block a failing one (R260, R261). -/
def execMillEnd (e : Nat) (w : Word) (s : State) : Res :=
  millStep e 0x3F w (fun sh b s =>
    let x := s.eng e
    let b := { b with w := freg x 3 }
    if (b.m ++ b.v ++ b.w).any notFinite then failBlock e sh b s
    else toWriteback e { b with stage := if b.cls = 0 then 4 else 6 } s) s

/-! ### Ends -/

/-- MILL_STALL (R254). -/
def execMillStall (e : Nat) (s : State) : Res :=
  .next (
    let x := s.eng e
    if millRuns s e = true ∧ s.millStall ≠ 0 ∧ x.progressAt + 1000 * s.millStall ≤ s.now then shardStop e .timeout s else s)

/-- SHARD_COMPLETE (R267). -/
def execShardComplete (e : Nat) (s : State) : Res :=
  .next (
    let x := s.eng e
    match x.cur with
    | some sh =>
      if e < 4 ∧ x.state = 1 ∧ s.thm.stopped = false ∧
          (x.ended.isSome = true ∨ (inFlight x = 0 ∧ shBlocks sh ≤ sh.seen.length)) then
        shardEnd e sh (x.ended.getD .ok) (s.setEng e { x.idle with state := 0, cur := none, ended := none })
      else s
    | none => s)

/-- Every DISCARD entry of an engine is FREE (R258). -/
def millDisarm (e : Nat) (s : State) : State := s.setEng e { s.eng e with ranges := (s.eng e).ranges.filter (·.armed) }

/-- MILL_DISARM. -/
def execMillDisarm (r : Requester) (e : Nat) (s : State) : Res :=
  .next (if reachesRegs r = true ∧ e < 4 then millDisarm e s else s)

/-- A reset of the stockpile controller stops the running shards (Table 9-7). -/
def millAbort (s : State) : State :=
  (List.range 4).foldl (fun s e => if (s.eng e).state = 1 ∧ (s.eng e).ended = none then shardStop e .abortedByReset s else s) s

/-- The stall limit does not run while the stack is STOPPED (R433). -/
def millResume (since : Nat) (s : State) : State :=
  (List.range 4).foldl (fun s e => s.setEng e { s.eng e with progressAt := (s.eng e).progressAt + (s.now - max since (s.eng e).progressAt) }) s

end Sys2Proof.Machine
end

