-- ==== Sys2Proof/Machine/Program.lean ====
section
/-! DEFINITION. Program images and the tally's states (R175 to R177), buddy takeover (R178 to R180) and the crew map
(R181). -/

namespace Sys2Proof.Machine

/-! ### Images (R175, R176) -/

/-- A section entry of an image (Table 6-9): type, reserved bytes, dest, size, offset. -/
structure Sect where
  typ : Nat
  res : Nat
  dest : Nat
  size : Nat
  off : Nat
deriving DecidableEq, Repr, Inhabited

/-- Section entry `i` of an image. -/
def imgSect (img : List Byte) (i : Nat) : Sect :=
  let b := 64 + 16 * i
  { typ := leAt img b 1, res := leAt img (b + 1) 3, dest := leAt img (b + 4) 4, size := leAt img (b + 8) 4,
    off := leAt img (b + 12) 4 }

/-- The section entries of an image. -/
def imgSects (img : List Byte) : List Sect := (List.range (leAt img 0x0E 2)).map (imgSect img)

/-- The bytes of a target that a section may fill (Table 6-9): first and limit. -/
def sectRange (t : Nat) : Nat × Nat :=
  match t with
  | 1 => (0x8000, 0x20000)
  | 2 => (0, 0x80000)
  | 5 => (0, 0x800)
  | _ => (0, 0x200000)

/-- A section on its own meets R176. [DEDUCED: log entry 30] -/
def sectGood (s : State) (c len major : Nat) (x : Sect) : Bool :=
  decide (1 ≤ x.typ) && decide (x.typ ≤ 5) && x.res == 0 && decide (x.off + x.size ≤ len)
    && decide ((sectRange x.typ).1 ≤ x.dest) && decide (x.dest + x.size ≤ (sectRange x.typ).2)
    && (x.typ != 5 || (x.dest == 0 && x.size % 8 == 0 && major != 1))
    && (!(x.typ == 3 || x.typ == 4) || s.hewerLive c (x.typ - 3))

/-- Two sections share a byte of one target. -/
def sectClash (x y : Sect) : Bool :=
  x.typ == y.typ && x.size != 0 && y.size != 0 && decide (x.dest < y.dest + y.size) && decide (y.dest < x.dest + x.size)

/-- No two sections overlap, and at most one is a send table. -/
def sectsApart : List Sect → Bool
  | [] => true
  | x :: xs => xs.all (fun y => !sectClash x y && !(x.typ == 5 && y.typ == 5)) && sectsApart xs

/-- The CRC-32C of an image, its own field taken as zero (Table 6-8). [DESIGN CHOICE: log entry 59] -/
def imgCrc (img : List Byte) : Nat := crc32c (img.take 0x14 ++ [0, 0, 0, 0] ++ img.drop 0x18)

/-- The logical crew that the crew map assigns to a physical crew (R181). -/
def logicalOf (s : State) (c : Nat) : Option Nat :=
  (List.range 128).find? (fun n => Tbl.look (0, false) s.crewMap n == (c, true))

/-- An image meets R176 for a crew. [DESIGN CHOICE: log entry 59] -/
def imgGood (s : State) (c : Nat) (img : List Byte) : Bool :=
  let major := leAt img 4 2
  let n := leAt img 0x0E 2
  leAt img 0 4 == 0x50435A4B && (major == 1 || major == 2) && decide (leAt img 8 4 < 4) && !(major == 1 && bit 0 (leAt img 8 4))
    && decide (1 ≤ n) && decide (n ≤ 8) && leAt img 0x28 24 == 0 && decide (64 + 16 * n ≤ img.length)
    && leAt img 0x14 4 == imgCrc img && (imgSects img).all (sectGood s c img.length major) && sectsApart (imgSects img)
    && some (leAt img 0x0C 2) == logicalOf s c

/-- Bytes of an image placed in a face store, line by line; the blocks they fill become RESIDENT (R176). -/
def placeFace (c role dest : Nat) (bs : List Byte) (s : State) : State :=
  let s := (lineSpans dest bs.length).foldl (fun s p =>
    let part := (bs.drop (p.1 - dest)).take p.2
    if p.2 = 64 then writeLine (.face c role p.1) part s
    else (mergeWrite (.face c role p.1) (part.mapIdx (fun i b => (p.1 % 64 + i, b))) s).1) s
  if bs = [] then s
  else setBlocks c role ((List.range ((dest + bs.length + 1023) / 1024 - dest / 1024)).map (· + dest / 1024)) 2 s

/-- The entries of a send table. -/
def sendEntries (bs : List Byte) : List Dword :=
  (List.range (bs.length / 8)).map (fun i => BitVec.ofNat 64 (leAt bs (8 * i) 8))

/-- A section placed in its target. -/
def placeSect (c : Nat) (img : List Byte) (x : Sect) (s : State) : State :=
  let bs := (img.drop x.off).take x.size
  match x.typ with
  | 1 => (localWrite (.tly c) x.dest bs s).1
  | 2 => (localWrite (.ls c) x.dest bs s).1
  | 3 => placeFace c 0 x.dest bs s
  | 4 => placeFace c 1 x.dest bs s
  | _ => s.setCrew c { s.crew c with sends := sendEntries bs }

/-- An image that R176 accepts is placed and the tally becomes LOADED. -/
def placeImage (c : Nat) (img : List Byte) (s : State) : State :=
  let x := s.crew c
  let s := s.setCrew c { x with sends := [], poisonAt := none, entry := BitVec.ofNat 64 (leAt img 0x20 8)
                                buddyReady := bit 0 (leAt img 8 4), state := 3, cause := 0 }
  (imgSects img).foldl (fun s x => placeSect c img x s) s

/-- The load is refused with a status: IDLE (R176). -/
def refuseImage (c : Nat) (st : Status) (s : State) : State :=
  s.setCrew c { s.crew c with state := 1, cause := st.code }

/-- The microcode reads the image at CRW_TLY_IMG under the crew's permissions and places or refuses it (R175, R176). -/
def loadImage (c : Nat) (s : State) : State :=
  let a := (s.crew c).img
  if a % 64 ≠ 0 then refuseImage c .badDescriptor s
  else
    let h := readPieces (.crew c) (pieces a 64) s
    let len := leAt h.2.1 0x10 4
    if h.2.2 ≠ .ok then refuseImage c h.2.2 h.1
    else if leAt h.2.1 0 4 ≠ 0x50435A4B ∨ 0x1000000 < len ∨ len < 64 then refuseImage c .badDescriptor h.1
    else
      let r := readPieces (.crew c) (pieces a len) h.1
      if r.2.2 ≠ .ok then refuseImage c r.2.2 r.1
      else if imgGood r.1 c r.2.1 then placeImage c r.2.1 r.1 else refuseImage c .badDescriptor r.1

/-- IMAGE_LOADED: the load waits while the crew's gallery is parked, or while a line of the image waits (R57, R106).
[DESIGN CHOICE: log entry 33] -/
def execImageLoaded (c : Nat) (s : State) : Res :=
  .next (
    if s.crewPresent c = true ∧ (s.crew c).state = 2 ∧ s.crewRuns c = true ∧ (s.gal (galOf c)).parked = false then
      unlessHeld (loadImage c) s
    else s)

/-! ### The tally's states (R177) -/

/-- A load begins (Table 6-10). -/
def loadTally (c : Nat) (s : State) : State :=
  if s.crewPresent c && ((s.crew c).state == 1 || (s.crew c).state == 5) then
    s.setCrew c { s.crew c with state := 2, trap := false }
  else s

/-- TLY_LOAD. -/
def execTlyLoad (r : Requester) (c : Nat) (s : State) : Res := .next (if reachesRegs r then loadTally c s else s)

/-- A LOADED program starts in user mode; the heartbeat monitor starts with it (R170). [DEDUCED: log entry 29] -/
def startTally (c : Nat) (s : State) : State :=
  if s.crewPresent c && (s.crew c).state == 3 then
    beat c (s.setCrew c { s.crew c with state := 4, trap := false, cause := 0, wait := .none, user := true })
  else s

/-- TLY_START. [DESIGN CHOICE: log entry 7] -/
def execTlyStart (r : Requester) (c : Nat) (s : State) : Res := .next (if reachesRegs r then startTally c s else s)

/-- A RUNNING program is stopped, and its send table is poisoned (R169). [DEDUCED: log entry 29] -/
def stopTally (c : Nat) (s : State) : State :=
  if s.crewPresent c && (s.crew c).state == 4 then
    poisonStart c (s.setCrew c { s.crew c with state := 5, trap := false, wait := .none, user := false })
  else s

/-- TLY_STOP. -/
def execTlyStop (r : Requester) (c : Nat) (s : State) : Res := .next (if reachesRegs r then stopTally c s else s)

/-- TLY_ECALL. -/
def execTlyEcall (c : Nat) (s : State) : Res :=
  tally c (fun s =>
    s.setCrew c { s.crew c with state := 5, trap := false, user := false, exit := (tget s c 10).toNat % 65536 }) s

/-- TLY_TRAP. -/
def execTlyTrap (c cause : Nat) (tval : Dword) (s : State) : Res := tally c (tallyTrap c cause tval) s

/-! ### Buddy takeover (R179, R180) -/

/-- The absorbed records are delivered to the program. [DEDUCED: log entry 128] -/
def deliverAbsorbed (c : Nat) (s : State) : State :=
  let l := (s.crew c).absorbed
  l.foldl (fun s r => postRec c r s) (s.setCrew c { s.crew c with absorbed := [], takeover := none })

/-- A takeover's event. -/
def logTakeover (c dead outcome : Nat) : State → State :=
  logEvent 0x08 c 0x0804 [(0, 2, c), (2, 1, dead), (3, 1, outcome)]

/-- A takeover is refused: the records are delivered and the send table is poisoned (R179). -/
def refuseTakeover (c dead outcome : Nat) (s : State) : State :=
  logTakeover c dead outcome (poisonStart c (deliverAbsorbed c s))

/-- The interrupted cuts: those of the replay ring whose records were absorbed (R179). -/
def interrupted (x : Crew) (dead : Nat) : List Cut :=
  let ring := if dead = 0 then x.ring0 else x.ring1
  ring.drop (ring.length - (x.absorbed.filter (fun r => r.source == dead)).length)

/-- The lines of a block copied from the dead store to the survivor's; none when one is uncorrectable. -/
def copyLines (c dead b : Nat) : Nat → State → State × Bool
  | 0, s => (s, true)
  | n + 1, s =>
    match copyLines c dead b n s with
    | (s, false) => (s, false)
    | (s, true) =>
      match readLine (.face c dead (1024 * b + 64 * n)) s with
      | (s, none) => (s, false)
      | (s, some bs) => (writeLine (.face c (1 - dead) (0x100000 + 1024 * b + 64 * n)) bs s, true)

/-- The 16 lines of a block copied. -/
@[irreducible] def copyBlock (c dead b : Nat) (s : State) : State × Bool := copyLines c dead b 16 s

/-- Every RESIDENT block of the lower 1 MiB of the dead store copied. -/
def copyBlocks (c dead : Nat) : List Nat → State → State × Bool
  | [], s => (s, true)
  | b :: bs, s =>
    if blockSt s c dead b = 2 then
      match copyBlock c dead b s with
      | (s, false) => (s, false)
      | (s, true) => copyBlocks c dead bs (setBlocks c (1 - dead) [b + 1024] 2 s)
    else copyBlocks c dead bs s

/-- An interrupted cut goes to the survivor under its own role and seq (R179). -/
def pushAgain (c dead : Nat) (k : Cut) (s : State) : State :=
  let x := s.hewer c (1 - dead)
  s.setHewer c (1 - dead) { x with queue := x.queue ++ [{ k with words := raiseCut k.words }] }

/-- A takeover of a hewer's work by its crew-mate is carried out or refused (R179, R180). -/
def takeOver (c dead : Nat) (s : State) : State :=
  let x := s.crew c
  let cuts := interrupted x dead
  if x.state ≠ 4 then deliverAbsorbed c s
  else if x.buddy = true ∨ (s.hewer c (1 - dead)).fenceCause ≠ 0 then
    poisonStart c (deliverAbsorbed c (s.setCrew c { x with state := 5, trap := false, wait := .none, user := false }))
  else if x.buddyEn = false ∨ x.buddyReady = false then refuseTakeover c dead 1 s
  else if (s.dresser c).skq.any (fun p => p.2.st == 2 && p.2.role == dead && cuts.any (fun k => k.seq == p.2.seq))
      || (s.dresser c).popped.any (fun p => p.1 == dead && cuts.any (fun k => k.seq == p.2)) then
    refuseTakeover c dead 2 s
  else
    match copyBlocks c dead (List.range 1024) s with
    | (s, false) => refuseTakeover c dead 3 s
    | (s, true) =>
      let s := cuts.foldl (fun s k => dropTiles c dead k.seq s) s
      let s := cuts.foldl (fun s k => pushAgain c dead k s) s
      let y := ((s.crew c).absorbed.filter (fun r => r.source != dead)).foldl (fun y r => freeCredit r y) (s.crew c)
      logTakeover c dead 0 (s.setCrew c { y with buddy := true, deadRole := dead, takeover := none, absorbed := [] })

/-- BUDDY_TAKEOVER: every record of the dead role's cuts and table loads has come (R127, R179). [DEDUCED: log entry 128] -/
def execBuddyTakeover (c : Nat) (s : State) : Res :=
  .next (match (s.crew c).takeover with
    | some d =>
      if s.crewRuns c = true ∧ (s.hewer c d).issued = [] ∧ (s.hewer c d).loads = [] then takeOver c d s else s
    | none => s)

/-! ### The crew map (R181) -/

/-- A write of STK_CREW_MAP_n: a second valid entry for a physical crew is refused and logged (R181, R498). -/
def crewMapPut (r : Requester) (n : Nat) (v : Word) (s : State) : State :=
  let phys := bits 6 0 v.toNat
  let valid := bit 7 v.toNat
  if valid && (List.range 128).any (fun k => k != n && Tbl.look (0, false) s.crewMap k == (phys, true)) then
    logIgnored 0x0C 0 r (0x03500400 + 4 * n) 4 s
  else { s with crewMap := Tbl.put s.crewMap n (phys, valid) }

/-- CREW_MAP_WRITE. -/
def execCrewMapWrite (r : Requester) (n : Nat) (v : Word) (s : State) : Res :=
  .next (if reachesRegs r = true ∧ n < 128 then crewMapPut r n v s else s)

end Sys2Proof.Machine
end

