-- ==== Sys2Proof/Machine/Vein.lean ====
section
/-! DEFINITION. The vein-index engine (08_sequences_attention.md): sequence slots, pages, the vein table in the bin, epochs
and limbo, and the engine's commands. -/

namespace Sys2Proof.Machine

/-! ### Outcomes of a command's parts -/

/-- A part of a command answers a value, ends the command with a status and the count applied so far, or waits for
limbo. -/
inductive VOut (α : Type) where
  | ok (a : α)
  | bad (st : Status) (count : Nat)
  | wait (count : Nat)
deriving DecidableEq, Repr, Inhabited

/-- One part after another. -/
def vbind {α β : Type} (r : State × VOut α) (f : α → State → State × VOut β) : State × VOut β :=
  match r with
  | (s, .ok a) => f a s
  | (s, .bad st n) => (s, .bad st n)
  | (s, .wait n) => (s, .wait n)

/-- The flags, count and result of a completion record (Table 8-9): flags are hit 1, exists 2, mismatch 4. -/
abbrev VDone := Nat × Nat × Nat

/-! ### Commands at a port (R226, R227, R229) -/

/-- Word `i` of a command. -/
def vw (ws : List Word) (i : Nat) : Nat := (ws.getD i 0).toNat
/-- A DPA in words `i` and `i + 1`. -/
def vdpa (ws : List Word) (i : Nat) : Nat := vw ws i + 2 ^ 32 * vw ws (i + 1)

/-- The bits that an operation uses of words 1 to 7 (Table 8-8). -/
def vMasks : Nat → Option (List Nat)
  | 0x01 => some [0x000F3FFF, 0xFFFFFFFF, 0xFFFF, 0, 0, 0, 0]
  | 0x02 => some [0x3FFF, 0, 0, 0, 0, 0, 0]
  | 0x03 => some [0x3FFF, 0, 0, 0, 0, 0, 0]
  | 0x04 => some [0x3FFF, 0, 0, 0, 0, 0, 0]
  | 0x05 => some [0x3FFF, 0xFFFFFFFF, 0, 0xFFFFFFFF, 0xFFFFFFFF, 0, 0]
  | 0x08 => some [0, 0xFFFFFFFF, 0xFFFFFFFF, 0xFFFFFFFF, 0xFFFF, 0, 0]
  | 0x09 => some [0, 0xFFFFFFFF, 0xFFFFFFFF, 0xFFFFFFFF, 0xFFFF, 0, 0]
  | 0x0A => some [0, 0xFFFFFFFF, 0xFFFFFFFF, 0xFFFFFFFF, 0xFFFF, 0xFFFFFFFF, 0xFFFF]
  | 0x0B => some [0, 0xFFFFFFFF, 0xFFFFFFFF, 0xFFFFFFFF, 0xFFFF, 0, 0]
  | 0x10 => some [0xFFFFFFFF, 1, 0, 0, 0, 0, 0]
  | 0x11 => some [0xFFFFFFFF, 0xFFFFFFFF, 0xFFFF, 0, 0, 0, 0]
  | 0x12 => some [0xFFFFFFFF, 0xFFFFFFFF, 0xFFFF, 0, 0, 0, 0]
  | 0x13 => some [0xFFFFFFFF, 0xFFFFFFFF, 0, 0xFFFFFFFF, 0xFFFF, 0, 0]
  | 0x18 => some [0x1F, 0xFFFFFFFF, 0xFFFFFFFF, 0xFFFFFFFF, 0xFFFF, 0, 0]
  | _ => none

/-- A command names a listed operation and its unused words and fields are zero. -/
def vGood (ws : List Word) : Bool :=
  bits 15 8 (vw ws 0) == 0 && (match vMasks (bits 7 0 (vw ws 0)) with
    | some ms => (List.range 7).all (fun i => Nat.land (vw ws (i + 1)) (ms.getD i 0) == vw ws (i + 1))
    | none => false)

/-- The completion ring has no free entry. [DEDUCED: log entry 49] -/
def ringFull (x : VeinPort) : Bool := (x.tail + 1) % 64 == x.head

/-- A completion record (Table 8-9). -/
def vRecord (ws : List Word) (st : Status) (r : VDone) : List Byte :=
  leBytes 2 (bits 31 16 (vw ws 0)) ++ leBytes 1 (st.code + 16 * r.1) ++ leBytes 1 (bits 7 0 (vw ws 0)) ++ leBytes 4 r.2.1
    ++ leBytes 8 r.2.2

/-- The head command completes: its record enters the port's ring, and the runtime writes the record of the host request it
came from (R229, R356). [DEDUCED: log entry 56] -/
def veinDone (p : Nat) (st : Status) (r : VDone) (s : State) : State :=
  let x := s.vport p
  match x.queue with
  | [] => s
  | (ws, req) :: rest =>
    let s := s.setVport p { x with queue := rest, waitFrom := none, applied := 0, drops := [], result := none }
    let s := postWrite (.vein p) (x.cplBase + 16 * x.tail) (vRecord ws st r) s
    completeOpt req st 0 (vRecord ws st r) (s.setVport p { s.vport p with tail := (x.tail + 1) % 64 })

/-- The head command waits for limbo with some of its pages applied (R232). -/
def veinWait (p count : Nat) (s : State) : State :=
  let x := s.vport p
  s.setVport p { x with applied := count, waitFrom := some (x.waitFrom.getD s.now) }



/-- A command enters a port's queue, or is dropped (R226). [DEDUCED: log entry 49] -/
def veinEnqueue (p : Nat) (ws : List Word) (req : Option Nat) (s : State) : State :=
  let x := s.vport p
  if 32 ≤ x.queue.length ∨ ringFull x = true then s.setVport p { x with dropped := true }
  else s.setVport p { x with queue := x.queue ++ [(ws, req)] }

/-- The requester a port belongs to (R226). -/
def veinOwner (p : Nat) (r : Requester) : Bool := if p < 8 then r == .overseer p else r == .foreman

/-- A write of VEIN_CMD_i (R226, R498). -/
def veinWord (r : Requester) (p i : Nat) (v : Word) (s : State) : State :=
  if !veinOwner p r then logIgnored 0x0E p r (0x03701000 + 0x100 * p + 4 * i) 1 s
  else
    let x := s.vport p
    let st := Tbl.put x.staged i v
    let s := s.setVport p { x with staged := st }
    if i = 7 then veinEnqueue p ((List.range 8).map (fun k => Tbl.look 0 st k)) none s else s

/-- A write of a slot: the engine's record in the bin follows (Table 8-1, R211). [DESIGN CHOICE: log entry 142] -/
def putSlot (n : Nat) (x : SeqSlot) (s : State) : State :=
  let bs := leBytes 1 x.st ++ leBytes 1 x.fn ++ [0, 0] ++ leBytes 4 x.length ++ leBytes 8 x.map ++ leBytes 8 x.tail.toNat
    ++ leBytes 8 x.pin
  (s.setSlot n x).poke (.bin (Config.slotRecords % (0x40000000 - 0x80000) + 32 * n)) bs

/-- Bytes read by the engine. -/
def vRead (p a n : Nat) (s : State) : State × VOut (List Byte) :=
  match readPieces (.vein p) (pieces a n) s with
  | (s, bs, .ok) => (s, .ok bs)
  | (s, _, st) => (s, .bad st 0)

/-- Bytes written by the engine. -/
def vWrite (p a : Nat) (bs : List Byte) (s : State) : State × VOut Unit :=
  match writePieces (.vein p) (pieces a bs.length) bs s with
  | (s, .ok) => (s, .ok ())
  | (s, st) => (s, .bad st 0)

/-! ### Page headers, limbo and epochs (R214 to R216, R228, R230 to R232) -/

/-- The page ID that names no page (R215). -/
def noPage : Nat := 0xFFFFFFFF

/-- The seam, block and frame of a page ID (Table 8-4). -/
def pageSeam (id : Nat) : Nat := bits 9 0 id
def pageBlk (id : Nat) : Nat := bits 12 10 id
def pageFrame (id : Nat) : Nat := bits 24 13 id

/-- A page ID is invalid (R215); the seam it names must be one the part has. -/
def pageBad (s : State) (id : Nat) : Bool :=
  bits 31 25 id != 0 || decide (3967 < pageFrame id) || !bit (pageBlk id) s.chr.kvPool || !s.seamPresent (pageSeam id)

/-- The seam-linear address of a page (R215). -/
def pageAddr (id : Nat) : Nat :=
  0x6000000000 + pageSeam id * 0x20000000 + pageBlk id * 0x4000000 + pageFrame id * 0x4000

/-- A reference added to a page; one that is dying leaves limbo (R228). -/
def pageRef (id : Nat) (s : State) : State × VOut Unit :=
  if id = noPage then (s, .ok ())
  else if pageBad s id then (s, .bad .badDescriptor 0)
  else
    let h := s.page id
    if 65535 ≤ h.count then (s, .bad .denied 0)
    else
      ({ (s.setPage id { count := h.count + 1, dying := false }) with
          vein := { s.vein with limbo := s.vein.limbo.filter (fun e => e.1 != id) } }, .ok ())

/-- A reference dropped; at zero the page enters limbo, stamped, and the epoch advances; it waits while limbo is full
(R228, R230, R232). -/
def pageUnref (id : Nat) (s : State) : State × VOut Unit :=
  if id = noPage then (s, .ok ())
  else if pageBad s id then (s, .bad .badDescriptor 0)
  else
    let h := s.page id
    if h.count = 0 then (s, .bad .denied 0)
    else if h.count = 1 then
      if 65536 ≤ s.vein.limbo.length then (s, .wait 0)
      else
        ({ (s.setPage id { count := 0, dying := true }) with
            vein := { s.vein with limbo := s.vein.limbo ++ [(id, s.vein.epoch)], epoch := (s.vein.epoch + 1) % 2 ^ 64 } }, .ok ())
    else (s.setPage id { h with count := h.count - 1 }, .ok ())

/-- A list of pages in order, until one fails or waits; `n` pages are applied before it (R228). -/
def pageList (f : Nat → State → State × VOut Unit) : List Nat → Nat → State → State × VOut Nat
  | [], n, s => (s, .ok n)
  | id :: rest, n, s =>
    match f id s with
    | (s, .ok _) => pageList f rest (n + 1) s
    | (s, .bad st _) => (s, .bad st n)
    | (s, .wait _) => (s, .wait n)

/-- The 4-byte IDs of a byte list. -/
def pageIds (bs : List Byte) : List Nat := (wordsOf bs).map (·.toNat)

/-- References dropped from the pages of a list in order, until one finds limbo full: the pages left (R232); a page that cannot
lose one is passed over. -/
def dropRefs : List Nat → State → State × List Nat
  | [], s => (s, [])
  | id :: rest, s =>
    match pageUnref id s with
    | (s, .ok _) => dropRefs rest s
    | (s, .bad _ _) => dropRefs rest s
    | (s, .wait _) => (s, id :: rest)

/-- The head command is done but for the references it drops: it completes with its result, or waits for limbo (R224, R232). -/
def veinDrop (p : Nat) (ids : List Nat) (r : VDone) (s : State) : State :=
  let d := dropRefs ids s
  if d.2 = [] then veinDone p .ok r d.1
  else
    let x := d.1.vport p
    d.1.setVport p { x with drops := d.2, result := some r, waitFrom := some (x.waitFrom.getD s.now) }

/-- The engine performs the command at the head of a port: its words are those the table's row carries, the ring has
room, and the stack is not STOPPED (R227, R433). A word of no listed operation, or with an unused field set, completes
with BAD_DESCRIPTOR. `f` answers the result and the pages that lose a reference. [DEDUCED: log entry 49] -/
def veinRun (p op : Nat) (cmd : List Word) (f : List Word → Nat → State → State × VOut (VDone × List Nat)) (s : State) : State :=
  let x := s.vport p
  match x.queue with
  | [] => s
  | (ws, _) :: _ =>
    let o := bits 7 0 (vw ws 0)
    if p < 9 ∧ ws = cmd ∧ (o = op ∨ vMasks o = none) ∧ ringFull x = false ∧ s.thm.stopped = false then
      if !vGood ws then veinDone p .badDescriptor (0, 0, 0) s
      else
        match x.result with
        | some r => veinDrop p x.drops r s
        | none =>
          match f ws x.applied s with
          | (s, .ok r) => veinDrop p r.2 r.1 s
          | (s, .bad st n) => veinDone p st (0, n, 0) s
          | (s, .wait n) => veinWait p n s
    else s

/-- A command that also drops references. -/
def veinStepD (p op : Nat) (cmd : List Word) (f : List Word → Nat → State → State × VOut (VDone × List Nat)) (s : State) : Res :=
  .next (unlessHeld (veinRun p op cmd f) s)

/-- A command that drops no reference at its end. -/
def veinStep (p op : Nat) (cmd : List Word) (f : List Word → Nat → State → State × VOut VDone) (s : State) : Res :=
  veinStepD p op cmd (fun ws n s => vbind (f ws n s) (fun r s => (s, .ok (r, [])))) s

/-- The lowest pinned epoch (Table 8-16). -/
def minPin (s : State) : Nat :=
  ((s.slots.filter (fun p => p.2.pin != 0)).foldl (fun acc p => if acc = 0 then p.2.pin else min acc p.2.pin) 0)

/-- LIMBO_RECLAIM: an entry leaves limbo once every pin is above its stamp, and its page is FREE (R232). -/
def execLimboReclaim (i : Nat) (s : State) : Res :=
  .next (
    match s.vein.limbo[i]? with
    | some (id, e) =>
      if s.slots.all (fun p => p.2.pin == 0 || decide (e < p.2.pin)) then
        { (s.setPage id { s.page id with dying := false }) with vein := { s.vein with limbo := listDel s.vein.limbo i } }
      else s
    | none => s)

/-- LIMBO_FULL_TIMEOUT: a command that has waited 10 ms for limbo completes with TIMEOUT (R232). -/
def execLimboFullTimeout (p : Nat) (s : State) : Res :=
  .next (
    let x := s.vport p
    match x.waitFrom with
    | some t =>
      if 65536 ≤ s.vein.limbo.length ∧ t + 10000000 ≤ s.now then veinDone p .timeout (0, x.applied, 0) s else s
    | none => s)

/-! ### Slots (R211, R212, R230, R231) -/

/-- The slot a command names. -/
def vSlot (ws : List Word) : Nat := bits 13 0 (vw ws 1)

/-- SLOT_OPEN: the tail starts as the map's root (Table 8-1). [DEDUCED: log entry 50] -/
def execSlotOpen (p : Nat) (cmd : List Word) (s : State) : Res :=
  veinStep p 0x01 cmd (fun ws _ s =>
    if vdpa ws 2 % 64 ≠ 0 then (s, .bad .badDescriptor 0)
    else if (s.slot (vSlot ws)).st ≠ 0 then (s, .bad .denied 0)
    else
      vbind (vRead p (vdpa ws 2) 8 s) (fun bs s =>
        (putSlot (vSlot ws) { st := 1, fn := bits 19 16 (vw ws 1), length := 0, map := vdpa ws 2,
                                tail := BitVec.ofNat 64 (leNat bs), pin := 0 } s, .ok (0, 0, 0)))) s

/-- The page IDs of a map, entry by entry, without the entries that name no page (R217). -/
def mapIds (p map : Nat) (s : State) : State × VOut (List Nat) :=
  vbind (vRead p map 16 s) (fun h s =>
    vbind (vRead p (map + 0x40) (4 * (leAt h 8 2 * leAt h 12 4)) s) (fun bs s =>
      (s, .ok ((pageIds bs).filter (· != noPage)))))

/-- SLOT_CLOSE: the pin is cleared and every page of the map loses a reference; then the slot is FREE (R212).
[DEDUCED: log entry 50] -/
def execSlotClose (p : Nat) (cmd : List Word) (s : State) : Res :=
  veinStep p 0x02 cmd (fun ws done s =>
    let n := vSlot ws
    let x := s.slot n
    if x.st ≠ 1 ∧ ¬(x.st = 2 ∧ (s.vport p).waitFrom.isSome = true) then (s, .bad .denied 0)
    else
      let s := putSlot n { x with st := 2, pin := 0 } s
      vbind (mapIds p x.map s) (fun ids s =>
        vbind (pageList pageUnref (ids.drop done) done s) (fun k s =>
          (putSlot n { s.slot n with st := 0 } s, .ok (0, k, 0))))) s

/-- A command on an OPEN slot. -/
def onOpen (ws : List Word) (f : SeqSlot → State → State × VOut VDone) (s : State) : State × VOut VDone :=
  if (s.slot (vSlot ws)).st = 1 then f (s.slot (vSlot ws)) s else (s, .bad .denied 0)

/-- PIN (R230). -/
def execVeinPin (p : Nat) (cmd : List Word) (s : State) : Res :=
  veinStep p 0x03 cmd (fun ws _ s =>
    onOpen ws (fun x s => (putSlot (vSlot ws) { x with pin := s.vein.epoch } s, .ok (0, 0, s.vein.epoch))) s) s

/-- UNPIN (R231). -/
def execVeinUnpin (p : Nat) (cmd : List Word) (s : State) : Res :=
  veinStep p 0x04 cmd (fun ws _ s =>
    onOpen ws (fun x s => (putSlot (vSlot ws) { x with pin := 0 } s, .ok (0, 0, 0))) s) s

/-- SLOT_TAIL. [DEDUCED: log entry 50] -/
def execSlotTail (p : Nat) (cmd : List Word) (s : State) : Res :=
  veinStep p 0x05 cmd (fun ws _ s =>
    onOpen ws (fun x s =>
      (putSlot (vSlot ws) { x with length := vw ws 2, tail := BitVec.ofNat 64 (vdpa ws 4) } s, .ok (0, 0, 0))) s) s

/-! ### Hashes and the table (R220 to R225) -/

/-- The CRC-64/ECMA-182 of bytes (R220). -/
def crc64 (bs : List Byte) : Nat := bs.foldl (crcByte 64 0x42F0E1EBA9EA3693) 0

/-- The hash of a block: its parent's hash and its token IDs (R220). -/
def blockHash (parent : Nat) (toks : List Byte) : Nat := crc64 (leBytes 8 parent ++ toks)

/-- A vein table entry (Table 8-6). -/
structure VeinEnt where
  hash : Nat
  record : Nat
  valid : Bool
  hit : Nat
deriving DecidableEq, Repr, Inhabited

/-- The entry of a way in a bucket's bytes. -/
def entOf (bs : List Byte) (w : Nat) : VeinEnt :=
  { hash := leAt bs (32 * w) 8, record := leAt bs (32 * w + 8) 6, valid := bit 0 (leAt bs (32 * w + 14) 1)
    hit := leAt bs (32 * w + 16) 8 }

/-- The bytes of an entry. -/
def entBytes (e : VeinEnt) : List Byte :=
  leBytes 8 e.hash ++ leBytes 6 e.record ++ leBytes 2 (b2n e.valid) ++ leBytes 8 e.hit ++ List.replicate 8 0

/-- A table: DPA, size and seed. -/
structure VTable where
  base : Nat
  log2 : Nat
  seed : Nat
deriving DecidableEq, Repr, Inhabited

/-- The live (or old) table. -/
def oldTable (s : State) : VTable := ⟨s.vein.table, s.vein.log2, s.vein.seed.toNat⟩
/-- The new table of a migration. -/
def newTable (s : State) : VTable := ⟨s.vein.newTable, s.vein.newLog2, s.vein.newSeed.toNat⟩
/-- The tables in the order lookups probe them (R225). -/
def vTables (s : State) : List VTable := if s.vein.migrating then [newTable s, oldTable s] else [oldTable s]

/-- The DPA of the bucket of a hash (R222). -/
def bucketDpa (t : VTable) (h : Nat) : Nat := t.base + 256 * ((h.xor t.seed) % 2 ^ (t.log2 - 3))

/-- The ways of a bucket that hold the hash, until one's record has the same tokens; unequal tokens count as a collision
(R223). -/
def scanWays (p base h : Nat) (toks bs : List Byte) : List Nat → State → State × VOut (Option (Nat × VeinEnt))
  | [], s => (s, .ok none)
  | w :: ws, s =>
    let e := entOf bs w
    if e.valid && e.hash == h then
      vbind (vRead p e.record 256 s) (fun t s =>
        if t = toks then (s, .ok (some (base + 32 * w, e)))
        else scanWays p base h toks bs ws { s with vein := { s.vein with collide := satInc 0xFFFF s.vein.collide } })
    else scanWays p base h toks bs ws s

/-- The entry of an equal block in a table: the DPA of the entry and the entry. -/
def findIn (p : Nat) (t : VTable) (h : Nat) (toks : List Byte) (s : State) : State × VOut (Option (Nat × VeinEnt)) :=
  vbind (vRead p (bucketDpa t h) 256 s) (fun bs s => scanWays p (bucketDpa t h) h toks bs (List.range 8) s)

/-- The entry of an equal block in the first of the tables that holds one. -/
def findAny (p : Nat) (h : Nat) (toks : List Byte) : List VTable → State → State × VOut (Option (Nat × VeinEnt))
  | [], s => (s, .ok none)
  | t :: ts, s =>
    vbind (findIn p t h toks s) (fun r s => match r with
      | some e => (s, .ok (some e))
      | none => findAny p h toks ts s)

/-- The check unit that hashes a message: the lowest-numbered reserved one that is not fenced (R221).
[DESIGN CHOICE: log entry 143] -/
def hashUnit (s : State) : Option Nat := (List.range s.chr.veinChk).find? (fun u => !(s.chk u).fenced)

/-- A message of 264 bytes has gone through a reserved unit, which holds its CRC-64 (R221, R384). [DESIGN CHOICE: log entry 143] -/
def hashTake (u hash : Nat) (s : State) : State :=
  s.setChk u { s.chk u with poly := 2, val := BitVec.ofNat 64 hash, cnt := 264 }

/-- An operation on a block: its tokens are read and hashed in a reserved check unit; token DPAs are 64-byte aligned. -/
def withBlock {α : Type} (p : Nat) (ws : List Word) (f : Nat → List Byte → State → State × VOut α) (s : State) : State × VOut α :=
  if vdpa ws 4 % 64 ≠ 0 then (s, .bad .badDescriptor 0)
  else
    match hashUnit s with
    | none => (s, .bad .unitDead 0)
    | some u =>
      vbind (vRead p (vdpa ws 4) 256 s) (fun t s =>
        let h := blockHash (vdpa ws 2) t
        f h t (hashTake u h s))

/-- HASH. -/
def execVeinHash (p : Nat) (cmd : List Word) (s : State) : Res :=
  veinStep p 0x08 cmd (fun ws _ s => withBlock p ws (fun h _ s => (s, .ok (0, 0, h))) s) s

/-- LOOKUP: a hit stamps its entry with TCLK (R223, Table 8-6). -/
def execVeinLookup (p : Nat) (cmd : List Word) (s : State) : Res :=
  veinStep p 0x09 cmd (fun ws _ s =>
    withBlock p ws (fun h t s =>
      vbind (findAny p h t (vTables s) s) (fun r s => match r with
        | some (a, e) =>
          vbind (vWrite p a (entBytes { e with hit := s.tclk.toNat }) s) (fun _ s => (s, .ok (1, 0, e.record)))
        | none => (s, .ok (0, 0, 0)))) s) s

/-- The pages of a block record (Table 8-7). -/
def recordPages (p a : Nat) (s : State) : State × VOut (List Nat) :=
  vbind (vRead p (a + 0x100) 2 s) (fun h s =>
    if 4096 < leNat h then (s, .bad .badDescriptor 0)
    else vbind (vRead p (a + 0x110) (4 * leNat h) s) (fun bs s => (s, .ok (pageIds bs))))

/-- The way of a bucket that a new entry takes: a free one, or that of the valid entry with the oldest hit (R224). -/
def victim (bs : List Byte) : Nat × Bool :=
  match (List.range 8).find? (fun w => !(entOf bs w).valid) with
  | some w => (w, false)
  | none => ((List.range 8).foldl (fun b w => if (entOf bs w).hit < (entOf bs b).hit then w else b) 0, true)

/-- An entry put in a table; an old bucket keeps its entries until a migration ends (R225). Answers the pages of the entry it
displaced, which lose a reference each (R224). -/
def putEntry (p : Nat) (t : VTable) (e : VeinEnt) (s : State) : State × VOut (Option (List Nat)) :=
  vbind (vRead p (bucketDpa t e.hash) 256 s) (fun bs s =>
    let v := victim bs
    let a := bucketDpa t e.hash + 32 * v.1
    if v.2 then
      vbind (recordPages p (entOf bs v.1).record s) (fun ids s =>
        vbind (vWrite p a (entBytes e) s) (fun _ s => (s, .ok (some ids))))
    else vbind (vWrite p a (entBytes e) s) (fun _ s => (s, .ok none)))

/-- INSERT (R224): the record's pages gain a reference each; an equal block changes nothing. [DEDUCED: log entry 51] -/
def execVeinInsert (p : Nat) (cmd : List Word) (s : State) : Res :=
  veinStepD p 0x0A cmd (fun ws _ s0 =>
    if vdpa ws 6 % 64 ≠ 0 then (s0, .bad .badDescriptor 0)
    else
      withBlock p ws (fun h t s =>
        vbind (findAny p h t (vTables s) s) (fun r s => match r with
          | some _ => (s, .ok ((2, 0, h), []))
          | none =>
            vbind (recordPages p (vdpa ws 6) s) (fun ids s =>
              match pageList pageRef ids 0 s with
              | (_, .bad st _) => (s, .bad st 0)
              | (_, .wait _) => (s, .wait 0)
              | (s1, .ok _) =>
                let tab := if s.vein.migrating then newTable s else oldTable s
                match putEntry p tab { hash := h, record := vdpa ws 6, valid := true, hit := s.tclk.toNat } s1 with
                | (s2, .wait _) => (s2, .wait 0)
                | (_, .bad st _) => (s, .bad st 0)
                | (s2, .ok none) => (s2, .ok ((0, 0, h), []))
                | (s2, .ok (some old)) =>
                  ({ s2 with vein := { s2.vein with evict := satInc 0xFFFF s2.vein.evict } }, .ok ((0, 0, h), old))))) s0) s

/-- The entries of an equal block in every table, each table read once. -/
def findAll (p : Nat) (h : Nat) (toks : List Byte) : List VTable → State → State × VOut (List (Nat × VeinEnt))
  | [], s => (s, .ok [])
  | t :: ts, s =>
    vbind (findIn p t h toks s) (fun r s =>
      vbind (findAll p h toks ts s) (fun rest s => (s, .ok (r.toList ++ rest))))

/-- Entries cleared (Table 8-6). -/
def clearEntries (p : Nat) : List (Nat × VeinEnt) → State → State × VOut Unit
  | [], s => (s, .ok ())
  | (a, e) :: rest, s => vbind (vWrite p a (entBytes { e with valid := false }) s) (fun _ s => clearEntries p rest s)

/-- REMOVE: the entry is cleared from both tables, and its pages lose a reference each (R224, R225). -/
def execVeinRemove (p : Nat) (cmd : List Word) (s : State) : Res :=
  veinStepD p 0x0B cmd (fun ws _ s =>
    withBlock p ws (fun h t s =>
      vbind (findAll p h t (vTables s) s) (fun hits s => match hits with
        | [] => (s, .ok ((0, 0, 0), []))
        | (_, e) :: _ =>
          vbind (recordPages p e.record s) (fun ids s =>
            vbind (clearEntries p hits s) (fun _ s => (s, .ok ((1, 0, 0), ids)))))) s) s

/-! ### Pages (R215, R216, R227, R228, R230) -/

/-- A page frame is FREE (R216). -/
def pageFree (s : State) (id : Nat) : Bool := let h := s.page id; h.count == 0 && !h.dying

/-- The page IDs of a seam's pool. -/
def seamPages (s : State) (n : Nat) : List Nat :=
  ((List.range 8).filter (fun j => bit j s.chr.kvPool)).flatMap (fun j =>
    (List.range 3968).map (fun f => n + 1024 * j + 8192 * f))

/-- PAGE_ALLOC: the exact frame, or any free frame of the seam, which of them being left open (Table 8-8).
[DEDUCED: log entry 51] -/
def execPageAlloc (p : Nat) (cmd : List Word) (s : State) : Res :=
  veinStep p 0x10 cmd (fun ws _ s =>
    let id := vw ws 1
    if bit 0 (vw ws 2) then
      if bits 31 25 id ≠ 0 then (s, .bad .badDescriptor 0)
      else
        let free := if s.seamPresent (pageSeam id) then (seamPages s (pageSeam id)).filter (pageFree s) else []
        if free = [] then (s, .bad .denied 0)
        else
          let d := s.fresh
          let q := free.getD (d.1 % free.length) 0
          (d.2.setPage q { count := 1, dying := false }, .ok (0, 1, q))
    else if pageBad s id then (s, .bad .badDescriptor 0)
    else if pageFree s id then (s.setPage id { count := 1, dying := false }, .ok (0, 1, id))
    else (s, .bad .denied 0)) s

/-- The page IDs of a list operand, 1 to 4,096 of them. -/
def listOperand (p : Nat) (ws : List Word) (s : State) : State × VOut (List Nat) :=
  if vw ws 1 = 0 ∨ 4096 < vw ws 1 then (s, .bad .badDescriptor 0)
  else vbind (vRead p (vdpa ws 2) (4 * vw ws 1) s) (fun bs s => (s, .ok (pageIds bs)))

/-- PAGE_REF (R228). [DEDUCED: log entry 51] -/
def execPageRef (p : Nat) (cmd : List Word) (s : State) : Res :=
  veinStep p 0x11 cmd (fun ws done s =>
    vbind (listOperand p ws s) (fun ids s =>
      vbind (pageList pageRef (ids.drop done) done s) (fun k s => (s, .ok (0, k, 0))))) s

/-- PAGE_UNREF (R228, R232). -/
def execPageUnref (p : Nat) (cmd : List Word) (s : State) : Res :=
  veinStep p 0x12 cmd (fun ws done s =>
    vbind (listOperand p ws s) (fun ids s =>
      vbind (pageList pageUnref (ids.drop done) done s) (fun k s => (s, .ok (0, k, 0))))) s

/-- MAP_SWAP: the entry takes the new ID and the old page loses a reference only while the entry holds the old ID. -/
def execMapSwap (p : Nat) (cmd : List Word) (s : State) : Res :=
  veinStep p 0x13 cmd (fun ws _ s0 =>
    let old := vw ws 1
    let new := vw ws 2
    let badId := fun i => i != noPage && pageBad s0 i
    if vdpa ws 4 % 4 ≠ 0 ∨ badId old = true ∨ badId new = true then (s0, .bad .badDescriptor 0)
    else
      vbind (vRead p (vdpa ws 4) 4 s0) (fun bs s =>
        if leNat bs ≠ old then (s, .ok (4, 0, 0))
        else
          match pageUnref old s with
          | (_, .bad st n) => (s, .bad st n)
          | (_, .wait _) => (s, .wait 0)
          | (s1, .ok _) =>
            match vWrite p (vdpa ws 4) (leBytes 4 new) s1 with
            | (s2, .ok _) => (s2, .ok (0, 0, 0))
            | (_, .bad st n) => (s, .bad st n)
            | (_, .wait n) => (s, .wait n))) s

/-! ### Migration (R225) -/

/-- A table range meets R222: a size of 2^18 to 2^21 entries, aligned to itself, within a private bin range. -/
def tableGoodAt (s : State) (log2 a : Nat) : Bool :=
  decide (18 ≤ log2) && decide (log2 ≤ 21) && a % (32 * 2 ^ log2) == 0
    && s.chr.binPriv.any (fun r => decide (r.2.1 ≤ a) && decide (a + 32 * 2 ^ log2 ≤ r.2.1 + r.2.2))

/-- MIGRATE (R225). -/
def execVeinMigrate (p : Nat) (cmd : List Word) (s : State) : Res :=
  veinStep p 0x18 cmd (fun ws _ s =>
    if !tableGoodAt s (vw ws 1) (vdpa ws 4) then (s, .bad .badDescriptor 0)
    else if s.vein.migrating then (s, .bad .denied 0)
    else
      ({ s with vein := { s.vein with
          migrating := true, pointer := 0, newLog2 := vw ws 1, newSeed := BitVec.ofNat 64 (vdpa ws 2)
          newTable := vdpa ws 4 } }, .ok (0, 0, 0))) s

/-- The valid entries of an old bucket put in the new table; none while one has to wait for limbo. [DEDUCED: log entry 52] -/
def moveWays (t : VTable) (bs : List Byte) : List Nat → State → Option State
  | [], s => some s
  | w :: ws, s =>
    let e := entOf bs w
    if e.valid then
      match putEntry 8 t e s with
      | (s, .ok (some ids)) =>
        let d := dropRefs ids s
        if d.2 = [] then moveWays t bs ws d.1 else none
      | (s, _) => moveWays t bs ws s
    else moveWays t bs ws s

/-- The migration has passed a bucket; past the last one the new table alone is live (R225). [DEDUCED: log entry 52] -/
def migrateOn (s : State) : State :=
  let v := s.vein
  if 2 ^ (v.log2 - 3) ≤ v.pointer + 1 then
    { s with vein := { v with migrating := false, pointer := 0, log2 := v.newLog2, seed := v.newSeed, table := v.newTable } }
  else { s with vein := { v with pointer := v.pointer + 1 } }

/-- MIGRATE_BUCKET. [DEDUCED: log entry 52] -/
def execMigrateBucket (s : State) : Res :=
  .next (
    if s.vein.migrating && !s.thm.stopped then
      unlessHeld (fun s =>
        match vRead 8 (s.vein.table + 256 * s.vein.pointer) 256 s with
        | (s, .ok bs) => (match moveWays (newTable s) bs (List.range 8) s with | some s => migrateOn s | none => s)
        | (s, _) => migrateOn s) s
    else s)

end Sys2Proof.Machine
end

