-- ==== Sys2Proof/Machine/Host.lean ====
section
/-! DEFINITION. The host interface (12_host_interface.md): BAR2, functions and their resets, the slot table and its pickup, the
requests, the completion rings and the DOE mailbox. -/

namespace Sys2Proof.Machine

/-! ### Accesses through BAR2 (R342 to R346) -/

/-- BAR2_READ. -/
def execBar2Read (fn off len : Nat) (s : State) : Res := .next (if s.fnExists fn then bar2Get fn off len s else s)

/-- BAR2_WRITE. -/
def execBar2Write (fn off : Nat) (data : List Byte) (poisoned relaxed : Bool) (s : State) : Res :=
  .next (if s.fnExists fn then bar2Put fn off data poisoned relaxed s else s)

/-- ATOMICOP_REQUEST: no AtomicOp is supported (R340). -/
def execAtomicopRequest (fn _addr : Nat) (s : State) : Res := .next (if s.fnExists fn then s.emit (.cplUR fn) else s)

/-! ### The link and resets (R336, R338, R363, R364) -/

/-- PERST_DEASSERT. -/
def execPerstDeassert (s : State) : Res := .next { s with hif := { s.hif with perst := false } }

/-- A rate, width and mode the port trains at (R336). -/
def linkMode (speed width : Nat) (flit : Bool) : Bool :=
  (speed == 3 || speed == 4 || speed == 5 || speed == 6) && (width == 4 || width == 8 || width == 16)
    && (speed != 6 || flit)

/-- PCIE_LINK_UP. -/
def execPcieLinkUp (speed width : Nat) (flitMode : Bool) (s : State) : Res :=
  .next (
    if s.hif.training = true ∧ s.hif.perst = false ∧ s.clk.pclkLost = false ∧ linkMode speed width flitMode = true then
      { s with hif := { s.hif with up := true, speed := speed, width := width, flit := flitMode } }
    else s)

/-- A function's block after a reset of the partition (R366). -/
def fnReset (f : Nat) : Fn := if f = 0 then { slotCount := 64, seqCount := 256, ops := 0x3F } else {}

/-- Requests handed to a unit run on without a record; the rest end inside the stack (R338, R363). -/
def dropReqs (p : HostReq → Bool) (s : State) : State :=
  { s with hif := { s.hif with
      reqs := (s.hif.reqs.filter (fun r => !p r || (r.stage != 0 && leAt r.bytes 1 1 != 0x01))).map
        (fun r => if p r then { r with dead := true } else r) } }

/-- A reset of the PCIe partition (R338): configuration space, HIF registers, slot table and bitmap at their reset values;
every other block runs on. -/
def pcieReset (down perst : Bool) (s : State) : State :=
  let s := dropReqs (fun _ => true) s
  let h := s.hif
  let h0 : Hif := {
    speed := if down then 0 else h.speed, width := if down then 0 else h.width, flit := !down && h.flit
    up := !down && h.up, resets := satInc 15 h.resets, perst := perst || h.perst, training := h.training
    bar2Log2 := s.chr.bar2Log2, apt := aptReset s, pickup := h.pickup, reqs := h.reqs, nextReq := h.nextReq }
  { s with
    hif := h0
    fns := [(0, fnReset 0)]
    slotMem := []
    heldReqs := s.heldReqs.filter (fun q => match q.2 with | .read _ _ _ => false | _ => true) }

/-- PCIE_PARTITION_RESET. -/
def execPciePartitionReset (cause : PcieReset) (s : State) : Res :=
  .next (match cause with
    | .perst => pcieReset true true s
    | .hotReset => pcieReset true false s
    | .linkDown => pcieReset true false s
    | .pclkLoss => pcieReset true false { s with clk := { s.clk with pclkLost := true } }
    | .pfFlr => pcieReset false false s)

/-- PCLK_RETURN: the link may train again (R338). -/
def execPclkReturn (s : State) : Res := .next { s with clk := { s.clk with pclkLost := false } }

/-- The slots of a function: first and count (R366). -/
def fnSlots (x : Fn) : Nat × Nat := (64 * x.slotBase, 64 * x.slotCount)

/-- A slot of a function. -/
def ownsSlot (x : Fn) (k : Nat) : Bool := decide ((fnSlots x).1 ≤ k) && decide (k < (fnSlots x).1 + (fnSlots x).2)

/-- The function that owns a slot. -/
def slotOwner (s : State) (k : Nat) : Option Nat := (List.range 16).find? (fun f => ownsSlot (s.fn f) k)

/-- A slot's go bit cleared, in its line under the line code. -/
def clearGo (k : Nat) (s : State) : State :=
  (localWrite .slots (128 * k) [s.slotMem.get (128 * k) &&& 0xFE#8] s).1

/-- A reset of virtual function `f` (R363). [DEDUCED: log entry 80; DESIGN CHOICE: log entry 83] -/
def vfReset (f : Nat) (s : State) : State :=
  let x := s.fn f
  let mine := s.hif.marked.filter (ownsSlot x)
  let s := ((List.range (fnSlots x).2).map (· + (fnSlots x).1)).foldl (fun s k => clearGo k s) s
  let s := { s with hif := { s.hif with marked := s.hif.marked.filter (fun k => !mine.contains k) } }
  let s := dropReqs (fun r => r.fn == f) s
  let s := { s with heldReqs := s.heldReqs.filter (fun q => match q.2 with | .read g _ _ => g != f | _ => true) }
  s.setFn f { slotBase := x.slotBase, slotCount := x.slotCount, seqBase := x.seqBase, seqCount := x.seqCount, ops := x.ops
              vapt := x.vapt }

/-- VF_FLR. [DEDUCED: log entry 80] -/
def execVfFlr (f : Nat) (s : State) : Res := .next (if f ≠ 0 ∧ s.fnExists f = true then vfReset f s else s)

/-- VF_ENABLE_WRITE: clearing VF Enable removes every virtual function (R340, R363). [DEDUCED: log entry 80] -/
def execVfEnableWrite (numVfs : Nat) (en : Bool) (s : State) : Res :=
  .next (
    let s1 := if s.hif.vfEn && !en then
        ((List.range 16).drop 1).foldl (fun s f => if s.fnExists f then vfReset f s else s) s
      else s
    { s1 with hif := { s1.hif with vfEn := en, numVfs := if s.hif.vfEn && en then s.hif.numVfs else min 15 numVfs } })

/-- What a function held while bus mastering was off goes out: records in order, then messages (R364). -/
def releaseFn (f : Nat) (s : State) : State :=
  let x := s.fn f
  let s := s.setFn f { x with heldRecs := [], heldMsix := [] }
  let s := x.heldRecs.foldl (fun s rec => cqWrite f rec s) s
  x.heldMsix.foldl (fun s v => msix f v s) s

/-! ### Configuration space (R339, R340, R347, R356, R360) -/

/-- A function carries the capability of row `i` of Table 12-2. -/
def hasCap (f i : Nat) : Bool := decide (i < 11) && (f == 0 || i < 4 || i == 8)

/-- A field of the physical function alone. -/
def pfOnly (f n v : Nat) : List Byte := if f = 0 then leBytes n v else leBytes n 0

/-- The bytes a read of a function's configuration space returns (R339, R340, R347). [PRESUMED: log entry 83] -/
def cfgGet (f : Nat) (s : State) : CfgReg → List Byte
  | .vendorId => leBytes 2 Config.vendorId.toNat
  | .deviceId => leBytes 2 (if f = 0 then 0x4B18 else 0x4B19)
  | .revisionId => leBytes 1 s.fuses.revision
  | .classCode => leBytes 3 0x120000
  | .headerType => leBytes 1 0
  | .subsysVendorId => leBytes 2 s.chr.subsys.1
  | .subsysId => leBytes 2 s.chr.subsys.2
  | .serialNumber => pfOnly f 8 s.fuses.serial.toNat
  | .capability i => leBytes 1 (b2n (hasCap f i))
  | .maxPayload => leBytes 2 s.hif.mps
  | .maxReadRequest => leBytes 2 s.hif.mrrs
  | .completionTimeout => leBytes 8 s.hif.cplTimeout
  | .tag10 => leBytes 1 (b2n s.hif.tag10)
  | .powerState => leBytes 1 (if (s.fn f).d3 then 3 else 0)
  | .msixSize => leBytes 2 (s.msixSize f)
  | .msixPending v => leBytes 1 (b2n ((s.fn f).msixPending.contains v))
  | .totalVfs => pfOnly f 2 15
  | .firstVfOffset => pfOnly f 2 1
  | .vfStride => pfOnly f 2 1
  | .numVfs => pfOnly f 2 s.hif.numVfs
  | .vfEnable => pfOnly f 1 (b2n s.hif.vfEn)
  | .barSize => pfOnly f 1 s.hif.bar2Log2
  | .vfBarSize => pfOnly f 1 s.hif.vfBar2Log2
  | .ariHierarchy => pfOnly f 1 (b2n s.hif.ariHier)
  | .aerPoisoned => leBytes 1 (b2n (s.fn f).aerPoison)

/-- The Pending Bits of the vectors no longer masked are cleared and their messages sent, ascending (R360).
[PRESUMED: log entry 83] -/
def msixFlush (f : Nat) (s : State) : State :=
  let x := s.fn f
  let go := (List.range (s.msixSize f)).filter (fun v => x.msixPending.contains v && !x.msixMasked v)
  go.foldl (fun s v => msix f v s) (s.setFn f { x with msixPending := x.msixPending.filter (fun v => !go.contains v) })

/-- A Max Payload Size the stack supports (R340). -/
def mpsGood (n : Nat) : Bool := n == 128 || n == 256 || n == 512

/-- A Max Read Request Size the stack supports (R340). -/
def mrrsGood (n : Nat) : Bool := mpsGood n || n == 1024 || n == 2048 || n == 4096

/-- An access of a function's configuration space or MSI-X table; Device Control is the physical function's (R340, R347,
R356, R360). [PRESUMED: log entry 83] -/
def cfgAccess (f : Nat) (op : CfgOp) (s : State) : State :=
  let x := s.fn f
  match op with
  | .none => s
  | .read r => s.emit (.cplData f (cfgGet f s r))
  | .devCtl mps mrrs tag10 t =>
    if f = 0 then
      { s with hif := { s.hif with
          mps := if mpsGood mps then mps else s.hif.mps, mrrs := if mrrsGood mrrs then mrrs else s.hif.mrrs
          tag10 := tag10, cplTimeout := t } }
    else s
  | .msixCtl en all => msixFlush f (s.setFn f { x with msixEn := en, msixMaskAll := all })
  | .msixEntry v a d m =>
    if v < s.msixSize f then
      msixFlush f (s.setFn f { x with msixTbl := Tbl.put x.msixTbl v { addr := a, data := d, masked := m } })
    else s
  | .aerClear => s.setFn f { x with aerPoison := false }
  | .ariHierarchy en => if f = 0 then { s with hif := { s.hif with ariHier := en } } else s

/-- BUS_MASTER_ENABLE, with an access of configuration space that comes with it. [DESIGN CHOICE: log entry 83] -/
def execBusMasterEnable (f : Nat) (bme : Bool) (cfg : Bool × CfgOp) (s : State) : Res :=
  .next (
    if s.fnExists f then
      let s := s.setFn f { s.fn f with bme := bme, d3 := cfg.1, bmSeen := true }
      cfgAccess f cfg.2 (if bme && !cfg.1 then releaseFn f s else s)
    else s)

/-- RESIZABLE_BAR_WRITE: a write that changes the size of BAR2 disables every aperture; `vf` sets the size of a virtual
function's BAR2 (R341, R343, R349). -/
def execResizableBarWrite (size : Nat × Bool) (s : State) : Res :=
  .next (
    if size.2 then
      if 28 ≤ size.1 ∧ size.1 ≤ 36 then { s with hif := { s.hif with vfBar2Log2 := size.1 } } else s
    else if 30 ≤ size.1 ∧ size.1 ≤ 40 ∧ size.1 ≠ s.hif.bar2Log2 then
      { s with hif := { s.hif with bar2Log2 := size.1, apt := s.hif.apt.map (fun p => (p.1, (p.2.1, false))) } }
    else s)

/-! ### The slot table (R351 to R355) -/

/-- The slot that byte `off` of a function's view lies in, and the byte's place in the table (Table 12-5). -/
def slotPlace (s : State) (f off : Nat) : Nat × Nat :=
  let b := if f = 0 then 0 else (fnSlots (s.fn f)).1
  (b + off / 128, 128 * b + off)

/-- Bytes stored in the slot table, line by line; a narrow write of an uncorrectable line is dropped and logged (R375). -/
def slotStore : List (Nat × Nat) → List Byte → State → State
  | [], _, s => s
  | (a, k) :: rest, bs, s => slotStore rest (bs.drop k) (localWrite .slots a (bs.take k) s).1

/-- One part of a write, within one slot (R352). -/
def slotPart (f off : Nat) (bs : List Byte) (s : State) : State :=
  let p := slotPlace s f off
  if p.1 < 4096 ∧ ownsSlot (s.fn f) p.1 = true then
    slotStore (lineSpans p.2 bs.length) bs
      { s with hif := { s.hif with marked := (List.range 4096).filter (fun k => k == p.1 || s.hif.marked.contains k) } }
  else logIgnored 0x01 0 (.host f) (if f = 0 then 0x01000000 + off else 0x80000 + off) 2 s

/-- A write's parts, slot by slot. -/
def slotParts (f : Nat) : List (Nat × Nat) → List Byte → State → State
  | [], _, s => s
  | (a, k) :: rest, bs, s => slotParts f rest (bs.drop k) (slotPart f a (bs.take k) s)

/-- SLOT_WRITE. -/
def execSlotWrite (f off : Nat) (data : List Byte) (s : State) : Res :=
  .next (
    if s.fnExists f = true ∧ off + data.length ≤ 0x80000 then
      slotParts f (spans 128 (data.length / 128 + 2) off data.length) data s
    else s)

/-- Entries of a function's ring that are free and not reserved (R355, R357). [DEDUCED: log entry 77] -/
def ringFree (x : Fn) : Nat :=
  let n := x.ringSize
  n - 1 - (x.tail + n - x.head % n) % n - x.outstanding

/-- The pickup engine can take a slot of a function (R354, R357, R364). [DEDUCED: log entry 77] -/
def pickable (x : Fn) : Bool := x.cqEn && !x.hold && decide (0 < ringFree x)

/-- A request whose control line reads `ctl` is handed to the runtime; one whose other line is uncorrectable, or of an
unknown operation, completes at once (R354, R356, R372). [DEDUCED: log entry 78] -/
def handOver (f k : Nat) (ctl : List Byte) (s : State) : State :=
  let tail := localGet .slots (128 * k + 64) s
  let s := tail.1
  let x := s.fn f
  let bs := ctl ++ tail.2.getD (List.replicate 64 0)
  let id := s.hif.nextReq
  let r : HostReq := { id := id, fn := f, slot := k - (fnSlots x).1, bytes := bs }
  let s := s.setFn f { x with outstanding := x.outstanding + 1 }
  let s := { s with hif := { s.hif with reqs := s.hif.reqs ++ [r], nextReq := id + 1, lastSlot := k } }
  let s := clearGo k s
  if tail.2.isNone then completeReq id .uncorrectable 0 [] s
  else if 6 ≤ leAt bs 1 1 then completeReq id .badDescriptor 0 [] s else s

/-- The scan of the marked slots, in the order given, until one is picked up (R354); a slot whose control line is
uncorrectable shows no go and is ignored (R372). [DEDUCED: log entry 78] -/
def scanSlots : List Nat → State → State
  | [], s => s
  | k :: rest, s =>
    let unmark := fun s : State => { s with hif := { s.hif with marked := setDel k s.hif.marked } }
    let ctl := localGet .slots (128 * k) s
    let bs := ctl.2.getD []
    if !bit 0 (bs.getD 0 0).toNat then scanSlots rest (unmark ctl.1)
    else
      match slotOwner s k with
      | none => scanSlots rest ctl.1
      | some f => if pickable (s.fn f) then handOver f k bs (unmark ctl.1) else scanSlots rest ctl.1

/-- The marked slots in the order of the scan: after the last slot served, then from slot 0. -/
def scanOrder (s : State) : List Nat :=
  s.hif.marked.filter (fun k => decide (s.hif.lastSlot < k)) ++ s.hif.marked.filter (fun k => decide (k ≤ s.hif.lastSlot))

/-- SLOT_PICKUP: nothing is picked up before READY or while STOPPED (R346, R354, R450). [DEDUCED: log entry 78] -/
def execSlotPickup (s : State) : Res :=
  .next (if s.hif.pickup = true ∧ s.thm.stopped = false then scanSlots (scanOrder s) s else s)

/-! ### Requests (R350, R356) -/

/-- A request's op. -/
def reqOp (r : HostReq) : Nat := leAt r.bytes 1 1

/-- The bytes of a request that its op does not use are zero, and so are the reserved bits of its control word. -/
def reqClean (r : HostReq) (used : List (Nat × Nat)) : Bool :=
  leAt r.bytes 0 1 / 2 == 0 && leAt r.bytes 4 4 == 0
    && (List.range 120).all (fun i => used.any (fun u => decide (u.1 ≤ i + 8) && decide (i + 8 < u.1 + u.2))
          || r.bytes.getD (i + 8) 0 == 0)

/-- The op is permitted to the function (R356). [DEDUCED: log entry 78] -/
def opAllowed (s : State) (r : HostReq) : Bool := bit (reqOp r) (s.fn r.fn).ops

/-- A request of an op, at a stage, in the runtime's list. -/
def reqAt (s : State) (i op : Nat) : Option HostReq :=
  match s.hif.reqs[i]? with
  | some r => if reqOp r = op then some r else none
  | none => none

/-- A request replaced. -/
def setReq (r : HostReq) (s : State) : State :=
  { s with hif := { s.hif with reqs := s.hif.reqs.map (fun q => if q.id = r.id then r else q) } }

/-- A DPA out of the function's reach is DENIED, and recorded (R64, R356). [DEDUCED: log entry 78] -/
def reqDenied (r : HostReq) (dpa : Nat) (write : Bool) (s : State) : State :=
  completeReq r.id .denied 0 [] (recordDeny (.host r.fn) dpa write 3 s)

/-- A new request is checked in the order of R356, then runs; one whose function has an earlier BAR2 write to be performed
then waits for it (R362). -/
def reqStart (i op : Nat) (used : List (Nat × Nat)) (good : HostReq → Bool) (f : HostReq → State → State) (s : State) : State :=
  match reqAt s i op with
  | none => s
  | some r =>
    if r.stage ≠ 0 then s
    else if !reqClean r used || !good r then completeReq r.id .badDescriptor 0 [] s
    else if !opAllowed s r then completeReq r.id .denied 0 [] s
    else f r s

/-- NOP. -/
def execReqNop (i : Nat) (s : State) : Res :=
  .next (reqStart i 0x00 [] (fun _ => true) (fun r s => completeReq r.id .ok 0 [] s) s)

/-! ### COPY -/

/-- Source, destination, length and flags of a COPY (Table 12-7). -/
def cpSrc (r : HostReq) : Nat := leAt r.bytes 8 8
def cpDst (r : HostReq) : Nat := leAt r.bytes 16 8
def cpLen (r : HostReq) : Nat := leAt r.bytes 24 4
def cpSrcHost (r : HostReq) : Bool := bit 0 (leAt r.bytes 28 1)
def cpDstHost (r : HostReq) : Bool := bit 1 (leAt r.bytes 28 1)

/-- A COPY's fields are as Table 12-7 asks. -/
def copyGood (r : HostReq) : Bool :=
  cpLen r % 64 == 0 && decide (64 ≤ cpLen r) && decide (cpLen r ≤ 0x10000000) && cpSrc r % 64 == 0 && cpDst r % 64 == 0
    && decide (leAt r.bytes 28 1 < 4) && !(cpSrcHost r && cpDstHost r)

/-- The bytes from an offset to the end of its piece on one side; the host side is not cut into pieces (R39). -/
def copyEdge (r : HostReq) (host : Bool) (base off : Nat) : Nat := if host then cpLen r else 4096 - (base + off) % 4096

/-- The offset at which the piece of a side's DPA begins, 0 for the first (R39). -/
def pieceAt (base off : Nat) : Nat := off - (base + off) % 4096

/-- The parts of a COPY: cut at every 4 KiB boundary of a DPA; offset and length (R39). [DESIGN CHOICE: log entry 81] -/
def copyParts (r : HostReq) : Nat → Nat → List (Nat × Nat)
  | 0, _ => []
  | fuel + 1, off =>
    if cpLen r ≤ off then []
    else
      let k := min (cpLen r - off) (min (copyEdge r (cpSrcHost r) (cpSrc r) off) (copyEdge r (cpDstHost r) (cpDst r) off))
      (off, k) :: copyParts r fuel (off + k)

/-- All parts of a COPY. -/
def allParts (r : HostReq) : List (Nat × Nat) := copyParts r (cpLen r / 2048 + 4) 0

/-- A part of a COPY failed: the lowest-addressed failure counts. -/
def copyFail (off : Nat) (st : Status) (r : HostReq) : HostReq :=
  match r.failAt with
  | some b => if off < b then { r with failAt := some off, st := st } else r
  | none => { r with failAt := some off, st := st }

/-- A COPY's record, once the Mill holds none of its lines back (R253, R356). -/
def copyEnd (r : HostReq) (s : State) : State :=
  if heldBack s (.host r.fn) then setReq { r with stage := 2 } s
  else completeReq r.id r.st (r.failAt.getD (cpLen r)) [] s

/-- Data goes to host memory in writes of at most Max Payload Size (R340). [DESIGN CHOICE: log entry 81] -/
def hostWrites (f : Nat) : List (Nat × Nat) → List Byte → State → State
  | [], _, s => s
  | (a, k) :: rest, bs, s => hostWrites f rest (bs.drop k) (s.emit (.dmaWrite f a (bs.take k)))

/-- The host addresses of a transfer cut at every multiple of a size of Device Control (R340). -/
def hostSpans (size a n : Nat) : List (Nat × Nat) := spans size (n / size + 2) a n

/-- The parts of a COPY from a DPA are read, and written to a DPA or to host memory; a failure counts from the start of the
piece that failed (R39, R356). [DESIGN CHOICE: log entry 81] -/
def copyMove : List (Nat × Nat) → HostReq → State → State × HostReq
  | [], r, s => (s, r)
  | (off, k) :: rest, r, s =>
    let q : Requester := .host r.fn
    let x := dpaRead q (cpSrc r + off) k s
    if x.2.2 ≠ .ok then copyMove rest (copyFail (pieceAt (cpSrc r) off) x.2.2 r) x.1
    else if cpDstHost r then copyMove rest r (hostWrites r.fn (hostSpans x.1.hif.mps (cpDst r + off) k) x.2.1 x.1)
    else
      let w := dpaWrite q (cpDst r + off) x.2.1 x.1
      copyMove rest (if w.2 = .ok then r else copyFail (pieceAt (cpDst r) off) w.2 r) w.1

/-- A COPY's DPAs lie in the function's reach: the first that does not, and whether it is written. -/
def copyOut (s : State) (r : HostReq) : Option (Nat × Bool) :=
  if !cpSrcHost r && !reachable s r.fn (cpSrc r) (cpLen r) then some (cpSrc r, false)
  else if !cpDstHost r && !reachable s r.fn (cpDst r) (cpLen r) then some (cpDst r, true)
  else none

/-- A range of a COPY waits: its seam or gallery sleeps, or its function's DMA is held (R57, R106, R364). -/
def copyHeld (s : State) (r : HostReq) : Bool :=
  let q : Requester := .host r.fn
  (!cpSrcHost r && (allParts r).any (fun p => spanHeld s q (cpSrc r + p.1) p.2))
    || (!cpDstHost r && (allParts r).any (fun p => spanHeld s q (cpDst r + p.1) p.2))
    || ((cpSrcHost r || cpDstHost r) && (s.fn r.fn).hold)

/-- COPY: from host memory, its reads are issued; else it moves its data. [DESIGN CHOICE: log entry 81] -/
def execReqCopy (i : Nat) (s : State) : Res :=
  .next (
    match reqAt s i 0x01 with
    | none => s
    | some r0 =>
      if r0.stage = 2 then copyEnd r0 s
      else
        unlessHeld (reqStart i 0x01 [(8, 21)] copyGood (fun r s =>
          match copyOut s r with
          | some (a, w) => reqDenied r a w s
          | none =>
            if writesOpen s r.fn || copyHeld s r then s
            else if cpSrcHost r then
              let s := setReq { r with stage := 1, at_ := s.now } s
              (hostSpans s.hif.mrrs (cpSrc r) (cpLen r)).foldl (fun s p => s.emit (.dmaRead r.fn p.1 p.2 r.id)) s
            else
              let x := copyMove (allParts r) r s
              copyEnd x.2 x.1)) s)

/-- The bytes of a COPY that have arrived. -/
def gotBytes (r : HostReq) : Nat := r.got.foldl (fun n g => n + g.2) 0

/-- The part of a COPY that holds an offset. -/
def partOf (r : HostReq) (off : Nat) : Nat :=
  match (allParts r).find? (fun p => decide (p.1 ≤ off) && decide (off < p.1 + p.2)) with
  | some p => p.1
  | none => off

/-- Data of a host read is written piece by piece; a failure counts from the start of its piece (R39, R356). -/
def copyLand : List (Nat × Nat) → List Byte → HostReq → State → State × HostReq
  | [], _, r, s => (s, r)
  | (a, k) :: rest, bs, r, s =>
    let w := dpaWrite (.host r.fn) a (bs.take k) s
    copyLand rest (bs.drop k) (if w.2 = .ok then r else copyFail (partOf r (a - cpDst r)) w.2 r) w.1

/-- DMA_READ_COMPLETION: data of a host read is written to the COPY's destination; the last ends the COPY. -/
def execDmaReadCompletion (i off : Nat) (data : List Byte) (s : State) : Res :=
  .next (unlessHeld (fun s =>
    match reqAt s i 0x01 with
    | none => s
    | some r =>
      let n := data.length
      let twice := r.got.any (fun g => decide (off < g.1 + g.2) && decide (g.1 < off + n))
      if r.stage ≠ 1 ∨ n = 0 ∨ cpLen r < off + n ∨ twice = true
          ∨ (pieces (cpDst r + off) n).any (fun p => spanHeld s (.host r.fn) p.1 p.2) = true then s
      else
        let w := copyLand (pieces (cpDst r + off) n) data { r with got := r.got ++ [(off, n)] } s
        if gotBytes w.2 = cpLen w.2 then copyEnd w.2 w.1 else setReq w.2 w.1) s)

/-- The first byte of a COPY that has not arrived. -/
def firstGap (r : HostReq) : Nat :=
  match (allParts r).find? (fun p => !(List.range p.2).all (fun k => r.got.any (fun g => decide (g.1 ≤ p.1 + k)
      && decide (p.1 + k < g.1 + g.2)))) with
  | some p => p.1
  | none => cpLen r

/-- COPY_READ_TIMEOUT: the host has not answered within the Completion Timeout. -/
def execCopyReadTimeout (i : Nat) (s : State) : Res :=
  .next (
    match reqAt s i 0x01 with
    | none => s
    | some r =>
      if r.stage = 1 ∧ r.at_ + s.hif.cplTimeout ≤ s.now then copyEnd (copyFail (firstGap r) .timeout r) s else s)

/-! ### Requests handed to a unit -/

/-- CRW_TLY_STAT (R183). -/
def tlyStat (s : State) (c : Nat) : Nat :=
  let x := s.crew c
  x.state + 2 ^ 3 * x.cause + 2 ^ 7 * b2n x.buddy + 2 ^ 8 * x.deadRole + 2 ^ 9 * b2n x.late + 2 ^ 10 * b2n x.trap
    + 2 ^ 16 * x.exit

/-- CREW_LOAD's crew, start flag and image. -/
def clCrew (r : HostReq) : Nat := leAt r.bytes 8 2
def clStart (r : HostReq) : Bool := bit 0 (leAt r.bytes 10 1)
def clImg (r : HostReq) : Nat := leAt r.bytes 16 8

/-- The load of a CREW_LOAD has ended: LOADED, RUNNING where start is set, or the image was refused with a status.
[DESIGN CHOICE: log entry 57] -/
def crewLoadEnd (r : HostReq) (s : State) : State :=
  let c := clCrew r
  let x := s.crew c
  if x.state = 2 then s
  else if x.state = 3 then
    let s := if clStart r then startTally c s else s
    completeReq r.id .ok (tlyStat s c) [] s
  else
    let st := if x.state = 1 then statusOf x.cause s else .unitDead
    completeReq r.id st (tlyStat s c) [] s

/-- CREW_LOAD: the load starts, or, once it has ended, its record is written. [DESIGN CHOICE: log entry 57] -/
def execReqCrewLoad (i : Nat) (s : State) : Res :=
  .next (
    match reqAt s i 0x02 with
    | none => s
    | some r0 =>
      if r0.stage = 1 then crewLoadEnd r0 s
      else
        reqStart i 0x02 [(8, 3), (16, 8)]
          (fun r => decide (leAt r.bytes 10 1 < 2) && clImg r % 64 == 0 && decide (clCrew r < 128)) (fun r s =>
            let c := clCrew r
            if !reachable s r.fn (clImg r) 64 then reqDenied r (clImg r) false s
            else if !(s.crewPresent c && ((s.crew c).state == 1 || (s.crew c).state == 5)) then
              completeReq r.id .denied (tlyStat s c) [] s
            else if writesOpen s r.fn then s
            else
              setReq { r with stage := 1 } (loadTally c (s.setCrew c { s.crew c with img := clImg r }))) s)

/-- FACE_LAUNCH: after the function's earlier writes (R362), the launch enters the face unit's queue; FACE_DONE's value comes with its record. -/
def execReqFaceLaunch (i : Nat) (s : State) : Res :=
  .next (reqStart i 0x03 [(8, 2), (16, 32)] (fun _ => true) (fun r s =>
    let n := leAt r.bytes 8 2
    let l : FLaunch := { words := (List.range 8).map (fun k => BitVec.ofNat 32 (leAt r.bytes (16 + 4 * k) 4)), req := some r.id }
    if s.chr.faceLauncherHost || !faceHere s n then completeReq r.id .denied 0 [] s
    else if writesOpen s r.fn = true ∨ ((s.face n).state ≠ 3 ∧ 4 ≤ (s.face n).queue.length) then s
    else faceEnqueue n l (setReq { r with stage := 1 } s)) s)

/-- MILL_SHARD: the descriptor is read and submitted; the Mill's record comes with the request's. -/
def execReqMillShard (i : Nat) (s : State) : Res :=
  .next (unlessHeld (reqStart i 0x04 [(8, 1), (16, 8)] (fun r => decide (leAt r.bytes 8 1 < 4)) (fun r s =>
    let e := leAt r.bytes 8 1
    let a := leAt r.bytes 16 8
    if !reachable s r.fn a 128 then reqDenied r a false s
    else if writesOpen s r.fn || (pieces a 128).any (fun p => spanHeld s (.host r.fn) p.1 p.2)
        || decide (4 ≤ (s.eng e).queue.length) then s
    else
      let d := readPieces (.host r.fn) (pieces a 128) s
      if d.2.2 ≠ .ok then completeReq r.id d.2.2 0 [] d.1
      else shardSubmit e (wordsOf d.2.1) (some r.id) (setReq { r with stage := 1 } d.1))) s)

/-- The DPAs in a vein command's body: address and length (Table 8-8, R356). -/
def veinDpas (ws : List Word) : List (Nat × Nat) :=
  match bits 7 0 (vw ws 0) with
  | 0x01 => [(vdpa ws 2, 64)]
  | 0x08 => [(vdpa ws 4, 256)]
  | 0x09 => [(vdpa ws 4, 256)]
  | 0x0A => [(vdpa ws 4, 256), (vdpa ws 6, 64)]
  | 0x0B => [(vdpa ws 4, 256)]
  | 0x11 => [(vdpa ws 2, 4 * vw ws 1)]
  | 0x12 => [(vdpa ws 2, 4 * vw ws 1)]
  | 0x13 => [(vdpa ws 4, 4)]
  | 0x18 => [(vdpa ws 4, 1)]
  | _ => []

/-- The page IDs a command carries itself (R350). -/
def veinPages (ws : List Word) : List Nat :=
  match bits 7 0 (vw ws 0) with
  | 0x10 => [vw ws 1]
  | 0x13 => [vw ws 1, vw ws 2]
  | _ => []

/-- A page named by a request is out of the function's reach (R350). -/
def pageOut (s : State) (f id : Nat) : Bool := id != noPage && !pageBad s id && !reachable s f (pageAddr id) 1

/-- A sequence slot of a function (R350). -/
def ownsSeq (x : Fn) (n : Nat) : Bool := decide (64 * x.seqBase ≤ n) && decide (n < 64 * x.seqBase + 64 * x.seqCount)

/-- A command on a sequence slot. -/
def namesSlot (ws : List Word) : Bool := decide (1 ≤ bits 7 0 (vw ws 0)) && decide (bits 7 0 (vw ws 0) ≤ 5)

/-- The runtime's Overseer writes a vein command to VEIN_CMD_0 to VEIN_CMD_7 of its port, with SLOT_OPEN's fn set (R226,
R350). -/
def veinForward (p : Nat) (r : HostReq) (ws : List Word) (s : State) : State :=
  let ws' := if bits 7 0 (vw ws 0) = 0x01 then
      listSet ws 1 (BitVec.ofNat 32 (setBits 19 16 r.fn (vw ws 1)))
    else ws
  let x := s.vport p
  (setReq { r with stage := 1 } s).setVport p { x with
    staged := (List.range 8).map (fun i => (i, ws'.getD i 0)), queue := x.queue ++ [(ws', some r.id)] }

/-- VEIN: the checks of R350 and R356, then the command waits at the engine port of the Overseer that serves the request;
while the port holds 32 commands or its ring is full the runtime waits. [DEDUCED: log entry 56] -/
def execReqVein (ix : Nat × Nat) (s : State) : Res :=
  .next (unlessHeld (reqStart ix.1 0x05 [(16, 32)] (fun _ => true) (fun r s =>
    let ws := (List.range 8).map (fun k => BitVec.ofNat 32 (leAt r.bytes (16 + 4 * k) 4))
    let op := bits 7 0 (vw ws 0)
    let deny := completeReq r.id .denied 0 [] s
    if !vGood ws then completeReq r.id .badDescriptor 0 [] s
    else if namesSlot ws && !ownsSeq (s.fn r.fn) (vSlot ws) then deny
    else if op = 0x18 ∧ r.fn ≠ 0 then deny
    else
      match (veinDpas ws).find? (fun d => !reachable s r.fn d.1 d.2) with
      | some d => reqDenied r d.1 false s
      | none =>
        match (veinPages ws).find? (pageOut s r.fn) with
        | some id => reqDenied r (pageAddr id) false s
        | none =>
          if writesOpen s r.fn = true ∨ 8 ≤ ix.2 ∨ 32 ≤ (s.vport ix.2).queue.length ∨ ringFull (s.vport ix.2) = true then s
          else if op = 0x11 ∨ op = 0x12 then
            let a := vdpa ws 2
            let n := 4 * vw ws 1
            if (pieces a n).any (fun p => spanHeld s (.host r.fn) p.1 p.2) then s
            else
              let d := readPieces (.host r.fn) (pieces a n) s
              if d.2.2 ≠ .ok then completeReq r.id d.2.2 0 [] d.1
              else match (pageIds d.2.1).find? (pageOut d.1 r.fn) with
                | some id => reqDenied r (pageAddr id) false d.1
                | none => veinForward ix.2 r ws d.1
          else veinForward ix.2 r ws s)) s)

/-! ### Completion rings (R357, R360) -/

/-- HIF_CQ_CFG of a function (Table 12-15): a write of 1 to en sets tail to 0 and phase to 1. -/
def cqCfgWrite (f : Nat) (v : Word) (s : State) : State :=
  let x := s.fn f
  let en := bit 0 v.toNat
  s.setFn f { x with
    cqEn := en, cqLog2 := bits 5 1 v.toNat, vector := bits 26 16 v.toNat
    tail := if en then 0 else x.tail, phase := if en then 1 else x.phase }

/-- A requester reaches a function's completion registers: all that reach registers, and the function itself (R349). -/
def reachesFn (s : State) (r : Requester) (f : Nat) : Bool :=
  reachesRegs r || (r == .host f && s.fnExists f)

/-- CQ_ENABLE. -/
def execCqEnable (r : Requester) (f : Nat) (v : Word) (s : State) : Res :=
  .next (if reachesFn s r f then cqCfgWrite f v s else s)

/-- CQ_MOD_TIMER: HIF_CQ_MOD.time has passed since the oldest unsignalled record (R360). -/
def execCqModTimer (f : Nat) (s : State) : Res :=
  .next (
    let x := s.fn f
    if x.unsig ≠ 0 ∧ x.modTime ≠ 0 ∧ x.oldestAt + 1000 * x.modTime ≤ s.now then
      msix f x.vector (s.setFn f { x with unsig := 0 })
    else s)

/-! ### Data Object Exchange (R365) -/

/-- The answer of DOE Discovery to an index: vendor 0x0001, the data object type at the index, the next index.
[PRESUMED: log entry 82] -/
def doeDiscovery (i : Nat) : List Byte :=
  if i ≤ 2 then leBytes 2 0x0001 ++ leBytes 1 i ++ leBytes 1 ((i + 1) % 3) else leBytes 2 0xFFFF ++ [0, 0]

/-- DOE_REQUEST: DOE Discovery (type 0) is answered; an SPDM object (types 1 and 2) waits for its SPDM command.
[PRESUMED: log entry 82] -/
def execDoeRequest (objType : Nat) (data : List Byte) (s : State) : Res :=
  .next (
    if s.hif.doe.isSome ∨ 4096 < data.length then s
    else if objType = 0 then s.emit (.doe (doeDiscovery (leAt data 0 1)))
    else if objType ≤ 2 then { s with hif := { s.hif with doe := some (objType, data) } }
    else s)

/-- DOE_ABORT. -/
def execDoeAbort (s : State) : Res := .next { s with hif := { s.hif with doe := none } }

end Sys2Proof.Machine
end

