-- ==== Sys2Proof/Machine/Boot.lean ====
section
/-! DEFINITION. Image checks and the choice of an image at boot (17_firmware_security.md), the recovery identity (R442), and
the resets of the stack, the Foreman and the stockpile controller (R265, R455 to R457). -/

namespace Sys2Proof.Machine

/-! ### Images (R462 to R473) -/

/-- A kind's slots and boot state. -/
def State.img (s : State) (k : Nat) : ImgSlot := Tbl.look {} s.sec.imgs k

/-- A kind's slots and boot state replaced. -/
@[simps] def State.setImg (s : State) (k : Nat) (x : ImgSlot) : State := { s with sec := { s.sec with imgs := Tbl.put s.sec.imgs k x } }

/-- The size of a kind's slot (Table 17-1). -/
def slotSize (k : Nat) : Nat := if k = 1 then 0x100000 else if k = 2 then 0x1000000 else if k = 6 then 0x200000 else 0x80000

/-- A kind's fused anti-rollback counter (R467). -/
def State.counter (s : State) (k : Nat) : Nat := Tbl.look 0 s.fuses.counters k

/-- A root key is one the fuses name and do not revoke (R466): the key's octets, its slot, the fused hashes and the revoked
slots. A hash is held as the number its octets spell. -/
def rootGood (key : List Byte) (slot : Nat) (roots revoked : List Nat) : Bool :=
  roots[slot]? == some (leNat (Config.sha384 key)) && !revoked.contains slot

/-- The checks of Table 17-4 on a header, in order, as it is offered for a kind. -/
def headerCheck (s : State) (k : Nat) (h : ImgHdr) : Status :=
  if h.magic ≠ 0x4D475A4B ∨ h.hdrVersion ≠ 1 ∨ h.kind ≠ k ∨ h.bodyLen < 4 ∨ slotSize k - 0x4400 < h.bodyLen
      ∨ h.bodyLen % 4 ≠ 0 ∨ h.rsaE ≠ 65537 ∨ h.reservedZero = false then .badDescriptor
  else if h.serial ≠ 0 ∧ h.serial ≠ s.fuses.serial then .denied
  else if rootGood h.rsaN (bits 1 0 h.keyIndex) s.fuses.rsaRoots s.fuses.rsaRevoked = false
      ∨ rootGood h.slhPk (bits 3 2 h.keyIndex) s.fuses.slhRoots s.fuses.slhRevoked = false then .denied
  else if h.svn < s.counter k then .denied
  else if Config.rsaVerify h.rsaN h.rsaE h.signed h.rsaSig = false then .denied
  else if Config.slhVerify h.slhPk h.signed h.slhSig = false then .denied
  else .ok

/-- An image that verifies in full, header and body (R465, R466). -/
def imageGood (s : State) (k : Nat) (i : Image) : Bool :=
  headerCheck s k i.hdr == .ok && decide (i.body.length = i.hdr.bodyLen) && Config.sha384 i.body == i.hdr.bodyDigest

/-- A copy that verifies. -/
def verifiedCopy (s : State) (k : Nat) (i : Option Image) : Option Image := i.filter (imageGood s k)

/-- FW_REVERT (R478 to R480): kind and cause. [DESIGN CHOICE: log entry 117] -/
def logRevert (k cause : Nat) : State → State := logEvent 0x12 0 0x0703 [(0, 1, k), (1, 1, cause)]

/-- The image a kind boots from, and the boot state that follows (Table 17-5, R469, R470); none when both copies fail.
[DEDUCED: log entry 106] -/
def bootSelect (k : Nat) (s : State) : State × Bool :=
  let x := s.img k
  let run := verifiedCopy s k x.run
  let res := verifiedCopy s k x.reserve
  let back := x.st == 2 || x.st == 4 || (x.st == 3 && (decide (3 ≤ x.boots) || run.isNone))
  let x' : ImgSlot := match x.st with
    | 1 => { x with st := 0, reserveValid := false }
    | 2 => { x with st := 4 }
    | 3 => if back then { x with st := 4 } else { x with boots := x.boots + 1 }
    | _ => x
  let s := if x.st = 3 ∧ back = true then logRevert k (if 3 ≤ x.boots then 1 else 2) s else s
  let useRes := res.isSome && (back || run.isNone)
  let pick := if useRes then res else run
  (s.setImg k { x' with
      booted := pick, fromReserve := useRes, svn := ((pick.map (·.hdr.svn)).getD 0), reverted := false
      reserveValid := x'.reserveValid || useRes }, pick.isSome)

/-! ### Recovery and settings (R442, R469, R482) -/

/-- The settings reset of a start-up (0), test (1) or recovery (2) boot (R482). [DEDUCED: log entry 106] -/
def resetSettings (kind : Nat) (s : State) : State :=
  logEvent 0x12 0 0x0706 [(0, 1, kind)]
    { s with sec := { s.sec with settings := [], settingsReset := true, bootKind := kind, testBoot := kind == 1 } }

/-- The stack takes the recovery identity (R442): state CHARTER_FAILED with the given BRG_CHARTER, subsystem IDs zero, BAR2
of 1 GiB with every aperture disabled; the link comes up with it. [DEDUCED: log entry 106] -/
def recoverIdentity (result featA featB resource : Nat) (s : State) : State :=
  { s with
    brg := { s.brg with state := 5, chResult := result, featA := featA, featB := featB, resource := resource,
                        charterDone := false, result := none }
    chr := { s.chr with subsys := (0, 0), bar2Log2 := 30 }
    hif := { s.hif with bar2Log2 := 30, apt := [], training := true, pickup := false } }

/-- SYNC follows CHARTER and STOPPED (R508): held low unless CHARTER ended DONE and the stack runs. -/
def driveSync (s : State) : State :=
  let low := !s.brg.charterDone || s.thm.stopped
  if low = s.brg.syncLow then s else ({ s with brg := { s.brg with syncLow := low } }).emit (.sync (!low))

/-- The boot ROM verifies the Foreman image and starts it, and with it CHARTER; or the ROM recovery applies (R438, R469). -/
def bootRom (s : State) : State :=
  let r := bootSelect 1 s
  if r.2 then r.1
  else resetSettings 2 (recoverIdentity 3 1 0 0 { r.1 with sec := { r.1.sec with recovery := true } })

/-! ### Stack resets (R10, R448, R457, Table 16-7) -/

/-- The GLB registers as the fuses give them (R461). -/
def fuseGlb (f : Fuses) : Glb :=
  { gradeGroups := maskOf 4 (fun g => !f.groupsOff.contains g), gradeStock := maskOf 4 (fun p => !f.stockOff.contains p)
    badCrews := f.badCrews, groups := maskOf 4 (fun g => !f.groupsOff.contains g)
    stock := maskOf 4 (fun p => !f.stockOff.contains p) }

/-- What a kind's slots keep across a stack reset: the flash with its boot-state record (R463). -/
def flashSlot (x : ImgSlot) : ImgSlot :=
  { run := x.run, reserve := x.reserve, st := x.st, boots := x.boots, reserveValid := x.reserveValid }

/-- The state every stack reset starts from: the reset state, with the fuses, the flash, the PERST# pin's level, and the
model's own queue, clock, counter and output. [DESIGN CHOICE: log entry 87] -/
def baseReset (s : State) : State :=
  { State.reset with
    pending := s.pending, now := s.now, free := s.free, out := s.out, fuses := s.fuses, glb := fuseGlb s.fuses
    hif := { State.reset.hif with perst := s.hif.perst }
    sec := { imgs := s.sec.imgs.map (fun p => (p.1, flashSlot p.2)), settings := s.sec.settings }
    brg := { surveyA := s.brg.surveyA, surveyB := s.brg.surveyB, powered := true, stepAt := s.now } }

/-- A cold reset: power-on (R10, R438). [DESIGN CHOICE: log entry 88] -/
def coldReset (s : State) : State := bootRom ((baseReset s).emit (.sync false))

/-- Events that the Foreman held enter the ring (R456). [DESIGN CHOICE: log entry 87] -/
def flushHeld (s : State) : State :=
  s.evt.held.foldl (fun s e => evAppend e s)
    { s with brg := { s.brg with foreman := true }, evt := { s.evt with held := [], lost := 0 } }

/-- A warm stack reset with its cause (R448, R457): the RWS registers, the event ring, the clock monitors, the losses still to
record and, where `dram` says so, the contents of the DRAM and the stockpile are kept.
[DEDUCED: log entry 85; DESIGN CHOICE: log entry 86] -/
def warmReset (cause : Nat) (dram : Bool) (s : State) : State :=
  let s := flushHeld s
  let b := baseReset s
  bootRom (({ b with
    glb := { b.glb with resetCause := cause }
    evt := { next := s.evt.next, ring := s.evt.ring }
    pwr := { resetRail := s.pwr.resetRail, vinMin := s.pwr.vinMin }
    clk := s.clk
    brg := { b.brg with warm := true, unwritten := s.brg.unwritten, ageUnwritten := s.brg.ageUnwritten
                        remapUnwritten := s.brg.remapUnwritten }
    seamMem := if dram then s.seamMem else []
    stockMem := if dram then s.stockMem else []
    errs := if dram then s.errs.filter (fun e => decide (e.kind < 2)) else [] } : State).emit (.sync false))

/-! ### Steps of bring-up (R443) -/

/-- A bring-up step ends with a state, a status and a detail, and is logged (R443). -/
def stepEnds (state : Nat) (st : Status) (detail : Nat) (s : State) : State :=
  let d := detail % 4096
  logEvent 0x13 0 0x0601 [(0, 1, s.brg.step), (1, 1, state), (2, 1, st.code), (4, 2, d)]
    { s with brg := { s.brg with state := state, status := st.code, detail := d, result := none } }

/-! ### The Foreman and the stockpile controller (R265, R455, R456) -/

/-- An update session ends with a status (R476, R489). -/
def sessionEnds (st : Status) (s : State) : State :=
  { s with sec := { s.sec with session := none, ready := true, phase := if st = .ok then 4 else 5, status := st.code } }

/-- What a reset of the Foreman does to a kind's boot state (Table 17-5). -/
def imgForeman (x : ImgSlot) : ImgSlot :=
  match x.st with
  | 1 => { x with st := 0, reserveValid := false }
  | 2 => { x with st := 4 }
  | _ => x

/-- What it does to every kind's. -/
def imgsForeman (t : Tbl ImgSlot) : Tbl ImgSlot := t.map (fun p => (p.1, imgForeman p.2))

/-- The Foreman partition is reset (R456): the step running and the session open end with ABORTED_BY_RESET, the duty is
forced, SPDM sessions end. [DEDUCED: log entry 104] -/
def foremanReset (cause : Nat) (s : State) : State :=
  let s := { s with
    brg := { s.brg with foreman := false, foremanAt := s.now, foremanCause := cause }
    thm := { s.thm with duty := 1024, forced := true }
    sec := { s.sec with imgs := imgsForeman s.sec.imgs, copying := [], spdms := []
                        foremanResetSinceReady := true } }
  let s := if s.chr.auxValve.isSome then s.emit (.valve 1024 s.chr.valveHz) else s
  let s := if s.sec.session.isSome then sessionEnds .abortedByReset s else s
  if s.brg.state = 1 then stepEnds 4 .abortedByReset 0 s else s

/-- The loader's copies between a slot and its reserve start (R473): the reserve over the slot in RESTORING, the slot into an
invalid reserve. [DEDUCED: log entry 115] -/
def startCopies (s : State) : State :=
  (List.range 6).foldl (fun s i =>
    let k := i + 1
    let x := s.img k
    if s.sec.copying.any (fun c => c.1 == k) then s
    else if x.st = 4 then { s with sec := { s.sec with copying := s.sec.copying ++ [(k, true)] } }
    else if x.st = 0 ∧ x.reserveValid = false ∧ x.run.isSome = true then
      let s := s.setImg k { x with st := 1, reserve := none }
      { s with sec := { s.sec with copying := s.sec.copying ++ [(k, false)] } }
    else s) s

/-- Copies run after READY, or at once in the ROM recovery (R473). -/
def copiesRun (s : State) : Bool := s.brg.foreman && (s.sec.readyAt.isSome || s.sec.recovery)

/-- The stockpile controller is reset (R265, R455): the stockpile enters self-refresh and running shards are aborted. -/
def stockCtrlReset (s : State) : State :=
  millAbort { s with brg := { s.brg with stockReset := true, stockSelf := true } }

/-- The stack runs with the recovery identity (R442). -/
def recovering (s : State) : Bool := s.brg.state == 5 || (s.brg.powered && !s.brg.charterDone && s.brg.chResult != 0)

/-- The SMBus interface answers: from the end of CHARTER, while STOPPED too, and throughout a recovery boot (R513). -/
def smbUp (s : State) : Bool := s.brg.charterDone || recovering s

/-- STOCKPILE_CTRL_RESET. -/
def execStockpileCtrlReset (s : State) : Res := .next (stockCtrlReset s)

/-- STOCKPILE_CTRL_RESET_END: the controller serves again; while the stack is STOPPED the stockpile stays in self-refresh
(R265, R433). -/
def execStockpileCtrlResetEnd (s : State) : Res :=
  .next (if s.brg.stockReset then serveHeld { s with brg := { s.brg with stockReset := false, stockSelf := s.thm.stopped } }
    else s)

/-- FOREMAN_RESET: 0 lockstep mismatch, 1 loss of MCLK. -/
def execForemanReset (cause : Nat) (s : State) : Res := .next (if s.brg.powered then foremanReset cause s else s)

/-- FOREMAN_RESUME: within 5 ms of the reset the held events enter the log, with FOREMAN_RESET after them, and copies that
were cut off start again (R456, R473). [DEDUCED: log entry 104] -/
def execForemanResume (s : State) : Res :=
  .next (
    if s.brg.foreman then s
    else
      let lost := s.evt.lost
      let s := logEvent 0x01 0 0x0605 [(0, 1, s.brg.foremanCause), (4, 4, lost)] (flushHeld s)
      if copiesRun s then startCopies s else s)

/-- POWER_ON: every rail is in its recommended range; the Foreman starts from its boot ROM after a cold reset (R438).
[DESIGN CHOICE: log entry 88] -/
def execPowerOn (s : State) : Res := .next (coldReset s)

/-- The key of BRG_CTRL.warm_reset (Table 16-11). [DEDUCED: log entry 85] -/
def warmKey (v : Word) : Bool := bit 16 v.toNat && bits 15 8 v.toNat == 0xA5

/-- A write of BRG_CTRL (Table 16-11), ignored while the Foreman is in reset (R456). [DEDUCED: log entry 105] -/
def brgCtrlWrite (v : Word) (s : State) : State :=
  if !s.brg.foreman then s
  else
    let s := { s with brg := { s.brg with keepDram := bit 0 v.toNat, discard := s.brg.discard || bit 1 v.toNat } }
    if warmKey v then warmReset 3 true s else s

/-- WARM_RESET: a write of BRG_CTRL. [DEDUCED: log entry 85] -/
def execWarmReset (r : Requester) (v : Word) (s : State) : Res := .next (if reachesRegs r then brgCtrlWrite v s else s)

/-- SURVEY_DISCARD: a write of BRG_CTRL that sets survey_discard and leaves keep_dram as it is. [DEDUCED: log entry 105] -/
def execSurveyDiscard (r : Requester) (s : State) : Res :=
  .next (if reachesRegs r then brgCtrlWrite (BitVec.ofNat 32 (2 + b2n s.brg.keepDram)) s else s)

end Sys2Proof.Machine
end

