-- ==== Sys2Proof/Machine/PowerOps.lean ====
section
/-! DEFINITION. What galleries share (14_clocks_power.md): core caps, the effective point, requests to the ledger, parking and
unparking, fences, and the survey's copies (R451, R458). -/

namespace Sys2Proof.Machine

/-! ### Cores (R394, R396) -/

/-- The crew of core `n` of a gallery (R414). -/
def coreCrew (g n : Nat) : Nat := (crewsOf g).getD (if n < 8 then n / 2 else (n - 8) % 4) 0

/-- The core exists (Table 14-13). -/
def corePresent (s : State) (g n : Nat) : Bool := s.crewPresent (coreCrew g n)

/-- The core is present and not fenced. -/
def coreLive (s : State) (g n : Nat) : Bool :=
  let c := coreCrew g n
  corePresent s g n && !(s.crew c).fenced && (decide (8 ≤ n) || (s.hewer c (n % 2)).fenceCause == 0)

/-- No live core would keep fewer than 8 edges of 16 at a point (R396). -/
def pointAllowed (s : State) (g p : Nat) : Bool :=
  (List.range 16).all (fun n => !coreLive s g n || decide (8 ≤ keepOf s g n (pointMv p) p))

/-- GAL_VF_STAT.core_limit (R396). -/
def coreLimit (s : State) (g : Nat) : Nat := ((List.range 16).filter (pointAllowed s g)).getLastD 0

/-- k of every core, as the clock generator's frequency and the setpoint now give it (R394). -/
def recomputeK (g : Nat) (s : State) : State :=
  (List.range 16).foldl (fun s n =>
    s.setCore g n { s.core g n with k := keepOf s g n (mvNow s g) (s.gal g).point }) s

/-! ### The effective point (R399, R400) -/

/-- The thermal clamp: the lowest point any cause requires; 16 is none (R425). -/
def thermalClamp (x : Gal) : Nat := x.causes.foldl (fun m c => min m c.2.pt) 16

/-- The sag clamp; 16 is none (R413). -/
def sagClampOf (s : State) : Nat := if s.pwr.sagClamp then 8 else 16

/-- The lowest active clamp; 16 is none (Table 14-9). -/
def clampOf (s : State) (x : Gal) : Nat := min (min (thermalClamp x) x.coolantClamp) (min x.ledgerClamp (sagClampOf s))

/-- The effective point (R399). [DEDUCED: log entry 89] -/
def effPoint (s : State) (g : Nat) : Nat :=
  min (min (s.gal g).target s.chr.galPmax) (min (coreLimit s g) (clampOf s (s.gal g)))

/-- A park reason is set (R411). -/
def Gal.reasons (x : Gal) : Bool := x.park || x.rThermal || x.rCoolant || x.rFence || x.rBoot

/-! ### Requests to the ledger (R400, R410) -/

/-- A gallery's request is withdrawn, with what it was granted and has not drawn. [DESIGN CHOICE: log entry 90] -/
def withdraw (g : Nat) (s : State) : State :=
  let s := { s with pwr := { s.pwr with queue := s.pwr.queue.filter (fun q => q.1 != g)
                                        fresh := s.pwr.fresh.filter (fun q => q.1 != g), granted := s.pwr.granted.del g } }
  s.setGal g { s.gal g with waiting := false, raiseOk := false }

/-- A request is made: an amount in 0.125 A, for a raise or an unpark (R410). -/
def requestLedger (g amt : Nat) (isRaise : Bool) (s : State) : State :=
  { s with pwr := { s.pwr with fresh := s.pwr.fresh ++ [(g, amt, isRaise, false)] } }

/-- What a raise asks for: A·(f_new·V_new/(f_old·V_old) − 1) in 0.125 A, rounded up (R400). [DESIGN CHOICE: log entry 90] -/
def raiseAmount (acct p q : Nat) : Nat :=
  let old := pointMhz p * pointMv p
  (2 * acct * (pointMhz q * pointMv q - old) + old - 1) / old

/-- The governor acts on the effective point: a waiting raise that it falls below is withdrawn, and a higher point is
requested; a transition in flight is let end (R399, R400). [DESIGN CHOICE: log entry 90] -/
def govern (g : Nat) (s : State) : State :=
  let eff := effPoint s g
  let x := s.gal g
  let s := if (x.waiting || x.raiseOk) && decide (eff < x.goal) then withdraw g s else s
  let x := s.gal g
  if x.moving || x.waiting || x.raiseOk || x.reasons || x.parked || x.ramp != 0 || decide (eff ≤ x.point) then s
  else requestLedger g (raiseAmount x.account x.point eff) true (s.setGal g { x with waiting := true, goal := eff })

/-- Every gallery's governor acts. -/
def governAll (s : State) : State := (List.range 32).foldl (fun s g => govern g s) s

/-! ### Park and unpark (R33, R411, R412) -/

/-- The steps of the ramp under way: 8, or 16 under a partial grant. -/
def rampSteps (x : Gal) : Nat := if x.partial_ then 16 else 8

/-- The tokens of a gallery's hewers are released (R33). -/
def galTokens (g : Nat) (s : State) : State :=
  (crewsOf g).foldl (fun s c => tokRelease (layerOf c) (colOf c 1) (tokRelease (layerOf c) (colOf c 0) s)) s

/-- HCLK stops between edges: a token taken during the ramp is released too (R33), time that counts running HCLK stops (R150,
R170). [DESIGN CHOICE: log entry 94] -/
def clockStop (g : Nat) (s : State) : State :=
  let x := s.gal g
  galTokens g (s.setGal g { x with parked := true, ramp := 0, step := 0, partial_ := false
                                   stopAt := if x.stopAt.isSome then x.stopAt else some s.now })

/-- HCLK runs again: waits of the tallies and requests held at the face stores go on (R106, R170). -/
def clockStart (g : Nat) (s : State) : State :=
  let x := s.gal g
  let s := s.setGal g { x with parked := false, stopAt := none
                               stoppedNs := match x.stopAt with | some t => x.stoppedNs + (s.now - t) | none => x.stoppedNs }
  serveHeld ((crewsOf g).foldl (fun s c => wakeArr c (wakeCpl c s)) s)

/-- The first park reason is set: the gallery's tokens are released, the request is withdrawn, a raise stops where it stands,
and the gallery ramps down, from the step it has reached where it was ramping up (R33, R400, R411, R412).
[DEDUCED: log entry 93] -/
def beginPark (g : Nat) (s : State) : State :=
  let v := mvNow s g
  let s := withdraw g s
  let x := s.gal g
  let x := { x with unparkAmt := max x.account (4 * s.chr.unparkMin) }
  let x := if x.moving && decide (x.point < x.goal) then { x with moving := false, mv := v, goal := x.point } else x
  let x := if x.parked then x
    else if x.ramp = 2 then { x with ramp := 1, step := rampSteps x + 1 - x.step }
    else if x.ramp = 1 then x
    else { x with ramp := 1, step := 1, partial_ := false }
  galTokens g (recomputeK g (s.setGal g x))

/-- The last park reason clears: the unpark is requested (R412). [DEDUCED: log entry 93] -/
def beginUnpark (g : Nat) (s : State) : State :=
  let x := s.gal g
  requestLedger g (2 * (max x.unparkAmt (4 * s.chr.unparkMin) - x.account)) false s

/-- A gallery's park reasons change (R411, R412). [DEDUCED: log entry 129] -/
def setReasons (g : Nat) (f : Gal → Gal) (s : State) : State :=
  let was := (s.gal g).reasons
  let s := s.setGal g (f (s.gal g))
  let is := (s.gal g).reasons
  if !was && is then beginPark g s else if was && !is then beginUnpark g s else s

/-- An unpark is granted: it ramps up in 8 steps, or 16 under a partial grant, from where it stands (R412). -/
def unparkGranted (g : Nat) (full : Bool) (s : State) : State :=
  let x := s.gal g
  if x.ramp = 2 then s
  else
    let d := if full then 8 else 16
    let step := if x.ramp = 1 then (rampSteps x - x.step) * d / rampSteps x + 1 else 1
    let s := s.setGal g { x with ramp := 2, step := step, partial_ := !full, halfDrawn := false }
    if x.parked then clockStart g s else s

/-- A grant takes effect: a raise may slew once it is whole, an unpark ramps at once (R410). -/
def granted (g : Nat) (isRaise full : Bool) (s : State) : State :=
  if isRaise then
    if full then s.setGal g { s.gal g with waiting := false, raiseOk := true } else s
  else unparkGranted g full s

/-- A gallery is parked and fenced (Table 1-7, R393, R402): its crews are fenced and the loss is to be recorded. `stop`: its
HCLK is gone. -/
def fenceGal (g : Nat) (stop : Bool) (s : State) : State :=
  if (s.gal g).fenced then s
  else
    let s := setReasons g (fun x => { x with rFence := true, fenced := true }) s
    let s := if stop then clockStop g s else s
    let s := { s with glb := { s.glb with galFenced := setAdd g s.glb.galFenced } }
    noteLoss 2 g 3 ((crewsOf g).foldl (fun s c => if s.crewPresent c then fenceCrew c 4 s else s) s)

/-! ### The survey (R451, R458) -/

/-- The survey marks a unit bad. -/
def surveyBad (es : List SurveyEnt) (grain index : Nat) : Bool := es.any (fun e => e.kind == 1 && e.grain == grain && e.index == index)

/-- UNIT_MARKED_BAD (R458). -/
def logBad (grain index cause : Nat) : State → State := logEvent 0x13 0 0x0603 [(0, 2, grain), (2, 1, cause), (4, 4, index)]

/-- The in-service losses become unit-bad entries, each logged once (R458). [DESIGN CHOICE: log entry 86] -/
def recordLosses : List (Nat × Nat × Nat × Nat) → List SurveyEnt → State → List SurveyEnt × State
  | [], es, s => (es, s)
  | u :: rest, es, s =>
    if surveyBad es u.1 u.2.1 then recordLosses rest es s
    else recordLosses rest (es ++ [{ kind := 1, cause := u.2.2.1, grain := u.1, index := u.2.1, data := 0 }])
      (logBad u.1 u.2.1 u.2.2.1 s)

/-- The interrupt that an event raises whatever EVT_IRQ_MASK selects (R413, R432, R479); where the mask selects it, the log
has raised it. [DEDUCED: log entry 97] -/
def raiseIrq (code : Nat) (s : State) : State :=
  if bit (code / 256) s.chr.irqMask then s else msix 0 1 { s with evt := { s.evt with irq := true } }

end Sys2Proof.Machine
end

