-- ==== Sys2Proof/Machine/Power.lean ====
section
/-! DEFINITION. Clocks and power delivery (14_clocks_power.md): clock loss, ageing, V/F points, droop, DEMAND frames, the
ledger, park ramps and rail monitors; the survey's writes (R458) and TRACE (R507). -/

namespace Sys2Proof.Machine

/-! ### TRACE (R496, R507) -/

/-- A record as Table 18-4 lays it out. -/
def recordBytes (seq : Word) (e : Event) : List Byte :=
  leBytes 4 seq.toNat ++ leBytes 8 e.time.toNat ++ leBytes 2 (e.blk * 2048 + e.inst % 2048) ++ leBytes 2 e.code
    ++ e.data.take 16 ++ List.replicate (16 - e.data.length) 0

/-- TRACE_RECORD: the sync byte and the next waiting record; the pins are driven after CHARTER (R506). -/
def execTraceRecord (s : State) : Res :=
  .next (
    match s.evt.trace with
    | (n, e) :: rest =>
      if s.chr.auxTrace.isSome ∧ s.brg.charterDone = true then
        ({ s with evt := { s.evt with trace := rest } }).emit (.trace (0xA5 :: recordBytes n e))
      else s
    | [] => s)

/-! ### Clock loss (R393, Table 14-1) -/

/-- CLOCK_LOSS: 0 core reference, 1 NCLK, 2 BCLK, 3 SCLK, 4 OCLK, 5 MCLK, 6 PCLK, 7 KCLK, 8 a gallery's HCLK.
[DESIGN CHOICE: log entry 94] -/
def execClockLoss (domain gallery : Nat) (s : State) : Res :=
  .next (
    if s.brg.powered = false ∨ 8 < domain ∨ 31 < gallery then s
    else
      let k := s.clk
      let k := if domain = 8 then { k with hclk := true, gallery := gallery }
        else if domain = 5 then { k with lost := Nat.lor k.lost (2 ^ domain), fallback := true }
        else { k with lost := Nat.lor k.lost (2 ^ domain) }
      let s := logEvent 0x05 0 0x0404 [(0, 1, domain), (1, 1, if domain = 8 then gallery else 0)] { s with clk := k }
      if domain = 8 then fenceGal gallery true s
      else if domain = 7 then stockCtrlReset s
      else if domain = 6 then pcieReset true false { s with clk := { s.clk with pclkLost := true } }
      else if domain = 5 then foremanReset 1 s
      else warmReset 2 true s)

/-! ### Ageing and the survey (R397, R458) -/

/-- One core's slack: the smallest of the current second, or the first of a new one (R397). -/
def cpmTake (g n : Nat) (v : Int) (s : State) : State :=
  let c := s.core g n
  let fresh := match c.slack with
    | none => true
    | some m => decide (c.slackAt + 1000000000 ≤ s.now) && decide (Config.guardBand (16 * g + n) ≤ m)
  s.setCore g n (if fresh then { c with slack := some v, slackAt := s.now }
    else { c with slack := c.slack.map (fun m => if v < m then v else m) })

/-- CPM_MEASURE: gallery, core and slack of each core measured, of those whose clock runs. [DESIGN CHOICE: log entry 18] -/
def execCpmMeasure (slacks : List (Nat × Nat × Int)) (s : State) : Res :=
  .next (slacks.foldl (fun s p =>
    if p.1 < 32 ∧ p.2.1 < 16 ∧ s.running p.1 = true ∧ corePresent s p.1 p.2.1 = true then cpmTake p.1 p.2.1 p.2.2 s else s) s)

/-- AGEING_REDUCTION: the smallest slack over 1 s is below the guard band; a cap at 0.90 V that falls below 3.2 GHz is
logged and marks the core's crew bad (R397, R458). -/
def execAgeingReduction (g n : Nat) (s : State) : Res :=
  .next (
    let c := s.core g n
    match c.slack with
    | none => s
    | some m =>
      if g < 32 ∧ n < 16 ∧ s.brg.foreman = true ∧ c.slackAt + 1000000000 ≤ s.now ∧ m < Config.guardBand (16 * g + n) then
        let s := s.setCore g n { c with aged := c.aged + 1, slack := none, slackAt := s.now }
        let s := { s with brg := { s.brg with ageUnwritten := s.brg.ageUnwritten ++ [(16 * g + n, c.aged + 1, s.now)] } }
        let s := recomputeK g s
        let cap := capAt s g n 900
        let s := if cap < 3200 ∧ c.fmaxLogged = false then
            noteLoss 1 (coreCrew g n) 4 (logEvent 0x07 g 0x0405 [(0, 1, g), (1, 1, n), (2, 2, cap)]
              (s.setCore g n { s.core g n with fmaxLogged := true }))
          else s
        govern g s
      else s)

/-- SURVEY_WRITE: losses, lane remaps and ageing changes of this service are recorded, in the other copy (R451, R458). -/
def execSurveyWrite (s : State) : Res :=
  .next (
    let b := s.brg
    if b.foreman = false ∨ (b.unwritten = [] ∧ b.ageUnwritten = [] ∧ b.remapUnwritten = []) then s
    else
      let r := recordLosses b.unwritten (surveyEntries s) s
      let es := r.1
        ++ b.ageUnwritten.map (fun a => { kind := 3, cause := 0, grain := 2, index := a.1, data := a.2.1 : SurveyEnt })
        ++ b.remapUnwritten.map (fun m => { kind := 2, cause := 0, grain := 4, index := m.1, data := m.2.1 + 65536 * m.2.2 : SurveyEnt })
      let s := writeSurvey es r.2
      { s with brg := { s.brg with unwritten := [], ageUnwritten := [], remapUnwritten := [] } })

/-! ### V/F points (R399, R400) -/

/-- A write of GAL_VF_CFG (Table 14-8): droop_trip is locked at the commit and takes 40 for a value outside 20 to 60. -/
def galCfgWrite (r : Requester) (g : Nat) (v : Word) (s : State) : State :=
  let x := s.gal g
  let t := bits 15 8 v.toNat
  let s := s.setGal g { x with
    target := bits 3 0 v.toNat
    droopTrip := if s.committed then x.droopTrip else if 20 ≤ t ∧ t ≤ 60 then t else 40 }
  let s := if s.committed ∧ t ≠ x.droopTrip then logIgnored 0x07 g r (0x2000000 + 0x10000 * g + 0x100) 0 s else s
  govern g s

/-- VF_TARGET_WRITE: a write of GAL_VF_CFG. -/
def execVfTargetWrite (r : Requester) (g : Nat) (v : Word) (s : State) : Res :=
  .next (if reachesRegs r = true ∧ g < 32 then galCfgWrite r g v s else s)

/-- VF_RAISE: the regulator slews up towards the point whose grant is whole. -/
def execVfRaise (g : Nat) (s : State) : Res :=
  .next (
    let x := s.gal g
    if g < 32 ∧ x.raiseOk = true ∧ x.moving = false ∧ x.reasons = false then
      s.setGal g { x with moving := true, raiseOk := false, slewAt := s.now }
    else s)

/-- VF_LOWER: f_g changes first, then the regulator slews down; also a voltage that a park left above the point's. -/
def execVfLower (g : Nat) (s : State) : Res :=
  .next (
    let x := s.gal g
    let eff := effPoint s g
    if g < 32 ∧ x.moving = false ∧ x.fenced = false
        ∧ (eff < x.point ∨ (eff = x.point ∧ pointMv eff < x.mv ∧ x.raiseOk = false ∧ x.waiting = false)) then
      let s := if x.waiting || x.raiseOk then withdraw g s else s
      recomputeK g (s.setGal g { s.gal g with point := eff, goal := eff, moving := true, slewAt := s.now })
    else s)

/-- VF_SLEW_DONE: the voltage has moved at 10 mV/µs; a raise changes f_g, and its grant is drawn. -/
def execVfSlewDone (g : Nat) (s : State) : Res :=
  .next (
    let x := s.gal g
    let v := pointMv x.goal
    if g < 32 ∧ x.moving = true ∧ x.slewAt + 100 * (v - x.mv + (x.mv - v)) ≤ s.now then
      let s := { s with pwr := { s.pwr with granted := if x.point < x.goal then s.pwr.granted.del g else s.pwr.granted } }
      govern g (recomputeK g (s.setGal g { x with moving := false, mv := v, point := x.goal }))
    else s)

/-! ### Droop and the ramp limit (R402 to R406) -/

/-- The lowest sensor reading and when it was first seen (R403). [DEDUCED: log entry 127] -/
def noteReading (g mv : Nat) (s : State) : State :=
  let x := s.gal g
  if mv < x.vmin then s.setGal g { x with vmin := mv, droopTs := s.tclk } else s

/-- DROOP_TRIP: the minimum sensor reads `mv`. [DEDUCED: log entry 127] -/
def execDroopTrip (g mv : Nat) (s : State) : Res :=
  .next (
    if 31 < g then s
    else
      let s := noteReading g mv s
      let x := s.gal g
      if mv + x.droopTrip < mvNow s g ∧ s.running g = true ∧ x.dropping = false then
        s.setGal g { x with dropping := true, events := satInc 0xFFFF x.events }
      else s)

/-- DROOP_RECOVER: the reading has stayed at `mv` or above for 50 ns. [DEDUCED: log entry 127] -/
def execDroopRecover (g mv : Nat) (s : State) : Res :=
  .next (
    let s := if g < 32 then noteReading g mv s else s
    let x := s.gal g
    if g < 32 ∧ x.dropping = true ∧ 2 * mvNow s g < 2 * mv + x.droopTrip then s.setGal g { x with dropping := false } else s)

/-- The ramp limit in A/µs, which is also the limit over 250 ns in units of 0.25 A (R406). -/
def rampLimit (s : State) : Nat := if s.chr.boardDemand then s.chr.galSlew else 50

/-- RAMP_LIMIT_TRIP: the current has risen by `rise` units of 0.25 A over the window of 250 ns; above the limit the check
trips, and within it full edges resume. -/
def execRampLimitTrip (g rise : Nat) (s : State) : Res :=
  .next (
    let x := s.gal g
    if 31 < g then s
    else if rampLimit s < rise then
      if s.running g = true ∧ x.rampTrip = false then
        s.setGal g { x with rampTrip := true, events := satInc 0xFFFF x.events }
      else s
    else s.setGal g { x with rampTrip := false })

/-- GAL_DROOP re-armed (R403). -/
def droopRearm (g : Nat) (s : State) : State := s.setGal g { s.gal g with vmin := 0x3FF, droopTs := 0 }

/-- DROOP_REARM. -/
def execDroopRearm (r : Requester) (g : Nat) (s : State) : Res :=
  .next (if reachesRegs r = true ∧ g < 32 then droopRearm g s else s)

/-- The output is beyond a limit of its setpoint, or its current beyond 90 A: 0 over-voltage, 1 under-voltage, 2 over-current
(R402). -/
def regFaults (s : State) (g kind mv cur : Nat) : Bool :=
  match kind with
  | 0 => decide (mvNow s g + 80 < mv)
  | 1 => decide (mv + 100 < mvNow s g)
  | 2 => decide (360 < cur)
  | _ => false

/-- What the registers of a crew hold is lost with its gallery's supply, and nothing says what they show then (R402). -/
def loseCrew (c : Nat) (s : State) : State :=
  let v := fun i => Config.freeValue (s.free + i)
  let s := [0, 1].foldl (fun s h => s.setHewer c h { s.hewer c h with
    retries := v (5 * h) % 65536, tblParity := v (5 * h + 1) % 256, resends := v (5 * h + 2) % 65536, occ := v (5 * h + 3) % 2048
    act := [], shd := [] }) s
  let s := s.setDresser c { s.dresser c with
    retries := v 10 % 65536, faultOp := v 11 % 256, parity := v 12 % 256, sqWait := v 13 % 256, sat := v 14 % 2 == 1
    inv := v 15 % 2 == 1 }
  let s := s.setCrew c { s.crew c with
    progress := v 16 % 65536, counts := (List.range 16).map (fun i => (i, BitVec.ofNat 32 (v (17 + i)))) }
  { s with free := s.free + 33 }

/-- REG_FAULT: 0 over-voltage, 1 under-voltage, 2 over-current, with the output in mV and the current in 0.25 A. Whether the
regulator must switch its output off is not in the command: it is free, and the gallery's state goes with the output.
[DESIGN CHOICE: log entry 94] -/
def execRegFault (g kind : Nat) (out : Nat × Nat) (s : State) : Res :=
  .next (
    if 31 < g ∨ regFaults s g kind out.1 out.2 = false ∨ (s.gal g).fenced = true then s
    else
      let s := logEvent 0x07 g 0x0406 [(0, 1, g), (1, 1, kind), (2, 2, out.1)] s
      let f := s.fresh
      let s := fenceGal g false f.2
      if f.1 % 2 = 1 then
        (crewsOf g).foldl (fun s c => if s.crewPresent c then loseCrew c s else s) (s.setGal g { s.gal g with lostState := true })
      else s)

/-! ### DEMAND frames (R407) -/

/-- A sum of steps in 0.25 A times mV as VIN_IVR amperes, to the nearest; of two equally near, the free bit chooses. -/
def demandAmps (x : Int) (up : Bool) : Int :=
  let q := x / 6480
  let r := x % 6480
  if 3240 < r ∨ (r = 3240 ∧ up = true) then q + 1 else q

/-- The nine nibbles of a frame (Table 14-4). [DESIGN CHOICE: log entry 95] -/
def demandNibbles (step : Int) (lead seq : Nat) : List Nat :=
  let t := tc 12 step
  let body := [t / 256, t / 16 % 16, t % 16, lead / 256 % 16, lead / 16 % 16, lead % 16, seq % 16]
  0xA :: body ++ [body.foldl Nat.xor 0]

/-- DEMAND_FRAME: the earliest slot's frame, if its sum is not zero. [DESIGN CHOICE: log entry 95] -/
def execDemandFrame (s : State) : Res :=
  .next (
    match s.pwr.steps with
    | [] => s
    | (slot, x) :: rest =>
      if s.chr.boardDemand = false then s
      else
        let s := { s with pwr := { s.pwr with steps := rest } }
        let f := s.fresh
        let s := if x % 6480 = 3240 then f.2 else s
        let a := demandAmps x (f.1 % 2 == 1)
        if a = 0 then s
        else
          let lead := slot * 250 - s.tclk.toNat
          let p := s.pwr
          let q := (p.seq + 1) % 16
          let s := { s with pwr := { p with seq := q, frames := satInc 0xFFFF p.frames
                                            late := if lead < 1000 then satInc 0xFF p.late else p.late } }
          s.emit (.demand ((demandNibbles a (min 0xFFF (lead / 50)) q).map (BitVec.ofNat 8))))

/-! ### The ledger (R408 to R410) -/

/-- The headroom in 0.125 A. -/
def headroom8 (s : State) : Int :=
  let accounts := (List.range 32).foldl (fun n g => n + 2 * (s.gal g).account) 0
  let out := s.pwr.granted.foldl (fun n p => n + p.2) 0
  ((8 * s.chr.ledgerLimit : Nat) : Int) - (accounts : Nat) - (out : Nat)

/-- A gallery's account: its measured current and its pending notice steps (R408). -/
def accountTake (g m : Nat) (s : State) : State :=
  let x := s.gal g
  let ns := x.notices.filter (fun n => decide (s.tclk.toNat < n.2.1))
  let sum := ns.foldl (fun a n => a + n.2.2.1) (0 : Int)
  s.setGal g { x with measured := m, notices := ns, account := max m ((m : Int) + sum).toNat }

/-- Requests of the same microsecond join the queue in an order that is not defined (R410). [DESIGN CHOICE: log entry 91] -/
def settle : Nat → State → State
  | 0, s => s
  | n + 1, s =>
    if s.pwr.fresh = [] then s
    else
      let f := s.fresh
      let i := f.1 % s.pwr.fresh.length
      let s := f.2
      let s := { s with pwr := { s.pwr with queue := s.pwr.queue ++ (s.pwr.fresh.drop i).take 1, fresh := listDel s.pwr.fresh i } }
      settle n s

/-- The head of the queue is granted, granted in part or waits; a full grant lets the next one be served (R410).
[DESIGN CHOICE: log entry 91] -/
def serveQueue : Nat → State → State
  | 0, s => s
  | n + 1, s =>
    match s.pwr.queue with
    | [] => s
    | (g, r, isRaise, half) :: rest =>
      let h := headroom8 s
      let p := s.pwr
      if (r : Int) ≤ h then
        serveQueue n (granted g isRaise true
          { s with pwr := { p with queue := rest, granted := Tbl.put p.granted g (Tbl.look 0 p.granted g + r) } })
      else if half = false ∧ (r : Int) ≤ 2 * h ∧ 0 < r then
        granted g isRaise false
          { s with pwr := { p with queue := (g, r - r / 2, isRaise, true) :: rest
                                   granted := Tbl.put p.granted g (Tbl.look 0 p.granted g + r / 2) } }
      else s

/-- The measured sum, in 0.25 A. -/
def measuredSum (s : State) : Nat := (List.range 32).foldl (fun n g => n + (s.gal g).measured) 0

/-- The excess over LEDGER_LIMIT and the time below 95% of it (R409). [DEDUCED: log entry 92] -/
def overTrack (s : State) : State :=
  let sum := measuredSum s
  let p := s.pwr
  let over_ := decide (4 * s.chr.ledgerLimit < sum)
  { s with pwr := { p with
      over_ := over_
      overSince := if over_ then (if p.overSince.isSome then p.overSince else some s.now) else none
      overLogged := over_ && p.overLogged
      underSince := if 100 * sum < 95 * (4 * s.chr.ledgerLimit) then (if p.underSince.isSome then p.underSince else some s.now)
        else none } }

/-- LEDGER_EVALUATE: every gallery's current over the last 1 µs, in 0.25 A. [DESIGN CHOICE: log entry 91] -/
def execLedgerEvaluate (measured : List Nat) (s : State) : Res :=
  .next (
    if s.brg.foreman = false then s
    else
      let s := (List.range 32).foldl (fun s g => accountTake g (measured.getD g 0) s) s
      let s := overTrack (settle s.pwr.fresh.length s)
      let s := if s.pwr.sagActive then s else serveQueue s.pwr.queue.length s
      { s with pwr := { s.pwr with headroom := headroom8 s / 2 } })

/-- The highest effective point of the galleries that run. -/
def topPoint (s : State) : Nat :=
  ((List.range 32).filter s.running).foldl (fun m g => max m (effPoint s g)) 0

/-- LEDGER_OVER: the excess has lasted 10 µs, or 10 µs more (R409). [DEDUCED: log entry 92] -/
def execLedgerOver (s : State) : Res :=
  .next (
    match s.pwr.overSince with
    | none => s
    | some t =>
      if s.pwr.over_ = true ∧ t + 10000 ≤ s.now then
        let top := topPoint s
        let gs := (List.range 32).filter (fun g => s.running g && effPoint s g == top)
        let s' := gs.foldl (fun s g => s.setGal g { s.gal g with ledgerClamp := top - 1 }) s
        let s' := { s' with pwr := { s'.pwr with overSince := some s.now, overLogged := true } }
        let s' := if s.pwr.overLogged then s'
          else logEvent 0x03 0 0x0401 [(0, 4, measuredSum s / 4), (4, 4, s.chr.ledgerLimit)] s'
        governAll s'
      else s)

/-- LEDGER_CLAMP_RELEASE: 1 ms below 95% of the limit; every ledger clamp rises one point (R409). Clamps are not raised while
the Foreman is in reset (R456). -/
def execLedgerClampRelease (s : State) : Res :=
  .next (
    match s.pwr.underSince with
    | none => s
    | some t =>
      if s.brg.foreman = true ∧ t + 1000000 ≤ s.now ∧ (List.range 32).any (fun g => (s.gal g).ledgerClamp < 16) = true then
        let s' := (List.range 32).foldl (fun s g => s.setGal g { s.gal g with ledgerClamp := min 16 ((s.gal g).ledgerClamp + 1) }) s
        governAll { s' with pwr := { s'.pwr with underSince := some s.now } }
      else s)

/-! ### Park and unpark (R411, R412) -/

/-- A write of GAL_CTRL. [DEDUCED: log entry 129] -/
def galCtrlWrite (g : Nat) (v : Word) (s : State) : State := setReasons g (fun x => { x with park := bit 0 v.toNat }) s

/-- GAL_PARK_WRITE. [DEDUCED: log entry 129] -/
def execGalParkWrite (r : Requester) (g : Nat) (v : Word) (s : State) : Res :=
  .next (if reachesRegs r = true ∧ g < 32 then galCtrlWrite g v s else s)

/-- PARK_RAMP_STEP: one step down; after the last, HCLK stops with every state retained. [DEDUCED: log entry 93] -/
def execParkRampStep (g : Nat) (s : State) : Res :=
  .next (
    let x := s.gal g
    if g < 32 ∧ x.ramp = 1 then
      if x.step < rampSteps x then s.setGal g { x with step := x.step + 1 } else clockStop g s
    else s)

/-- Half of the gallery's unpark request is still queued (R412). -/
def halfWaits (s : State) (g : Nat) : Bool := s.pwr.queue.any (fun q => q.1 == g)

/-- The half of a partial grant whose ramp has ended with step 8 is drawn (R408). -/
def drawHalf (g : Nat) (s : State) : State :=
  if (s.gal g).halfDrawn then s
  else
    let q := Tbl.look 0 s.pwr.granted g
    let half := match s.pwr.queue.find? (fun q => q.1 == g) with | some _ => q | none => q / 2
    ({ s with pwr := { s.pwr with granted := Tbl.put s.pwr.granted g (q - half) } }).setGal g { s.gal g with halfDrawn := true }

/-- UNPARK_RAMP_STEP: one step up, held at step 8 while the rest of a partial grant waits; a granted amount is drawn when the
ramp it granted has ended: the half of a partial grant at step 8, the rest, or a whole grant, after the last step, when the
gallery has its full edges (R408). [DEDUCED: log entry 93] -/
def execUnparkRampStep (g : Nat) (s : State) : Res :=
  .next (
    let x := s.gal g
    if g < 32 ∧ x.ramp = 2 then
      let s := if x.step = 8 ∧ x.partial_ = true then drawHalf g s else s
      let x := s.gal g
      if x.step = 8 ∧ x.partial_ = true ∧ halfWaits s g = true then s
      else if x.step < rampSteps x then s.setGal g { x with step := x.step + 1 }
      else
        let s := s.setGal g { x with ramp := 0, step := 0, partial_ := false }
        govern g { s with pwr := { s.pwr with granted := s.pwr.granted.del g } }
    else s)

/-! ### Rail monitors (R413, Table 14-6) -/

/-- A rail's nominal in mV where its thresholds are fractions of it: VDD_DRAM (4), VPP (5). -/
def railNominal (s : State) (rail : Nat) : Nat := if rail = 4 then s.chr.vddDramNom else s.chr.vppNom

/-- A reading is below the rail's warning threshold. Rails are numbered as PWR_SAG_STAT.reset_rail. -/
def warnsAt (s : State) (rail mv : Nat) : Bool :=
  if rail = 1 then decide (mv < 1700) else if rail = 3 then decide (mv < 710)
  else (rail == 4 || rail == 5) && decide (100 * mv < 95 * railNominal s rail)

/-- A reading is beyond a reset threshold of the rail; 1 is VIN_IVR low, 2 VIN_IVR high. -/
def resetsAt (s : State) (rail mv : Nat) : Bool :=
  match rail with
  | 1 => decide (mv < 1600)
  | 2 => decide (1950 < mv)
  | 3 => decide (mv < 680) || decide (830 < mv)
  | 4 => decide (100 * mv < 90 * railNominal s 4) || decide (110 * railNominal s 4 < 100 * mv)
  | 5 => decide (100 * mv < 90 * railNominal s 5) || decide (110 * railNominal s 5 < 100 * mv)
  | _ => false

/-- A reading is above the value at which the rail's warning clears (Table 14-6). -/
def clearsAt (s : State) (rail mv : Nat) : Bool :=
  if rail = 1 then decide (1730 < mv) else if rail = 3 then decide (720 < mv)
  else decide (96 * railNominal s rail < 100 * mv)

/-- The lowest reading of VIN_IVR in units of 2 mV (Table 14-16). -/
def noteVin (rail mv : Nat) (s : State) : State :=
  if rail = 1 ∨ rail = 2 then { s with pwr := { s.pwr with vinMin := min s.pwr.vinMin (mv / 2) } } else s

/-- RAIL_WARNING. [DEDUCED: log entry 97] -/
def execRailWarning (rail mv : Nat) (s : State) : Res :=
  .next (
    let s := noteVin rail mv s
    if warnsAt s rail mv = true ∧ s.pwr.warn.contains rail = false then
      let p := s.pwr
      let s := { s with pwr := { p with warn := p.warn ++ [rail], warned := true, sagActive := true, clearAt := none
                                        sagClamp := p.sagClamp || p.sagClampEn } }
      let s := logEvent 0x03 0 0x0402 [(0, 1, rail), (2, 2, mv)] s
      governAll (if s.pwr.sagIrq then raiseIrq 0x0402 s else s)
    else s)

/-- RAIL_WARNING_CLEAR: the rail's reading is above the value at which its warning clears. -/
def execRailWarningClear (rail : Nat × Nat) (s : State) : Res :=
  .next (
    let s := noteVin rail.1 rail.2 s
    if s.pwr.warn.contains rail.1 = true ∧ clearsAt s rail.1 rail.2 = true then
      let w := s.pwr.warn.filter (· != rail.1)
      { s with pwr := { s.pwr with warn := w, clearAt := if w = [] then some s.now else s.pwr.clearAt } }
    else s)

/-- SAG_CLAMP_LIFT: 1 ms after the warning clears. -/
def execSagClampLift (s : State) : Res :=
  .next (
    match s.pwr.clearAt with
    | none => s
    | some t =>
      if t + 1000000 ≤ s.now then
        governAll { s with pwr := { s.pwr with sagActive := false, sagClamp := false, clearAt := none } }
      else s)

/-- PWR_SAG_RESET: the rail and its reading; the stockpile and the seams lose their contents with VDD_DRAM (R265). -/
def execPwrSagReset (rail mv : Nat) (s : State) : Res :=
  .next (
    if s.brg.powered = true ∧ resetsAt s rail mv = true then
      let s := noteVin rail mv s
      let s := logEvent 0x03 0 0x0403 [(0, 1, rail), (2, 2, mv)] { s with pwr := { s.pwr with resetRail := rail } }
      warmReset 1 (rail != 4) s
    else s)

end Sys2Proof.Machine
end

