-- ==== Sys2Proof/Machine/Thermal.lean ====
section
/-! DEFINITION. Thermal control and cooling (15_thermal_cooling.md): canaries and pair rules, the layer model, clamps and park
reasons, coolant flow and the valve, STOPPED and the restart, PLDM monitoring. Temperatures are in units of 0.125 °C. -/

namespace Sys2Proof.Machine

/-! ### Canaries and pairs (R416 to R419) -/

/-- The position of a DRAM layer in Table 1-1. -/
def dramPos (k : Nat) : Nat := 2 + k + k / 3

/-- The position of a compute layer. -/
def compPos (n : Nat) : Nat := 5 + 4 * n

/-- The layer position of a sensor: 0 to 239 as THM_CAN_n, then two diodes for each pair. -/
def sensorPos (n : Nat) : Nat :=
  if n < 192 then dramPos (n / 16) else if n < 208 then 1 else if n < 240 then 0 else compPos ((n - 240) / 96)

/-- A sensor as event data give it (R523). -/
def sensorCode (n : Nat) : Nat := if n < 240 then n else (n - 240) / 2 + 0x8000 * ((n - 240) % 2)

/-- A reading as event data give it: 0x8000 for a failed diode (R523). -/
def readingCode (c : Canary) : Nat := if c.failed then 0x8000 else tc 16 c.reading

/-- The hard-trip threshold of a sensor (Table 15-3). [DEDUCED: log entry 60] -/
def tripAt (n : Nat) : Int := if n < 192 then 840 else 880

/-- A sensor with a reading that rules may use (R417). -/
def Canary.good (c : Canary) : Bool := c.have_ && !c.failed

/-- The reading of a sensor, where it has one. -/
def canValue (s : State) (n : Nat) : Option Int := if (s.can n).good then some (s.can n).reading else none

/-- The highest of some readings. -/
def highest (l : List (Option Int)) : Option Int :=
  l.foldl (fun m v => match m, v with | some a, some b => some (max a b) | none, v => v | m, none => m) none

/-- A pair becomes suspect, logged the first time (R419). -/
def pairSuspect (p : Nat) (s : State) : State :=
  let x := s.pair p
  if x.suspect then s
  else
    logEvent 0x04 0 0x0504 [(0, 1, compPos (p / 48)), (2, 2, p), (4, 2, readingCode (s.can (240 + 2 * p))),
      (6, 2, readingCode (s.can (241 + 2 * p)))] (s.setPair p { x with suspect := true })

/-- A time since which a condition has held. -/
def since (now : Nat) (c : Bool) (t : Option Nat) : Option Nat := if c then some (t.getD now) else none

/-- The condition has held for `d` ns. -/
def held (now d : Nat) (t : Option Nat) : Bool := match t with | some a => decide (a + d ≤ now) | none => false

/-- The rules of Table 15-2 on a pair. -/
def pairRules (p : Nat) (s : State) : State :=
  let a := s.can (240 + 2 * p)
  let b := s.can (241 + 2 * p)
  if a.failed || b.failed then pairSuspect p s
  else if a.have_ && b.have_ then
    let d := (a.reading - b.reading).natAbs
    let x := s.pair p
    let x := { x with apart3Since := since s.now (decide (24 < d)) x.apart3Since
                      within3Since := since s.now (decide (d ≤ 24)) x.within3Since
                      apart8Since := since s.now (decide (64 < d)) x.apart8Since }
    let x := if held s.now 1000000 x.apart3Since then { x with disagree := true }
      else if held s.now 1000000 x.within3Since then { x with disagree := false } else x
    let s := s.setPair p x
    if held s.now 100000000 x.apart8Since then pairSuspect p s else s
  else s

/-- A canary is failed after three failed or out-of-range conversions in a row, and logged (R417). [DEDUCED: log entry 98] -/
def canFail (n : Nat) (s : State) : State :=
  logEvent 0x04 0 0x0506 [(0, 1, 0), (2, 2, sensorCode n)]
    ({ s with thm := { s.thm with tripAsserted := setDel n s.thm.tripAsserted } }.setCan n
      { s.can n with failed := true, bad := 3 })

/-- CANARY_CONVERT: a conversion and its reading; none is a conversion that fails. A failed canary takes no further part. The
trip comparators are independent of it (R426). [DEDUCED: log entry 98] -/
def execCanaryConvert (sensor : Nat) (reading : Option Int) (s : State) : Res :=
  .next (
    let x := s.can sensor
    if s.brg.powered = false ∨ 623 < sensor ∨ x.failed = true then s
    else
      let ok := match reading with | some v => decide (-320 ≤ v) && decide (v ≤ 1200) | none => false
      let s := if ok then
          s.setCan sensor { x with reading := reading.getD 0, have_ := true, bad := 0 }
        else if x.bad = 2 then canFail sensor s
        else s.setCan sensor { x with bad := x.bad + 1 }
      if 240 ≤ sensor then pairRules ((sensor - 240) / 2) s else s)

/-! ### Gallery temperatures (R418, R420 to R423) -/

/-- The value a pair yields (Table 15-2); a mean that falls between two units is taken down, which no threshold can tell.
[DEDUCED: log entry 99] -/
def pairUsed (s : State) (p : Nat) : Option Int :=
  let a := canValue s (240 + 2 * p)
  let b := canValue s (241 + 2 * p)
  let x := s.pair p
  let m : Option Int := if s.thm.evaluated then some (s.gal (8 * (p / 48) + p % 48 / 6)).model else none
  if x.suspect then highest [a, b, m]
  else if x.disagree then highest [a, b]
  else match a, b with
    | some u, some v => some ((u + v) / 2)
    | some u, none => some u
    | none, v => v

/-- S_g: the highest used value of a gallery's six pairs (R422). [DEDUCED: log entry 99] -/
def galS (s : State) (g : Nat) : Option Int :=
  highest ((List.range 6).map (fun i => pairUsed s (48 * (g / 8) + 6 * (g % 8) + i)))

/-- The two blocks a footprint covers (R416). -/
def blocksOfFoot (f : Nat) : List Nat := [4 * (f / 2) + 2 * (f % 2), 4 * (f / 2) + 2 * (f % 2) + 1]

/-- The floor of a gallery of C1 or C2 (R421). -/
def floorOf (s : State) (g : Nat) : Option Int :=
  let ls : List Nat := if g / 8 = 1 then [5, 6] else if g / 8 = 2 then [8, 9] else []
  (highest (ls.flatMap (fun k => (blocksOfFoot (g % 8)).map (fun b => canValue s (16 * k + b))))).map
    (fun v => v - 8 * (s.chr.floorMargin : Nat))

/-- The model value of a gallery, once an evaluation has run. -/
def modelOf (s : State) (g : Nat) : Option Int := if s.thm.evaluated then some (s.gal g).model else none

/-- D_g (R423). -/
def galD (s : State) (g : Nat) : Option Int :=
  match highest [modelOf s g, floorOf s g], galS s g with
  | some m, some v => some (m - v)
  | _, _ => none

/-- T_g and what set it: 0 pairs, 1 model, 2 floor (R422, Table 15-12). [DEDUCED: log entry 99] -/
def galT (s : State) (g : Nat) : Option Int × Nat :=
  let v := galS s g
  if s.thm.suspect.contains (g / 8) then
    let t := highest [v, modelOf s g, floorOf s g]
    (t, if t = v then 0 else if t = modelOf s g then 1 else 2)
  else (v, 0)

/-- The inputs of the thermal model: each gallery's power, the seams' traffic counts, the VDD_BASE current, and the boundary
temperatures (R420). -/
def modelInputs (s : State) (traffic : List Nat) (base : Nat) : List Int :=
  (List.range 32).map (fun g => (((s.gal g).measured * mvNow s g : Nat) : Int))
    ++ (List.range 768).map (fun n => ((traffic.getD n 0 : Nat) : Int)) ++ [(base : Int)]
    ++ (if s.chr.air then [s.thm.airInlet] else [s.thm.inlet, s.thm.outlet])

/-- What the Foreman measures for the thermal model and no command carries, free values: the seams' traffic counts and the
VDD_BASE current (R420). [DESIGN CHOICE: log entry 16] -/
def modelMeasures (s : State) : State × List Nat × Nat :=
  ({ s with free := s.free + 769 }, (List.range 768).map (fun n => Config.freeValue (s.free + n)), Config.freeValue (s.free + 768))

/-- The model's 144 nodes are evaluated, and the galleries take their values (R420). [DESIGN CHOICE: log entry 16] -/
def modelRun (traffic : List Nat) (base : Nat) (s : State) : State :=
  let old := (List.range 144).map (fun i => Tbl.look 0 s.thm.nodes i)
  let ins := modelInputs s traffic base
  let ns : Tbl Int := (List.range 144).map (fun i => (i, Config.thermalNode s.chr.thermalModel old ins i))
  let s := { s with thm := { s.thm with nodes := ns, evaluated := true } }
  (List.range 32).foldl (fun s g => s.setGal g { s.gal g with model := Tbl.look 0 ns (8 * compPos (g / 8) + g % 8) }) s

/-- The galleries of a compute layer. -/
def layerGals (n : Nat) : List Nat := (List.range 8).map (· + 8 * n)

/-- A cause of a gallery's thermal clamp replaced. -/
def setCause (g key : Nat) (c : Cause) (s : State) : State :=
  s.setGal g { s.gal g with causes := Tbl.put (s.gal g).causes key c }

/-- A cause removed. -/
def dropCause (g key : Nat) (s : State) : State := s.setGal g { s.gal g with causes := (s.gal g).causes.del key }

/-- The gallery of a layer with the largest D_g, and that D_g. -/
def worstD (s : State) (n : Nat) : Nat × Int :=
  (layerGals n).foldl (fun w g => match galD s g with | some d => if w.2 < d then (g, d) else w | none => w) (8 * n, -32768)

/-- The flag of a compute layer is set or clears (R423). -/
def layerFlag (s : State) (n : Nat) : State :=
  let s := (layerGals n).foldl (fun s g => s.setGal g { s.gal g with
    dgSince := since s.now (match galD s g with | some d => decide (48 < d) | none => false) (s.gal g).dgSince }) s
  let t := s.thm
  if t.suspect.contains n then
    let low := (layerGals n).all (fun g => match galD s g with | some d => decide (d ≤ 24) | none => true)
    let q := since s.now low (Tbl.look? t.dgLow n)
    if held s.now 10000000000 q then
      let s := { s with thm := { t with suspect := setDel n t.suspect, dgLow := t.dgLow.del n }
                        layerSuspect := !(setDel n t.suspect).isEmpty }
      (layerGals n).foldl (fun s g => dropCause g 200 s) s
    else { s with thm := { t with dgLow := match q with | some a => Tbl.put t.dgLow n a | none => t.dgLow.del n } }
  else if (layerGals n).any (fun g => held s.now 10000000 (s.gal g).dgSince) then
    let w := worstD s n
    let s := logEvent 0x04 0 0x0505 [(0, 1, n), (1, 1, w.1), (2, 2, tc 16 w.2)]
      { s with thm := { t with suspect := setAdd n t.suspect, seen := setAdd n t.seen, dgLow := t.dgLow.del n }, layerSuspect := true }
    (layerGals n).foldl (fun s g => setCause g 200 { pt := 8 } s) s
  else s

/-! ### Thresholds and responses (R424, R425) -/

/-- The DRAM canaries that concern a gallery: its footprint's blocks on the fuse groups next to its layer (R424). -/
def concerns (g : Nat) : List Nat :=
  ((List.range 6).map (· + 3 * (g / 8))).filter (· < 12) |>.flatMap (fun k => (blocksOfFoot (g % 8)).map (· + 16 * k))

/-- Event data of a thermal cause: the gallery, T_g or a canary, its temperature, and a clamp.
[DESIGN CHOICE: log entry 27] -/
def causeData (g key : Nat) (v : Int) (clamp : Nat) : List (Nat × Nat × Nat) :=
  [(0, 1, g), (1, 1, if key = 0 then 0 else 1), (2, 2, tc 16 v), (4, 1, clamp), (6, 2, if key = 0 then 0 else key - 1)]

/-- The clamp episode of a cause (R424, R425). [DEDUCED: log entry 100] -/
def clampEpisode (g key : Nat) (v : Option Int) (onset : Int) (s : State) : State :=
  let c := Tbl.look {} (s.gal g).causes key
  match v.filter (fun t => decide (onset ≤ t)) with
  | some t =>
    if c.active then setCause g key { c with pt := c.pt - 1 } s
    else
      let p := effPoint s g - 1
      logEvent 0x07 g 0x0501 (causeData g key t p) (setCause g key { c with active := true, pt := p, riseAt := none } s)
  | none =>
    if c.active && held s.now 10000000 c.coolSince then setCause g key { c with active := false, riseAt := some s.now } s else s

/-- The park episode of a cause; when T_g's ends, a thermal clamp above P8 is lowered to P8 (R424, R425). -/
def parkEpisode (g key : Nat) (v : Option Int) (s : State) : State :=
  let c := Tbl.look {} (s.gal g).causes key
  if !c.park && held s.now 1000000 c.hotSince then
    logEvent 0x07 g 0x0502 (causeData g key (v.getD 0) 0) (setCause g key { c with park := true } s)
  else if c.park && held s.now 10000000 c.coolSince then
    let t := thermalClamp (s.gal g)
    setCause g key (if key = 0 ∧ 8 < t ∧ t < 16 then { c with park := false, pt := 8 } else { c with park := false }) s
  else s

/-- One cause of a gallery at an evaluation: its value (none for a failed canary, which reads below every end value), and the
thresholds of Table 15-3. [DEDUCED: log entry 100] -/
def causeStep (g key : Nat) (v : Option Int) (onset end_ hot : Int) (s : State) : State :=
  let c := Tbl.look {} (s.gal g).causes key
  if v.isNone ∧ c = {} then s
  else
    let below := match v with | some t => decide (t < end_) | none => true
    let c := { c with coolSince := since s.now below c.coolSince
                      hotSince := since s.now (match v with | some t => decide (hot ≤ t) | none => false) c.hotSince }
    parkEpisode g key v (clampEpisode g key v onset (setCause g key c s))

/-- Every cause of a gallery, then its thermal park reason (R425). -/
def galResponses (s : State) (g : Nat) : State :=
  let t := galT s g
  let s := s.setGal g { s.gal g with tg := t.1.getD (s.gal g).tg, src := t.2 }
  let s := if t.1.isSome then causeStep g 0 t.1 760 736 816 s else s
  let s := (concerns g).foldl (fun s n => causeStep g (1 + n) (canValue s n) 744 720 760 s) s
  setReasons g (fun x => { x with rThermal := x.causes.any (fun c => c.2.park) }) s

/-- Doubled refresh of a DRAM layer (R424). [DEDUCED: log entry 100] -/
def dramRefresh (s : State) (k : Nat) : State :=
  let ns := (List.range 16).map (· + 16 * k)
  let t := s.thm
  if t.doubled.contains k then
    let q := since s.now (ns.all (fun n => match canValue s n with | some v => decide (v < 664) | none => true)) (Tbl.look? t.coolSince k)
    if held s.now 1000000000 q then { s with thm := { t with doubled := setDel k t.doubled, coolSince := t.coolSince.del k } }
    else { s with thm := { t with coolSince := match q with | some a => Tbl.put t.coolSince k a | none => t.coolSince.del k } }
  else
    match ns.find? (fun n => match canValue s n with | some v => decide (680 ≤ v) | none => false) with
    | some n => logEvent 0x04 0 0x0507 [(0, 1, dramPos k), (1, 1, n % 16), (2, 2, tc 16 (s.can n).reading)]
        { s with thm := { t with doubled := setAdd k t.doubled } }
    | none => s

/-- BASE_WARN of a canary of B or S, once in a crossing (R424). -/
def baseWarn (s : State) (n : Nat) : State :=
  let x := s.can n
  match canValue s n with
  | none => s
  | some v =>
    if 800 ≤ v then
      if x.warned then s
      else logEvent 0x04 0 0x050B [(0, 2, n), (2, 2, tc 16 v)] (s.setCan n { x with warned := true })
    else s.setCan n { x with warned := false }

/-- A duty within its range (R429). -/
def dutyOf (s : State) (v : Int) : Nat := (clampInt (s.chr.valveMin : Nat) 1024 v).toNat

/-- The duty changes, and the valve pin with it where one is assigned (R429, R522). -/
def setDuty (d : Nat) (forced : Bool) (s : State) : State :=
  let s := { s with thm := { s.thm with duty := d, forced := forced } }
  if s.chr.auxValve.isSome then s.emit (.valve d s.chr.valveHz) else s

/-- When each step of a forecast ends, as TCLK: after its duration, or, with duration 0, when the step of the crew's next
notice begins; none while there is no such notice (R427). [DEDUCED: log entry 101] -/
def forecastEnds : List (Nat × Nat × Int × Nat) → List ((Nat × Nat × Int × Nat) × Option Nat)
  | [] => []
  | n :: rest =>
    (n, if n.2.2.2 ≠ 0 then some (n.2.1 + 1000 * n.2.2.2) else (rest.find? (fun m => m.1 == n.1)).map (·.2.1)) :: forecastEnds rest

/-- The forecast's steps that still hold (R427). -/
def forecastKeep (s : State) (x : Gal) : List (Nat × Nat × Int × Nat) :=
  ((forecastEnds x.forecast).filter (fun p => p.2.all (fun t => decide (s.tclk.toNat < t)))).map (·.1)

/-- A gallery's part of the forecast's inputs: its power scaled by f·V² to its effective point, as a numerator and a
denominator, and its steps: start, end (0: none), and ΔI times the setpoint (R427). -/
def forecastInputs (s : State) (g : Nat) : List Int :=
  let x := s.gal g
  let p := effPoint s g
  [((x.measured * mvNow s g * (pointMhz p * pointMv p ^ 2) : Nat) : Int), ((pointMhz x.point * mvNow s g ^ 2 : Nat) : Int)]
    ++ (forecastEnds x.forecast).flatMap (fun n => [(n.1.2.1 : Int), ((n.2.getD 0 : Nat) : Int), n.1.2.2.1 * (mvNow s g : Nat)])

/-- The forecast (R427): the duty is raised to what the loop would reach for the predicted outlet, and galleries predicted to
reach 95 °C have their thermal clamp lowered by one point. [DESIGN CHOICE: log entry 16; DEDUCED: log entry 101] -/
def forecastRun (traffic : List Nat) (base : Nat) (s : State) : State :=
  if s.thm.forecastMs = 0 then s
  else
    let s := (List.range 32).foldl (fun s g => s.setGal g { s.gal g with forecast := forecastKeep s (s.gal g) }) s
    let old := (List.range 144).map (fun i => Tbl.look 0 s.thm.nodes i)
    let ins := modelInputs s traffic base ++ (s.tclk.toNat : Int) :: (List.range 32).flatMap (forecastInputs s)
    let p := Config.thermalForecast s.chr.thermalModel old ins
    let h := s.thm.forecastMs
    let s := if s.chr.air || s.thm.forced then s
      else setDuty (max s.thm.duty (dutyOf s (Config.piDuty s.chr.gains s.thm.integ (p h 32 - (s.chr.outSet : Nat))))) false s
    (List.range 32).foldl (fun s g =>
      if (List.range h).any (fun t => decide (760 ≤ p (t + 1) g)) then setCause g 202 { pt := min (thermalClamp (s.gal g)) 15 - 1, riseAt := some s.now } s else s) s

/-- MODEL_EVALUATE: the model, layer flags, T_g, the responses and the forecast, every 1 ms. -/
def execModelEvaluate (s : State) : Res :=
  .next (
    if s.brg.powered = false ∨ s.brg.foreman = false then s
    else
      let m := modelMeasures s
      let s := modelRun m.2.1 m.2.2 m.1
      let s := (List.range 4).foldl layerFlag s
      let s := (List.range 32).foldl galResponses s
      let s := (List.range 12).foldl dramRefresh s
      let s := (List.range 48).foldl (fun s i => baseWarn s (192 + i)) s
      governAll (forecastRun m.2.1 m.2.2 s))

/-- Whether a cause's clamp may rise now: 10 ms after it last rose or began to, and its value below the end value for 10 ms
(R425, R434). -/
def mayRise (s : State) (g key : Nat) (c : Cause) : Bool :=
  decide (c.pt < 16) && !c.active && held s.now 10000000 c.riseAt &&
    (key == 201 || (if key = 202 then decide ((s.gal g).tg < 736) else held s.now 10000000 c.coolSince))

/-- THERMAL_CLAMP_RISE: every rising cause whose time has come rises one point, and is removed past P15. Clamps are not
raised while the Foreman is in reset (R456). -/
def execThermalClampRise (g : Nat) (s : State) : Res :=
  .next (
    if 31 < g ∨ s.brg.foreman = false then s
    else
      govern g ((s.gal g).causes.foldl (fun s e =>
        if mayRise s g e.1 e.2 then setCause g e.1 { e.2 with pt := e.2.pt + 1, riseAt := if e.2.pt = 15 then none else some s.now } s
        else s) s))

/-! ### STOPPED (R426, R432 to R434) -/

/-- The stack enters STOPPED with a cause bit of THM_STOP (Table 15-5); in STOPPED the bit only joins the cause. `ev` logs
the entry. [DESIGN CHOICE: log entry 102] -/
def stopStack (causeBit : Nat) (code : Nat) (ev : State → State) (s : State) : State :=
  let t := s.thm
  let s := { s with thm := { t with stopped := true, cause := Nat.lor t.cause causeBit } }
  if t.stopped then s
  else
    let s := setDuty 1024 true { s with thm := { s.thm with stopAt := s.now, unparkQ := [] } }
    let s := (List.range 32).foldl (fun s g => setReasons g (fun x => { x with rCoolant := true }) s) s
    let s := (List.range 48).foldl (fun s a => stopAdit a s) s
    let s := ((List.range 768).filter s.seamPresent).foldl (fun s n => seamSleep n s) s
    let s := { s with brg := { s.brg with stockSelf := true } }
    driveSync (raiseIrq code (ev s))

/-- COOLANT_STOP (R432). -/
def logCoolantStop (s : State) : State :=
  logEvent 0x04 0 0x0509 [(0, 1, s.thm.cause), (1, 1, s.thm.flow), (2, 2, s.thm.dp)] s

/-- HARD_TRIP: a sensor's comparator crosses its threshold: upwards it trips the stack, downwards it is no longer asserted;
a failed diode does not trip (R426). [DEDUCED: log entry 60] -/
def execHardTrip (sensor : Nat) (reading : Int) (s : State) : Res :=
  .next (
    if reading < tripAt sensor then { s with thm := { s.thm with tripAsserted := setDel sensor s.thm.tripAsserted } }
    else if s.brg.powered = true ∧ sensor < 624 ∧ (s.can sensor).failed = false then
      let s := { s with thm := { s.thm with tripAsserted := setAdd sensor s.thm.tripAsserted } }
      stopStack 4 0x0503 (logEvent 0x04 0 0x0503 [(0, 1, sensorPos sensor), (2, 2, sensorCode sensor), (4, 2, tc 16 reading)]) s
    else s)

/-- The stack runs in channel mode with its charter applied. -/
def State.channel (s : State) : Bool := s.brg.charterDone && !s.chr.air

/-- FLOW_OK_LOW: FLOW_OK has been low for 0.5 µs (R432, R509). [DESIGN CHOICE: log entry 102] -/
def execFlowOkLow (s : State) : Res :=
  .next (if s.channel && s.chr.flowOkEn then stopStack 1 0x0509 logCoolantStop s else s)

/-- DP_COLLAPSE: dp has been below 25% of DP_NOM for 1 ms (R432). -/
def execDpCollapse (s : State) : Res :=
  .next (if s.channel && held s.now 1000000 s.thm.dpLowSince then stopStack 2 0x0509 logCoolantStop s else s)

/-- Flow as a fraction of FLOW_NOM in percent: numerator and denominator (R428). -/
def flowFrac (s : State) : Nat × Nat :=
  if s.chr.flowSrcPressure || s.thm.pulseFailed then (100 * s.thm.dp, s.chr.dpNom)
  else (60000000 * s.thm.pulseWin.foldl (· + ·) 0, s.chr.flowK * s.chr.flowNom)

/-- A level's entry value in percent (Table 15-4). -/
def entryAt (level : Nat) : Nat := if level = 1 then 85 else if level = 2 then 70 else 50

/-- A level's exit value in percent (Table 15-4). -/
def exitAt (level : Nat) : Nat := if level = 1 then 90 else if level = 2 then 75 else 55

/-- The flow is reported and held against the levels (R428, R430). -/
def flowTake (s : State) : State :=
  let f := flowFrac s
  let t := s.thm
  let bs := [1, 2, 3].foldl (fun (b : Tbl Nat) l =>
    if f.1 < entryAt l * f.2 then Tbl.put b l ((Tbl.look? b l).getD s.now) else b.del l) t.belowSince
  { s with thm := { t with
      flow := if f.2 = 0 then 255 else min 255 (f.1 / f.2), belowSince := bs
      aboveSince := since s.now (decide (0 < t.level) && decide (exitAt t.level * f.2 < f.1)) t.aboveSince } }

/-- THM_RESTART's failing conditions, as the event's bits (R434). FLOW_OK's level is an input no command carries: free. -/
def restartFails (s : State) (flowOk : Bool) : Nat :=
  let f := flowFrac s
  b2n (!s.thm.tripAsserted.isEmpty)
    + 2 * b2n ((List.range 624).any (fun n => match canValue s n with | some v => decide (720 ≤ v) | none => false))
    + if s.chr.air then 0 else
      4 * b2n (s.chr.flowOkEn && !flowOk) + 8 * b2n (decide (2 * s.thm.dp < s.chr.dpNom)) + 16 * b2n (decide (f.1 < 85 * f.2))

/-- An accepted restart, in the order of R434; at level PARK the galleries that the level parks stay parked (R430).
[DEDUCED: log entry 103] -/
def restartStack (s : State) : State :=
  let t0 := s.thm.stopAt
  let s := { s with brg := { s.brg with stockSelf := s.brg.stockReset, stepPaused := s.brg.stepPaused + (s.now - max t0 s.brg.stepAt) } }
  let s := ((List.range 768).filter s.seamPresent).foldl (fun s n => seamExit n s) s
  let s := millResume t0 { s with thm := { s.thm with stopped := false, cause := 0 } }
  let s := (List.range 48).foldl (fun s a => if (s.adit a).state = 7 ∧ (s.adit a).cause = 12 then aditStart a s else s) s
  let s := (List.range 32).foldl (fun s g =>
    let x := s.gal g
    let cs := x.causes.map (fun c => (c.1, { c.2 with pt := if c.2.pt < 16 then 8 else 16 }))
    s.setGal g { x with causes := Tbl.put cs 201 { pt := 8, riseAt := some s.now } }) s
  let q := (List.range 32).filter (fun g => (s.gal g).rCoolant && (s.thm.level != 3 || bit g s.chr.coolKeep))
  let s := { s with thm := { s.thm with unparkQ := q } }
  serveHeld (driveSync (governAll s))

/-- A write of THM_STOP.restart (R434). [DEDUCED: log entry 103] -/
def restartWrite (s : State) : State :=
  if !s.thm.stopped then s
  else
    let f := s.fresh
    let s := if !s.chr.air && s.chr.flowOkEn then f.2 else s
    let why := restartFails s (f.1 % 2 == 1)
    let s := logEvent 0x04 0 0x050A [(0, 1, if why = 0 then 0 else 1), (1, 1, why)] s
    if why = 0 then restartStack s else { s with thm := { s.thm with refused := true } }

/-- THM_RESTART. [DESIGN CHOICE: log entry 102] -/
def execThmRestart (r : Requester) (s : State) : Res := .next (if reachesRegs r then restartWrite s else s)

/-! ### Coolant (R428 to R431, R435) -/

/-- COOLANT_SAMPLE: inlet and outlet temperature and differential pressure in 0.1 kPa; only channel mode has the sensors. -/
def execCoolantSample (inlet outlet : Int) (dp : Nat) (s : State) : Res :=
  .next (
    if s.channel then
      flowTake { s with thm := { s.thm with inlet := inlet, outlet := outlet, dp := dp
                                            dpLowSince := since s.now (decide (4 * dp < s.chr.dpNom)) s.thm.dpLowSince } }
    else s)

/-- FLOW_PULSE. -/
def execFlowPulse (s : State) : Res :=
  .next (if s.channel && s.chr.auxFlow.isSome then { s with thm := { s.thm with pulses := s.thm.pulses + 1, lastPulse := s.now } } else s)

/-- FLOW_WINDOW_UPDATE: the window of 100 ms moves on; no pulse for 100 ms while dp is above 50% fails the source. -/
def execFlowWindowUpdate (s : State) : Res :=
  .next (
    if s.channel = true ∧ s.chr.flowSrcPressure = false ∧ s.thm.pulseFailed = false then
      let t := s.thm
      let s := { s with thm := { t with pulseWin := (t.pulses :: t.pulseWin).take 10, pulses := 0 } }
      let s := if t.lastPulse + 100000000 ≤ s.now ∧ s.chr.dpNom < 2 * t.dp then
          logEvent 0x04 0 0x0506 [(0, 1, 4)] { s with thm := { s.thm with pulseFailed := true } }
        else s
      flowTake s
    else s)

/-- The responses of a flow level, from the level before (Table 15-4, R431). -/
def levelTake (old new : Nat) (s : State) : State :=
  let s := { s with thm := { s.thm with level := new, aboveSince := none }, flowClamp := decide (2 ≤ new) }
  let s := (List.range 32).foldl (fun s g => s.setGal g { s.gal g with coolantClamp := if 2 ≤ new then 8 else 16 }) s
  let s := if new = 3 then
      (List.range 32).foldl (fun s g => if bit g s.chr.coolKeep then s else setReasons g (fun x => { x with rCoolant := true }) s)
        { s with thm := { s.thm with unparkQ := [] } }
    else if old = 3 then { s with thm := { s.thm with unparkQ := (List.range 32).filter (fun g => (s.gal g).rCoolant) } }
    else s
  let s := if new ≠ 0 then setDuty 1024 true s else { s with thm := { s.thm with forced := s.thm.stopped } }
  governAll (logEvent 0x04 0 0x0508 [(0, 1, new), (1, 1, s.thm.flow), (2, 2, s.thm.dp)] s)

/-- The lowest level whose entry value flow has been below for 100 ms; 0 where there is none. -/
def levelDue (s : State) : Nat := ([1, 2, 3].filter (fun l => held s.now 100000000 (Tbl.look? s.thm.belowSince l))).getLastD 0

/-- FLOW_LEVEL: the level falls to the lowest that applies, or rises by one, which lifts clamps and waits while the Foreman
is in reset (R456). -/
def execFlowLevel (level : Nat) (s : State) : Res :=
  .next (
    let cur := s.thm.level
    if s.channel = true ∧ ((cur < level ∧ level = levelDue s) ∨ (level + 1 = cur ∧ s.brg.foreman = true
        ∧ held s.now 1000000000 s.thm.aboveSince = true)) then
      levelTake cur level s
    else s)

/-- COOLANT_UNPARK_TICK: the next gallery's coolant park reason clears (R431). -/
def execCoolantUnparkTick (s : State) : Res :=
  .next (
    match s.thm.unparkQ with
    | g :: rest =>
      if s.thm.stopped then s
      else setReasons g (fun x => { x with rCoolant := false }) { s with thm := { s.thm with unparkQ := rest } }
    | [] => s)

/-- The highest T_g of some galleries. -/
def hottest (s : State) (gs : List Nat) : Int :=
  (highest (gs.map (fun g => (galT s g).1))).getD 0

/-- VALVE_LOOP: the PI loop moves the valve's duty, or in air mode the fan's (R429, R435). [DESIGN CHOICE: log entry 17] -/
def execValveLoop (s : State) : Res :=
  .next (
    if s.brg.charterDone = false ∨ s.brg.foreman = false then s
    else if s.chr.air then
      let err := hottest s (List.range 32) - (s.chr.airTarget : Nat)
      let d := dutyOf s (Config.piDuty s.chr.gains s.thm.integ err)
      setDuty (if s.thm.stopped then 1024 else d) s.thm.stopped
        { s with thm := { s.thm with integ := Config.piInteg s.chr.gains s.thm.integ err } }
    else if s.thm.level ≠ 0 ∨ s.thm.stopped = true then setDuty 1024 true s
    else
      let err := s.thm.outlet - (s.chr.outSet : Nat)
      let f := flowFrac s
      let d := dutyOf s (Config.piDuty s.chr.gains s.thm.integ err)
      setDuty (if f.1 < 100 * f.2 then max d s.thm.duty else d) false
        { s with thm := { s.thm with integ := Config.piInteg s.chr.gains s.thm.integ err } })

/-! ### PLDM monitoring (R420, R436) -/

/-- The value of a numeric sensor (Table 15-6). [PRESUMED: log entry 61] -/
def pldmSensor (s : State) (id : Nat) : Option Int :=
  match id with
  | 1 => some s.thm.inlet
  | 2 => some s.thm.outlet
  | 3 => some (s.thm.dp : Nat)
  | 4 => some (s.thm.flow : Nat)
  | 5 => some (s.thm.duty : Nat)
  | 10 => some ((highest ((List.range 192).map (canValue s))).getD 0)
  | 11 => some (if s.thm.stopped then 4 else (s.thm.level : Nat))
  | n => if 6 ≤ n ∧ n ≤ 9 then some (hottest s (layerGals (n - 6))) else none

/-- PLDM_REQUEST: completion code 0, or 0x80 for a sensor that does not exist (PRESUMED, log entry 61); no answer while
SMBus does not serve (R513). -/
def execPldmRequest (q : PldmQuery) (s : State) : Res :=
  .next (
    if !smbUp s then s
    else match q with
      | .readSensor id => match pldmSensor s id with
        | some v => s.emit (.pldm 0 v)
        | none => s.emit (.pldm 0x80 0)
      | .setInletAir t => ({ s with thm := { s.thm with airInlet := t, airReportAt := some s.now } }).emit (.pldm 0 0))

/-- INLET_REPORT_TIMEOUT: no report for 10 s; the model uses 40 °C (R420). -/
def execInletReportTimeout (s : State) : Res :=
  .next (if held s.now 10000000000 s.thm.airReportAt then { s with thm := { s.thm with airInlet := 320, airReportAt := none } } else s)

end Sys2Proof.Machine
end

