-- ==== Sys2Proof/Machine/Charter.lean ====
section
/-! DEFINITION. The charter (16_bringup_repair.md): its fields, the checks of R440 and R441, and what a good charter sets. -/

namespace Sys2Proof.Machine

/-! ### Fields (R522, Table 16-14) -/

/-- What the image carries for a field. -/
def chField (img : CharterRead) (n : Nat) : Option (List Nat) := (img.fields.find? (fun f => f.1 == n)).map (·.2)

/-- A field of one value, or its default. -/
def chOne (img : CharterRead) (n d : Nat) : Nat :=
  match chField img n with
  | some [v] => v
  | _ => d

/-- A flag of the charter, or its default. -/
def chFlag (img : CharterRead) (n : Nat) (d : Bool) : Bool := chOne img n (b2n d) == 1

/-- The least and the greatest value of each field of one plain value (Table 16-14): temperatures in 0.125 °C, DP_NOM in
0.1 kPa, voltages in mV. -/
def chRanges : List (Nat × Nat × Nat) :=
  [(1, 0, 1), (2, 0, 1), (3, 0, 1), (4, 0, 65535), (5, 500, 3000), (6, 100, 1000), (7, 100, 25000), (8, 0, 1024), (10, 240, 520),
   (11, 480, 760), (12, 0, 15), (13, 0, 255), (14, 0, 0xFFFFFFFF), (16, 0, 1), (17, 1, 4), (18, 0, 255), (19, 0, 2), (20, 0, 255)]
  ++ [(29, 18, 21), (31, 0, 0xFFFFFFFFFFFFFFFF), (32, 1, 8), (33, 0, 1), (34, 0, 1), (35, 0, 1), (36, 0, 4095), (37, 0, 255),
   (38, 0, 1), (39, 0, 1), (40, 0, 65535), (41, 1, 255), (42, 1, 255), (43, 0, 1), (44, 96, 768), (45, 0, 1), (46, 0, 65535)]
  ++ [(47, 0, 15), (48, 0, 15), (49, 20, 60), (50, 0, 1), (51, 50, 200), (52, 100, 2400), (53, 0, 75), (54, 0, 1), (55, 0, 1),
   (56, 1000, 1100), (57, 1750, 1850), (58, 0, 16383), (59, 1, 512), (60, 0, 0xFFFFFFFF), (61, 0, 1), (62, 0, 1), (63, 0, 1)]
  ++ [(64, 0, 0xFFFFFFFFFFFF), (66, 0, 2), (67, 0, 1), (69, 1, 2), (71, 0, 255), (72, 0, 255), (73, 0, 15), (74, 0, 1),
   (75, 30, 40), (77, 8, 2048), (78, 8, 2048), (80, 8, 0x77)]

/-- The bin's first DPA and its size (R44). -/
def binBase : Nat := 0x10000000000
def binSize : Nat := 0x40000000

/-- A range of whole mebibytes within the bin (R45). -/
def privGood (base size : Nat) : Bool :=
  base % 0x100000 == 0 && size % 0x100000 == 0 && decide (binBase ≤ base) && decide (base + size ≤ binBase + binSize)

/-- The values a field carries lie in its range (Table 16-14). -/
def chInRange (log2 n : Nat) (v : List Nat) : Bool :=
  match v with
  | [x] =>
    match chRanges.find? (fun r => r.1 == n) with
    | some r => decide (r.2.1 ≤ x) && decide (x ≤ r.2.2) && (if n = 56 ∨ n = 57 then x % 10 == 0 else true)
    | none =>
      if n = 15 then true
      else if n = 30 then
        x % 2 ^ (log2 + 5) == 0 && decide (binBase ≤ x) && decide (x < binBase + binSize)
      else if n = 65 then decide (x ≤ 46) || x == 0x3F
      else if n = 68 then x == 1 || x == 2 || x == 4
      else false
  | [] => (decide (21 ≤ n) && decide (n ≤ 28)) || (decide (81 ≤ n) && decide (n ≤ 93))
  | [a, b] =>
    if n = 9 then true
    else if 21 ≤ n ∧ n ≤ 28 then privGood a b
    else if n = 79 then decide (a < 65536) && decide (b < 65536)
    else if n = 81 ∨ n = 84 then decide (a < 8) && decide (b < 2)
    else if n = 82 ∨ n = 83 then decide (a < 8) && (b == 2 || b == 3)
    else if 86 ≤ n ∧ n ≤ 93 then decide (a < 32) && decide (b < 2 ^ 32)
    else false
  | [a, b, c] =>
    if n = 70 then [a, b, c].all (fun x => decide (1 ≤ x) && decide (x ≤ 15))
    else if n = 85 then decide (a < 8) && decide (b < 8) && a != b && decide (c < 2)
    else false
  | _ => n == 76 && v.length == 32 && (List.range 16).all (fun i => decide (v.getD (2 * i) 0 < 2))

/-- The pairs of a list of values. -/
def pairsOf : List Nat → List (Nat × Nat)
  | a :: b :: rest => (a, b) :: pairsOf rest
  | _ => []

/-- BIN_PRIV_n as the charter gives it. -/
def chPriv (img : CharterRead) : List (Nat × Nat × Nat) :=
  (List.range 8).filterMap (fun i =>
    match chField img (21 + i) with
    | some [b, z] => some (i, b, z)
    | some _ => none
    | none => if i = 0 then some (0, 0x01003C000000, 0x4000000) else none)

/-- A pin and its timer. -/
def chAux (img : CharterRead) (n : Nat) : Option (Nat × Nat) :=
  match chField img n with
  | some [p, t] => some (p, t)
  | _ => none

/-- CHK_PRESET_n as the charter gives it. -/
def chPresets (img : CharterRead) : List (Nat × Nat × Nat) :=
  (List.range 8).filterMap (fun i => (chAux img (86 + i)).map (fun p => (i, p.1, p.2)))

/-- The charter's fields, with the default of each field that the image does not carry. -/
def chrOf (variantA : Bool) (img : CharterRead) : Chr :=
  let one := chOne img
  let flag := chFlag img
  { air := flag 1 variantA, flowOkEn := flag 2 true, flowSrcPressure := flag 3 true, flowK := one 4 0, flowNom := one 5 2000
    dpNom := one 6 400, valveHz := one 7 1000, valveMin := one 8 256
    gains := match chField img 9 with | some [p, i] => some (p, i) | _ => none
    outSet := one 10 400, airTarget := one 11 680, floorMargin := one 12 2, forecastMs := one 13 20, coolKeep := one 14 0x88442211
    thermalModel := match chField img 15 with | some [v] => some v | _ => none
    testMode := flag 16 false, testTokens := one 17 1, stripeMask := one 18 0x0F, seamArb := one 19 0, kvPool := one 20 0x80
    binPriv := chPriv img, veinLog2 := one 29 20, veinTable := one 30 0x01003E000000
    veinSeed := BitVec.ofNat 64 (one 31 0), veinChk := one 32 2, faceLauncherHost := flag 33 false, narrowHost := flag 34 true
    narrowFace := flag 35 true, faceLimit := one 36 200, sqWait := one 37 100, buddyEn := flag 38 true
    hewerCsum := flag 39 true, millStall := one 40 1000, eccLeak := one 41 10, eccThresh := one 42 64, scrubEn := flag 43 true
    scrubQuantum := one 44 768, residueEn := flag 45 true, irqMask := one 46 0x0038, galTarget := one 47 13
    galPmax := one 48 15, droopTrip := one 49 40, boardDemand := flag 50 false, galSlew := one 51 150
    ledgerLimit := one 52 (if variantA then 900 else 2400), unparkMin := one 53 20, sagIrq := flag 54 true
    sagClamp := flag 55 true, vddDramNom := one 56 1050, vppNom := one 57 1800, stackId := one 58 0, groups := one 59 1
    fieldId := one 60 0, winSeams := flag 61 true, winBin := flag 62 true, winStock := flag 63 true
    aditEnable := one 64 0x7FFFFFFFFFFF, aditSpare := one 65 0x3F, aditRate := one 66 0, aditFallback := flag 67 true
    aditMinWidth := one 68 1, aditRevMin := one 69 1, vcWeights := (chField img 70).getD [2, 2, 4], adaptT := one 71 32
    ordWait := one 72 20, gmPrio := one 73 0, nonmin := flag 74 true, bar2Log2 := one 75 40
    apertures := (chField img 76).map (fun v => (pairsOf v).map (fun p => if p.1 = 1 then some p.2 else none))
    msixPf := one 77 128, msixVf := one 78 128
    subsys := match chField img 79 with | some [v, i] => (v, i) | _ => (0, 0)
    smbAddr := one 80 0x4C, auxValve := chAux img 81, auxFlow := chAux img 82, auxPpsIn := chAux img 83, auxPpsOut := chAux img 84
    auxTrace := match chField img 85 with | some [c, d, t] => some (c, d, t) | _ => none
    chkPreset := chPresets img, crc := img.crc % 2 ^ 32 }

/-! ### Checks (R440, R441) -/

/-- A case of Table 16-1, recorded against the lowest-numbered field it names. -/
def chCase (variantA : Bool) (img : CharterRead) (c : Chr) (n : Nat) : Bool :=
  match n with
  | 1 => variantA && !c.air
  | 3 => !c.air && !c.flowSrcPressure && (c.auxFlow.isNone || c.flowK == 0)
  | 14 => ((List.range 32).filter (fun i => bit i c.coolKeep)).length != 8
  | 15 => (chField img 15).isNone
  | 20 => (List.range 8).any (fun j => bit j c.kvPool && bit j c.stripeMask)
  | 29 => !c.binPriv.any (fun p => decide (p.2.1 ≤ c.veinTable) && decide (c.veinTable + 32 * 2 ^ c.veinLog2 ≤ p.2.1 + p.2.2))
  | 58 => decide (c.groups ≤ c.stackId / 32)
  | 65 => c.aditSpare != 0x3F && !bit c.aditSpare c.aditEnable
  | 77 => decide (2048 < c.msixPf + 15 * c.msixVf)
  | _ => false

/-- The field fails the check. [DESIGN CHOICE: log entry 108] -/
def chInvalid (variantA : Bool) (img : CharterRead) (c : Chr) (n : Nat) : Bool :=
  (match chField img n with | some v => !chInRange c.veinLog2 n v | none => false) || chCase variantA img c n

/-- The lowest-numbered invalid field. [DESIGN CHOICE: log entry 107] -/
def chFirstInvalid (variantA : Bool) (img : CharterRead) : Option Nat :=
  (List.range 94).find? (chInvalid variantA img (chrOf variantA img))

/-- The features and the AUX pins (0x00 on), timers (0x10 on) and check units (0x20 on) they claim, in code order
(Table 16-2). -/
def chClaims (c : Chr) : List (Nat × Nat) :=
  let aux (code : Nat) (x : Option (Nat × Nat)) : List (Nat × Nat) :=
    match x with | some (p, t) => [(code, p), (code, 0x10 + t)] | none => []
  aux 1 c.auxValve ++ aux 2 c.auxFlow ++ aux 3 c.auxPpsIn ++ aux 4 c.auxPpsOut
    ++ (match c.auxTrace with | some (p, q, t) => [(5, p), (5, q), (5, 0x10 + t)] | none => [])
    ++ (List.range c.veinChk).map (fun u => (6, 0x20 + u)) ++ c.chkPreset.map (fun p => (8 + p.1, 0x20 + p.2.1))

/-- The lowest bin slice that two private ranges share, coded as a resource. -/
def privOverlap (p q : Nat × Nat × Nat) : Option Nat :=
  let lo := max p.2.1 q.2.1
  if lo < min (p.2.1 + p.2.2) (q.2.1 + q.2.2) then some (0x40 + (lo - binBase) / 0x1000000) else none

/-- The first two features that claim a resource. -/
def chConflictAt (c : Chr) (r : Nat) : Option (Nat × Nat) :=
  if r < 0x40 then
    match (chClaims c).filter (fun k => k.2 == r) with
    | a :: b :: _ => some (a.1, b.1)
    | _ => none
  else
    (c.binPriv.flatMap (fun p => c.binPriv.filterMap (fun q =>
      if p.1 < q.1 ∧ privOverlap p q = some r then some (0x10 + p.1, 0x10 + q.1) else none))).head?

/-- The first conflict, in ascending resource order: the two codes and the resource. [DESIGN CHOICE: log entry 108] -/
def chConflict (c : Chr) : Option (Nat × Nat × Nat) :=
  ((List.range 0x80).filterMap (fun r => (chConflictAt c r).map (fun k => (k.1, k.2, r)))).head?

/-! ### The end of CHARTER (R438, R442, R470, R481, R482) -/

/-- BRG_CHARTER (Table 16-10). [DESIGN CHOICE: log entry 108] -/
def charterReg (s : State) : Nat :=
  s.brg.chResult + 0x100 * s.brg.featA + 0x10000 * s.brg.featB + 0x1000000 * s.brg.resource

/-- CHARTER fails: the recovery identity, default settings, and a failing status that the spec does not give.
[DESIGN CHOICE: log entry 107; DEDUCED: log entry 110] -/
def charterFails (result featA featB resource : Nat) (s : State) : State :=
  let s := recoverIdentity result featA featB resource { s with chr := {} }
  let s := logEvent 0x13 0 0x0602 [(0, 4, charterReg s)] (resetSettings 2 s)
  stepEnds 5 (statusOf 0xA s) 0 s.fresh.2

/-- Each kind's image is chosen in turn; the first kind whose copies both fail (R470). -/
def selectAll : List Nat → State → State × Option Nat
  | [], s => (s, none)
  | k :: ks, s =>
    let r := bootSelect k s
    if r.2 then selectAll ks r.1 else (r.1, some k)

/-- The newer of an owner's two settings copies of a format: its place (0 to 3) and contents.
[DESIGN CHOICE: log entry 109] -/
def settingsCopy (s : State) (owner : Nat) : Option (Nat × Nat × Nat × Nat) :=
  match Tbl.look? s.sec.settings (2 * owner), Tbl.look? s.sec.settings (2 * owner + 1) with
  | some a, some b => if a.2.1 < b.2.1 then some (2 * owner + 1, b) else some (2 * owner, a)
  | some a, none => some (2 * owner, a)
  | none, some b => some (2 * owner + 1, b)
  | none, none => none

/-- A PENDING image with another settings format converts its owner's settings into the other copy (R481); what the
conversion writes is the firmware's. [DESIGN CHOICE: log entry 109] -/
def convertSettings (owner : Nat) (s : State) : State :=
  let x := s.img (owner + 1)
  match settingsCopy s owner, x.booted with
  | some (at_, fmt, n, _), some i =>
    if x.st = 3 ∧ i.hdr.settingsFormat ≠ fmt then
      let v := s.fresh
      { v.2 with sec := { v.2.sec with
          settings := Tbl.put v.2.sec.settings (if at_ % 2 = 0 then at_ + 1 else at_ - 1) (i.hdr.settingsFormat, n + 1, v.1) } }
    else s
  | _, _ => s

/-- The registers whose reset value is the charter's. -/
def charterRegs (s : State) : State :=
  let c := s.chr
  let s := (List.range 32).foldl (fun s g => s.setGal g { s.gal g with
    target := c.galTarget, droopTrip := c.droopTrip, unparkAmt := 4 * c.unparkMin }) s
  let s := if c.faceLimit = 200 then s
    else (List.range 768).foldl (fun s n => s.setFace n { s.face n with limit := c.faceLimit }) s
  let s := if c.sqWait = 100 then s
    else (List.range 128).foldl (fun s k => s.setDresser k { s.dresser k with sqWait := c.sqWait }) s
  let s := if c.buddyEn then s
    else (List.range 128).foldl (fun s k => s.setCrew k { s.crew k with buddyEn := false }) s
  let s := if c.vcWeights = [2, 2, 4] then s
    else (List.range 48).foldl (fun s a => s.setAdit a { s.adit a with
      wReq := c.vcWeights.getD 0 2, wRsp := c.vcWeights.getD 1 2, wBulk := c.vcWeights.getD 2 4 }) s
  let h : Hif := { s.hif with bar2Log2 := c.bar2Log2, apt := aptReset s, training := true }
  { s with
    hif := h
    pwr := { s.pwr with sagIrq := c.sagIrq, sagClampEn := c.sagClamp }
    thm := { s.thm with forecastMs := c.forecastMs }
    millStall := c.millStall
    vein := { s.vein with log2 := c.veinLog2, seed := c.veinSeed, table := c.veinTable }
    fld := { s.fld with id := c.stackId, adaptT := c.adaptT, ordWait := c.ordWait, nonmin := c.nonmin } }

/-- The kind of boot (R482). -/
def bootKindOf (s : State) : Nat := if s.fuses.startUp then 0 else if s.chr.testMode then 1 else 3

/-- CHARTER ends DONE. -/
def charterGood (c : Chr) (s : State) : State :=
  let s := charterRegs { s with chr := c }
  let s := (List.range 32).foldl (fun s g => recomputeK g s) s
  let k := bootKindOf s
  let s : State := { s with brg := { s.brg with charterDone := true }, fuses := { s.fuses with startUp := false }
                            sec := { s.sec with bootKind := k } }
  let s := if k < 3 then resetSettings k s else convertSettings 1 (convertSettings 0 s)
  driveSync (stepEnds 2 .ok 0 s)

/-- CHARTER: the images are verified, the fields checked and applied (R438, R440, R470). [DESIGN CHOICE: log entry 107] -/
def execBrgCharter (img : CharterRead) (s : State) : Res :=
  .next (
    if s.brg.step = 14 ∧ s.brg.state = 1 ∧ s.brg.powered = true ∧ s.brg.foreman = true then
      if !img.flashOk then charterFails 3 6 0 0 s
      else
        let r := selectAll [6, 2, 3, 4, 5] s
        match r.2 with
        | some k => charterFails 3 k 0 0 r.1
        | none =>
          match chFirstInvalid s.fuses.variantA img with
          | some n => charterFails 1 n 0 0 r.1
          | none =>
            match chConflict (chrOf s.fuses.variantA img) with
            | some (a, b, res) => charterFails 2 a b res r.1
            | none => charterGood (chrOf s.fuses.variantA img) r.1
    else s)

end Sys2Proof.Machine
end

