-- ==== Sys2Proof/Machine/Bringup.lean ====
section
/-! DEFINITION. The steps of bring-up that the driver starts (16_bringup_repair.md, Table 16-3), and the Overseer load (R471). -/

namespace Sys2Proof.Machine

/-! ### Starting and ending a step (R443 to R445) -/

/-- A step's timeout in ms (Table 16-3). -/
def stepLimit (code : Nat) : Nat := [180, 20, 300, 100, 600, 400, 200, 1500, 20, 600, 35000, 10].getD (if code = 14 then 0 else code) 0

/-- A write of BRG_STEP (R444, R445, R456). -/
def stepStart (code : Nat) (s : State) : State :=
  let b := s.brg
  if !b.foreman then s
  else if s.thm.stopped || !b.charterDone || !(decide (2 ≤ b.state) && decide (b.state ≤ 4)) || code != b.done + 1
      || decide (0xB < code) then { s with brg := { b with orderErr := true } }
  else { s with
    brg := { b with step := code, state := 1, stepAt := s.now, stepPaused := 0, result := none }
    fld := { s.fld with idLocked := s.fld.idLocked || code == 9 } }

/-- A step runs, is not paused, and has not met its verdict. -/
def stepRuns (code : Nat) (s : State) : Bool :=
  s.brg.state == 1 && s.brg.step == code && s.brg.result.isNone && !s.thm.stopped && s.brg.foreman

/-- A step meets its verdict: state, status and detail. -/
def verdict (state : Nat) (st : Status) (detail : Nat) (s : State) : State :=
  { s with brg := { s.brg with result := some (state, st, detail) } }

/-- DONE, or DEGRADED where something was lost. -/
def verdictLost (lost : Nat) (s : State) : State := verdict (if lost = 0 then 2 else 3) .ok lost s

/-- An adit that the charter enables and assay has not condemned (R453). -/
def aditOn (s : State) (a : Nat) : Bool := bit a s.chr.aditEnable && !s.glb.badAdits.contains a

/-- The enabled adits in a state. -/
def aditsIn (s : State) (p : Nat → Bool) : Nat := ((List.range 48).filter (fun a => aditOn s a && p (s.adit a).state)).length

/-- The verdict of an adit step from the ports' states (R444). -/
def aditVerdict (code : Nat) (s : State) : Nat × Status × Nat :=
  let failed := aditsIn s (· == 7)
  if code = 9 then (if failed = 0 then 2 else 3, .ok, failed)
  else (if aditsIn s (· != 5) = 0 then 2 else 3, .ok, aditsIn s (· == 3))

/-- The ports have reached what the adit step waits for (Table 16-3). -/
def aditsSettled (code : Nat) (s : State) : Bool :=
  aditsIn s (fun x => if code = 9 then decide (x < 3) else decide (x != 5 && x != 7)) == 0

/-- A host step ends: DONE and DEGRADED permit the next one; the Overseer load follows ASSAY_B (R471), READY opens the
confirmation window and lets the loader copy (R473, R479). -/
def hostStepEnds (v : Nat × Status × Nat) (s : State) : State :=
  let code := s.brg.step
  let ok := v.1 == 2 || v.1 == 3
  let s := stepEnds (if ok && code == 11 then 6 else v.1) v.2.1 v.2.2 s
  let s := if ok then { s with brg := { s.brg with done := code } } else s
  let s := if ok && code == 2 then { s with sec := { s.sec with ovLoading := true } } else s
  if ok && code == 11 then
    startCopies { s with sec := { s.sec with readyAt := some s.now, foremanResetSinceReady := false } }
  else s

/-- BRG_STEP_END: the verdict is published. [DEDUCED: log entry 110] -/
def execBrgStepEnd (s : State) : Res :=
  .next (
    if s.brg.state = 1 ∧ s.thm.stopped = false ∧ s.brg.foreman = true ∧ s.brg.step ≠ 14 then
      match s.brg.result with
      | none => s
      | some v =>
        if s.brg.step = 9 ∨ s.brg.step = 10 then
          if aditsSettled s.brg.step s then hostStepEnds (aditVerdict s.brg.step s) s else s
        else hostStepEnds v s
    else s)

/-- STEP_TIMEOUT: FAILED with TIMEOUT; the adit steps never fail (R444).
[DESIGN CHOICE: log entry 8; DEDUCED: log entry 110] -/
def execStepTimeout (s : State) : Res :=
  .next (
    let b := s.brg
    if b.state = 1 ∧ b.powered = true ∧ s.thm.stopped = false ∧ b.foreman = true
        ∧ b.stepAt + b.stepPaused + 1000000 * stepLimit b.step ≤ s.now then
      if b.step = 9 ∨ b.step = 10 then hostStepEnds (aditVerdict b.step s) s
      else if b.result.isNone then hostStepEnds (4, .timeout, 0) s
      else s
    else s)

/-! ### FUSES (R451) -/

/-- A bit of a mask cleared. -/
def bitClear (i m : Nat) : Nat := if bit i m then m - 2 ^ i else m

/-- A unit of grain 6 (Table 16-6): Mill engines 0 to 3, then check units, then Overseers. -/
def unit6 (n : Nat) (bad : Bool) (s : State) : State :=
  if n < 4 then s.setEng n { s.eng n with state := if bad then 2 else 0 }
  else if n < 36 then s.setChk (n - 4) { s.chk (n - 4) with fenced := bad }
  else s

/-- A unit is taken out of the inventory, as Table 16-6 says; crews, galleries, shafts and adits follow at GRADE.
[DEDUCED: log entry 112] -/
def unitOut (grain n : Nat) (s : State) : State :=
  if grain = 3 then { s with glb := { s.glb with groups := bitClear n s.glb.groups } }
  else if grain = 5 then s.setFace n { s.face n with present := false }
  else if grain = 6 then unit6 n true s
  else if grain = 8 then { s with glb := { s.glb with stock := bitClear n s.glb.stock } }
  else s

/-- An entry of the survey takes effect (Table 16-4). -/
def entryApplies (e : SurveyEnt) (s : State) : State :=
  if e.kind = 1 then unitOut e.grain e.index s
  else if e.kind = 2 then
    let c := crewOf (e.index / 64) (e.index % 64)
    let r := roleOf (e.index % 64)
    let x := s.hewer c r
    s.setHewer c r { x with spares := x.spares ++ [(e.data % 65536, e.data / 65536)] }
  else if e.kind = 3 then
    let x := s.core (e.index / 16) (e.index % 16)
    s.setCore (e.index / 16) (e.index % 16) { x with aged := min 255 e.data }
  else s

/-- The survey's entries take effect. -/
def entriesApply (es : List SurveyEnt) (s : State) : State := es.foldl (fun s e => entryApplies e s) s

/-- FUSES: reads the survey; with no valid copy it fails, or goes on without one after a discard (R451). -/
def execBrgFuses (s : State) : Res :=
  .next (
    if !stepRuns 1 s then s
    else
      match surveyNow s with
      | some (_, v) =>
        let s := entriesApply v.entries { s with brg := { s.brg with entries := v.entries, lost := false } }
        verdict 2 .ok 0 ((List.range 32).foldl (fun s g => recomputeK g s) s)
      | none =>
        if s.brg.discard then
          verdict 2 .ok 0 (logEvent 0x13 0 0x0604 [(0, 4, s.brg.surveyA.count), (4, 4, s.brg.surveyB.count)]
            { s with brg := { s.brg with entries := [], lost := true } })
        else verdict 4 .uncorrectable 0 s)

/-! ### Assay (R446 to R448, R452, R453) -/

/-- The fuses have the unit off (R452). -/
def fusedOff (s : State) (grain n : Nat) : Bool :=
  if grain = 1 then s.fuses.badCrews.contains n
  else if grain = 3 then s.fuses.groupsOff.contains n
  else if grain = 4 then s.fuses.badCrews.contains (crewOf (n / 64) (n % 64))
  else if grain = 5 then s.fuses.groupsOff.contains (n / 192)
  else if grain = 8 then s.fuses.stockOff.contains n
  else false

/-- Assay of this boot has marked the unit bad. -/
def assayLost (s : State) (grain n : Nat) : Bool := s.brg.assayBad.any (fun b => b.1 == grain && b.2.1 == n)

/-- The survey or assay has the unit bad. -/
def unitBad (s : State) (grain n : Nat) : Bool := surveyBad s.brg.entries grain n || assayLost s grain n

/-- The good crews: not fused off, nor bad themselves, in a bad gallery or on a bad shaft (R453). [DEDUCED: log entry 113] -/
def crewGood (s : State) (c : Nat) : Bool :=
  !s.fuses.badCrews.contains c && !unitBad s 1 c && !unitBad s 2 (galOf c) && !unitBad s 4 (faceSlot c 0) && !unitBad s 4 (faceSlot c 1)

/-- The units of a repeated step are tested afresh: what it marked before is in service again (R444, R452).
[DEDUCED: log entry 111] -/
def assayAfresh (grains : List Nat) (s : State) : State :=
  let old := s.brg.assayBad.filter (fun b => grains.contains b.1)
  let s := { s with brg := { s.brg with assayBad := s.brg.assayBad.filter (fun b => !grains.contains b.1) } }
  old.foldl (fun s b =>
    if b.1 = 3 then { s with glb := { s.glb with groups := s.glb.groups + (if bit b.2.1 s.glb.groups then 0 else 2 ^ b.2.1) } }
    else if b.1 = 5 then s.setFace b.2.1 { s.face b.2.1 with present := true }
    else if b.1 = 6 then unit6 b.2.1 false s
    else s) s

/-- CHECKER_FAIL is logged for a failure that a checker's self-test found (R378, R388). -/
def checkerLog (f : AssayFail) (s : State) : State :=
  match f.checker with
  | some k => logEvent 0x13 0 0x0306 [(0, 1, k), (2, 2, f.grain), (4, 4, f.index)] s
  | none => s

/-- A unit that a test or a checker's self-test fails is marked bad (R378, R453); fused-off units and those the survey marks
are not tested. [DEDUCED: log entry 112] -/
def assayMark (grains : List Nat) (f : AssayFail) (s : State) : State :=
  if !grains.contains f.grain || fusedOff s f.grain f.index || unitBad s f.grain f.index then s
  else
    let s := checkerLog f s
    unitOut f.grain f.index { s with brg := { s.brg with
      assayBad := s.brg.assayBad ++ [(f.grain, f.index, if f.checker.isSome then 2 else 1)] } }

/-- The failures of a step are marked. -/
def assayMarks (grains : List Nat) (fails : List AssayFail) (s : State) : State :=
  fails.foldl (fun s f => assayMark grains f s) (assayAfresh grains s)

/-- The units this boot's assay has marked at a step's grains. -/
def assayCount (grains : List Nat) (s : State) : Nat := (s.brg.assayBad.filter (fun b => grains.contains b.1)).length

/-- An essential unit of layer B has failed: one of its own, all eight Overseers, or every check unit of VEIN_CHK
(Table 16-6). [DEDUCED: log entry 111] -/
def essentialLost (fails : List AssayFail) (s : State) : Bool :=
  fails.any (fun f => f.grain == 0) || (List.range 8).all (fun o => unitBad s 6 (36 + o))
    || (List.range s.chr.veinChk).all (fun u => unitBad s 6 (4 + u))

/-- The checkers of essential units that fail are logged; these units have no grain and no survey entry (R378, R388, Table
16-6). [DEDUCED: log entry 111] -/
def essentialLog (fails : List AssayFail) (s : State) : State :=
  (fails.filter (fun f => f.grain == 0)).foldl (fun s f => checkerLog f s) s

/-- ASSAY_B. [DEDUCED: log entry 111] -/
def execAssayB (fails : List AssayFail) (s : State) : Res :=
  .next (
    if !stepRuns 2 s then s
    else
      let s := assayMarks [5, 6, 7] fails (essentialLog fails s)
      if essentialLost fails s then verdict 4 .unitFault 0 s else verdictLost (assayCount [5, 6, 7] s) s)

/-- ASSAY_S: any failure of a slice or a router fails the step; a checker's is logged (R378). -/
def execAssayS (fails : List AssayFail) (s : State) : Res :=
  .next (
    if !stepRuns 3 s then s
    else if fails = [] then verdict 2 .ok 0 s
    else verdict 4 .unitFault 0 (fails.foldl (fun s f => checkerLog f s) s))

/-- keep_dram applies: it is set and this boot follows a warm reset (R448). -/
def keeps (s : State) : Bool := s.brg.keepDram && s.brg.warm

/-- ASSAY_D: the pattern test overwrites the seams; with keep_dram the lines that decode uncorrectable are logged.
[DEDUCED: log entry 111] -/
def execAssayD (fails : List AssayFail) (ueLines : List (Nat × Nat)) (s : State) : Res :=
  .next (
    if !stepRuns 4 s then s
    else
      let s := assayMarks [3, 4] fails s
      let s := if keeps s then
          ueLines.foldl (fun s l => if s.seamPresent l.1 then noteUe ⟨0, l.1, l.2⟩ true false s else s) s
        else { s with seamMem := [], errs := s.errs.filter (fun e => e.kind != 0) }
      if s.glb.groups = 0 then verdict 4 .unitDead (assayCount [3, 4] s) s else verdictLost (assayCount [3, 4] s) s)

/-- ASSAY_C: a shaft's last segment, crews and galleries; the galleries are parked again behind it (R446).
[DEDUCED: log entry 111] -/
def execAssayC (fails : List AssayFail) (s : State) : Res :=
  .next (
    if !stepRuns 5 s then s
    else
      let before := assayCount [1, 2, 4] (assayAfresh [1, 2] s)
      let s := fails.foldl (fun s f => assayMark [1, 2, 4] f s) (assayAfresh [1, 2] s)
      let lost := assayCount [1, 2, 4] s - before
      if (List.range 128).any (crewGood s) then verdictLost lost s else verdict 4 .unitDead lost s)

/-! ### GRADE and STOCKPILE (R452, R454) -/

/-- The unit-bad entries of this boot's assay. -/
def assayEntries (s : State) : List SurveyEnt :=
  s.brg.assayBad.map (fun b => { kind := 1, cause := b.2.2, grain := b.1, index := b.2.1, data := 0 })

/-- GLB_GRADE from the fuses, the survey and assay (R454). [DEDUCED: log entry 112] -/
def gradeGlb (s : State) : Glb :=
  { s.glb with
    badCrews := (List.range 128).filter (fun c => !crewGood s c)
    badAdits := (List.range 48).filter (unitBad s 7)
    gradeGroups := maskOf 4 (fun g => !s.fuses.groupsOff.contains g && !unitBad s 3 g)
    gradeStock := maskOf 4 (fun p => !s.fuses.stockOff.contains p && !unitBad s 8 p)
    gradeMill := maskOf 4 (fun e => !unitBad s 6 e)
    surveyLost := s.brg.lost }

/-- GRADE: the survey is written, then GLB_GRADE is set. [DEDUCED: log entry 112] -/
def execBrgGrade (writeOk : Bool) (s : State) : Res :=
  .next (
    if !stepRuns 6 s then s
    else if !writeOk then verdict 4 .uncorrectable 0 s
    else verdict 2 .ok 0 { writeSurvey (surveyEntries s ++ assayEntries s) s with glb := gradeGlb s })

/-- STOCKPILE: a stack that does not train, fails its test or has a failing line decoder is absent from the interleave (R48,
R378, R454). -/
def execBrgStockpile (lost : List Nat × List Nat) (s : State) : Res :=
  .next (
    if !stepRuns 7 s then s
    else
      let bad := s.stockStacks.filter (fun p => lost.1.contains p || lost.2.contains p)
      let chk := fun p => if lost.2.contains p then some 0 else none
      let s := if keeps s then s else { s with stockMem := [], errs := s.errs.filter (fun e => e.kind != 1) }
      let s := bad.foldl (fun s p => assayMark [8] { grain := 8, index := p, checker := chk p } s) s
      let s := if bad = [] then s
        else { writeSurvey (surveyEntries s ++ bad.map (fun p =>
            { kind := 1, cause := if (chk p).isSome then 2 else 1, grain := 8, index := p, data := 0 })) s
               with glb := { s.glb with gradeStock := s.glb.stock } }
      if s.glb.stock = 0 then verdict 4 .unitDead bad.length s else verdictLost bad.length s)

/-! ### BROADCAST to READY (R182, R444, R449, R450) -/

/-- An image read after CHARTER does not match its digest: it is logged and the other copy is used; if that fails too, the
stack takes the recovery identity and every gallery's boot reason is set (R471). -/
def reRead (k : Nat) (otherOk : Bool) (s : State) : State :=
  let x := s.img k
  let s := logEvent 0x12 0 0x0704 [(0, 1, k), (1, 1, b2n x.fromReserve)] s
  let other := if x.fromReserve then x.run else x.reserve
  if otherOk then
    s.setImg k { x with booted := other, fromReserve := !x.fromReserve, svn := ((other.map (·.hdr.svn)).getD 0) }
  else driveSync ((List.range 32).foldl (fun s g => setReasons g (fun x => { x with rBoot := true }) s) (recoverIdentity 3 k 0 0 s))

/-- The crew microcode image enters the microcode region of a crew's tally memory, and its tally becomes IDLE (R177, R182). -/
def installMicrocode (c : Nat) (body : List Byte) (s : State) : State :=
  (localWrite (.tly c) 0 (body.take 0x8000) (s.setCrew c { s.crew c with microcode := true, state := 1 })).1

/-- The installed copies of BROADCAST: galleries with a good crew lose their boot reason and every present tally that is not
fenced takes the microcode; a crew whose copy fails twice is fenced (R177, R182, R449). [DEDUCED: log entry 113] -/
def broadcastMicro (copyFails : List Nat) (s : State) : State :=
  let present := (List.range 128).filter s.crewPresent
  let crews := present.filter (fun c => !(s.crew c).fenced)
  let bad := crews.filter (fun c => copyFails.contains c)
  let body := ((s.img 3).booted.map (·.body)).getD []
  let s := (List.range 32).foldl (fun s g =>
    if (crewsOf g).any s.crewPresent then setReasons g (fun x => { x with rBoot := false }) s else s) s
  let s := crews.foldl (fun s c => if bad.contains c then fenceCrew c 3 s else installMicrocode c body s) s
  verdictLost bad.length { s with sec := { s.sec with crewMicro := decide (bad = []) && decide (crews = present) } }

/-- BROADCAST: microcode reads that do not match are read again from the other copy; then the copies are installed (R182,
R449, R471). -/
def execBrgBroadcast (bad : List Nat × List (Nat × Bool)) (s : State) : Res :=
  .next (
    if !stepRuns 8 s then s
    else
      let s := bad.2.foldl (fun s m => if s.brg.state = 5 then s else reRead m.1 m.2 s) s
      if s.brg.state = 5 then s else broadcastMicro bad.1 s)

/-- ADIT_TRAIN: every enabled adit starts to train. -/
def execBrgAditTrain (s : State) : Res :=
  .next (
    if !stepRuns 9 s then s
    else verdict 2 .ok 0 ((List.range 48).foldl (fun s a => aditStart a s) s))

/-- A port in WAIT is ready to qualify and tells its peer (R293). -/
def aditQualify (a : Nat) (s : State) : State :=
  let x := s.adit a
  if aditOn s a && x.state == 3 then
    sendLink a 3 [2] (s.setAdit a (if x.qualGot then { x with qualSent := true }.qualify s.now else { x with qualSent := true }))
  else s

/-- ADIT_QUALIFY. -/
def execBrgAditQualify (s : State) : Res :=
  .next (
    if !stepRuns 10 s then s
    else verdict 2 .ok 0 ((List.range 48).foldl (fun s a => aditQualify a s) s))

/-- The preset check units are armed (R441, R450). -/
def armPresets (s : State) : State :=
  s.chr.chkPreset.foldl (fun s p => s.setChk p.2.1 (chkCtrl (s.chk p.2.1) p.2.2)) s

/-- READY: commit, presets, pickup, JOIN (R324, R450). [DEDUCED: log entry 113] -/
def execBrgReady (s : State) : Res :=
  .next (
    if !stepRuns 11 s then s
    else
      let s := logEvent 0x13 0 0x0802 [(0, 4, s.chr.crc), (4, 4, (s.img 6).svn)] { s with committed := true }
      let s := newIncarnation (armPresets s)
      let s := { s with hif := { s.hif with pickup := true }, fld := { s.fld with ready := true } }
      let s := selectGm s
      let s := if (List.range 48).any (fun a => (s.adit a).inUse) then sendJoin s else s
      verdict 2 .ok 0 s)

/-! ### The Overseer load (R471) -/

/-- OVERSEER_LOAD_DONE: on a digest mismatch the other copy is verified and used; if it fails too, the stack takes the
recovery identity and every gallery's boot reason is set. -/
def execOverseerLoadDone (digestOk reserveOk : Bool) (s : State) : Res :=
  .next (
    if s.sec.ovLoading = false then s
    else
      let s := { s with sec := { s.sec with ovLoading := false } }
      if digestOk then { s with sec := { s.sec with ovReset := false } }
      else
        let s := reRead 2 reserveOk s
        if reserveOk then { s with sec := { s.sec with ovReset := false } } else s)

end Sys2Proof.Machine
end

