-- ==== Sys2Proof/Machine/Dresser.lean ====
section
/-! DEFINITION. The dresser's instructions and its routines (R130 to R155). -/

namespace Sys2Proof.Machine

/-! ### Routines (R135, R136, R161) -/

/-- A tally that waits to launch does so, now that an entry is free (R135). -/
def wakeLaunch (c : Nat) (s : State) : State :=
  match (s.crew c).wait with
  | .launch v1 v2 =>
    let s := s.setCrew c { s.crew c with wait := .none }
    s.setDresser c { s.dresser c with queue := (s.dresser c).queue ++ [launchOf v1 v2] }
  | _ => s

/-- ROUTINE_START. -/
def execRoutineStart (c : Nat) (s : State) : Res :=
  .next (
    let d := s.dresser c
    match d.queue with
    | r :: rest =>
      if s.crewPresent c = true ∧ (s.crew c).fenced = false ∧ s.crewRuns c = true ∧ d.run = none ∧ d.done = none then
        wakeLaunch c (s.setDresser c { d with
          queue := rest, run := some r, pc := 0, rsat := false, rinv := false, waitFrom := none })
      else s
    | [] => s)

/-- ROUTINE_COMPLETE: posted once an entry that no credit keeps is free (R161). -/
def execRoutineComplete (c : Nat) (s : State) : Res :=
  .next (
    let d := s.dresser c
    match d.done with
    | some (tag, st) =>
      if s.crewPresent c = true ∧ s.crewRuns c = true ∧ dresserRoom s c = true then
        postRec c { tag := tag, status := st, source := 2, flags := b2n d.rsat + 2 * b2n d.rinv }
          (s.setDresser c { d with run := none, done := none, lastStatus := st.code })
      else s
    | none => s)

/-- DRS_END (R136). -/
def execDrsEnd (c : Nat) (w : InstrWord) (s : State) : Res := drsStep c 0x7F w (fun _ s => endRoutine c .ok s) s

/-! ### Moves (R134, R137, R139, R143) -/

/-- The rows of a tile image: exponents in line 0, containers after it (R134). -/
def imageRows (bs : List Byte) : List BRow :=
  (List.range 32).map (fun r =>
    { e := leAt bs r 1, m := (wordsOf ((bs.drop (64 + 128 * r)).take 128)).map ofContainer })

/-- A tile's image (R134). -/
def rowsImage (t : List BRow) : List Byte :=
  t.map (fun r => BitVec.ofNat 8 r.e) ++ List.replicate 32 0 ++ t.flatMap (fun r => r.m.flatMap (fun m => leBytes 4 (container m).toNat))

/-- DRS_LDT. -/
def execDrsLdt (c : Nat) (w : InstrWord) (s : State) : Res :=
  drsLoad c 0x01 4160 w (fun bs s => drsNext c (drsWrite c w ((imageRows bs).map (fun r => { row := r })) s)) s

/-- DRS_STT. -/
def execDrsStt (c : Nat) (w : InstrWord) (s : State) : Res := drsSave c 0x02 w (fun d => rowsImage (d.opA w)) s

/-- DRS_LDF. -/
def execDrsLdf (c : Nat) (w : InstrWord) (mm : Nat) (s : State) : Res :=
  drsLoad c 0x03 4096 w (fun bs s =>
    drsChecked c w mm ((wordRows bs 32).map (fun r => bfxPack (r.map numOfWord))) s) s

/-- DRS_STF. [DEDUCED: log entry 40] -/
def execDrsStf (c : Nat) (w : InstrWord) (s : State) : Res :=
  drsSave c 0x04 w (fun d => (d.opA w).flatMap (fun r => (bfxUnpack r).flatMap (fun v => leBytes 4 v.toNat))) s

/-- The scalar register an instruction names. -/
def sregOf (d : Dresser) (w : InstrWord) : Nat := (Tbl.look 0 d.sregs (dSreg w)).toNat

/-- The parts of a row-layout operand (R143): scale byte and elements of each row; none when one leaves the store or
S[sreg] has a nonzero bit above its fields. -/
def rowParts (r : Routine) (d : Dresser) (w : InstrWord) : Option (List (Nat × Nat)) :=
  let v := sregOf d w
  let bb := blockBytes (dSub w)
  let at_ := fun i => 64 * (r.base + dImm w + i * bits 10 0 v)
  let j := bits 16 11 v
  if bits 31 17 v = 0 ∧ at_ 0 < 0x80000 ∧ (List.range 32).all (fun i => decide (at_ i + 64 + (j + 1) * bb ≤ 0x80000)) = true then
    some ((List.range 32).map (fun i => (at_ i + j, at_ i + 64 + j * bb)))
  else none

/-- Blocks of a row-layout operand read. -/
def rowBlocks (c bb : Nat) : List (Nat × Nat) → State → State × Option (List (Nat × List Byte))
  | [], s => (s, some [])
  | p :: rest, s =>
    match localRead (.ls c) p.1 1 s with
    | (s, none) => (s, none)
    | (s, some sc) =>
      match localRead (.ls c) p.2 bb s with
      | (s, none) => (s, none)
      | (s, some el) =>
        let t := rowBlocks c bb rest s
        (t.1, t.2.map (fun l => (leNat sc, el) :: l))

/-- The code table of a slab in a CB format: none when it leaves the store, the status when it cannot be used (R143). -/
def slabTable (c : Nat) (w : InstrWord) (s : State) : State × Except Status (List Byte) :=
  if dSub w ≤ 5 then (s, .ok [])
  else
    let a := bits 18 0 (sregOf (s.dresser c) w)
    let n := if dSub w = 6 then 16 else 8
    if 0x80000 < a + n then (s, .error .badDescriptor)
    else
      match localRead (.ls c) a n s with
      | (s, none) => (s, .error .uncorrectable)
      | (s, some t) => (s, if tableGood t then .ok t else .error .badDescriptor)

/-- DRS_LDMX. -/
def execDrsLdmx (c : Nat) (w : InstrWord) (mm : Nat) (s : State) : Res :=
  drsStep c 0x05 w (fun r s =>
    let fmt := dSub w
    let bb := blockBytes fmt
    if dLay w then
      match rowParts r (s.dresser c) w with
      | none => endRoutine c .badDescriptor s
      | some ps =>
        match rowBlocks c bb ps s with
        | (s, none) => endRoutine c .uncorrectable s
        | (s, some bl) => drsChecked c w mm (bl.map (fun b => bfxOfMx fmt [] b.1 b.2)) s
    else
      match lineOperand r w (1 + (32 * bb + 63) / 64) with
      | none => endRoutine c .badDescriptor s
      | some a =>
        match slabTable c w s with
        | (s, .error st) => endRoutine c st s
        | (s, .ok tab) =>
          match localRead (.ls c) a (64 + 32 * bb) s with
          | (s, none) => endRoutine c .uncorrectable s
          | (s, some bs) =>
            drsChecked c w mm ((List.range 32).map (fun i =>
              bfxOfMx fmt tab (leAt bs i 1) ((bs.drop (64 + i * bb)).take bb))) s) s

/-- The blocks of a tile in an MX format: scale and packed elements (R89). -/
def tileBlocks (fmt : Nat) (t : List BRow) : List (Nat × List Byte) :=
  t.map (fun r => let q := bfxToMx fmt r; (q.1, packBits (elemBits fmt) q.2))

/-- DRS_STMX. [DESIGN CHOICE: log entry 153] -/
def execDrsStmx (c : Nat) (w : InstrWord) (s : State) : Res :=
  drsStep c 0x06 w (fun r s =>
    let fmt := dSub w
    let bl := tileBlocks fmt ((s.dresser c).opA w)
    if dLay w then
      match rowParts r (s.dresser c) w with
      | none => endRoutine c .badDescriptor s
      | some ps => drsStore c ((List.zip ps bl).flatMap (fun q => [(q.1.1, leBytes 1 q.2.1), (q.1.2, q.2.2)])) s
    else
      match lineOperand r w (1 + (32 * blockBytes fmt + 63) / 64) with
      | none => endRoutine c .badDescriptor s
      | some a => drsStore c [(a, padLine (bl.map (fun b => BitVec.ofNat 8 b.1)) ++ padLine (bl.flatMap (·.2)))] s) s

/-- DRS_LDS: a word address is 16·base + imm (R137). -/
def execDrsLds (c : Nat) (w : InstrWord) (s : State) : Res :=
  drsStep c 0x08 w (fun r s =>
    let a := 4 * (16 * r.base + dImm w)
    if 0x80000 < a + 4 then endRoutine c .badDescriptor s
    else
      match localRead (.ls c) a 4 s with
      | (s, none) => endRoutine c .uncorrectable s
      | (s, some bs) =>
        let d := s.dresser c
        drsNext c (s.setDresser c { d with sregs := Tbl.put d.sregs (dSreg w) (BitVec.ofNat 32 (leNat bs)) })) s

/-- DRS_MOV. -/
def execDrsMov (c : Nat) (w : InstrWord) (s : State) : Res :=
  drsStep c 0x09 w (fun _ s => drsNext c (drsWrite c w (((s.dresser c).opA w).map (fun r => { row := r })) s)) s

/-! ### The skip queue (R146 to R153) -/

/-- An entry that an SQPOP with this immediate takes (R149). -/
def sqMatch (imm : Nat) (e : SkqEntry) : Bool :=
  e.st == 2 && !e.selected && Nat.land e.tag (bits 31 16 imm) == Nat.land (bits 15 0 imm) (bits 31 16 imm)

/-- The oldest matching FULL entry (R149). -/
def sqOldest (s : State) (c imm : Nat) : Option Nat :=
  (List.range 16).foldl (fun best k =>
    if sqMatch imm (skqEntry s c k) then
      match best with
      | some b => if (skqEntry s c k).age < (skqEntry s c b).age then some k else best
      | none => some k
    else best) none

/-- DRS_SQPOP: it waits while no entry matches; a parity error frees the entry and ends the routine (R152). -/
def execDrsSqpop (c : Nat) (w : InstrWord) (chk : Nat × Bool) (s : State) : Res :=
  drsStep c 0x07 w (fun _ s =>
    match sqOldest s c (dImm w) with
    | none =>
      let d := s.dresser c
      if d.waitFrom.isSome then s else s.setDresser c { d with waitFrom := some (s.hclkNs (galOf c)) }
    | some k =>
      let e := skqEntry s c k
      let x := s.crew c
      let ring := if e.role = 0 then x.ring0 else x.ring1
      let d := s.dresser c
      let s := setSkq c k {} (s.setDresser c { d with
        popped := if ring.any (fun q => q.seq == e.seq) && !d.popped.contains (e.role, e.seq) then d.popped ++ [(e.role, e.seq)]
          else d.popped })
      if e.parityBad || chk.2 then
        endRoutine c .uncorrectable (s.setDresser c { s.dresser c with parity := satInc 0xFF (s.dresser c).parity })
      else drsChecked c w chk.1 (e.data.map (fun r => bfxPack (r.map numOfWord))) s) s

/-- The wait limit of an SQPOP in ns (Table 5-8). -/
def sqWaitNs (d : Dresser) : Nat := 1000 * (if d.sqWait = 0 then 256 else d.sqWait)

/-- SQPOP_TIMEOUT (R150): the limit has passed in HCLK running time and still no entry matches. -/
def execSqpopTimeout (c : Nat) (s : State) : Res :=
  .next (
    let d := s.dresser c
    match d.waitFrom, d.run with
    | some t, some r =>
      let w : InstrWord := BitVec.ofNat 64 (leNat (s.lsMem.read (0x80000 * c + 64 * r.start + 8 * d.pc) 8))
      if drsRuns s c = true ∧ sqOldest s c (dImm w) = none ∧ t + sqWaitNs d ≤ s.hclkNs (galOf c) then endRoutine c .timeout s
      else s
    | _, _ => s)

/-! ### The arithmetic pipe -/

/-- DRS_ADD (R83). -/
def execDrsAdd (c : Nat) (w : InstrWord) (mm : Nat) (s : State) : Res :=
  drsArith c 0x10 w mm (fun d => List.zipWith bfxAdd (d.opA w) (d.opB w)) s

/-- DRS_SUB (R83). -/
def execDrsSub (c : Nat) (w : InstrWord) (mm : Nat) (s : State) : Res :=
  drsArith c 0x11 w mm (fun d => List.zipWith bfxSub (d.opA w) (d.opB w)) s

/-- DRS_MUL (R84). -/
def execDrsMul (c : Nat) (w : InstrWord) (mm : Nat) (s : State) : Res :=
  drsArith c 0x12 w mm (fun d => List.zipWith bfxMul (d.opA w) (d.opB w)) s

/-- DRS_MAD (R84). -/
def execDrsMad (c : Nat) (w : InstrWord) (mm : Nat) (s : State) : Res :=
  drsArith c 0x13 w mm (fun d => List.zipWith (fun p c => bfxMad p.1 p.2 c) (List.zip (d.opA w) (d.opB w)) (d.opC w)) s

/-- DRS_MAX (R82, R83). -/
def execDrsMax (c : Nat) (w : InstrWord) (mm : Nat) (s : State) : Res :=
  drsArith c 0x14 w mm (fun d => List.zipWith bfxMax (d.opA w) (d.opB w)) s

/-- DRS_MIN (R82, R83). -/
def execDrsMin (c : Nat) (w : InstrWord) (mm : Nat) (s : State) : Res :=
  drsArith c 0x15 w mm (fun d => List.zipWith bfxMin (d.opA w) (d.opB w)) s

/-- DRS_CMP (R142). -/
def execDrsCmp (c : Nat) (w : InstrWord) (mm : Nat) (s : State) : Res :=
  drsArith c 0x16 w mm (fun d => List.zipWith (bfxCmp (dSub w)) (d.opA w) (d.opB w)) s

/-- DRS_SEL (R142). -/
def execDrsSel (c : Nat) (w : InstrWord) (mm : Nat) (s : State) : Res :=
  drsArith c 0x17 w mm (fun d => List.zipWith (fun p c => bfxSel p.1 p.2 c) (List.zip (d.opA w) (d.opB w)) (d.opC w)) s

/-- DRS_SHL (R142). -/
def execDrsShl (c : Nat) (w : InstrWord) (mm : Nat) (s : State) : Res :=
  drsArith c 0x20 w mm (fun d => (d.opA w).map (bfxShl (dImm w))) s

/-- DRS_SHR (R142). -/
def execDrsShr (c : Nat) (w : InstrWord) (mm : Nat) (s : State) : Res :=
  drsArith c 0x21 w mm (fun d => (d.opA w).map (bfxShr (dImm w))) s

/-- DRS_AND (R142). -/
def execDrsAnd (c : Nat) (w : InstrWord) (mm : Nat) (s : State) : Res :=
  drsArith c 0x22 w mm (fun d => List.zipWith (bfxBit Nat.land) (d.opA w) (d.opB w)) s

/-- DRS_OR (R142). -/
def execDrsOr (c : Nat) (w : InstrWord) (mm : Nat) (s : State) : Res :=
  drsArith c 0x23 w mm (fun d => List.zipWith (bfxBit Nat.lor) (d.opA w) (d.opB w)) s

/-- DRS_XOR (R142). -/
def execDrsXor (c : Nat) (w : InstrWord) (mm : Nat) (s : State) : Res :=
  drsArith c 0x24 w mm (fun d => List.zipWith (bfxBit Nat.xor) (d.opA w) (d.opB w)) s

/-- DRS_ALGN (R142). -/
def execDrsAlgn (c : Nat) (w : InstrWord) (mm : Nat) (s : State) : Res :=
  drsArith c 0x30 w mm (fun d => List.zipWith bfxAlgn (d.opA w) (d.opB w)) s

/-- DRS_EADD (R84). -/
def execDrsEadd (c : Nat) (w : InstrWord) (mm : Nat) (s : State) : Res :=
  drsArith c 0x31 w mm (fun d => (d.opA w).map (bfxEadd (sext 32 (dImm w)))) s

/-- DRS_NORM (R140). -/
def execDrsNorm (c : Nat) (w : InstrWord) (mm : Nat) (s : State) : Res :=
  drsArith c 0x32 w mm (fun d => (d.opA w).map (bfxNorm (dImm w))) s

/-- DRS_TRN (R142). -/
def execDrsTrn (c : Nat) (w : InstrWord) (mm : Nat) (s : State) : Res :=
  drsArith c 0x33 w mm (fun d => bfxTrn (d.opA w)) s

/-- DRS_RMAX (R141). -/
def execDrsRmax (c : Nat) (w : InstrWord) (mm : Nat) (s : State) : Res :=
  drsArith c 0x34 w mm (fun d => (d.opA w).map bfxRmax) s

/-- DRS_RSUM (R141). -/
def execDrsRsum (c : Nat) (w : InstrWord) (mm : Nat) (s : State) : Res :=
  drsArith c 0x35 w mm (fun d => (d.opA w).map (bfxRsum (dImm w))) s

/-- DRS_FN (R90, R91). -/
def execDrsFn (c : Nat) (w : InstrWord) (mm : Nat) (s : State) : Res :=
  drsArith c 0x40 w mm (fun d => (d.opA w).map (bfxFn (dSub w))) s

end Sys2Proof.Machine
end

