-- ==== Sys2Proof/Machine/Firmware.lean ====
section
/-! DEFINITION. Updating an image, its confirmation and fallback (17_firmware_security.md, R464 to R482). -/

namespace Sys2Proof.Machine

/-! ### Sessions (R474 to R477) -/

/-- The header that the first 0x4400 bytes of a session spell (Table 17-3). -/
def headerOf (bs : List Byte) : ImgHdr :=
  let at_ (off n : Nat) : Nat := leAt bs off n
  let cut (off n : Nat) : List Byte := (bs.drop off).take n
  { magic := at_ 0 4, hdrVersion := at_ 4 2, kind := at_ 6 1, keyIndex := at_ 7 1, svn := at_ 8 4, version := at_ 0xC 4
    bodyLen := at_ 0x10 4, settingsFormat := at_ 0x14 4, serial := BitVec.ofNat 64 (at_ 0x18 8), bodyDigest := cut 0x20 48
    revoke := at_ 0x50 1, rsaN := cut 0x100 384, rsaE := at_ 0x280 4, slhPk := cut 0x290 48, rsaSig := cut 0x2C0 384
    slhSig := cut 0x440 16224, signed := cut 0 0x2C0
    reservedZero := bits 7 4 (at_ 7 1) == 0 && (cut 0x51 175).all (· == 0) && (cut 0x284 12).all (· == 0)
      && (cut 0x43A0 96).all (· == 0) }

/-- A command that is ignored sets order_err (R477); PLDM gets a status instead. [DEDUCED: log entry 118] -/
def updRefused (pldm : Bool) (st : Status) (s : State) : State :=
  if pldm then s.emit (.pldmFw st.code) else { s with sec := { s.sec with orderErr := true } }

/-- A command that is taken is answered to PLDM. [DEDUCED: log entry 118] -/
def updTaken (pldm : Bool) (st : Status) (s : State) : State := if pldm then s.emit (.pldmFw st.code) else s

/-- The mailbox takes a command; PLDM has no ready bit of the mailbox to wait for, and neither is served while the Foreman is
in reset (R456, R477). -/
def updReady (pldm : Bool) (s : State) : Bool := s.brg.foreman && (pldm || s.sec.ready)

/-- The loader's copies start where they may run (R473). -/
def kickCopies (s : State) : State := if copiesRun s then startCopies s else s

/-- BEGIN (R474). [DEDUCED: log entry 114] -/
def updBegin (pldm : Bool) (kind len : Nat) (s : State) : State :=
  if !updReady pldm s then updRefused pldm .abortedByReset s
  else
    let st := (s.img kind).st
    let ends (x : Status) : State :=
      if pldm then s.emit (.pldmFw x.code)
      else { s with sec := { s.sec with status := x.code, phase := if s.sec.session.isSome then s.sec.phase else 5 } }
    if kind = 0 ∨ 6 < kind then ends .badDescriptor
    else if s.sec.session.isSome = true ∨ st = 2 ∨ st = 3 ∨ st = 4 then ends .denied
    else
      updTaken pldm .ok { s with sec := { s.sec with
        session := some { pldm := pldm, total := len, recv := [] }, phase := 1, ready := true, kind := kind, recvCount := 0 } }

/-- The open session of a source. -/
def mySession (pldm : Bool) (s : State) : Option Session := s.sec.session.filter (fun x => x.pldm == pldm)

/-- The whole header is in: it is checked, and the running image goes into the reserve (R466, R475, Table 17-6). -/
def updHeader (x : Session) (s : State) : State :=
  let k := s.sec.kind
  let h := headerOf (x.recv.take 0x4400)
  let st := if x.total ≠ 0x4400 + h.bodyLen then Status.badDescriptor else headerCheck s k h
  if st ≠ .ok then sessionEnds st s
  else
    let i := s.img k
    let s := s.setImg k { i with st := 1, reserve := if i.fromReserve then i.reserve else none, reserveValid := i.fromReserve }
    { s with sec := { s.sec with
        session := some { x with hdr := some h }, phase := 2, ready := false, copying := s.sec.copying.filter (fun c => c.1 != k) } }

/-- PUSH: a chunk of the session (R475, R477). -/
def updPush (pldm : Bool) (chunk : List Byte) (s : State) : State :=
  match mySession pldm s with
  | none => updRefused pldm .badDescriptor s
  | some x =>
    let n := chunk.length
    if !updReady pldm s || n % 4 != 0 || decide (n < 4) || decide (65536 < n) || decide (x.total < x.recv.length + n)
        || s.sec.phase == 2 || !s.sec.ready then updRefused pldm .badDescriptor s
    else
      let x' := { x with recv := x.recv ++ chunk, chunk := n }
      let s := { s with sec := { s.sec with session := some x', recvCount := x'.recv.length } }
      let s := if s.sec.phase = 1 then (if x'.recv.length < 0x4400 then s else updHeader x' s)
        else { s with sec := { s.sec with ready := false } }
      if pldm then s.emit (.pldmFw (if s.sec.session.isSome then 0 else s.sec.status)) else s

/-- END: the body's digest decides (Table 17-6). [DEDUCED: log entry 114] -/
def updEnd (pldm : Bool) (s : State) : State :=
  match mySession pldm s with
  | none => updRefused pldm .badDescriptor s
  | some x =>
    match x.hdr with
    | none => updRefused pldm .badDescriptor s
    | some h =>
      if !updReady pldm s || s.sec.phase != 3 || !s.sec.ready || x.recv.length != x.total then updRefused pldm .badDescriptor s
      else
        let k := s.sec.kind
        let body := x.recv.drop 0x4400
        let good := Config.sha384 body == h.bodyDigest
        let st := if good then Status.ok else Status.denied
        let i := s.img k
        let s := s.setImg k (if good then { i with st := 3, boots := 0, run := some { hdr := h, body := body } }
          else { i with st := 4 })
        let s := logEvent 0x12 0 0x0701 [(0, 1, k), (1, 1, st.code), (4, 4, h.svn)] (sessionEnds st s)
        updTaken pldm st (kickCopies s)

/-- ABORT: the session ends with OK; the boot state then governs (R476). [DEDUCED: log entry 114] -/
def updAbort (pldm : Bool) (s : State) : State :=
  match mySession pldm s with
  | none => updRefused pldm .badDescriptor s
  | some _ =>
    if !updReady pldm s then updRefused pldm .abortedByReset s
    else
      let k := s.sec.kind
      let i := s.img k
      let s := sessionEnds .ok s
      let s := if i.st = 2 then s.setImg k { i with st := 4 }
        else if i.st = 1 then { s with sec := { s.sec with copying := s.sec.copying ++ [(k, false)] } }
        else s
      updTaken pldm .ok (kickCopies s)

/-- REVERT: a PENDING image is given up (R480). -/
def updRevert (kind : Nat) (s : State) : State :=
  let i := s.img kind
  if !updReady false s || i.st != 3 then updRefused false .denied s
  else kickCopies (logRevert kind 3 (s.setImg kind { i with st := 4, reverted := true }))

/-- FACTORY: the next boot is a start-up boot (R482). -/
def updFactory (s : State) : State :=
  if !updReady false s then updRefused false .denied s else { s with fuses := { s.fuses with startUp := true } }

/-- A command written to SEC_UPD_CTRL takes its chunk from the buffer (R477). -/
def updBuf (s : State) : List Byte := (List.range s.sec.len.toNat).map (fun i => Tbl.look 0 s.sec.buf i)

/-- A write of SEC_UPD_CTRL (Table 17-9). [DEDUCED: log entry 114] -/
def updCtrl (v : Nat) (s : State) : State :=
  let k := bits 6 4 v
  match bits 2 0 v with
  | 0 => s
  | 1 => updBegin false k s.sec.len.toNat s
  | 2 => if 65536 < s.sec.len.toNat then updRefused false .badDescriptor s else updPush false (updBuf s) s
  | 3 => updEnd false s
  | 4 => updAbort false s
  | 5 => updRevert k s
  | 6 => updFactory s
  | _ => updRefused false .badDescriptor s

/-- BEGIN. -/
def execSecBegin (pldm : Bool) (kind len : Nat) (s : State) : Res := .next (updBegin pldm kind len s)
/-- PUSH. -/
def execSecPush (pldm : Bool) (chunk : List Byte) (s : State) : Res := .next (updPush pldm chunk s)
/-- END. -/
def execSecEnd (pldm : Bool) (s : State) : Res := .next (updEnd pldm s)
/-- ABORT. -/
def execSecAbort (pldm : Bool) (s : State) : Res := .next (updAbort pldm s)
/-- REVERT. -/
def execSecRevert (kind : Nat) (s : State) : Res := .next (updRevert kind s)
/-- FACTORY. -/
def execSecFactory (s : State) : Res := .next (updFactory s)

/-- PLDM_FW_UPDATE: the baseboard controller's commands drive the same loader (R474); no answer while SMBus does not serve
(R513). [DEDUCED: log entry 118] -/
def execPldmFwUpdate (q : FwCommand) (s : State) : Res :=
  .next (if !smbUp s then s else match q with
    | .begin_ k n => updBegin true k n s
    | .push c => updPush true c s
    | .end_ => updEnd true s
    | .abort => updAbort true s)

/-- UPDATE_CHUNK_DONE: the pushed chunk is in the slot. -/
def execUpdateChunkDone (s : State) : Res :=
  .next (if s.sec.session.isSome = true ∧ s.sec.phase = 3 then { s with sec := { s.sec with ready := true } } else s)

/-- The running image of a kind, which goes into the reserve. [DEDUCED: log entry 115] -/
def copySource (i : ImgSlot) : Option Image := if i.fromReserve then i.reserve else i.run

/-- RESERVE_COPY_DONE: the update's copy lets it write the slot; a restored slot and a refreshed reserve are STABLE (R473).
[DEDUCED: log entry 115] -/
def execReserveCopyDone (kind : Nat) (s : State) : Res :=
  .next (
    let i := s.img kind
    if s.brg.foreman = false then s
    else if s.sec.session.isSome = true ∧ s.sec.kind = kind ∧ s.sec.phase = 2 then
      let s := s.setImg kind { i with st := 2, reserve := copySource i, reserveValid := (copySource i).isSome, run := none }
      { s with sec := { s.sec with phase := 3, ready := true } }
    else
      match s.sec.copying.find? (fun c => c.1 == kind) with
      | none => s
      | some (_, restore) =>
        let s := s.setImg kind (if restore then { i with st := 0, run := i.reserve }
          else { i with st := 0, reserve := copySource i, reserveValid := (copySource i).isSome })
        { s with sec := { s.sec with copying := s.sec.copying.filter (fun c => c.1 != kind) } })

/-! ### Confirmation and fallback (R468, R478 to R480) -/

/-- The revoke bits that a confirmation has still to blow: those the image names, but for the slot that signed it. -/
def toRevoke (mask signer : Nat) (revoked : List Nat) : List Nat :=
  (List.range 4).filter (fun i => bit i mask && i != signer && !revoked.contains i)

/-- The first fuse a confirmation has to blow: 0 counter, 1 RSA, 2 SLH-DSA revoke bit, with its slot. -/
def firstFuse (s : State) (k : Nat) (h : ImgHdr) : Option (Nat × Nat) :=
  if s.counter k < h.svn then some (0, 0)
  else
    match toRevoke (bits 3 0 h.revoke) (bits 1 0 h.keyIndex) s.fuses.rsaRevoked with
    | i :: _ => some (1, i)
    | [] => (toRevoke (bits 7 4 h.revoke) (bits 3 2 h.keyIndex) s.fuses.slhRevoked).head?.map (fun i => (2, i))

/-- A confirmed image's counter and revoke bits are blown (R468). -/
def blowFuses (k : Nat) (h : ImgHdr) (s : State) : State :=
  { s with fuses := { s.fuses with
      counters := Tbl.put s.fuses.counters k (max (s.counter k) h.svn)
      rsaRevoked := s.fuses.rsaRevoked ++ toRevoke (bits 3 0 h.revoke) (bits 1 0 h.keyIndex) s.fuses.rsaRevoked
      slhRevoked := s.fuses.slhRevoked ++ toRevoke (bits 7 4 h.revoke) (bits 3 2 h.keyIndex) s.fuses.slhRevoked } }

/-- The settings copies of other formats than the confirmed image's are erased (R481). -/
def eraseOldSettings (k : Nat) (h : ImgHdr) (s : State) : State :=
  if k = 1 ∨ k = 2 then
    { s with sec := { s.sec with settings := s.sec.settings.filter (fun p => p.1 / 2 != k - 1 || p.2.1 == h.settingsFormat) } }
  else s

/-- A PENDING image that this boot runs is confirmed (R468, R478). [DEDUCED: log entry 116] -/
def confirm (k : Nat) (fuseOk : Bool) (s : State) : State :=
  let i := s.img k
  match i.booted with
  | none => s
  | some b =>
    if i.st ≠ 3 ∨ i.boots = 0 ∨ i.fromReserve = true ∨ i.reverted = true ∨ i.fuseFail = true then s
    else
      match (if fuseOk then none else firstFuse s k b.hdr) with
      | some (f, slot) => logEvent 0x12 0 0x0705 [(0, 1, k), (1, 1, f), (2, 1, slot)] (s.setImg k { i with fuseFail := true })
      | none =>
        let s := eraseOldSettings k b.hdr (blowFuses k b.hdr (s.setImg k { i with st := 0, reserveValid := false }))
        kickCopies (logEvent 0x12 0 0x0702 [(0, 1, k), (1, 1, s.counter k), (4, 4, b.hdr.svn)] s)

/-- SEC_CONFIRM: the Overseer runtime confirms the Overseer image; from any other requester the write is ignored and logged
(R478). [DEDUCED: log entry 116] -/
def secConfirm (r : Requester) (v : Word) (fuseOk : Bool) (s : State) : State :=
  match r with
  | .overseer _ => if bit 0 v.toNat then confirm 2 fuseOk s else s
  | _ => if reachesRegs r then logIgnored 0x12 0 r 0x03D00114 1 s else s

/-- SEC_CONFIRM. -/
def execSecConfirm (r : Requester) (v : Word) (fuseOk : Bool) (s : State) : Res := .next (secConfirm r v fuseOk s)

/-- CONFIRM_TIMER: 60 s after READY without a Foreman reset, the Foreman confirms its kinds (R478, Table 17-1).
[DEDUCED: log entry 116] -/
def execConfirmTimer (fuseOk : Bool) (s : State) : Res :=
  .next (
    match s.sec.readyAt with
    | none => s
    | some t =>
      if t + 60000000000 ≤ s.now ∧ s.sec.foremanResetSinceReady = false ∧ s.brg.foreman = true then
        [1, 3, 4, 5, 6].foldl (fun s k => if k != 3 || s.sec.crewMicro then confirm k fuseOk s else s) s
      else s)

/-- CONFIRM_WINDOW_EXPIRY: 10 minutes after READY (R479). -/
def execConfirmWindowExpiry (kind : Nat) (s : State) : Res :=
  .next (
    let i := s.img kind
    match s.sec.readyAt with
    | none => s
    | some t =>
      if t + 600000000000 ≤ s.now ∧ i.st = 3 ∧ i.boots ≠ 0 ∧ s.brg.foreman = true then
        let s := raiseIrq 0x0703 (logRevert kind 0 (s.setImg kind { i with st := 4, reverted := true }))
        kickCopies { s with sec := { s.sec with revertAt := some (s.sec.revertAt.getD s.now) } }
      else s)

/-- REVERT_RESET: one second after a window revert the Foreman resets the stack; the spec gives this cause no code of
GLB_RESET_CAUSE. [DESIGN CHOICE: log entry 117] -/
def execRevertReset (s : State) : Res :=
  .next (
    match s.sec.revertAt with
    | none => s
    | some t => if t + 1000000000 ≤ s.now ∧ s.brg.foreman = true then warmReset (s.fresh.1 % 5) true s.fresh.2 else s)

/-- ALIAS_KEYS_READY: the keys come from the Foreman image's identity (R483, R488). -/
def execAliasKeysReady (s : State) : Res :=
  .next (if (s.img 1).booted.isSome = true ∧ s.brg.foreman = true then { s with sec := { s.sec with attestReady := true } } else s)

end Sys2Proof.Machine
end

