-- ==== Sys2Proof/Machine/Hewer.lean ====
section
/-! DEFINITION. The hewer's events (R28, R111 to R128): checks, issue, verdict, drain and completion of cuts, and code-table
loads. -/

namespace Sys2Proof.Machine

/-! ### Occupancy (R28) -/

/-- BUSY_WINDOW: `hclk` is the number of HCLK cycles of the window. -/
def execBusyWindow (c role hclk : Nat) (s : State) : Res :=
  .next (
    if s.crewPresent c = true ∧ role < 2 then
      let x := s.hewer c role
      let occ := if hclk = 0 then 0 else min 1024 (x.busy * 1024 / (4 * hclk))
      s.setHewer c role { x with occ := occ, heavy := decide (240 * hclk < 100 * x.busy), busy := 0 }
    else s)

/-! ### Head check (R111, R121) -/

/-- What the code tables of an array answer a head cut. -/
inductive TblFit where
  | ready (swap : Bool) | waits | bad
deriving DecidableEq, Repr, Inhabited

/-- The active or shadow table of an array for a cut (R113, R120, R121). -/
def tblFit (x : Hewer) (k : Cut) (a : Nat) : TblFit :=
  let act := Tbl.look {} x.act a
  let shd := Tbl.look {} x.shd a
  let kind := k.fmtS - 6
  if shd.st = 2 ∧ shd.id = k.tblId then (if shd.kind = kind then .ready true else .bad)
  else if shd.st = 1 ∧ shd.id = k.tblId then .waits
  else if act.valid && act.id == k.tblId then (if act.kind = kind then .ready false else .bad)
  else .bad

/-- The head cut's tables on all its arrays (R121). -/
def tblBad (x : Hewer) (k : Cut) : Bool := k.cb && k.arrays.any (fun a => tblFit x k a == .bad)

/-- The hewer can act on its head cut: present, not fenced, its HCLK running (R113). -/
def State.hewerRuns (s : State) (c h : Nat) : Bool := s.hewerLive c h && s.crewRuns c

/-- The head cut completes with BAD_DESCRIPTOR in queue order, and the queue moves on (R111, R114, R121). -/
def refuseHead (c h : Nat) (k : Cut) (rest : List Cut) (s : State) : State :=
  let x := s.hewer c h
  applyRels c (flushDone c h (s.setHewer c h { x with
    queue := rest, checked := false, issued := x.issued ++ [{ cut := k, phase := 2, st := .badDescriptor }] }))

/-- CUT_HEAD_CHECK. -/
def execCutHeadCheck (c role : Nat) (s : State) : Res :=
  .next (
    let x := s.hewer c role
    match x.queue with
    | k :: rest =>
      if s.hewerRuns c role = true ∧ x.checked = false then
        if !k.good (s.crewPresent c) || tblBad x k then refuseHead c role k rest s
        else s.setHewer c role { x with checked := true }
      else s
    | [] => s)

/-! ### Issue (R113, R120, R164) -/

/-- Every block a cut reads is RESIDENT, and every destination block EMPTY or RESIDENT (R113). -/
def blocksReady (s : State) (c h : Nat) (k : Cut) : Bool :=
  (k.reads h).all (fun p => blockSt s c p.1 p.2 == 2)
    && (k.writes h).all (fun p => blockSt s c p.1 p.2 == 0 || blockSt s c p.1 p.2 == 2)

/-- Open cuts of the crew-mate that come before a cut touch or write a block. -/
def mateCuts (s : State) (c h order : Nat) (writesOnly : Bool) (p : Nat × Nat) : Bool :=
  (openCuts s c).any (fun q => q.1 != h && decide (q.2.order < order)
    && ((q.2.writes q.1).contains p || (!writesOnly && (q.2.reads q.1).contains p)))

/-- The order of R164 lets the cut issue: earlier transfers, releases and cuts of the crew-mate are done with its
blocks. -/
def orderReady (s : State) (c h : Nat) (k : Cut) : Bool :=
  (k.reads h).all (fun p => !xferWrites s c k.order p.1 p.2 && !relWaits s c k.order p.1 p.2 && !mateCuts s c h k.order true p)
    && (k.writes h).all (fun p => !xferTouches s c k.order p.1 p.2 && !relWaits s c k.order p.1 p.2
      && !mateCuts s c h k.order false p)

/-- The hewer holds a token, or streams no cut and has idled as long as its last cut kept its arrays busy (R29). -/
def paced (s : State) (c h : Nat) : Bool :=
  s.holds (layerOf c) (colOf c h)
    || ((s.hewer c h).issued.all (fun r => r.phase != 0) && decide ((s.hewer c h).idleUntil ≤ s.hclkNs (galOf c)))

/-- The conditions of R29, R113 and R114 on the head cut. -/
def canIssue (s : State) (c h : Nat) (k : Cut) : Bool :=
  let x := s.hewer c h
  s.hewerRuns c h && (s.gal (galOf c)).ramp == 0 && x.checked && paced s c h
    && decide ((x.issued.filter (fun r => r.phase == 0)).length < 2)
    && decide ((x.issued.filter (fun r => r.phase < 2)).length < 3)
    && blocksReady s c h k && orderReady s c h k
    && (!k.toSkip || decide (k.tiles ≤ (skqFree s c).length))
    && (!k.cb || k.arrays.all (fun a => match tblFit x k a with | .ready _ => true | _ => false))

/-- The tables a cut needs are swapped in: an active table that is invalid leaves the shadow EMPTY (R120).
[DESIGN CHOICE: log entry 136] -/
def swapTables (k : Cut) (x : Hewer) : Hewer :=
  if k.cb then
    k.arrays.foldl (fun x a =>
      if tblFit x k a = .ready true then
        let act := Tbl.look {} x.act a
        let shd := Tbl.look {} x.shd a
        { x with act := Tbl.put x.act a { shd with valid := true, st := 0 }
                 shd := Tbl.put x.shd a { act with valid := false, st := if act.valid then 2 else 0 } }
      else x) x
  else x

/-- The head cut issues: tables swapped, skip-queue entries reserved, destination blocks DRAINING; a retry decodes with the
tables of the issue (R120, R125). [DESIGN CHOICE: log entry 136] -/
def issueCut (c h : Nat) (k : Cut) (rest : List Cut) (s : State) : State :=
  let x := swapTables k (s.hewer c h)
  let es := if k.toSkip then (skqFree s c).take k.tiles else []
  let dst := k.oBlocks.eraseDups
  let run : CutRun := {
    cut := k, saved := dst.map (fun b => (b, blockSt s c h b))
    tabs := if k.cb then k.arrays.map (fun a => (a, (Tbl.look {} x.act a).entries)) else []
    entries := es }
  let s := s.setHewer c h { x with queue := rest, checked := false, issued := x.issued ++ [run] }
  let s := es.foldl (fun s e => setSkq c e { st := 1, tag := k.sqTag, role := k.role, seq := k.seq } s) s
  setBlocks c h dst 3 s

/-- CUT_ISSUE. -/
def execCutIssue (c role : Nat) (s : State) : Res :=
  .next (
    let x := s.hewer c role
    match x.queue with
    | k :: rest =>
      if s.hewerRuns c role = true ∧ x.checked = true ∧ tblBad x k = true then refuseHead c role k rest s
      else if canIssue s c role k then issueCut c role k rest s
      else s
    | [] => s)

/-! ### Verdict, retry and failures (R115, R116, R122 to R127) -/


/-- A cut runs with checksums (R123, R125). -/
def checksOn (s : State) (k : Cut) : Bool := k.csum || s.chr.hewerCsum || k.op == 2


/-- The lines in error among those a cut reads. -/
def cutErrs (s : State) (c h : Nat) (k : Cut) : List (Nat × Nat) :=
  if s.errs = [] then [] else (cutLines k h).eraseDups.filter (fun p => (s.lineErr (lineOf (.face c p.1 (64 * p.2)))).isSome)

/-- The verdict on a face-store line. -/
def faceVerdict (s : State) (c role line : Nat) : Verdict :=
  s.verdict (lineOf (.face c role (64 * line))) (s.peek (.face c role (64 * line)) 64)

/-- Bytes of a face store as its lines deliver them. -/
def faceBytes (s : State) (c role a n : Nat) : List Byte :=
  if s.errs = [] then s.peek (.face c role a) n
  else (lineSpans a n).flatMap (fun p =>
    let l : Loc := .face c role (p.1 / 64 * 64)
    ((s.delivered (lineOf l) (s.peek l 64)).drop (p.1 % 64)).take p.2)

/-- Issued cut `i` stops with a status; later completions and releases follow (R114, R116, R164). -/
def stopCut (c h i : Nat) (st : Status) (s : State) : State := applyRels c (flushDone c h (failCut c h i st (cutStops c h i s)))

/-- CUT_RETRY: a checksum mismatch. -/
def execCutRetry (c role : Nat) (s : State) : Res :=
  .next (
    let x := s.hewer c role
    match streaming x with
    | some (i, k) =>
      if s.hewerRuns c role = true ∧ checksOn s k.cut = true then
        if k.retried then fenceHewer c role 1 3 (failCut c role i .unitFault (ranFor c role k k.cut.busySum s))
        else s.setHewer c role { x with
          issued := listSet x.issued i { k with retried := true, ran := k.ran + k.cut.busySum }
          busy := x.busy + k.cut.busySum }
      else s
    | none => s)

/-- The issued cut whose operand read is uncorrectable: the oldest that reads such a line, or the one that streams. -/
def ueCut (s : State) (c h : Nat) : Option (Nat × CutRun) :=
  match (s.hewer c h).issued.findIdx? (fun k => k.phase == 0
      && (cutErrs s c h k.cut).any (fun p => faceVerdict s c p.1 p.2 == .uncorrectable)) with
  | some i => ((s.hewer c h).issued[i]?).map (fun k => (i, k))
  | none => streaming (s.hewer c h)

/-- FACE_STORE_UE: an operand read is uncorrectable, and the cut stops (R126). -/
def execFaceStoreUe (c role : Nat) (s : State) : Res :=
  .next (
    match ueCut s c role with
    | some (i, k) =>
      if s.hewerRuns c role then
        let s := match (cutErrs s c role k.cut).find? (fun p => faceVerdict s c p.1 p.2 == .uncorrectable) with
          | some p => noteRead (lineOf (.face c p.1 (64 * p.2))) .uncorrectable false false s
          | none => s
        stopCut c role i .uncorrectable s
      else s
    | none => s)

/-- The issued cut whose rows an array decodes: the newest without a verdict that uses the array with a code table, since an
earlier one has decoded its last row by then (R113, R122). [DEDUCED: log entry 138] -/
def decoding (x : Hewer) (array : Nat) : Option (Nat × CutRun) :=
  (x.issued.zipIdx.filter (fun p => p.1.phase == 0 && p.1.cut.cb && p.1.cut.arrays.contains array)).getLast?.map
    (fun p => (p.2, p.1))

/-- TBL_PARITY_ERROR: the cut stops and the array's active table is invalid (R122). -/
def execTblParityError (c role array : Nat) (s : State) : Res :=
  .next (
    let x := s.hewer c role
    match decoding x array with
    | some (i, _) =>
      if s.hewerRuns c role then
        stopCut c role i .unitFault (s.setHewer c role { x with
          act := Tbl.put x.act array { Tbl.look {} x.act array with valid := false }
          tblParity := satInc 0xFF x.tblParity })
      else s
    | none => s)

/-- A cut's verdict passes: its FP32 result is taken and its drain begins (R76, R116). -/
def passCut (c h i : Nat) (k : CutRun) (s : State) : State :=
  let st := fun xb => if xb then 1 - h else h
  let res := k.cut.compute (faceBytes s c (st k.cut.xbarS)) (faceBytes s c (st k.cut.xbarT)) (faceBytes s c h) k.tabs
  let s := (cutErrs s c h k.cut).foldl (fun s p =>
    noteRead (lineOf (.face c p.1 (64 * p.2))) (faceVerdict s c p.1 p.2) false false s) s
  let s := ranFor c h k k.cut.busySum s
  let x := s.hewer c h
  s.setHewer c h { x with
    issued := listSet x.issued i { k with phase := 1, result := res }
    retries := if k.retried then satInc 0xFFFF x.retries else x.retries }

/-- CUT_VERDICT. An MM_INJECT cut's first attempt always mismatches (R125); an uncorrectable operand or a read of a
crew-mate lost at bring-up stops the cut instead (R126). [DEDUCED: log entry 35] -/
def execCutVerdict (c role : Nat) (s : State) : Res :=
  .next (
    let x := s.hewer c role
    match streaming x with
    | some (i, k) =>
      if s.hewerRuns c role = true ∧ x.issued.all (fun r => r.phase != 1) = true ∧ (k.cut.op ≠ 2 ∨ k.retried = true) then
        if (k.cut.xbarS || k.cut.xbarT) && (s.hewer c (1 - role)).fenceCause == 5 then stopCut c role i .denied s
        else if (cutErrs s c role k.cut).any (fun p => faceVerdict s c p.1 p.2 == .uncorrectable) then s
        else passCut c role i k s
      else s
    | none => s)

/-! ### Drain and completion (R112, R114, R116, R146, R147) -/

/-- The cut that drains. -/
def draining (x : Hewer) : Option (Nat × CutRun) :=
  match x.issued.findIdx? (fun k => k.phase == 1) with
  | some i => (x.issued[i]?).map (fun k => (i, k))
  | none => none

/-- The result that a cut drains: free values where an operand was written after issue (R47). -/
def drainResult (k : CutRun) (s : State) : State × List (List Word) :=
  if k.tainted then
    ({ s with free := s.free + k.cut.m * k.cut.n },
      (List.range k.cut.m).map (fun i => (List.range k.cut.n).map (fun j =>
        BitVec.ofNat 32 (Config.freeValue (s.free + i * k.cut.n + j)))))
  else (s, k.result)

/-- A draining hewer's HCLK runs; a fenced one ends a drain that has begun (R116, R127). -/
def State.hewerDrains (s : State) (c : Nat) : Bool := s.crewPresent c && s.crewRuns c

/-- CUT_DRAIN_TILE: the next tile's RESERVED entry becomes FULL. -/
def execCutDrainTile (c role : Nat) (s : State) : Res :=
  .next (
    match draining (s.hewer c role) with
    | some (i, k) =>
      if s.hewerDrains c = true ∧ k.cut.toSkip = true ∧ k.drained < k.entries.length
          ∧ (skqEntry s c (k.entries.getD k.drained 0)).st = 1 then
        let r := drainResult k s
        let t := k.cut.tile r.2 k.drained
        let d := r.1.dresser c
        let e := k.entries.getD k.drained 0
        let s := r.1.setDresser c { d with
          skq := Tbl.put d.skq e { skqEntry r.1 c e with st := 2, rows := t.2, data := t.1, age := d.ageNext }
          ageNext := d.ageNext + 1 }
        let x := s.hewer c role
        s.setHewer c role { x with issued := listSet x.issued i { k with drained := k.drained + 1 } }
      else s
    | none => s)

/-- The output rows of a cut written to its store (R109). -/
def writeRows (c h : Nat) (k : Cut) (rows : List (List Word)) (s : State) : State :=
  rows.zipIdx.foldl (fun s r =>
    let bs := k.outRow r.1
    (List.range (bs.length / 64)).foldl (fun s j =>
      writeLine (.face c h (64 * (k.oBase + r.2 * k.oStride + j))) ((bs.drop (64 * j)).take 64) s) s) s

/-- A cut whose drain has ended completes OK (R114, R164). -/
def completeCut (c h i : Nat) (k : CutRun) (s : State) : State :=
  let s := if k.cut.toSkip then s
    else
      let r := drainResult k s
      setBlocks c h (k.saved.map (·.1)) 2 (writeRows c h k.cut r.2 r.1)
  let x := s.hewer c h
  applyRels c (flushDone c h (s.setHewer c h { x with
    issued := listSet x.issued i { k with phase := 2, st := .ok, entries := [], saved := [], result := [] } }))

/-- CUT_COMPLETE. -/
def execCutComplete (c role : Nat) (s : State) : Res :=
  .next (
    match draining (s.hewer c role) with
    | some (i, k) =>
      if s.hewerDrains c = true ∧ (k.cut.toSkip = false ∨ k.drained = k.entries.length) then completeCut c role i k s
      else s
    | none => s)

/-! ### Code-table loads (R72, R118, R119) -/

/-- The next load of an array takes its shadow (R118). -/
def nextLoad (c h a : Nat) (s : State) : State :=
  let x := s.hewer c h
  match x.loads.find? (fun l => l.arr == a) with
  | some q => s.setHewer c h { x with shd := Tbl.put x.shd a { id := q.id, kind := q.kind, st := 1 } }
  | none => s

/-- A load ends with a status, and its shadow LOADED or EMPTY. -/
def endLoad (c h : Nat) (q : TblReq) (st : Status) (bs : List Byte) (s : State) : State :=
  let x := s.hewer c h
  let slot : TblSlot := { id := q.id, kind := q.kind, st := if st = .ok then 2 else 0, entries := bs }
  let i := x.loads.findIdx (fun l => l.arr == q.arr)
  let s := s.setHewer c h { x with loads := listDel x.loads i, shd := Tbl.put x.shd q.arr slot }
  postRec c { tag := q.id, status := st, source := 4 + q.role } (nextLoad c h q.arr s)

/-- TBL_LOAD_DONE: a load in flight on a hewer that has been fenced ends UNIT_DEAD. [DESIGN CHOICE: log entry 137] -/
def execTblLoadDone (c role array : Nat) (s : State) : Res :=
  .next (
    match (s.hewer c role).loads.find? (fun l => l.arr == array) with
    | some q =>
      if s.crewPresent c = true ∧ s.crewRuns c = true then
        if (s.hewer c role).fenceCause ≠ 0 then endLoad c role q .unitDead [] s
        else
          match readLine (.face c role (q.addr / 64 * 64)) s with
          | (s, none) => endLoad c role q .uncorrectable [] s
          | (s, some ln) =>
            let bs := (ln.drop (q.addr % 64)).take (if q.kind = 0 then 16 else 8)
            if tableGood bs then endLoad c role q .ok bs s else endLoad c role q .badDescriptor [] s
      else s
    | none => s)

end Sys2Proof.Machine
end

