-- ==== Sys2Proof/Machine/RegRead.lean ====
section
/-! DEFINITION. What the registers read as (18_register_index.md and the register tables of the chapters). -/

namespace Sys2Proof.Machine

/-- A register from its fields: lowest bit, width and value. -/
def pack (fs : List (Nat × Nat × Nat)) : Nat := fs.foldl (fun acc f => acc + f.2.2 % 2 ^ f.2.1 * 2 ^ f.1) 0

/-- How many of the numbers below `n` satisfy a condition. -/
def countOf (n : Nat) (p : Nat → Bool) : Nat := ((List.range n).filter p).length

/-! ### Blocks (R490 to R492) -/

/-- The blocks of Table 18-1 but for the slot table: VERSION address, ID, slots. -/
def blocks : List (Nat × Nat × Nat) :=
  [(0x00000000, 0x01, 1), (0x00100000, 0x02, 1), (0x00200000, 0x03, 1), (0x00300000, 0x04, 1), (0x00400000, 0x05, 1),
   (0x00800000, 0x06, 16), (0x02000000, 0x07, 32), (0x02400000, 0x08, 128), (0x02800000, 0x09, 768), (0x03300000, 0x0A, 768)]
  ++ [(0x03400000, 0x0B, 1), (0x03500000, 0x0C, 1), (0x03600000, 0x0D, 4), (0x03700000, 0x0E, 9), (0x03800000, 0x0F, 48),
   (0x03A00000, 0x10, 1), (0x03C00000, 0x11, 32), (0x03D00000, 0x12, 1), (0x03E00000, 0x13, 1)]

/-- block_CAP.present: the instances that the fuses enable (Table 18-3). -/
def fusedPresent (s : State) (id slots : Nat) : Nat :=
  if id = 0x08 then countOf 128 (fun c => !s.fuses.badCrews.contains c)
  else if id = 0x09 ∨ id = 0x0A then 192 * countOf 4 (fun g => !s.fuses.groupsOff.contains g)
  else slots

/-- block_VERSION or block_CAP at an address (R491, R492). -/
def versionRead (s : State) (a : Nat) : Option Nat :=
  (blocks.find? (fun b => a == b.1 || a == b.1 + 4)).map (fun b =>
    if a = b.1 then pack [(8, 8, 1), (16, 5, b.2.1)] else pack [(0, 12, b.2.2), (12, 12, fusedPresent s b.2.1 b.2.2)])

/-! ### GLB, EVT, PWR, CLK, THM -/

/-- The units behind the status registers run from the end of CHARTER; until then those show their reset values (R11).
[DEDUCED: log entry 147] -/
def unitsShown (s : State) : Bool := s.brg.charterDone

/-- A present, unfenced hewer (GLB_LIVE). -/
def liveHewers (s : State) : Nat := if unitsShown s then countOf 256 (fun i => s.hewerLive (i / 2) (i % 2)) else 0

/-- GLB_SCRUB_LAP_n (R377). -/
def scrubLap (s : State) (n : Nat) : Nat :=
  let lap (k : Nat) : Option Nat := (Tbl.look {} s.scrubs (4 * k)).lap
  let out : Option Nat → Nat
    | some t => pack [(0, 24, t), (24, 1, 1)]
    | none => 0
  if n < 4 then
    if bit n s.glb.groups then
      let laps := (List.range 192).map (fun i => lap (192 * n + i))
      out (if laps.all (·.isSome) then some (laps.foldl (fun m t => max m (t.getD 0)) 0) else none)
    else 0
  else if n < 8 ∧ bit (n - 4) s.glb.stock = true then out (lap (1024 + (n - 4))) else 0

/-- The GLB registers. -/
def glbRead (s : State) (o : Nat) : Nat :=
  let c := s.chr
  let d := s.glb.deny
  if o = 0x100 then
    pack [(0, 8, c.stripeMask), (8, 4, s.glb.groups), (12, 4, s.glb.stock), (16, 2, c.seamArb), (18, 1, b2n c.winSeams),
      (19, 1, b2n c.winBin), (20, 1, b2n c.winStock), (21, 3, c.binPriv.length - 1), (24, 1, b2n (c.binPriv == []))]
  else if o = 0x104 then
    pack [(0, 1, b2n d.valid), (1, 1, b2n d.overflow), (2, 1, b2n d.write), (3, 3, d.reason), (6, 4, d.cls), (10, 10, d.src)]
  else if o = 0x200 then
    pack [(0, 8, c.eccLeak), (8, 8, c.eccThresh), (16, 1, b2n c.scrubEn), (17, 10, c.scrubQuantum), (27, 1, b2n c.residueEn),
      (28, 1, b2n c.hewerCsum)]
  else if 0x210 ≤ o ∧ o < 0x230 then scrubLap s ((o - 0x210) / 4)
  else if o = 0x300 then
    pack [(0, 9, 2 * (128 - s.glb.badCrews.length)), (9, 4, s.glb.gradeGroups), (13, 4, s.glb.gradeStock),
      (17, 4, s.glb.gradeMill), (21, 1, b2n s.fuses.variantA), (22, 1, b2n s.fuses.gradeE), (23, 1, b2n s.glb.surveyLost)]
  else if 0x304 ≤ o ∧ o < 0x314 then maskOf 32 (fun i => !s.glb.badCrews.contains (8 * (o - 0x304) + i))
  else if o = 0x314 then
    pack [(0, 9, liveHewers s), (9, 8, countOf 128 (fun k => s.crewPresent k && !(s.crew k).fenced && (s.crew k).state == 4)),
      (17, 6, s.glb.galFenced.length)]
  else if o = 0x320 then s.glb.resetCause
  else 0

/-- The record in place `k` of the event ring, with its sequence number (R496). -/
def ringRecord (s : State) (k : Nat) : List Byte :=
  let back := (s.evt.next.toNat + 4096 * 1048576 - 1 - k) % 4096
  match Tbl.look? s.evt.ring k with
  | none => List.replicate 32 0
  | some e => recordBytes (s.evt.next - 1 - BitVec.ofNat 32 back) e

/-- A line of the event ring: two records. -/
def ringLine (s : State) (j : Nat) : List Byte := ringRecord s (2 * j) ++ ringRecord s (2 * j + 1)

/-- A word of the event ring; a line that decodes uncorrectable reads as zero (R496). -/
def ringRead (s : State) (o : Nat) : Nat :=
  let l : LineId := ⟨6, 9, o / 64⟩
  let bs := ringLine s (o / 64)
  if s.verdict l bs = .uncorrectable then 0 else leAt (s.delivered l bs) (o % 64) 4

/-- A read of a word of the event ring counts as a read of its line (R370 to R372). [DEDUCED: log entry 147] -/
def ringNote (a : Nat) (s : State) : State :=
  if 0x108000 ≤ a ∧ a < 0x128000 then
    let l : LineId := ⟨6, 9, (a - 0x108000) / 64⟩
    noteRead l (s.verdict l (ringLine s l.line)) false false s
  else s

/-- The EVT registers. -/
def evtRead (s : State) (o : Nat) : Nat :=
  if o = 0x100 then s.evt.next.toNat
  else if o = 0x104 then s.chr.irqMask % 65536
  else if 0x8000 ≤ o ∧ o < 0x28000 then ringRead s (o - 0x8000)
  else 0

/-- The PWR registers. [DEDUCED: log entry 124] -/
def pwrRead (s : State) (o : Nat) : Nat :=
  let p := s.pwr
  if o = 0x100 then
    pack [(0, 13, tc 13 (p.headroom / 4)), (13, 6, p.queue.length + p.fresh.length), (19, 1, b2n p.over_),
      (20, 1, b2n ((List.range 32).any (fun g => decide ((s.gal g).ledgerClamp < 16))))]
  else if o = 0x104 then pack [(0, 12, s.chr.ledgerLimit), (12, 12, s.chr.unparkMin)]
  else if o = 0x108 then pack [(0, 1, b2n s.chr.boardDemand), (4, 4, p.seq), (8, 16, p.frames), (24, 8, p.late)]
  else if o = 0x10C then pack [(0, 1, b2n p.sagIrq), (1, 1, b2n p.sagClampEn)]
  else if o = 0x110 then
    pack [(0, 1, b2n (p.warn != [])), (1, 1, b2n p.warned), (2, 3, p.resetRail), (5, 10, p.vinMin)]
  else 0

/-- CLK_STAT. -/
def clkRead (s : State) (o : Nat) : Nat :=
  if o = 0x100 then
    pack [(0, 8, s.clk.lost), (8, 1, b2n s.clk.hclk), (9, 5, s.clk.gallery), (31, 1, b2n s.clk.fallback)]
  else 0

/-- A list of numbers as a mask. -/
def setMask (n : Nat) (l : List Nat) : Nat := maskOf n l.contains

/-- The thermal clamp as the registers show it: 15 when none. [DEDUCED: log entry 124] -/
def shownClamp (p : Nat) : Nat := min 15 p

/-- The THM registers; the level of the FLOW_OK pin is an input. [DESIGN CHOICE: log entry 122] -/
def thmRead (s : State) (o : Nat) : Nat :=
  let c := s.chr
  let t := s.thm
  if o = 0x100 then
    pack [(0, 1, b2n c.air), (1, 1, b2n c.flowOkEn), (2, 1, b2n c.flowSrcPressure), (3, 1, b2n t.pulseFailed),
      (4, 4, c.floorMargin), (8, 8, t.forecastMs)]
  else if o = 0x104 then c.coolKeep
  else if o = 0x108 then pack [(0, 16, c.flowNom), (16, 16, c.dpNom)]
  else if o = 0x10C then pack [(0, 12, tc 12 t.inlet), (16, 12, tc 12 t.outlet)]
  else if o = 0x110 then
    if c.air then 0
    else pack [(0, 8, min 255 t.flow), (8, 12, t.dp), (20, 3, t.level), (23, 1, if s.brg.charterDone then Config.freeValue s.free else 0)]
  else if o = 0x114 then pack [(0, 11, t.duty), (11, 1, b2n t.forced), (12, 12, if c.air then c.airTarget else c.outSet)]
  else if o = 0x118 then pack [(0, 4, setMask 4 t.suspect), (4, 4, setMask 4 t.seen)]
  else if o = 0x11C then setMask 12 t.doubled
  else if o = 0x120 then pack [(0, 1, b2n t.stopped), (1, 3, t.cause), (5, 1, b2n t.refused)]
  else if 0x200 ≤ o ∧ o < 0x280 then
    let x := s.gal ((o - 0x200) / 4)
    pack [(0, 12, tc 12 x.tg), (12, 12, tc 12 x.model), (24, 2, x.src), (26, 4, shownClamp (thermalClamp x)),
      (30, 1, b2n (x.causes.any (·.2.active)))]
  else if 0x400 ≤ o ∧ o < 0x700 then
    let n := (o - 0x400) / 4
    let a := s.can (240 + 2 * n)
    let b := s.can (241 + 2 * n)
    pack [(0, 12, tc 12 a.reading), (12, 12, tc 12 b.reading), (24, 1, b2n (s.pair n).disagree), (25, 1, b2n (s.pair n).suspect),
      (26, 1, b2n a.failed), (27, 1, b2n b.failed)]
  else if 0x800 ≤ o ∧ o < 0xBC0 then
    let x := s.can ((o - 0x800) / 4)
    pack [(0, 12, tc 12 x.reading), (12, 1, b2n x.failed)]
  else 0

/-! ### HIF, GAL -/

/-- The marked slots of a function. -/
def fnMarks (s : State) (f : Nat) : List Nat :=
  let x := s.fn f
  s.hif.marked.filter (fun k => decide (64 * x.slotBase ≤ k) && decide (k < 64 * (x.slotBase + x.slotCount)))

/-- A marked slot of the function holds a request that waits for a ring entry (Table 12-14). -/
def ringWaits (s : State) (f : Nat) : Bool :=
  ringFree (s.fn f) == 0 && (fnMarks s f).any (fun k => bit 0 (s.slotMem.get (128 * k)).toNat)

/-- R364 holds the function: shown once bus mastering has been set up since the reset, or while a slot waits (Table 12-14).
[DEDUCED: log entry 147] -/
def holdShown (s : State) (f : Nat) : Bool := (s.fn f).hold && ((s.fn f).bmSeen || fnMarks s f != [])

/-- A function's block (Tables 12-13 to 12-15). [DEDUCED: log entry 58] -/
def fnRead (s : State) (f o : Nat) : Nat :=
  let x := s.fn f
  if o = 0x00 then pack [(0, 6, x.slotBase), (6, 7, x.slotCount)]
  else if o = 0x04 then pack [(0, 8, x.seqBase), (8, 9, x.seqCount)]
  else if o = 0x08 then x.ops % 64
  else if o = 0x0C then
    pack [(0, 17, x.outstanding), (17, 1, b2n (ringWaits s f)), (18, 1, b2n (holdShown s f)), (19, 1, b2n (fnMarks s f != []))]
  else if o = 0x18 then pack [(0, 1, b2n x.cqEn), (1, 5, x.cqLog2), (16, 11, x.vector)]
  else if o = 0x1C then x.head % 65536
  else if o = 0x20 then pack [(0, 16, x.tail), (16, 1, x.phase)]
  else if o = 0x24 then pack [(0, 8, x.modCount), (8, 12, x.modTime)]
  else 0

/-- The HIF registers. -/
def hifRead (s : State) (o : Nat) : Nat :=
  let h := s.hif
  if o = 0x100 then pack [(0, 4, h.speed), (4, 5, h.width), (9, 1, b2n h.flit), (10, 1, b2n h.up), (11, 4, h.resets)]
  else if 0x1000 ≤ o ∧ o < 0x2000 then fnRead s ((o - 0x1000) / 0x100) (o % 0x100)
  else 0

/-- A gallery's registers (Tables 14-8 to 14-13). -/
def galRead (s : State) (g o : Nat) : Nat :=
  let x := s.gal g
  if o = 0x100 then pack [(0, 4, x.target), (4, 4, s.chr.galPmax), (8, 8, x.droopTrip), (16, 8, rampLimit s)]
  else if o = 0x104 then
    pack [(0, 4, x.point), (4, 4, shownClamp (clampOf s x)), (8, 1, b2n (decide (thermalClamp x < 16))),
      (9, 1, b2n (decide (x.coolantClamp < 16))), (10, 1, b2n (decide (x.ledgerClamp < 16))),
      (11, 1, b2n (decide (sagClampOf s < 16))), (12, 4, coreLimit s g), (16, 1, b2n x.moving), (17, 1, b2n x.waiting)]
  else if o = 0x108 then
    pack [(0, 1, b2n x.park), (1, 1, b2n x.rThermal), (2, 1, b2n x.rCoolant), (3, 1, b2n x.rFence), (4, 1, b2n x.rBoot),
      (5, 1, b2n x.parked), (6, 5, x.step), (11, 1, b2n x.partial_)]
  else if o = 0x10C then pack [(0, 10, x.vmin), (10, 16, x.events)]
  else if o = 0x118 then pack [(0, 12, x.measured), (12, 12, x.account)]
  else if 0x200 ≤ o ∧ o < 0x240 then
    let n := (o - 0x200) / 4
    pack [(0, 8, capAt s g n (mvNow s g) / 25), (8, 5, kNow s g n), (13, 8, (s.core g n).aged), (21, 1, b2n (corePresent s g n))]
  else 0

/-! ### CRW -/

/-- The table fields of the four arrays, in their bytes of a register. [DEDUCED: log entry 123] -/
def perArray (t : Tbl TblSlot) (f : TblSlot → List (Nat × Nat × Nat)) : Nat :=
  pack ((List.range 4).flatMap (fun a => (f (Tbl.look {} t a)).map (fun x => (x.1 + 8 * a, x.2))))

/-- A hewer's registers (Tables 4-10 to 4-14 and 13-13). [DEDUCED: log entry 123] -/
def hewerRead (s : State) (c r o : Nat) : Nat :=
  let x := s.hewer c r
  let state := if x.fenceCause ≠ 0 then 3 else if s.crewRuns c = false then 2 else if x.queue != [] || x.issued != [] then 1 else 0
  let tok := s.holds (layerOf c) (colOf c r)
  if o = 0x00 then
    pack [(0, 1, 1), (1, 2, if unitsShown s then state else 0),
      (3, 1, b2n (match streaming x with | some k => k.2.cut.broad | none => false)),
      (4, 5, x.queue.length), (9, 2, (x.issued.filter (fun k => decide (k.phase < 2))).length), (11, 1, b2n tok),
      (12, 1, b2n (unitsShown s && !tok)), (13, 3, x.fenceCause)]
  else if o = 0x04 then pack [(0, 1, b2n s.chr.hewerCsum), (8, 16, x.retries), (24, 8, x.tblParity)]
  else if o = 0x08 then perArray x.act (fun t => [(0, 6, t.id), (6, 1, b2n t.valid), (7, 1, t.kind)])
  else if o = 0x0C then perArray x.shd (fun t => [(0, 6, t.id), (6, 2, t.st)])
  else if o = 0x10 then x.occ % 2048
  else if o = 0x14 then pack [(0, 16, x.resends), (16, 6, x.spares.length), (22, 1, b2n x.exhausted)]
  else 0

/-- The dresser's and the skip queue's registers (Tables 5-5 to 5-9). -/
def drsRead (s : State) (c o : Nat) : Nat :=
  let x := s.dresser c
  let state := if (s.crew c).fenced then 3 else if s.crewRuns c = false then 2 else if x.run.isSome then 1 else 0
  let skq (p : Nat) : Nat := countOf 16 (fun k => (skqEntry s c k).st == p)
  if o = 0x00 then
    pack [(0, 1, 1), (1, 2, if unitsShown s then state else 0), (3, 1, b2n x.waitFrom.isSome), (4, 3, x.queue.length), (8, 4, x.lastStatus), (16, 16, x.pc)]
  else if o = 0x04 then pack [(0, 1, b2n x.sat), (1, 1, b2n x.inv)]
  else if o = 0x08 then pack [(0, 16, x.retries), (16, 8, x.faultOp)]
  else if o = 0x0C then x.sqWait % 256
  else if o = 0x10 then pack [(0, 5, skq 0), (5, 5, skq 1), (10, 5, skq 2), (16, 8, x.parity)]
  else 0

/-- The tally's registers (Tables 6-13 to 6-18). -/
def tlyRead (s : State) (c o : Nat) : Nat :=
  let x := s.crew c
  if o = 0x100 then 8 * b2n x.buddyEn
  else if o = 0x104 then
    pack [(0, 3, x.state), (3, 4, x.cause), (7, 1, b2n x.buddy), (8, 1, x.deadRole), (9, 1, b2n x.late), (10, 1, b2n x.trap),
      (16, 16, x.exit)]
  else if o = 0x108 then pack [(0, 16, x.progress), (16, 5, min 31 ((s.hclkNs (galOf c) - x.hbFrom) / 1000))]
  else if 0x3000 ≤ o ∧ o < 0x3040 then (Tbl.look (0 : Word) x.counts ((o - 0x3000) / 4)).toNat
  else if o = 0x3040 then setMask 16 x.dead
  else 0

/-- A crew's registers; of a crew that the survey or assay has absent only the reason shows (Table 4-10).
[DEDUCED: log entry 123] -/
def crwRead (s : State) (c o : Nat) : Nat :=
  if s.crewPresent c then
    if 0x1000 ≤ o ∧ o < 0x1200 then hewerRead s c ((o - 0x1000) / 0x100) (o % 0x100)
    else if 0x2000 ≤ o ∧ o < 0x2100 then drsRead s c (o - 0x2000)
    else tlyRead s c o
  else if !s.fuses.badCrews.contains c && (o == 0x1000 || o == 0x1100) then pack [(1, 2, 3), (13, 3, 5)]
  else 0

/-! ### SEAM, FACE, BIN, STK, MILL, VEIN -/

/-- A seam's registers (Tables 2-9 and 13-10 to 13-12). -/
def seamRead (s : State) (n o : Nat) : Nat :=
  let x := s.seam n
  if !s.seamPresent n then 0
  else if o = 0x10 then
    pack [(0, 1, 1), (1, 1, b2n x.selfRefresh), (2, 1, b2n ((s.face n).strokes.any (·.granted))), (8, 16, x.guard)]
  else if o = 0x20 then pack [(0, 8, (s.bucket (bucketKey 0 n)).level), (8, 16, x.corrected), (24, 8, x.uncorr)]
  else if o = 0x24 then pack [(0, 23, x.ueLine), (23, 1, b2n x.ueValid), (24, 1, b2n x.ueScrub), (25, 1, b2n x.ueWrite)]
  else if o = 0x28 then
    pack [(0, 7, x.inj.getD 0 0), (7, 7, x.inj.getD 1 0), (14, 7, x.inj.getD 2 0), (21, 2, x.inj.getD 3 0), (23, 1, b2n x.injArm)]
  else 0

/-- A face unit's registers (Tables 7-8 to 7-12). -/
def faceRead (s : State) (n o : Nat) : Nat :=
  let x := s.face n
  if !faceHere s n then 0
  else if o = 0x00 then
    pack [(0, 1, 1), (1, 2, x.state), (3, 3, x.queue.length), (6, 1, b2n (x.strokes.any (fun k => !k.granted || k.held))),
      (7, 1, b2n x.dropped), (8, 8, x.pc), (16, 4, x.lastStatus)]
  else if o = 0x04 then pack [(0, 1, b2n x.sat), (1, 1, b2n x.inv)]
  else if o = 0x08 then pack [(0, 16, x.retries), (16, 8, x.faultOp)]
  else if o = 0x0C then pack [(0, 12, x.limit), (12, 1, b2n s.chr.faceLauncherHost), (13, 2, s.faceShare / 32)]
  else if o = 0x10 then faceDoneWord x
  else 0

/-- The token registers (Tables 1-9 and 1-10). -/
def binRead (s : State) (o : Nat) : Nat :=
  if o = 0x100 then
    pack [(0, 3, if s.chr.testMode then s.chr.testTokens else if s.chr.air then 1 else 2), (3, 1, b2n s.chr.testMode),
      (4, 1, b2n s.flowClamp), (5, 1, b2n s.layerSuspect), (6, 1, b2n s.tokAdjacency)]
  else if 0x200 ≤ o ∧ o < 0x300 then
    let t := s.tok ((o - 0x200) / 4)
    pack [(0, 3, s.tokLimit), (4, 4, setMask 4 t.holders), (8, 4, setMask 4 t.revoked)]
  else 0

/-- STK_CREW_MAP_n (Table 6-19). -/
def stkRead (s : State) (o : Nat) : Nat :=
  if 0x400 ≤ o ∧ o < 0x600 then
    let m := Tbl.look (0, false) s.crewMap ((o - 0x400) / 4)
    pack [(0, 7, m.1), (7, 1, b2n m.2)]
  else 0

/-- A line for engine `e` is held back: in the engine, in an adit's buffer, or at the endpoint (R253, Table 9-12). -/
def engHeld (s : State) (e : Nat) : Bool :=
  let here := fun (a src dpa : Nat) => (landingOf s (.peer a src) dpa).any (fun p => p.1 == e)
  (s.eng e).held != []
    || (List.range 48).any (fun a => (s.adit a).rxbuf.any (fun f =>
        f.dst == s.fld.id && bulkHeld s a f && here a f.src (leAt f.payload 0 6)))
    || s.fld.inbox.any (fun p => p.2.op == 0x01 && here p.1 p.2.src (p.2.addr.toNat % 2 ^ 48)
        && !landRoom s (.peer p.1 p.2.src) (p.2.addr.toNat % 2 ^ 48) ((p.2.len + 63) / 64))

/-- A Mill engine's registers (Tables 9-10 to 9-15). -/
def engRead (s : State) (e o : Nat) : Nat :=
  let x := s.eng e
  if o = 0x00 then
    pack [(0, 2, x.state), (2, 3, x.queue.length), (5, 4, x.ranges.length), (9, 2, x.phase), (11, 4, x.lastStatus), (15, 1, b2n x.dropped)]
  else if o = 0x04 then (match x.cur with | some k => k.pos | none => 0) % 2 ^ 21
  else if o = 0x08 then pack [(0, 13, x.landed.length / 16), (13, 1, b2n (engHeld s e))]
  else if o = 0x0C then pack [(0, 16, x.retries), (16, 6, x.faultOp)]
  else if o = 0x10 then pack [(0, 16, x.late), (16, 16, x.dup)]
  else if o = 0x14 then pack [(0, 16, x.doneTag), (16, 4, x.doneStatus), (20, 8, x.doneCount)]
  else 0

/-- The MILL registers. -/
def millRead (s : State) (o : Nat) : Nat :=
  if o = 0x100 then s.millStall % 65536
  else if 0x1000 ≤ o ∧ o < 0x5000 then engRead s ((o - 0x1000) / 0x1000) (o % 0x1000)
  else 0

/-- The VEIN registers (Tables 8-13 to 8-17). -/
def veinRead (s : State) (o : Nat) : Nat :=
  let v := s.vein
  if o = 0x100 then pack [(0, 5, v.log2), (5, 3, s.chr.veinChk - 1), (8, 8, s.chr.kvPool)]
  else if o = 0x104 then
    pack [(0, 1, b2n v.migrating), (1, 1, b2n (decide (65536 ≤ v.limbo.length))), (2, 17, v.limbo.length)]
  else if o = 0x108 then pack [(0, 19, v.pointer), (19, 5, v.newLog2)]
  else if o = 0x10C then pack [(0, 16, v.collide), (16, 16, v.evict)]
  else if 0x1000 ≤ o ∧ o < 0x1900 ∧ o % 0x100 = 0x28 then
    let p := s.vport ((o - 0x1000) / 0x100)
    pack [(0, 6, p.head), (8, 6, p.tail), (16, 1, b2n p.dropped), (17, 6, p.queue.length)]
  else 0

/-! ### ADT, FLD -/

/-- ADT_CTRL.min_width of a lane count. -/
def widthCode (n : Nat) : Nat := if n = 1 then 0 else if n = 2 then 1 else 2

/-- An adit's registers (Tables 10-12 to 10-17). -/
def aditRead (s : State) (a o : Nat) : Nat :=
  let x := s.adit a
  let c := s.chr
  if o = 0x100 then
    pack [(2, 1, b2n (aditOn s a)), (3, 2, c.aditRate), (5, 1, b2n c.aditFallback), (6, 2, widthCode c.aditMinWidth), (8, 4, x.wReq),
      (12, 4, x.wRsp), (16, 4, x.wBulk)]
  else if o = 0x104 then
    pack [(0, 3, x.state), (3, 2, x.rate), (5, 4, x.lanes), (9, 2, x.rev), (11, 1, b2n x.spare), (12, 4, x.cause)]
  else if o = 0x108 then pack [(0, 14, x.peerStack), (16, 6, x.peerAdit), (22, 1, b2n x.peerValid)]
  else if o = 0x10C then pack [(0, 16, x.replays), (16, 8, x.hdr), (24, 4, x.lost), (28, 4, x.retrains)]
  else if o = 0x110 then
    pack [(0, 16, x.uncorr), (16, 4, x.laneFault), (20, 8, berLive s a)]
  else if o = 0x114 then pack [(0, 8, x.berQ), (8, 2, x.worstLane), (10, 1, b2n x.passRx), (11, 1, b2n x.passPeer)]
  else 0

/-- Hops to a member of the own group, with a detour where the direct link is down (R316); and whether it detours. -/
def localHops (s : State) (m : Nat) : Option (Nat × Bool) :=
  if m = memberOf s.fld.id then some (0, false)
  else
    match localHop s false false 0 m with
    | .port a _ => some (if a = s.localPort m then (1, false) else (2, true))
    | _ => none

/-- The member of the far group at which copy `q` of the own group lands (R309). -/
def landsAt (s : State) (q : Nat) : Nat :=
  let g := s.chr.groups - 1
  (q / g * g + s.chr.groups - 2 - q % g) / 16

/-- Hops by one copy of a global link to stack `n`, as the own ports and LINKMAP show it up. [DEDUCED: log entry 121] -/
def copyHops (s : State) (n q : Nat) : Option (Nat × Bool) :=
  let last := if landsAt s q = memberOf n then 0 else 1
  if q / 16 = memberOf s.fld.id then
    if s.portUp false false 0 (31 + q % 16) then some (1 + last, false) else none
  else if (s.linkmap (q / 16)).fresh && bit (q % 16) (s.linkmap (q / 16)).globals then
    (localHops s (q / 16)).map (fun h => (h.1 + 1 + last, h.2))
  else none

/-- The best route to a stack with current links: its hops and whether it needs a detour (Table 11-14).
[DEDUCED: log entry 121] -/
def bestRoute (s : State) (n : Nat) : Option (Nat × Bool) :=
  if groupOf n = groupOf s.fld.id then localHops s (memberOf n)
  else
    ((copies s.chr.groups (groupOf s.fld.id) (groupOf n)).filterMap (copyHops s n)).foldl
      (fun best h => match best with
        | none => some h
        | some b => if h.1 < b.1 then some h else some b) none

/-- FLD_ROUTE_n (Table 11-14): a stack that is no member shows no hops; where no route to a member is up the spec states no
number of hops. [DEDUCED: log entry 121] -/
def routeRead (s : State) (n : Nat) : Nat :=
  let m := s.memberOf n
  let r := if m.member then (bestRoute s n).getD (Config.freeValue s.free % 4, false) else (0, false)
  pack [(0, 1, b2n m.member), (1, 2, min 3 r.1), (3, 1, b2n r.2), (8, 24, m.inc)]

/-- The FLD registers (Tables 11-7 to 11-14). -/
def fldRead (s : State) (o : Nat) : Nat :=
  let f := s.fld
  if o = 0x100 then pack [(0, 14, f.id), (16, 9, s.chr.groups - 1)]
  else if o = 0x104 then pack [(0, 8, f.adaptT), (8, 8, f.ordWait), (16, 4, s.chr.gmPrio), (20, 1, b2n f.nonmin)]
  else if o = 0x108 then
    pack [(0, 1, b2n f.joined), (1, 1, b2n f.dupId), (2, 1, b2n f.miscabled), (16, 15, (s.members.filter (·.2.member)).length)]
  else if o = 0x114 then pack [(0, 2, f.tstate), (2, 6, f.parent), (8, 3, f.distance), (16, 14, f.gm)]
  else if o = 0x118 then tc 32 f.offset
  else if o = 0x12C then pack [(0, 16, f.noroute), (16, 16, f.unknownSrc)]
  else if 0x10000 ≤ o ∧ o < 0x20000 then routeRead s ((o - 0x10000) / 4)
  else 0

/-! ### CHK, SEC, BRG -/

/-- A check unit's registers (Table 13-14). -/
def chkRead (s : State) (u o : Nat) : Nat :=
  let x := s.chk u
  if o = 0x00 then
    pack [(0, 1, b2n x.arm), (1, 1, b2n x.window), (2, 2, x.poly), (4, 4, x.src), (8, 9, x.index), (17, 1, b2n (decide (u < s.chr.veinChk)))]
  else if o = 0x1C then x.wlen.toNat
  else if o = 0x28 then pack [(0, 1, b2n (chkDone x)), (1, 1, b2n x.over_)]
  else 0

/-- The SEC registers (Tables 17-8 to 17-13). [DEDUCED: log entry 124] -/
def secRead (s : State) (o : Nat) : Nat :=
  let x := s.sec
  if o = 0x100 then
    pack [(0, 1, b2n x.recovery), (1, 1, b2n x.attestReady), (2, 1, b2n x.session.isSome),
      (3, 1, b2n (match x.session with | some k => k.pldm | none => false)), (4, 1, b2n x.testBoot), (5, 1, b2n x.settingsReset)]
  else if o = 0x108 then x.len.toNat
  else if o = 0x10C then
    pack [(0, 1, b2n x.ready), (1, 3, x.phase), (4, 4, x.status), (8, 1, b2n x.orderErr), (9, 3, x.kind)]
  else if o = 0x110 then x.recvCount
  else if 0x120 ≤ o ∧ o < 0x138 then
    let k := (o - 0x120) / 4 + 1
    let i := s.img k
    pack [(0, 3, i.st), (3, 2, i.boots), (5, 1, b2n i.fromReserve), (6, 1, b2n i.reserveValid), (7, 8, i.svn), (15, 8, s.counter k)]
  else 0

/-- The BRG registers (Tables 16-9 to 16-11). -/
def brgRead (s : State) (o : Nat) : Nat :=
  let b := s.brg
  if o = 0x104 then pack [(0, 4, b.step), (4, 3, b.state), (7, 4, b.status), (11, 1, b2n b.orderErr), (12, 12, b.detail)]
  else if o = 0x108 then charterReg s
  else if o = 0x10C then b2n b.keepDram
  else 0

/-! ### The register space -/

/-- The 64-bit quantities that two registers expose (R8): the value at the address of the low word. -/
def pairRead (s : State) (a : Nat) : Option Nat :=
  let d := s.glb.deny
  if a = 0x108 then some (d.addr + 2 ^ 48 * d.peer)
  else if a = 0x318 then some (maskOf 48 (fun n => !s.glb.badAdits.contains n))
  else if 0x800200 ≤ a ∧ a < 0x800280 ∧ a % 8 = 0 then
    let p := Tbl.look (0, false) s.hif.apt ((a - 0x800200) / 8)
    some (b2n p.2 + p.1 % 2 ^ 48 / 2 ^ 26 * 2 ^ 26)
  else if 0x801000 ≤ a ∧ a < 0x802000 then
    let f := (a - 0x801000) / 0x100
    if a % 0x100 = 0x10 then some (s.fn f).cqBase
    else if f ≠ 0 ∧ 0x40 ≤ a % 0x100 ∧ a % 0x100 < 0x60 ∧ a % 8 = 0 then
      let p := Tbl.look (0, false) (s.fn f).vapt ((a % 0x100 - 0x40) / 8)
      some (b2n p.2 + p.1 % 2 ^ 48 / 2 ^ 26 * 2 ^ 26)
    else none
  else if 0x2000000 ≤ a ∧ a < 0x2200000 ∧ a % 0x10000 = 0x110 then some (s.gal ((a - 0x2000000) / 0x10000)).droopTs.toNat
  else if 0x2400000 ≤ a ∧ a < 0x2600000 ∧ a % 0x4000 = 0x10C then
    let c := (a - 0x2400000) / 0x4000
    some (if s.crewPresent c then (s.crew c).img else 0)
  else if a = 0x3700110 then some s.vein.epoch
  else if a = 0x3700118 then some (minPin s)
  else if a = 0x3700120 then some s.vein.seed.toNat
  else if 0x3701000 ≤ a ∧ a < 0x3701900 ∧ a % 0x100 = 0x20 then some (s.vport ((a - 0x3701000) / 0x100)).cplBase
  else if a = 0x3A0010C then some (maskOf 48 (fun n => (s.adit n).inUse))
  else if a = 0x3A00120 then some s.tclk.toNat
  else if 0x3C01000 ≤ a ∧ a < 0x3C01800 then
    let x := s.chk ((a - 0x3C01000) / 0x40)
    if a % 0x40 = 0x04 then some x.val.toNat
    else if a % 0x40 = 0x0C then some x.cnt.toNat
    else if a % 0x40 = 0x14 then some x.win
    else if a % 0x40 = 0x20 then some (chkRes x).toNat
    else none
  else none

/-- A register that stands alone; an address that no register occupies reads zero (R493). -/
def soloRead (s : State) (a : Nat) : Nat :=
  match versionRead s a with
  | some v => v
  | none =>
    if a < 0x100000 then glbRead s a
    else if a < 0x200000 then evtRead s (a - 0x100000)
    else if a < 0x300000 then pwrRead s (a - 0x200000)
    else if a < 0x400000 then thmRead s (a - 0x300000)
    else if a < 0x800000 then clkRead s (a - 0x400000)
    else if a < 0x1000000 then hifRead s (a - 0x800000)
    else if a < 0x1080000 then leNat (s.slotMem.read (a - 0x1000000) 4)
    else if a < 0x2000000 then 0
    else if a < 0x2200000 then galRead s ((a - 0x2000000) / 0x10000) (a % 0x10000)
    else if a < 0x2400000 then 0
    else if a < 0x2600000 then crwRead s ((a - 0x2400000) / 0x4000) (a % 0x4000)
    else if a < 0x2800000 then 0
    else if a < 0x2B00000 then seamRead s ((a - 0x2800000) / 0x1000) (a % 0x1000)
    else if a < 0x3000000 then 0
    else if a < 0x3300000 then faceRead s ((a - 0x3000000) / 0x1000) (a % 0x1000)
    else if a < 0x3400000 then 0
    else if a < 0x3500000 then binRead s (a - 0x3400000)
    else if a < 0x3600000 then stkRead s (a - 0x3500000)
    else if a < 0x3700000 then millRead s (a - 0x3600000)
    else if a < 0x3800000 then veinRead s (a - 0x3700000)
    else if a < 0x38C0000 then aditRead s ((a - 0x3800000) / 0x4000) (a % 0x4000)
    else if a < 0x3A00000 then 0
    else if a < 0x3C00000 then fldRead s (a - 0x3A00000)
    else if a < 0x3D00000 then
      if 0x3C01000 ≤ a ∧ a < 0x3C01800 then chkRead s ((a - 0x3C01000) / 0x40) (a % 0x40) else 0
    else if a < 0x3E00000 then secRead s (a - 0x3D00000)
    else brgRead s (a - 0x3E00000)

/-- A 32-bit register read without the latch of R8: of a pair, the current half. -/
def regRead (s : State) (a : Nat) : Nat :=
  match pairRead s a with
  | some v => v % 2 ^ 32
  | none =>
    if a < 4 then soloRead s a
    else match pairRead s (a - 4) with
      | some v => v / 2 ^ 32 % 2 ^ 32
      | none => soloRead s a

end Sys2Proof.Machine
end

