-- ==== Sys2Proof/Machine/RegWrite.lean ====
section
/-! DEFINITION. What a write of a register does, field by field and by access type (R8, R10, R12, Table 0-5), and the latches of
the 64-bit pairs. -/

namespace Sys2Proof.Machine

/-! ### Access types (Table 0-5) -/

/-- A W1C bit. -/
def w1c (cur : Bool) (w i : Nat) : Bool := cur && !bit i w

/-- A counter on which writing 0 acts and any other value does not. -/
def clr (cur w : Nat) : Nat := if w = 0 then 0 else cur

/-- The place in BAR0 of a crew's register. -/
def crwAt (c o : Nat) : Nat := 0x2400000 + 0x4000 * c + o

/-! ### GLB to THM -/

/-- A write of a GLB register; a reserved reset cause reads as zero (R12). -/
def glbWrite (o w : Nat) (s : State) : State :=
  let d := s.glb.deny
  if o = 0x104 then
    if bit 0 w && d.valid then { s with glb := { s.glb with deny := { d with valid := false, overflow := false } } } else s
  else if o = 0x320 then { s with glb := { s.glb with resetCause := if w % 8 ≤ 4 then w % 8 else 0 } }
  else s

/-- A write of a PWR register. -/
def pwrWrite (o w : Nat) (s : State) : State :=
  let p := s.pwr
  if o = 0x108 then { s with pwr := { p with frames := clr p.frames (bits 23 8 w), late := clr p.late (bits 31 24 w) } }
  else if o = 0x10C then { s with pwr := { p with sagIrq := bit 0 w, sagClampEn := bit 1 w } }
  else if o = 0x110 then
    { s with pwr := { p with warned := w1c p.warned w 1, resetRail := clr p.resetRail (bits 4 2 w)
                             vinMin := if bits 14 5 w = 0x3FF then 0x3FF else p.vinMin } }
  else s

/-- A write of CLK_STAT: lost and hclk are cleared by 0, gallery is set. [DEDUCED: log entry 120] -/
def clkWrite (o w : Nat) (s : State) : State :=
  if o = 0x100 then
    { s with clk := { s.clk with lost := clr s.clk.lost (bits 7 0 w), hclk := s.clk.hclk && bit 8 w, gallery := bits 13 9 w } }
  else s

/-- A write of a THM register. -/
def thmWrite (o w : Nat) (s : State) : State :=
  let t := s.thm
  if o = 0x100 then { s with thm := { t with forecastMs := bits 15 8 w } }
  else if o = 0x118 then { s with thm := { t with seen := t.seen.filter (fun n => !bit (4 + n) w) } }
  else if o = 0x120 then
    let s := { s with thm := { t with refused := w1c t.refused w 5 } }
    if bit 4 w then restartWrite s else s
  else s

/-! ### HIF and GAL -/

/-- Two ranges of 64-slot groups overlap. [DEDUCED: log entry 119] -/
def overlaps (b n b' n' : Nat) : Bool := decide (0 < n) && decide (0 < n') && decide (b < b' + n') && decide (b' < b + n)

/-- HIF_FN_SLOTS or HIF_FN_SEQ: a range that overlaps another function's is ignored and reads back with count 0 (R348).
[DEDUCED: log entry 119] -/
def rangeCount (s : State) (f : Nat) (range : Fn → Nat × Nat) (b n : Nat) : Nat :=
  if (List.range 16).any (fun k => k != f && overlaps b n (range (s.fn k)).1 (range (s.fn k)).2) then 0 else n

/-- A write of a function's block; its configuration is written by the physical function only (R348).
[DEDUCED: log entry 58] -/
def fnWrite (r : Requester) (f o w : Nat) (s : State) : State :=
  let x := s.fn f
  let pf := r == .host 0
  if o = 0x00 then
    let n := min 64 (bits 12 6 w)
    if pf then s.setFn f { x with slotBase := bits 5 0 w
                                  slotCount := rangeCount s f (fun y => (y.slotBase, y.slotCount)) (bits 5 0 w) n } else s
  else if o = 0x04 then
    let n := min 256 (bits 16 8 w)
    if pf then s.setFn f { x with seqBase := bits 7 0 w
                                  seqCount := rangeCount s f (fun y => (y.seqBase, y.seqCount)) (bits 7 0 w) n } else s
  else if o = 0x08 then (if pf then s.setFn f { x with ops := w % 64 } else s)
  else if o = 0x18 then cqCfgWrite f (BitVec.ofNat 32 w) s
  else if o = 0x1C then s.setFn f { x with head := w % 65536 }
  else if o = 0x24 then s.setFn f { x with modCount := bits 7 0 w, modTime := bits 19 8 w }
  else s

/-- A write of a gallery's register. -/
def galWrite (r : Requester) (g o w : Nat) (s : State) : State :=
  if o = 0x100 then galCfgWrite r g (BitVec.ofNat 32 w) s
  else if o = 0x108 then galCtrlWrite g (BitVec.ofNat 32 w) s
  else if o = 0x10C then
    let s := s.setGal g { s.gal g with events := clr (s.gal g).events (bits 25 10 w) }
    if bit 31 w then droopRearm g s else s
  else s

/-! ### CRW -/

/-- A write of CRW_TLY_CTRL: more than one action is an invalid value (R177); buddy_en is locked at the commit (R10).
[DEDUCED: log entry 120] -/
def tlyCtrlWrite (r : Requester) (c w : Nat) (s : State) : State :=
  let x := s.crew c
  let s := if bit 3 w = x.buddyEn then s
    else if s.committed then logIgnored 0x08 c r (crwAt c 0x100) 0 s
    else s.setCrew c { x with buddyEn := bit 3 w }
  match bits 2 0 w with
  | 0 => s
  | 1 => loadTally c s
  | 2 => startTally c s
  | 4 => stopTally c s
  | _ => logIgnored 0x08 c r (crwAt c 0x100) 4 s

/-- A write of a hewer's register. -/
def hewerWrite (c h o w : Nat) (s : State) : State :=
  let x := s.hewer c h
  if o = 0x04 then s.setHewer c h { x with retries := clr x.retries (bits 23 8 w), tblParity := clr x.tblParity (bits 31 24 w) }
  else if o = 0x14 then s.setHewer c h { x with resends := clr x.resends (bits 15 0 w) }
  else s

/-- A write of a dresser's register. -/
def drsRegWrite (c o w : Nat) (s : State) : State :=
  let x := s.dresser c
  if o = 0x04 then s.setDresser c { x with sat := w1c x.sat w 0, inv := w1c x.inv w 1 }
  else if o = 0x08 then s.setDresser c { x with retries := clr x.retries (bits 15 0 w) }
  else if o = 0x0C then s.setDresser c { x with sqWait := bits 7 0 w }
  else if o = 0x10 then s.setDresser c { x with parity := clr x.parity (bits 23 16 w) }
  else s

/-- A write of a crew's register. -/
def crwWrite (r : Requester) (c o w : Nat) (s : State) : State :=
  let x := s.crew c
  if !s.crewPresent c then s
  else if o = 0x100 then tlyCtrlWrite r c w s
  else if o = 0x104 then s.setCrew c { x with late := w1c x.late w 9 }
  else if 0x1000 ≤ o ∧ o < 0x1200 then hewerWrite c ((o - 0x1000) / 0x100) (o % 0x100) w s
  else if 0x2000 ≤ o ∧ o < 0x2100 then drsRegWrite c (o - 0x2000) w s
  else if 0x3000 ≤ o ∧ o < 0x3040 then wakeArr c (counterSet c ((o - 0x3000) / 4) (BitVec.ofNat 32 w) s)
  else if o = 0x3040 then s.setCrew c { x with dead := x.dead.filter (fun n => !bit n w) }
  else s

/-! ### SEAM to VEIN -/

/-- A write of a seam's register. -/
def seamWrite (n o w : Nat) (s : State) : State :=
  let x := s.seam n
  if !s.seamPresent n then s
  else if o = 0x10 then s.setSeam n { x with guard := clr x.guard (bits 23 8 w) }
  else if o = 0x20 then s.setSeam n { x with corrected := clr x.corrected (bits 23 8 w), uncorr := clr x.uncorr (bits 31 24 w) }
  else if o = 0x24 then s.setSeam n { x with ueValid := w1c x.ueValid w 23 }
  else if o = 0x28 then seamInj n w s
  else s

/-- A write of a face unit's register. -/
def faceRegWrite (r : Requester) (n o w : Nat) (s : State) : State :=
  let x := s.face n
  if !faceHere s n then s
  else if o = 0x00 then s.setFace n { x with dropped := w1c x.dropped w 7 }
  else if o = 0x04 then s.setFace n { x with sat := w1c x.sat w 0, inv := w1c x.inv w 1 }
  else if o = 0x08 then s.setFace n { x with retries := clr x.retries (bits 15 0 w) }
  else if o = 0x0C then s.setFace n { x with limit := bits 11 0 w }
  else if 0x100 ≤ o ∧ o < 0x120 then faceWord r n ((o - 0x100) / 4) (BitVec.ofNat 32 w) s
  else s

/-- A write of BIN_TOK_STAT_n. -/
def binWrite (o w : Nat) (s : State) : State :=
  if 0x200 ≤ o ∧ o < 0x300 then
    let col := (o - 0x200) / 4
    s.setTok col { s.tok col with revoked := (s.tok col).revoked.filter (fun m => !bit (8 + m) w) }
  else s

/-- A write of a Mill engine's register. -/
def engWrite (r : Requester) (e o w : Nat) (s : State) : State :=
  let x := s.eng e
  if o = 0x00 then s.setEng e { x with dropped := w1c x.dropped w 15 }
  else if o = 0x0C then s.setEng e { x with retries := clr x.retries (bits 15 0 w) }
  else if o = 0x10 then s.setEng e { x with late := clr x.late (bits 15 0 w), dup := clr x.dup (bits 31 16 w) }
  else if o = 0x18 then (if bit 0 w then millDisarm e s else s)
  else if 0x100 ≤ o ∧ o < 0x180 then millWord r e ((o - 0x100) / 4) (BitVec.ofNat 32 w) s
  else s

/-- A write of a MILL register. -/
def millRegWrite (r : Requester) (o w : Nat) (s : State) : State :=
  if o = 0x100 then { s with millStall := bits 15 0 w }
  else if 0x1000 ≤ o ∧ o < 0x5000 then engWrite r ((o - 0x1000) / 0x1000) (o % 0x1000) w s
  else s

/-- A write of a VEIN register. -/
def veinRegWrite (r : Requester) (o w : Nat) (s : State) : State :=
  if o = 0x10C then
    { s with vein := { s.vein with collide := clr s.vein.collide (bits 15 0 w), evict := clr s.vein.evict (bits 31 16 w) } }
  else if 0x1000 ≤ o ∧ o < 0x1900 then
    let p := (o - 0x1000) / 0x100
    let k := o % 0x100
    if k < 0x20 then veinWord r p (k / 4) (BitVec.ofNat 32 w) s
    else if k = 0x28 then s.setVport p { s.vport p with head := bits 5 0 w, dropped := w1c (s.vport p).dropped w 16 }
    else s
  else s

/-! ### ADT, FLD, CHK, SEC, BRG -/

/-- A write of an adit's register: a reset comes before a retrain in the same write. -/
def aditWrite (a o w : Nat) (s : State) : State :=
  let x := s.adit a
  if o = 0x100 then
    let s := s.setAdit a { x with wReq := bits 11 8 w, wRsp := bits 15 12 w, wBulk := bits 19 16 w }
    if bit 1 w then aditReset a s else if bit 0 w then aditRetrain a s else s
  else if o = 0x10C then
    s.setAdit a { x with replays := clr x.replays (bits 15 0 w), hdr := clr x.hdr (bits 23 16 w), lost := clr x.lost (bits 27 24 w)
                         retrains := clr x.retrains (bits 31 28 w) }
  else if o = 0x110 then s.setAdit a { x with uncorr := clr x.uncorr (bits 15 0 w) }
  else s

/-- A write of a FLD register; nonmin is locked at the commit (R10). -/
def fldWrite (r : Requester) (o w : Nat) (s : State) : State :=
  let f := s.fld
  if o = 0x100 then fldIdWrite r (BitVec.ofNat 32 w) s
  else if o = 0x104 then
    let s' : State := { s with fld := { f with adaptT := bits 7 0 w, ordWait := bits 15 8 w
                                               nonmin := if s.committed then f.nonmin else bit 20 w } }
    if s.committed = true ∧ bit 20 w ≠ f.nonmin then logIgnored 0x10 0 r 0x3A00104 0 s' else s'
  else if o = 0x108 then { s with fld := { f with dupId := w1c f.dupId w 1, miscabled := w1c f.miscabled w 2 } }
  else if o = 0x128 then memberCmd (bits 15 14 w) (bits 13 0 w) s
  else if o = 0x12C then
    { s with fld := { f with noroute := clr f.noroute (bits 15 0 w), unknownSrc := clr f.unknownSrc (bits 31 16 w) } }
  else s

/-- A write of a check unit's register (R387). -/
def chkWrite (r : Requester) (u o w : Nat) (s : State) : State :=
  if o = 0x00 then chkPut r u o (fun x => chkCtrl x w) s
  else if o = 0x1C then chkPut r u o (fun x => { x with wlen := BitVec.ofNat 32 w }) s
  else if o = 0x28 then chkPut r u o (fun x => { x with over_ := w1c x.over_ w 1 }) s
  else s

/-- A write of a SEC register; whether the fuses of a confirmation take is the part's. [DEDUCED: log entry 120] -/
def secWrite (r : Requester) (o w : Nat) (s : State) : State :=
  if o = 0x104 then updCtrl w s
  else if o = 0x108 then { s with sec := { s.sec with len := BitVec.ofNat 32 w } }
  else if o = 0x10C then { s with sec := { s.sec with orderErr := w1c s.sec.orderErr w 8 } }
  else if o = 0x114 then secConfirm r (BitVec.ofNat 32 w) (s.fresh.1 % 2 == 0) s.fresh.2
  else if 0x10000 ≤ o ∧ o < 0x20000 then
    { s with sec := { s.sec with buf := (List.range 4).foldl (fun t i => Tbl.put t (o - 0x10000 + i) (BitVec.ofNat 8 (w / 256 ^ i))) s.sec.buf } }
  else s

/-- A write of a BRG register. -/
def brgWrite (o w : Nat) (s : State) : State :=
  if o = 0x100 then stepStart (bits 3 0 w) s
  else if o = 0x104 then { s with brg := { s.brg with orderErr := w1c s.brg.orderErr w 11 } }
  else if o = 0x10C then brgCtrlWrite (BitVec.ofNat 32 w) s
  else s

/-! ### The register space -/

/-- A register that stands alone is written; an address that no register occupies, an absent instance and a read-only register
take nothing (R493). -/
def soloWrite (r : Requester) (a w : Nat) (s : State) : State :=
  if a < 0x100000 then glbWrite a w s
  else if a < 0x200000 then s
  else if a < 0x300000 then pwrWrite (a - 0x200000) w s
  else if a < 0x400000 then thmWrite (a - 0x300000) w s
  else if a < 0x800000 then clkWrite (a - 0x400000) w s
  else if a < 0x801000 then s
  else if a < 0x802000 then fnWrite r ((a - 0x801000) / 0x100) (a % 0x100) w s
  else if a < 0x2000000 then s
  else if a < 0x2200000 then galWrite r ((a - 0x2000000) / 0x10000) (a % 0x10000) w s
  else if a < 0x2400000 then s
  else if a < 0x2600000 then crwWrite r ((a - 0x2400000) / 0x4000) (a % 0x4000) w s
  else if a < 0x2800000 then s
  else if a < 0x2B00000 then seamWrite ((a - 0x2800000) / 0x1000) (a % 0x1000) w s
  else if a < 0x3000000 then s
  else if a < 0x3300000 then faceRegWrite r ((a - 0x3000000) / 0x1000) (a % 0x1000) w s
  else if a < 0x3400000 then s
  else if a < 0x3500000 then binWrite (a - 0x3400000) w s
  else if a < 0x3600000 then
    if 0x3500400 ≤ a ∧ a < 0x3500600 then crewMapPut r ((a - 0x3500400) / 4) (BitVec.ofNat 32 w) s else s
  else if a < 0x3700000 then millRegWrite r (a - 0x3600000) w s
  else if a < 0x3800000 then veinRegWrite r (a - 0x3700000) w s
  else if a < 0x38C0000 then aditWrite ((a - 0x3800000) / 0x4000) (a % 0x4000) w s
  else if a < 0x3A00000 then s
  else if a < 0x3C00000 then fldWrite r (a - 0x3A00000) w s
  else if a < 0x3D00000 then
    if 0x3C01000 ≤ a ∧ a < 0x3C01800 then chkWrite r ((a - 0x3C01000) / 0x40) (a % 0x40) w s else s
  else if a < 0x3E00000 then secWrite r (a - 0x3D00000) w s
  else brgWrite (a - 0x3E00000) w s

/-- An aperture register (Table 12-12): enable and base. -/
def aptOfWord (v : Nat) : Nat × Bool := (v % 2 ^ 48 / 2 ^ 26 * 2 ^ 26, bit 0 v)

/-- A 64-bit quantity is written (R8). -/
def pairWrite (r : Requester) (a v : Nat) (s : State) : State :=
  if 0x800200 ≤ a ∧ a < 0x800280 then
    { s with hif := { s.hif with apt := Tbl.put s.hif.apt ((a - 0x800200) / 8) (aptOfWord v) } }
  else if 0x801000 ≤ a ∧ a < 0x802000 then
    let f := (a - 0x801000) / 0x100
    let x := s.fn f
    if a % 0x100 = 0x10 then s.setFn f { x with cqBase := v % 2 ^ 64 / 4096 * 4096 }
    else if r = .host 0 then s.setFn f { x with vapt := Tbl.put x.vapt ((a % 0x100 - 0x40) / 8) (aptOfWord v) }
    else s
  else if 0x2400000 ≤ a ∧ a < 0x2600000 then
    let c := (a - 0x2400000) / 0x4000
    if s.crewPresent c then s.setCrew c { s.crew c with img := v % 2 ^ 48 } else s
  else if 0x3701000 ≤ a ∧ a < 0x3701900 then
    let p := (a - 0x3701000) / 0x100
    s.setVport p { s.vport p with cplBase := v % 2 ^ 48 }
  else if 0x3C01000 ≤ a ∧ a < 0x3C01800 then
    let u := (a - 0x3C01000) / 0x40
    let o := a % 0x40
    if o = 0x04 then chkPut r u o (fun x => if x.arm then x else { x with val := BitVec.ofNat 64 v, lines := [] }) s
    else if o = 0x0C then chkPut r u o (fun x => if x.arm then x else { x with cnt := BitVec.ofNat 64 v, lines := [] }) s
    else if o = 0x14 then chkPut r u o (fun x => { x with win := v % 2 ^ 48 / 64 * 64 }) s
    else s
  else s

/-- The register is the low word of a pair. [DEDUCED: log entry 26] -/
def isLow (s : State) (a : Nat) : Bool := (pairRead s a).isSome

/-- The register is the high word of a pair. -/
def isHigh (s : State) (a : Nat) : Bool := decide (4 ≤ a) && !isLow s a && isLow s (a - 4)

/-- A requester's pending low word of a pair, or the low word's current value (R8). [DEDUCED: log entry 26] -/
def lowWord (s : State) (r : Requester) (a : Nat) : Nat :=
  match s.pendLow.find? (fun p => p.1 == (r, a)) with
  | some p => p.2.toNat
  | none => regRead s a

/-- A 32-bit write: the low word of a pair waits for the high word (R8). -/
def regPut (r : Requester) (a w : Nat) (s : State) : State :=
  if isLow s a then { s with pendLow := assocSet s.pendLow (r, a) (BitVec.ofNat 32 w) }
  else if isHigh s a then
    pairWrite r (a - 4) (2 ^ 32 * w + lowWord s r (a - 4)) { s with pendLow := s.pendLow.filter (fun p => p.1 != (r, a - 4)) }
  else soloWrite r a w s

/-- A 32-bit read: the low word of a pair latches the high word, which the high word's reads then return (R8). -/
def regGet (r : Requester) (a : Nat) (s : State) : State × Nat :=
  let s' : State := { s with free := s.free + 1 }
  if isLow s a then
    ({ s' with latches := assocSet s.latches (r, a) (BitVec.ofNat 32 (regRead s (a + 4))) }, regRead s a)
  else if isHigh s a then
    (s', match s.latches.find? (fun p => p.1 == (r, a - 4)) with
      | some p => p.2.toNat
      | none => regRead s a)
  else (s', regRead s a)

end Sys2Proof.Machine
end

