-- ==== Sys2Proof/Machine/Regs.lean ====
section
/-! DEFINITION. Register accesses by the requesters that reach them: BAR0, the register window and the management channel (R8 to
R10, R49, R50, R349, R442), and the Overseers' and the Foreman's accesses to the memory windows. -/

namespace Sys2Proof.Machine

/-- Where a function's BAR0 offset lies in the register space: a virtual function sees its own block only (R349). -/
def bar0Reg (f a : Nat) : Option Nat := if f = 0 then some a else if a < 0x100 then some (0x801000 + 0x100 * f + a) else none

/-- The offset lies in a function's view of the slot table, to which R9 does not apply: the offset in that view. -/
def bar0Slot (f a : Nat) : Option Nat :=
  if f = 0 ∧ 0x1000000 ≤ a ∧ a < 0x1080000 then some (a - 0x1000000)
  else if f ≠ 0 ∧ 0x80000 ≤ a ∧ a < 0x100000 then some (a - 0x80000)
  else none

/-- The blocks that respond under the recovery identity: GLB, EVT, SEC and BRG (R442). -/
def recoveryReg (a : Nat) : Bool := decide (a < 0x200000) || decide (0x3D00000 ≤ a)

/-- A register access conforms to R9. -/
def r9 (a n : Nat) : Bool := n == 4 && a % 4 == 0 && decide (a < 0x4000000)

/-- An access breaks R9, or reaches a block that does not respond: Unsupported Request to the host, DENIED through the register
window (R9, R49, R442). -/
def regRefused (r : Requester) (a : Nat) (write : Bool) (s : State) : State :=
  match r with
  | .host f => s.emit (.cplUR f)
  | _ => (recordDeny r (0xF0000000000 + a) write 0 s).emit (.answer r .denied [])

/-- A register access of the fabric or of a function is permitted where it goes. -/
def regOpen (a n : Nat) (s : State) : Bool := r9 a n && (!recovering s || recoveryReg a)

/-- The PCIe partition is in reset: PERST# is asserted, or PCLK is lost (R338, R455). -/
def pcieOff (s : State) : Bool := s.hif.perst || s.clk.pclkLost

/-- A requester inside the stack addresses the PCIe partition, HIF or the slot table, while it is in reset (R27, R455). A
host has no link then. [DEDUCED: log entry 148] -/
def inReset (r : Requester) (a : Nat) (s : State) : Bool :=
  pcieOff s && decide (0x800000 ≤ a) && decide (a < 0x2000000) && (match r with | .host _ => false | _ => true)

/-- A write of `n` bytes at a BAR0 offset. -/
def regStore (r : Requester) (a n w : Nat) (s : State) : State :=
  match r with
  | .host f =>
    if !s.fnExists f then s
    else match bar0Slot f a with
      | some o => if recovering s then regRefused r a true s else slotParts f (spans 128 (n / 128 + 2) o n) (leBytes n w) s
      | none =>
        match bar0Reg f a with
        | some b => if regOpen b n s then regPut r b w s else regRefused r a true s
        | none => if r9 a n then s else regRefused r a true s
  | .overseer _ | .foreman =>
    if inReset r a s then s.emit (.answer r .abortedByReset [])
    else match bar0Slot 0 a with
    | some o => slotParts 0 (spans 128 (n / 128 + 2) o n) (leBytes n w) s
    | none => if regOpen a n s then regPut r a w s else regRefused r a true s
  | _ => s

/-- The answer to a register read. -/
def regAnswer (r : Requester) (bs : List Byte) (s : State) : State :=
  match r with
  | .host f => s.emit (.cplData f bs)
  | _ => s.emit (.answer r .ok bs)

/-- A byte of a function's view of the slot table lies in a slot that it sees (R349, R352). -/
def slotSeen (s : State) (f o : Nat) : Bool :=
  let p := slotPlace s f o
  f == 0 || (decide (p.1 < 4096) && ownsSlot (s.fn f) p.1)

/-- A byte that the slot table delivers (R368). -/
def slotByte (s : State) (a : Nat) : Byte :=
  (s.delivered ⟨6, 8, a / 64⟩ (s.slotMem.read (a / 64 * 64) 64)).getD (a % 64) 0

/-- Bytes of a function's view of the slot table; outside its slots they read as zero (R349, R352). -/
def slotView (s : State) (f o n : Nat) : List Byte :=
  (List.range n).map (fun i => if slotSeen s f (o + i) then slotByte s (slotPlace s f (o + i)).2 else 0)

/-- The lines of the slot table that a read touches. -/
def slotLines (s : State) (f o n : Nat) : List Nat :=
  (((List.range n).filter (fun i => slotSeen s f (o + i))).map (fun i => (slotPlace s f (o + i)).2 / 64)).eraseDups

/-- A read of the slot table: it answers, or, with a line uncorrectable, ends with that status and no data (R345, R372). -/
def slotLoad (r : Requester) (f o n : Nat) (s : State) : State :=
  let reads := slotLines s f o n
  let ok := reads.all (fun l => s.verdict ⟨6, 8, l⟩ (s.slotMem.read (64 * l) 64) != .uncorrectable)
  let t := reads.foldl (fun t l => (localGet .slots (64 * l) t).1) s
  if ok then regAnswer r (slotView s f o n) t
  else match r with
    | .host g => t.emit (.cplCA g)
    | _ => t.emit (.answer r .uncorrectable [])

/-- A read of a register. -/
def regLoad (r : Requester) (a n : Nat) (s : State) : State :=
  let get (b : Nat) : State := let x := regGet r b s; regAnswer r (leBytes 4 x.2) (ringNote b x.1)
  match r with
  | .host f =>
    if !s.fnExists f then s
    else match bar0Slot f a with
      | some o => if recovering s then regRefused r a false s else slotLoad r f o n s
      | none =>
        match bar0Reg f a with
        | some b => if regOpen b n s then get b else regRefused r a false s
        | none => if r9 a n then regAnswer r (leBytes 4 0) s else regRefused r a false s
  | .overseer _ | .foreman =>
    if inReset r a s then s.emit (.answer r .abortedByReset [])
    else match bar0Slot 0 a with
    | some o => slotLoad r 0 o n s
    | none => if regOpen a n s then get a else regRefused r a false s
  | _ => s

/-- REGISTER_WRITE. [DESIGN CHOICE: log entry 10] -/
def execRegisterWrite (r : Requester) (addr nbytes : Nat) (v : Word) (s : State) : Res := .next (regStore r addr nbytes v.toNat s)

/-- REG64_LOW_READ: the low word of a pair answers and latches the high word; any other register answers its value (R8, R493).
[DEDUCED: log entry 26] -/
def execReg64LowRead (r : Requester) (addr nbytes : Nat) (s : State) : Res := .next (regLoad r addr nbytes s)

/-- REG64_LOW_WRITE: the requester's pending low word; the pair is unchanged (R8). [DEDUCED: log entry 26] -/
def execReg64LowWrite (r : Requester) (addr nbytes : Nat) (v : Word) (s : State) : Res := .next (regStore r addr nbytes v.toNat s)

/-- REG64_HIGH_WRITE: the pair takes the word with the pending low word, or with the current one (R8).
[DEDUCED: log entry 26] -/
def execReg64HighWrite (r : Requester) (addr nbytes : Nat) (v : Word) (s : State) : Res := .next (regStore r addr nbytes v.toNat s)

/-- The offset of a DPA in the register window, which is 64 MiB at a multiple of its size (R49). -/
def winOff (dpa : Nat) : Nat := dpa % 0x4000000

/-- OVERSEER_DPA_ACCESS: an access of an Overseer or the Foreman to the register window or a memory window (R38, R49, R50). -/
def execOverseerDpaAccess (r : Requester) (store : Bool) (dpa len : Nat) (data : List Byte) (s : State) : Res :=
  .next (match r with
    | .overseer _ | .foreman =>
      if 0xF0000000000 ≤ dpa ∧ dpa < 0xF0004000000 then
        if inReset r (winOff dpa) s then s.emit (.answer r .abortedByReset [])
        else if store then
          match bar0Slot 0 (winOff dpa) with
          | some o => (slotParts 0 (spans 128 (data.length / 128 + 2) o data.length) data s).emit (.answer r .ok [])
          | none =>
            if regOpen (winOff dpa) data.length s then
              (regStore r (winOff dpa) data.length (leNat data) s).emit (.answer r .ok [])
            else regRefused r (winOff dpa) true s
        else regLoad r (winOff dpa) len s
      else dpaAccess r store dpa len data s
    | _ => s)

/-- FIELD_REGISTER_ACCESS: one 64-bit access that neither uses nor disturbs a latch (R8); of a register that stands alone, its 32
bits. [DEDUCED: log entry 119] -/
def execFieldRegisterAccess (a src addr : Nat) (store : Bool) (v : Dword) (s : State) : Res :=
  .next (
    let r := Requester.peer a src
    if (s.adit a).state ≠ 5 then s
    else if inReset r addr s then s.emit (.answer r .abortedByReset [])
    else if !regOpen addr 4 s then regRefused r addr store s
    else if store then
      let s := if isLow s addr then pairWrite r addr v.toNat s
        else if isHigh s addr then pairWrite r (addr - 4) (2 ^ 32 * (v.toNat % 2 ^ 32) + regRead s (addr - 4)) s
        else soloWrite r addr (v.toNat % 2 ^ 32) s
      s.emit (.answer r .ok [])
    else
      (ringNote addr { s with free := s.free + 1 }).emit
        (.answer r .ok (leBytes 8 (match pairRead s addr with | some x => x | none => regRead s addr))))

end Sys2Proof.Machine
end

