-- ==== Sys2Proof/Machine/Spdm.lean ====
section
/-! DEFINITION. The SPDM responder (R484 to R488): its connections, sessions, measurements and chunked transfers. The messages'
DMTF form is not in the spec: an answer is its content, and error codes and the order of the connection's phases are the
DMTF's (log entry 62). -/

namespace Sys2Proof.Machine

/-- The connection on a transport. [DEDUCED: log entry 125] -/
def State.spdmOf (s : State) (ch : SpdmChannel) : Spdm :=
  match s.sec.spdms.find? (fun e => e.1 == ch) with
  | none => {}
  | some e => e.2

/-- The connection replaced. -/
@[simps] def State.setSpdm (s : State) (ch : SpdmChannel) (x : Spdm) : State :=
  { s with sec := { s.sec with spdms := (ch, x) :: s.sec.spdms.filter (fun e => e.1 != ch) } }

/-- A management message of an SPDM type (R487) from a stack by an adit. -/
def spdmMsg (a st : Nat) (e : Nat × Msg) : Bool :=
  (mgmtFrom a 0x01 e || mgmtFrom a 0x02 e) && bits 13 0 e.2.src == st && leAt e.2.data 1 3 == 0

/-- The request object that waits on a transport is taken; none where nothing waits (R487).
[PRESUMED: log entry 62; DEDUCED: log entry 125] -/
def takeRequest (ch : SpdmChannel) (s : State) : Option State :=
  match ch with
  | .doe => if s.hif.doe.isSome = true then some { s with hif := { s.hif with doe := none } } else none
  | .field a st => (takeMsg (spdmMsg a st) s).map (·.1)

/-- The Foreman runs an image, which is what answers SPDM. [DEDUCED: log entry 125] -/
def responderUp (s : State) : Bool := s.brg.foreman && (s.img 1).booted.isSome

/-- A request that waits on a transport is answered as `f` says. [PRESUMED: log entry 62] -/
def spdmServe (ch : SpdmChannel) (f : State → State) (s : State) : State :=
  if responderUp s = true then
    match takeRequest ch s with
    | none => s
    | some s => f s
  else s

/-- An answer leaves on the transport the request came by. -/
def spdmAnswer (ch : SpdmChannel) (r : SpdmRsp) (s : State) : State := s.emit (.spdm ch r)

/-- ERROR codes: InvalidRequest, Busy, UnexpectedRequest, InvalidSession. [PRESUMED: log entry 62] -/
def spdmInvalid : Nat := 0x01
def spdmBusy : Nat := 0x03
def spdmUnexpected : Nat := 0x04
def spdmNoSession : Nat := 0x02

/-- A request that follows NEGOTIATE_ALGORITHMS: `f` answers it. -/
def spdmNegotiated (ch : SpdmChannel) (f : Spdm → State → State) (s : State) : State :=
  spdmServe ch (fun s => if (s.spdmOf ch).algs = true then f (s.spdmOf ch) s else spdmAnswer ch (.error spdmUnexpected) s) s

/-- The most bytes of a message in one transfer (DataTransferSize), and in all (MaxSPDMmsgSize) (R485). -/
def dataTransferSize : Nat := 4096
def maxSpdmMsgSize : Nat := 65536

/-- The bytes of a large message that one chunk carries, after a chunk's header of 16 bytes. -/
def chunkBytes : Nat := dataTransferSize - 16

/-- GET_VERSION starts the connection afresh (R488). -/
def execSpdmGetVersion (ch : SpdmChannel) (s : State) : Res :=
  .next (spdmServe ch (fun s => spdmAnswer ch (.version 0x13) (s.setSpdm ch { version := true })) s)

/-- GET_CAPABILITIES. -/
def execSpdmGetCapabilities (ch : SpdmChannel) (s : State) : Res :=
  .next (spdmServe ch (fun s =>
    let x := s.spdmOf ch
    if x.version = true then
      spdmAnswer ch (.capabilities dataTransferSize maxSpdmMsgSize) (s.setSpdm ch { x with caps := true })
    else spdmAnswer ch (.error spdmUnexpected) s) s)

/-- NEGOTIATE_ALGORITHMS. -/
def execSpdmNegotiateAlgorithms (ch : SpdmChannel) (s : State) : Res :=
  .next (spdmServe ch (fun s =>
    let x := s.spdmOf ch
    if x.caps = true then
      spdmAnswer ch (.algorithms "TPM_ALG_RSAPSS_3072" "TPM_ALG_SHA_384" "secp384r1" "AES-256-GCM")
        (s.setSpdm ch { x with algs := true })
    else spdmAnswer ch (.error spdmUnexpected) s) s)

/-- The header bytes of the image of a kind that this boot runs. -/
def bootedHeader (k : Nat) (s : State) : List Byte :=
  match (s.img k).booted with
  | none => []
  | some i => i.hdr.signed

/-! ### Identity (R483, R484) -/

/-- HMAC-SHA-384 of a message under a key of at most one block of 128 bytes (R483). [PRESUMED: log entry 11] -/
def hmac384 (key msg : List Byte) : List Byte :=
  let k := (key ++ List.replicate 128 0).take 128
  Config.sha384 (k.map (· ^^^ 0x5C#8) ++ Config.sha384 (k.map (· ^^^ 0x36#8) ++ msg))

/-- CDI_0, of the Unique Device Secret and the octets of "KZ-DeviceID" (R483). -/
def cdi0 (s : State) : List Byte :=
  hmac384 s.fuses.uds [0x4B, 0x5A, 0x2D, 0x44, 0x65, 0x76, 0x69, 0x63, 0x65, 0x49, 0x44]

/-- CDI_1, of CDI_0 and the header of the Foreman image that this boot runs (R483). -/
def cdi1 (s : State) : List Byte := hmac384 (cdi0 s) (Config.sha384 (bootedHeader 1 s))

/-- The DeviceID key pair of an algorithm, which survives every update (R483). -/
def deviceKey (alg : Nat) (s : State) : List Byte := Config.keyPair alg (cdi0 s)

/-- The Alias key pair of an algorithm, which changes with the Foreman image (R483). -/
def aliasKey (alg : Nat) (s : State) : List Byte := Config.keyPair alg (cdi1 s)

/-- The TcbInfo of the Alias certificates: the Foreman image's digest, version and svn (R484). -/
def tcbInfo (s : State) : List Byte × Nat × Nat :=
  (Config.sha384 (bootedHeader 1 s), ((s.img 1).booted.map (·.hdr.version)).getD 0, ((s.img 1).booted.map (·.hdr.svn)).getD 0)

/-- The certificate chain of slot 0 (RSA) or 1 (SLH-DSA) (R484). -/
def slotChain (slot : Nat) (s : State) : List Byte := Config.certChain slot (deviceKey slot s) (aliasKey slot s) (tcbInfo s)

/-- GET_DIGESTS: of the chains of slots 0 and 1. -/
def execSpdmGetDigests (ch : SpdmChannel) (s : State) : Res :=
  .next (spdmNegotiated ch (fun _ s =>
    spdmAnswer ch (.digests [Config.sha384 (slotChain 0 s), Config.sha384 (slotChain 1 s)]) s) s)

/-- GET_CERTIFICATE: a part of a slot's chain, of no more bytes than one transfer holds, and how many bytes remain.
[DESIGN CHOICE: log entry 126] -/
def execSpdmGetCertificate (ch : SpdmChannel) (slot off len : Nat) (s : State) : Res :=
  .next (spdmNegotiated ch (fun _ s =>
    let c := slotChain slot s
    let p := (c.drop off).take (min len chunkBytes)
    if slot ≤ 1 ∧ off < c.length then spdmAnswer ch (.certificate slot p (c.length - off - p.length)) s
    else spdmAnswer ch (.error spdmInvalid) s) s)

/-- The signatures by the Alias keys of both slots over one transcript (R485). -/
def aliasSigs (s : State) : (List Byte × List Byte) × State :=
  let (t, s) := s.fresh
  ((Config.aliasSign 0 (aliasKey 0 s) t, Config.aliasSign 1 (aliasKey 1 s) t), s)

/-- A response with both signatures is longer than one transfer: its bytes wait for CHUNK_GET under a new handle.
[DESIGN CHOICE: log entry 126] -/
def stageLarge (ch : SpdmChannel) (s : State) : State :=
  let (n, s) := s.fresh
  let x := s.spdmOf ch
  let h := match x.chunkOut with
    | none => 0
    | some (h, _) => (h + 1) % 256
  s.setSpdm ch { x with chunkOut := some (h, 0, Config.spdmBytes n) }

/-- CHALLENGE: Busy until the Alias keys are ready, then CHALLENGE_AUTH with both signatures (R485, R488). -/
def execSpdmChallenge (ch : SpdmChannel) (slot nonce : Nat) (s : State) : Res :=
  .next (spdmNegotiated ch (fun _ s =>
    if slot ≤ 1 then
      if s.sec.attestReady = true then
        let (g, s) := aliasSigs s
        spdmAnswer ch (.challengeAuth slot nonce g.1 g.2) (stageLarge ch s)
      else spdmAnswer ch (.error spdmBusy) s
    else spdmAnswer ch (.error spdmInvalid) s) s)

/-- The facts of block 7: the root hashes, the revoke bits and the six counters (Table 17-7). -/
def fuseFacts (s : State) : List Nat :=
  s.fuses.rsaRoots ++ s.fuses.slhRoots ++ (List.range 4).map (fun i => b2n (s.fuses.rsaRevoked.contains i))
    ++ (List.range 4).map (fun i => b2n (s.fuses.slhRevoked.contains i))
    ++ (List.range 6).map (fun i => Tbl.look 0 s.fuses.counters (i + 1))

/-- The facts of block 8: the boot state of each kind, and what boot this is (Table 17-7). -/
def bootFacts (s : State) : List Nat := (List.range 6).map (fun i => (s.img (i + 1)).st) ++ [s.sec.bootKind]

/-- A measurement block: index, value, and the version and svn of the image of blocks 1 to 6 (R486); none for a kind of which
this boot runs no image. [DESIGN CHOICE: log entry 19] -/
def measBlock (i : Nat) (s : State) : Option (Nat × List Byte × Option (Nat × Nat)) :=
  if i = 7 then some (7, Config.sha384 (Config.factBytes 7 (fuseFacts s)), none)
  else if i = 8 then some (8, Config.sha384 (Config.factBytes 8 (bootFacts s)), none)
  else match (s.img i).booted with
    | none => none
    | some m => some (i, Config.sha384 m.hdr.signed, some (m.hdr.version, m.hdr.svn))

/-- The blocks that an index asks for: 0 none, 0xFF all; none where the index names no block. -/
def measAsked (i : Nat) (s : State) : Option (List (Nat × List Byte × Option (Nat × Nat))) :=
  let all := ((List.range 8).map (· + 1)).filterMap (fun i => measBlock i s)
  if i = 0 then some []
  else if i = 0xFF then some all
  else if i ≤ 8 then (measBlock i s).map (fun b => [b])
  else none

/-- GET_MEASUREMENTS: with a signature, Busy until the Alias keys are ready (R486, R488). -/
def execSpdmGetMeasurements (ch : SpdmChannel) (index : Nat) (signed : Bool) (nonce : Nat) (s : State) : Res :=
  .next (spdmNegotiated ch (fun _ s =>
    let n := (((List.range 8).map (· + 1)).filterMap (fun i => measBlock i s)).length
    match measAsked index s with
    | none => spdmAnswer ch (.error spdmInvalid) s
    | some bs =>
      if signed = false then spdmAnswer ch (.measurements n bs nonce none) s
      else if s.sec.attestReady = true then
        let (g, s) := aliasSigs s
        spdmAnswer ch (.measurements n bs nonce (some g)) (stageLarge ch s)
      else spdmAnswer ch (.error spdmBusy) s) s)

/-- KEY_EXCHANGE: Busy until the Alias keys are ready, then a session opens, under the requester's half of its number and the
stack's. -/
def execSpdmKeyExchange (ch : SpdmChannel) (reqSession : Nat) (s : State) : Res :=
  .next (spdmNegotiated ch (fun x s =>
    if s.sec.attestReady = true then
      let id := bits 15 0 reqSession + 65536 * x.nextSession
      spdmAnswer ch (.keyExchange id)
        (s.setSpdm ch { x with sessions := x.sessions ++ [(id, false)], nextSession := (x.nextSession + 1) % 65536 })
    else spdmAnswer ch (.error spdmBusy) s) s)

/-- FINISH: the session is established. -/
def execSpdmFinish (ch : SpdmChannel) (session : Nat) (s : State) : Res :=
  .next (spdmNegotiated ch (fun x s =>
    if x.sessions.contains (session, false) = true then
      spdmAnswer ch (.finish session)
        (s.setSpdm ch { x with sessions := x.sessions.map (fun e => if e.1 == session then (session, true) else e) })
    else spdmAnswer ch (.error spdmNoSession) s) s)

/-- A request of an established session: `f` answers it. -/
def inSession (ch : SpdmChannel) (session : Nat) (f : Spdm → State → State) (s : State) : State :=
  spdmNegotiated ch (fun x s =>
    if x.sessions.contains (session, true) = true then f x s else spdmAnswer ch (.error spdmNoSession) s) s

/-- END_SESSION. -/
def execSpdmEndSession (ch : SpdmChannel) (session : Nat) (s : State) : Res :=
  .next (inSession ch session (fun x s =>
    spdmAnswer ch (.endSession session)
      (s.setSpdm ch { x with sessions := x.sessions.filter (fun e => e.1 != session) })) s)

/-- HEARTBEAT. -/
def execSpdmHeartbeat (ch : SpdmChannel) (session : Nat) (s : State) : Res :=
  .next (inSession ch session (fun _ s => spdmAnswer ch (.heartbeat session) s) s)

/-- KEY_UPDATE: 1 UpdateKey and 2 UpdateAllKeys take new keys, 3 VerifyNewKey does not. -/
def execSpdmKeyUpdate (ch : SpdmChannel) (session op : Nat) (s : State) : Res :=
  .next (inSession ch session (fun x s =>
    if op = 1 ∨ op = 2 then spdmAnswer ch (.keyUpdate session op) (s.setSpdm ch { x with keyGen := x.keyGen + 1 })
    else if op = 3 then spdmAnswer ch (.keyUpdate session op) s
    else spdmAnswer ch (.error spdmInvalid) s) s)

/-- A large request, complete: it waits on its transport for its own command. -/
def largeRequest (ch : SpdmChannel) (d : List Byte) (s : State) : State :=
  match ch with
  | .doe => { s with hif := { s.hif with doe := some (1, d) } }
  | .field a st =>
    let m : Msg := { vc := 3, ordered := false, src := st, dst := s.fld.id, addr := 0, tag := 0, op := 0x20, status := 0
                     len := d.length + 4, data := [1, 0, 0, 0] ++ d }
    { s with fld := { s.fld with inbox := s.fld.inbox ++ [(a, m)] } }

/-- CHUNK_SEND: the next chunk of a large request, from number 0; any other number, and more bytes than MaxSPDMmsgSize, end the
transfer. [DESIGN CHOICE: log entry 126] -/
def execSpdmChunkSend (ch : SpdmChannel) (handle seqNo : Nat) (last : Bool) (data : List Byte) (s : State) : Res :=
  .next (spdmNegotiated ch (fun x s =>
    let had : Option (List Byte) :=
      if seqNo = 0 then some []
      else match x.chunkIn with
        | some (h, n, d) => if h = handle ∧ n = seqNo then some d else none
        | none => none
    match had with
    | none => spdmAnswer ch (.error spdmInvalid) (s.setSpdm ch { x with chunkIn := none })
    | some d =>
      let d := d ++ data
      if maxSpdmMsgSize < d.length then spdmAnswer ch (.error spdmInvalid) (s.setSpdm ch { x with chunkIn := none })
      else
        let s := spdmAnswer ch (.chunkSendAck handle seqNo) s
        if last = true then largeRequest ch d (s.setSpdm ch { x with chunkIn := none })
        else s.setSpdm ch { x with chunkIn := some (handle, seqNo + 1, d) }) s)

/-- CHUNK_GET: the next chunk of a large response. [DESIGN CHOICE: log entry 126] -/
def execSpdmChunkGet (ch : SpdmChannel) (handle seqNo : Nat) (s : State) : Res :=
  .next (spdmNegotiated ch (fun x s =>
    match x.chunkOut with
    | none => spdmAnswer ch (.error spdmUnexpected) s
    | some (h, n, d) =>
      if h = handle ∧ n = seqNo then
        let rest := d.drop (seqNo * chunkBytes)
        let last := decide (rest.length ≤ chunkBytes)
        spdmAnswer ch (.chunk handle seqNo last (rest.take chunkBytes))
          (s.setSpdm ch { x with chunkOut := if last = true then none else some (h, n + 1, d) })
      else spdmAnswer ch (.error spdmInvalid) (s.setSpdm ch { x with chunkOut := none })) s)

end Sys2Proof.Machine
end

