-- ==== Sys2Proof/Machine/Dispatch.lean ====
section
/-! DEFINITION. The meaning of every command: one arm per constructor, each one direct call. -/

namespace Sys2Proof.Machine

/-- A command's effect on everything but the queue. -/
def exec (i : Instr) (s : State) : Host.Outcome State Fault Refusal :=
  match i with
  | .registerWrite r addr nbytes v => Sys2Proof.Machine.execRegisterWrite r addr nbytes v s
  | .reg64LowRead r addr nbytes => Sys2Proof.Machine.execReg64LowRead r addr nbytes s
  | .reg64LowWrite r addr nbytes v => Sys2Proof.Machine.execReg64LowWrite r addr nbytes v s
  | .reg64HighWrite r addr nbytes v => Sys2Proof.Machine.execReg64HighWrite r addr nbytes v s
  | .busyWindow c role hclk => Sys2Proof.Machine.execBusyWindow c role hclk s
  | .tokAcq c rd rs1 => Sys2Proof.Machine.execTokAcq c rd rs1 s
  | .tokRel c rs1 => Sys2Proof.Machine.execTokRel c rs1 s
  | .tokStat c rd rs1 => Sys2Proof.Machine.execTokStat c rd rs1 s
  | .tokenRevoke col => Sys2Proof.Machine.execTokenRevoke col s
  | .bar2Read fn off len => Sys2Proof.Machine.execBar2Read fn off len s
  | .bar2Write fn off data poisoned relaxed => Sys2Proof.Machine.execBar2Write fn off data poisoned relaxed s
  | .atomicopRequest fn addr => Sys2Proof.Machine.execAtomicopRequest fn addr s
  | .seamGrant n => Sys2Proof.Machine.execSeamGrant n s
  | .seamGuardExpiry n shaft => Sys2Proof.Machine.execSeamGuardExpiry n shaft s
  | .eccWriteback kind inst line => Sys2Proof.Machine.execEccWriteback kind inst line s
  | .cutPush c rd rs1 rs2 => Sys2Proof.Machine.execCutPush c rd rs1 rs2 s
  | .cutHeadCheck c role => Sys2Proof.Machine.execCutHeadCheck c role s
  | .cutIssue c role => Sys2Proof.Machine.execCutIssue c role s
  | .cutRetry c role => Sys2Proof.Machine.execCutRetry c role s
  | .faceStoreUe c role => Sys2Proof.Machine.execFaceStoreUe c role s
  | .tblParityError c role array => Sys2Proof.Machine.execTblParityError c role array s
  | .cutVerdict c role => Sys2Proof.Machine.execCutVerdict c role s
  | .cutDrainTile c role => Sys2Proof.Machine.execCutDrainTile c role s
  | .cutComplete c role => Sys2Proof.Machine.execCutComplete c role s
  | .tblLoad c rd rs1 rs2 => Sys2Proof.Machine.execTblLoad c rd rs1 rs2 s
  | .tblLoadDone c role array => Sys2Proof.Machine.execTblLoadDone c role array s
  | .blkRel c rs1 rs2 => Sys2Proof.Machine.execBlkRel c rs1 rs2 s
  | .drsLaunch c rs1 rs2 => Sys2Proof.Machine.execDrsLaunch c rs1 rs2 s
  | .routineStart c => Sys2Proof.Machine.execRoutineStart c s
  | .routineComplete c => Sys2Proof.Machine.execRoutineComplete c s
  | .drsLdt c w => Sys2Proof.Machine.execDrsLdt c w s
  | .drsStt c w => Sys2Proof.Machine.execDrsStt c w s
  | .drsLdf c w mm => Sys2Proof.Machine.execDrsLdf c w mm s
  | .drsStf c w => Sys2Proof.Machine.execDrsStf c w s
  | .drsLdmx c w mm => Sys2Proof.Machine.execDrsLdmx c w mm s
  | .drsStmx c w => Sys2Proof.Machine.execDrsStmx c w s
  | .drsSqpop c w chk => Sys2Proof.Machine.execDrsSqpop c w chk s
  | .sqpopTimeout c => Sys2Proof.Machine.execSqpopTimeout c s
  | .drsLds c w => Sys2Proof.Machine.execDrsLds c w s
  | .drsMov c w => Sys2Proof.Machine.execDrsMov c w s
  | .drsAdd c w mm => Sys2Proof.Machine.execDrsAdd c w mm s
  | .drsSub c w mm => Sys2Proof.Machine.execDrsSub c w mm s
  | .drsMul c w mm => Sys2Proof.Machine.execDrsMul c w mm s
  | .drsMad c w mm => Sys2Proof.Machine.execDrsMad c w mm s
  | .drsMax c w mm => Sys2Proof.Machine.execDrsMax c w mm s
  | .drsMin c w mm => Sys2Proof.Machine.execDrsMin c w mm s
  | .drsCmp c w mm => Sys2Proof.Machine.execDrsCmp c w mm s
  | .drsSel c w mm => Sys2Proof.Machine.execDrsSel c w mm s
  | .drsShl c w mm => Sys2Proof.Machine.execDrsShl c w mm s
  | .drsShr c w mm => Sys2Proof.Machine.execDrsShr c w mm s
  | .drsAnd c w mm => Sys2Proof.Machine.execDrsAnd c w mm s
  | .drsOr c w mm => Sys2Proof.Machine.execDrsOr c w mm s
  | .drsXor c w mm => Sys2Proof.Machine.execDrsXor c w mm s
  | .drsAlgn c w mm => Sys2Proof.Machine.execDrsAlgn c w mm s
  | .drsEadd c w mm => Sys2Proof.Machine.execDrsEadd c w mm s
  | .drsNorm c w mm => Sys2Proof.Machine.execDrsNorm c w mm s
  | .drsTrn c w mm => Sys2Proof.Machine.execDrsTrn c w mm s
  | .drsRmax c w mm => Sys2Proof.Machine.execDrsRmax c w mm s
  | .drsRsum c w mm => Sys2Proof.Machine.execDrsRsum c w mm s
  | .drsFn c w mm => Sys2Proof.Machine.execDrsFn c w mm s
  | .drsEnd c w => Sys2Proof.Machine.execDrsEnd c w s
  | .sqDrop c rd rs1 => Sys2Proof.Machine.execSqDrop c rd rs1 s
  | .cplGet c rd => Sys2Proof.Machine.execCplGet c rd s
  | .cplWait c rd rs1 => Sys2Proof.Machine.execCplWait c rd rs1 s
  | .cplWaitTimeout c => Sys2Proof.Machine.execCplWaitTimeout c s
  | .xfer c rd rs1 => Sys2Proof.Machine.execXfer c rd rs1 s
  | .xferStart c => Sys2Proof.Machine.execXferStart c s
  | .xferBlockDone c ix => Sys2Proof.Machine.execXferBlockDone c ix s
  | .xferComplete c ix => Sys2Proof.Machine.execXferComplete c ix s
  | .notice c rd rs1 rs2 => Sys2Proof.Machine.execNotice c rd rs1 rs2 s
  | .hbeat c rs1 => Sys2Proof.Machine.execHbeat c rs1 s
  | .heartbeatExpired c => Sys2Proof.Machine.execHeartbeatExpired c s
  | .arrSend c rd rs1 => Sys2Proof.Machine.execArrSend c rd rs1 s
  | .arrRead c rd rs1 => Sys2Proof.Machine.execArrRead c rd rs1 s
  | .arrWait c rd rs1 rs2 => Sys2Proof.Machine.execArrWait c rd rs1 rs2 s
  | .arrWaitTimeout c => Sys2Proof.Machine.execArrWaitTimeout c s
  | .arrClr c rs1 => Sys2Proof.Machine.execArrClr c rs1 s
  | .arrPoison c rd rs1 => Sys2Proof.Machine.execArrPoison c rd rs1 s
  | .arrSendTimeout c ix => Sys2Proof.Machine.execArrSendTimeout c ix s
  | .arrivalApply ix => Sys2Proof.Machine.execArrivalApply ix s
  | .arrCountWrite r c n v => Sys2Proof.Machine.execArrCountWrite r c n v s
  | .sendTablePoison c => Sys2Proof.Machine.execSendTablePoison c s
  | .crewStat c rd => Sys2Proof.Machine.execCrewStat c rd s
  | .tlyLoad r c => Sys2Proof.Machine.execTlyLoad r c s
  | .imageLoaded c => Sys2Proof.Machine.execImageLoaded c s
  | .tlyStart r c => Sys2Proof.Machine.execTlyStart r c s
  | .tlyStop r c => Sys2Proof.Machine.execTlyStop r c s
  | .tlyEcall c => Sys2Proof.Machine.execTlyEcall c s
  | .tlyTrap c cause tval => Sys2Proof.Machine.execTlyTrap c cause tval s
  | .buddyTakeover c => Sys2Proof.Machine.execBuddyTakeover c s
  | .crewMapWrite r n v => Sys2Proof.Machine.execCrewMapWrite r n v s
  | .faceLaunchEnqueue r n v => Sys2Proof.Machine.execFaceLaunchEnqueue r n v s
  | .faceFetch n => Sys2Proof.Machine.execFaceFetch n s
  | .faceFetchDone n => Sys2Proof.Machine.execFaceFetchDone n s
  | .faceSld n w => Sys2Proof.Machine.execFaceSld n w s
  | .faceSst n w => Sys2Proof.Machine.execFaceSst n w s
  | .faceSnw n w => Sys2Proof.Machine.execFaceSnw n w s
  | .strokeEnd n => Sys2Proof.Machine.execStrokeEnd n s
  | .mergeDone col face => Sys2Proof.Machine.execMergeDone col face s
  | .faceLdr n w mm => Sys2Proof.Machine.execFaceLdr n w mm s
  | .faceStr n w => Sys2Proof.Machine.execFaceStr n w s
  | .faceLdb n w mm => Sys2Proof.Machine.execFaceLdb n w mm s
  | .faceAdd n w mm => Sys2Proof.Machine.execFaceAdd n w mm s
  | .faceSub n w mm => Sys2Proof.Machine.execFaceSub n w mm s
  | .faceMul n w mm => Sys2Proof.Machine.execFaceMul n w mm s
  | .faceMad n w mm => Sys2Proof.Machine.execFaceMad n w mm s
  | .faceMax n w mm => Sys2Proof.Machine.execFaceMax n w mm s
  | .faceMin n w mm => Sys2Proof.Machine.execFaceMin n w mm s
  | .faceIns n w mm => Sys2Proof.Machine.execFaceIns n w mm s
  | .faceEadd n w mm => Sys2Proof.Machine.execFaceEadd n w mm s
  | .faceNorm n w mm => Sys2Proof.Machine.execFaceNorm n w mm s
  | .faceRmax n w mm => Sys2Proof.Machine.execFaceRmax n w mm s
  | .faceRsum n w mm => Sys2Proof.Machine.execFaceRsum n w mm s
  | .faceDot n w mm => Sys2Proof.Machine.execFaceDot n w mm s
  | .faceFn n w mm => Sys2Proof.Machine.execFaceFn n w mm s
  | .faceXadd n w => Sys2Proof.Machine.execFaceXadd n w s
  | .faceLoop n w => Sys2Proof.Machine.execFaceLoop n w s
  | .faceEnd n w => Sys2Proof.Machine.execFaceEnd n w s
  | .faceProgramComplete n => Sys2Proof.Machine.execFaceProgramComplete n s
  | .faceTimeLimit n => Sys2Proof.Machine.execFaceTimeLimit n s
  | .slotOpen p cmd => Sys2Proof.Machine.execSlotOpen p cmd s
  | .slotClose p cmd => Sys2Proof.Machine.execSlotClose p cmd s
  | .veinPin p cmd => Sys2Proof.Machine.execVeinPin p cmd s
  | .veinUnpin p cmd => Sys2Proof.Machine.execVeinUnpin p cmd s
  | .slotTail p cmd => Sys2Proof.Machine.execSlotTail p cmd s
  | .veinHash p cmd => Sys2Proof.Machine.execVeinHash p cmd s
  | .veinLookup p cmd => Sys2Proof.Machine.execVeinLookup p cmd s
  | .veinInsert p cmd => Sys2Proof.Machine.execVeinInsert p cmd s
  | .veinRemove p cmd => Sys2Proof.Machine.execVeinRemove p cmd s
  | .pageAlloc p cmd => Sys2Proof.Machine.execPageAlloc p cmd s
  | .pageRef p cmd => Sys2Proof.Machine.execPageRef p cmd s
  | .pageUnref p cmd => Sys2Proof.Machine.execPageUnref p cmd s
  | .mapSwap p cmd => Sys2Proof.Machine.execMapSwap p cmd s
  | .veinMigrate p cmd => Sys2Proof.Machine.execVeinMigrate p cmd s
  | .migrateBucket => Sys2Proof.Machine.execMigrateBucket s
  | .limboReclaim ix => Sys2Proof.Machine.execLimboReclaim ix s
  | .limboFullTimeout p => Sys2Proof.Machine.execLimboFullTimeout p s
  | .shardUpdate r e v => Sys2Proof.Machine.execShardUpdate r e v s
  | .shardResume r e v => Sys2Proof.Machine.execShardResume r e v s
  | .shardStart e => Sys2Proof.Machine.execShardStart e s
  | .blockClassify e => Sys2Proof.Machine.execBlockClassify e s
  | .gradientWrite r addr data => Sys2Proof.Machine.execGradientWrite r addr data s
  | .landingAdmit e => Sys2Proof.Machine.execLandingAdmit e s
  | .blockCompute e => Sys2Proof.Machine.execBlockCompute e s
  | .blockWritebackDone e => Sys2Proof.Machine.execBlockWritebackDone e s
  | .millAdd e w mm => Sys2Proof.Machine.execMillAdd e w mm s
  | .millSub e w mm => Sys2Proof.Machine.execMillSub e w mm s
  | .millMul e w mm => Sys2Proof.Machine.execMillMul e w mm s
  | .millFma e w mm => Sys2Proof.Machine.execMillFma e w mm s
  | .millMin e w mm => Sys2Proof.Machine.execMillMin e w mm s
  | .millMax e w mm => Sys2Proof.Machine.execMillMax e w mm s
  | .millCmp e w mm => Sys2Proof.Machine.execMillCmp e w mm s
  | .millSel e w mm => Sys2Proof.Machine.execMillSel e w mm s
  | .millRsqrt e w mm => Sys2Proof.Machine.execMillRsqrt e w mm s
  | .millRecip e w mm => Sys2Proof.Machine.execMillRecip e w mm s
  | .millMend e w => Sys2Proof.Machine.execMillMend e w s
  | .millQmx e w mm => Sys2Proof.Machine.execMillQmx e w mm s
  | .millEnd e w => Sys2Proof.Machine.execMillEnd e w s
  | .millStall e => Sys2Proof.Machine.execMillStall e s
  | .shardComplete e => Sys2Proof.Machine.execShardComplete e s
  | .millDisarm r e => Sys2Proof.Machine.execMillDisarm r e s
  | .flitReceive a flit fec => Sys2Proof.Machine.execFlitReceive a flit fec s
  | .flitSlot a => Sys2Proof.Machine.execFlitSlot a s
  | .replayTimeout a => Sys2Proof.Machine.execReplayTimeout a s
  | .msgWrite a m => Sys2Proof.Machine.execMsgWrite a m s
  | .msgRead a m => Sys2Proof.Machine.execMsgRead a m s
  | .msgArrive a m => Sys2Proof.Machine.execMsgArrive a m s
  | .msgPoison a m => Sys2Proof.Machine.execMsgPoison a m s
  | .msgReadData a m => Sys2Proof.Machine.execMsgReadData a m s
  | .msgWriteAck a m => Sys2Proof.Machine.execMsgWriteAck a m s
  | .msgArriveAck a m => Sys2Proof.Machine.execMsgArriveAck a m s
  | .capsFlit a p => Sys2Proof.Machine.execCapsFlit a p s
  | .capsResendTimer a => Sys2Proof.Machine.execCapsResendTimer a s
  | .capsTimeout a => Sys2Proof.Machine.execCapsTimeout a s
  | .qualReq a => Sys2Proof.Machine.execQualReq a s
  | .qualReqTimer a => Sys2Proof.Machine.execQualReqTimer a s
  | .qualResult a pass => Sys2Proof.Machine.execQualResult a pass s
  | .qualifyDone a lanes => Sys2Proof.Machine.execQualifyDone a lanes s
  | .qualifyTimeout a => Sys2Proof.Machine.execQualifyTimeout a s
  | .retrainReq a => Sys2Proof.Machine.execRetrainReq a s
  | .linkStop a => Sys2Proof.Machine.execLinkStop a s
  | .trainDone a rate lanes => Sys2Proof.Machine.execTrainDone a rate lanes s
  | .trainTimeout a signal => Sys2Proof.Machine.execTrainTimeout a signal s
  | .linkFaultTrip a cause => Sys2Proof.Machine.execLinkFaultTrip a cause s
  | .fastRetrainDone a pass badLanes => Sys2Proof.Machine.execFastRetrainDone a pass badLanes s
  | .signalDetect a => Sys2Proof.Machine.execSignalDetect a s
  | .adtRetrain r a => Sys2Proof.Machine.execAdtRetrain r a s
  | .adtReset r a => Sys2Proof.Machine.execAdtReset r a s
  | .spareTakeover => Sys2Proof.Machine.execSpareTakeover s
  | .aditRefclkLoss edge => Sys2Proof.Machine.execAditRefclkLoss edge s
  | .aditRefclkReturn edge => Sys2Proof.Machine.execAditRefclkReturn edge s
  | .routeFlit port f => Sys2Proof.Machine.execRouteFlit port f s
  | .ordWaitExpiry a => Sys2Proof.Machine.execOrdWaitExpiry a s
  | .linkmapMsg a member localMap globalMap => Sys2Proof.Machine.execLinkmapMsg a member localMap globalMap s
  | .linkmapTimer => Sys2Proof.Machine.execLinkmapTimer s
  | .linkmapStale member => Sys2Proof.Machine.execLinkmapStale member s
  | .joinMsg a m => Sys2Proof.Machine.execJoinMsg a m s
  | .leaveMsg a m => Sys2Proof.Machine.execLeaveMsg a m s
  | .snapshotMsg a es => Sys2Proof.Machine.execSnapshotMsg a es s
  | .joinSettle => Sys2Proof.Machine.execJoinSettle s
  | .fldIdWrite r v => Sys2Proof.Machine.execFldIdWrite r v s
  | .memberLeave r stack => Sys2Proof.Machine.execMemberLeave r stack s
  | .memberRejoin r stack => Sys2Proof.Machine.execMemberRejoin r stack s
  | .timeFlit a t rxStamp => Sys2Proof.Machine.execTimeFlit a t rxStamp s
  | .timeFlitTimer a => Sys2Proof.Machine.execTimeFlitTimer a s
  | .timeLocked => Sys2Proof.Machine.execTimeLocked s
  | .parentTimeout => Sys2Proof.Machine.execParentTimeout s
  | .gmAdvertStale a => Sys2Proof.Machine.execGmAdvertStale a s
  | .ppsInEdge => Sys2Proof.Machine.execPpsInEdge s
  | .ppsOutEdge => Sys2Proof.Machine.execPpsOutEdge s
  | .perstDeassert => Sys2Proof.Machine.execPerstDeassert s
  | .pcieLinkUp speed width flitMode => Sys2Proof.Machine.execPcieLinkUp speed width flitMode s
  | .pciePartitionReset cause => Sys2Proof.Machine.execPciePartitionReset cause s
  | .vfFlr f => Sys2Proof.Machine.execVfFlr f s
  | .busMasterEnable f bme cfg => Sys2Proof.Machine.execBusMasterEnable f bme cfg s
  | .resizableBarWrite size => Sys2Proof.Machine.execResizableBarWrite size s
  | .slotWrite f off data => Sys2Proof.Machine.execSlotWrite f off data s
  | .slotPickup => Sys2Proof.Machine.execSlotPickup s
  | .reqNop ix => Sys2Proof.Machine.execReqNop ix s
  | .reqCopy ix => Sys2Proof.Machine.execReqCopy ix s
  | .copyReadTimeout ix => Sys2Proof.Machine.execCopyReadTimeout ix s
  | .reqCrewLoad ix => Sys2Proof.Machine.execReqCrewLoad ix s
  | .reqFaceLaunch ix => Sys2Proof.Machine.execReqFaceLaunch ix s
  | .reqMillShard ix => Sys2Proof.Machine.execReqMillShard ix s
  | .reqVein ix => Sys2Proof.Machine.execReqVein ix s
  | .cqEnable r f v => Sys2Proof.Machine.execCqEnable r f v s
  | .cqModTimer f => Sys2Proof.Machine.execCqModTimer f s
  | .doeRequest objType data => Sys2Proof.Machine.execDoeRequest objType data s
  | .doeAbort => Sys2Proof.Machine.execDoeAbort s
  | .eccLeak => Sys2Proof.Machine.execEccLeak s
  | .scrubRead kind store => Sys2Proof.Machine.execScrubRead kind store s
  | .seamInjArm r n v => Sys2Proof.Machine.execSeamInjArm r n v s
  | .shaftResend c role command fails group lanes => Sys2Proof.Machine.execShaftResend c role command fails group lanes s
  | .chkLine src index dpa data => Sys2Proof.Machine.execChkLine src index dpa data s
  | .chkCtrlWrite r u v => Sys2Proof.Machine.execChkCtrlWrite r u v s
  | .traceRecord => Sys2Proof.Machine.execTraceRecord s
  | .clockLoss domain gallery => Sys2Proof.Machine.execClockLoss domain gallery s
  | .cpmMeasure slacks => Sys2Proof.Machine.execCpmMeasure slacks s
  | .ageingReduction g n => Sys2Proof.Machine.execAgeingReduction g n s
  | .surveyWrite => Sys2Proof.Machine.execSurveyWrite s
  | .vfTargetWrite r g v => Sys2Proof.Machine.execVfTargetWrite r g v s
  | .vfRaise g => Sys2Proof.Machine.execVfRaise g s
  | .vfLower g => Sys2Proof.Machine.execVfLower g s
  | .vfSlewDone g => Sys2Proof.Machine.execVfSlewDone g s
  | .droopTrip g mv => Sys2Proof.Machine.execDroopTrip g mv s
  | .droopRecover g mv => Sys2Proof.Machine.execDroopRecover g mv s
  | .rampLimitTrip g rise => Sys2Proof.Machine.execRampLimitTrip g rise s
  | .droopRearm r g => Sys2Proof.Machine.execDroopRearm r g s
  | .regFault g kind out => Sys2Proof.Machine.execRegFault g kind out s
  | .demandFrame => Sys2Proof.Machine.execDemandFrame s
  | .ledgerEvaluate measured => Sys2Proof.Machine.execLedgerEvaluate measured s
  | .ledgerOver => Sys2Proof.Machine.execLedgerOver s
  | .ledgerClampRelease => Sys2Proof.Machine.execLedgerClampRelease s
  | .galParkWrite r g v => Sys2Proof.Machine.execGalParkWrite r g v s
  | .parkRampStep g => Sys2Proof.Machine.execParkRampStep g s
  | .unparkRampStep g => Sys2Proof.Machine.execUnparkRampStep g s
  | .railWarning rail mv => Sys2Proof.Machine.execRailWarning rail mv s
  | .railWarningClear rail => Sys2Proof.Machine.execRailWarningClear rail s
  | .sagClampLift => Sys2Proof.Machine.execSagClampLift s
  | .pwrSagReset rail mv => Sys2Proof.Machine.execPwrSagReset rail mv s
  | .canaryConvert sensor reading => Sys2Proof.Machine.execCanaryConvert sensor reading s
  | .modelEvaluate => Sys2Proof.Machine.execModelEvaluate s
  | .thermalClampRise g => Sys2Proof.Machine.execThermalClampRise g s
  | .hardTrip sensor reading => Sys2Proof.Machine.execHardTrip sensor reading s
  | .coolantSample inlet outlet dp => Sys2Proof.Machine.execCoolantSample inlet outlet dp s
  | .flowPulse => Sys2Proof.Machine.execFlowPulse s
  | .flowWindowUpdate => Sys2Proof.Machine.execFlowWindowUpdate s
  | .dpCollapse => Sys2Proof.Machine.execDpCollapse s
  | .flowOkLow => Sys2Proof.Machine.execFlowOkLow s
  | .flowLevel level => Sys2Proof.Machine.execFlowLevel level s
  | .coolantUnparkTick => Sys2Proof.Machine.execCoolantUnparkTick s
  | .valveLoop => Sys2Proof.Machine.execValveLoop s
  | .thmRestart r => Sys2Proof.Machine.execThmRestart r s
  | .pldmRequest q => Sys2Proof.Machine.execPldmRequest q s
  | .inletReportTimeout => Sys2Proof.Machine.execInletReportTimeout s
  | .powerOn => Sys2Proof.Machine.execPowerOn s
  | .brgCharter img => Sys2Proof.Machine.execBrgCharter img s
  | .brgFuses => Sys2Proof.Machine.execBrgFuses s
  | .assayB fails => Sys2Proof.Machine.execAssayB fails s
  | .assayS fails => Sys2Proof.Machine.execAssayS fails s
  | .assayD fails ueLines => Sys2Proof.Machine.execAssayD fails ueLines s
  | .assayC fails => Sys2Proof.Machine.execAssayC fails s
  | .brgGrade writeOk => Sys2Proof.Machine.execBrgGrade writeOk s
  | .brgStockpile lost => Sys2Proof.Machine.execBrgStockpile lost s
  | .brgBroadcast bad => Sys2Proof.Machine.execBrgBroadcast bad s
  | .brgAditTrain => Sys2Proof.Machine.execBrgAditTrain s
  | .brgAditQualify => Sys2Proof.Machine.execBrgAditQualify s
  | .brgReady => Sys2Proof.Machine.execBrgReady s
  | .brgStepEnd => Sys2Proof.Machine.execBrgStepEnd s
  | .stepTimeout => Sys2Proof.Machine.execStepTimeout s
  | .surveyDiscard r => Sys2Proof.Machine.execSurveyDiscard r s
  | .warmReset r v => Sys2Proof.Machine.execWarmReset r v s
  | .foremanReset cause => Sys2Proof.Machine.execForemanReset cause s
  | .foremanResume => Sys2Proof.Machine.execForemanResume s
  | .stockpileCtrlReset => Sys2Proof.Machine.execStockpileCtrlReset s
  | .stockpileCtrlResetEnd => Sys2Proof.Machine.execStockpileCtrlResetEnd s
  | .secBegin pldm kind len => Sys2Proof.Machine.execSecBegin pldm kind len s
  | .secPush pldm chunk => Sys2Proof.Machine.execSecPush pldm chunk s
  | .secEnd pldm => Sys2Proof.Machine.execSecEnd pldm s
  | .secAbort pldm => Sys2Proof.Machine.execSecAbort pldm s
  | .secRevert kind => Sys2Proof.Machine.execSecRevert kind s
  | .secFactory => Sys2Proof.Machine.execSecFactory s
  | .pldmFwUpdate q => Sys2Proof.Machine.execPldmFwUpdate q s
  | .reserveCopyDone kind => Sys2Proof.Machine.execReserveCopyDone kind s
  | .secConfirm r v fuseOk => Sys2Proof.Machine.execSecConfirm r v fuseOk s
  | .confirmTimer fuseOk => Sys2Proof.Machine.execConfirmTimer fuseOk s
  | .confirmWindowExpiry kind => Sys2Proof.Machine.execConfirmWindowExpiry kind s
  | .revertReset => Sys2Proof.Machine.execRevertReset s
  | .aliasKeysReady => Sys2Proof.Machine.execAliasKeysReady s
  | .spdmGetVersion ch => Sys2Proof.Machine.execSpdmGetVersion ch s
  | .spdmGetCapabilities ch => Sys2Proof.Machine.execSpdmGetCapabilities ch s
  | .spdmNegotiateAlgorithms ch => Sys2Proof.Machine.execSpdmNegotiateAlgorithms ch s
  | .spdmGetDigests ch => Sys2Proof.Machine.execSpdmGetDigests ch s
  | .spdmGetCertificate ch slot off len => Sys2Proof.Machine.execSpdmGetCertificate ch slot off len s
  | .spdmChallenge ch slot nonce => Sys2Proof.Machine.execSpdmChallenge ch slot nonce s
  | .spdmGetMeasurements ch index signed nonce => Sys2Proof.Machine.execSpdmGetMeasurements ch index signed nonce s
  | .spdmKeyExchange ch reqSession => Sys2Proof.Machine.execSpdmKeyExchange ch reqSession s
  | .spdmFinish ch session => Sys2Proof.Machine.execSpdmFinish ch session s
  | .spdmEndSession ch session => Sys2Proof.Machine.execSpdmEndSession ch session s
  | .spdmHeartbeat ch session => Sys2Proof.Machine.execSpdmHeartbeat ch session s
  | .spdmKeyUpdate ch session op => Sys2Proof.Machine.execSpdmKeyUpdate ch session op s
  | .spdmChunkSend ch handle seqNo last data => Sys2Proof.Machine.execSpdmChunkSend ch handle seqNo last data s
  | .spdmChunkGet ch handle seqNo => Sys2Proof.Machine.execSpdmChunkGet ch handle seqNo s
  | .tallyDpaAccess c store addr size reg => Sys2Proof.Machine.execTallyDpaAccess c store addr size reg s
  | .overseerDpaAccess r store dpa len data => Sys2Proof.Machine.execOverseerDpaAccess r store dpa len data s
  | .fieldRegisterAccess a src addr store v => Sys2Proof.Machine.execFieldRegisterAccess a src addr store v s
  | .dmaReadCompletion ix off data => Sys2Proof.Machine.execDmaReadCompletion ix off data s
  | .pclkReturn => Sys2Proof.Machine.execPclkReturn s
  | .vfEnableWrite numVfs en => Sys2Proof.Machine.execVfEnableWrite numVfs en s
  | .overseerLoadDone digestOk reserveOk => Sys2Proof.Machine.execOverseerLoadDone digestOk reserveOk s
  | .updateChunkDone => Sys2Proof.Machine.execUpdateChunkDone s

end Sys2Proof.Machine
end

