-- ==== Sys2Proof/Machine/Tick.lean ====
section
/-! DEFINITION. What happens when no command waits: a nanosecond passes (log entry 4). -/

namespace Sys2Proof.Machine

/-- What TCLK advances by in the nanosecond that begins: one, or, once in 10 µs while its rate is steered, zero or two, which
is the 100 ppm of R333. [DESIGN CHOICE: log entry 4] -/
def tclkStep (s : State) : Nat :=
  if s.fld.steer = 0 ∨ s.now % 10000 ≠ 0 then 1 else if s.fld.steer < 0 then 0 else 2

/-- A nanosecond passes on the model's clock and on TCLK (R330). [DESIGN CHOICE: log entry 4] -/
def tick (s : State) : State :=
  let n := tclkStep s
  { s with now := s.now + 1, tclk := s.tclk + BitVec.ofNat 64 n
           fld := { s.fld with steer := s.fld.steer - ((n : Int) - 1)
                               ppsDue := s.fld.ppsDue || decide ((s.tclk.toNat + n) % 1000000000 < n) } }

end Sys2Proof.Machine
end

