-- ==== Sys2Proof/Machine/Step.lean ====
section
/-! DEFINITION. One step: the command at the front of the queue is taken and performed; on an empty queue a nanosecond
passes (log entry 4). -/

namespace Sys2Proof.Machine

/-- One step of the block: the front command's effect on the state with the rest of the queue, or, with no command
waiting, one tick of the model's clock. [DESIGN CHOICE: log entries 4, 6] -/
def step (s : State) : Host.Outcome State Fault Refusal :=
  match s.pending with
  | [] => .next (tick s)
  | c :: rest => exec c { s with pending := rest }

/-- The state with the command that a word spells put at the front of its queue; unchanged where the word spells none
(no word does). [DESIGN CHOICE: log entry 1] -/
def State.withFetchWord (s : State) (nbits w : Nat) : State :=
  match Sys2Proof.decodeTableWord nbits w with
  | none => s
  | some c => { s with pending := c :: s.pending }

end Sys2Proof.Machine
end

