-- ==== Sys2Proof/Safety.lean ====
section
/-! DEFINITION. What a safe run of the block is, and the conditions on a state under which a unit's next instruction is the one a
command names: the terms the statements use. -/

namespace Sys2Proof.Safety

open Sys2Proof.Machine

/-- A step goes on: it ends neither in a fault nor in a refusal. -/
def goesOn (s : State) : Prop := ∃ t, step s = .next t

/-- Every byte memory of the block is in its canonical form. -/
def memoriesWf (s : State) : Bool :=
  s.seamMem.wf && s.binMem.wf && s.storeMem.wf && s.stockMem.wf && s.lsMem.wf && s.tlyMem.wf && s.bufMem.wf
    && s.slotMem.wf

/-- The routine of crew `c`'s dresser has reached instruction `w` of opcode `op`, well formed (R136 to R139): `r` is the routine,
`s'` the state after the fetch. -/
structure DrsFetched (s s' : State) (c op : Nat) (w : InstrWord) (r : Routine) : Prop where
  runs : drsRuns s c = true
  run : (s.dresser c).run = some r
  word : ∃ bs, localRead (.ls c) (64 * r.start + 8 * (s.dresser c).pc) 8 s = (s', some bs) ∧ leNat bs = w.toNat
  opcode : dOp w = op
  listed : dListed op = true
  unused : dUnusedZero w = true
  values : dValuesGood w = true

/-- What an instruction of the dresser that writes tile d leaves (R85, R136, R142): its rows in tile d with the flags they
set, every other tile, every scalar register, the local store and the crews as they were, the residue codes of the lanes
written (R382), and the next place in the routine. -/
structure DrsResult (s t : State) (c : Nat) (w : InstrWord) (rows : List RowRes) : Prop where
  tile : (t.dresser c).tile (dTd w) = (tileRes rows).1
  codes : (t.dresser c).tileGood (dTd w) = true
  tiles : ∀ k, k ≠ dTd w → (t.dresser c).tile k = (s.dresser c).tile k
  saturated : (t.dresser c).rsat = ((s.dresser c).rsat || (tileRes rows).2.1)
  invalid : (t.dresser c).rinv = ((s.dresser c).rinv || (tileRes rows).2.2)
  scalars : (t.dresser c).sregs = (s.dresser c).sregs
  place : (t.dresser c).pc = (s.dresser c).pc + 1
  store : t.lsMem = s.lsMem
  crews : t.crews = s.crews

/-- Face unit `n` is at instruction `w` of opcode `op`, well formed and readable, in a program that runs (R188 to R195); `s'`: the
state after the fetch, which counts a line that was corrected (R370). -/
structure FaceAt (s s' : State) (n op : Nat) (w : InstrWord) : Prop where
  runs : faceRuns s n = true
  running : (s.face n).state = 2
  going : (s.face n).ended = none
  word : (s.face n).prog[(s.face n).pc]? = some w
  opcode : bits 7 0 w.toNat = op
  listed : fListed op = true
  unused : fUnusedZero w = true
  values : fValuesGood w = true
  readable : s.verdict (progLine n (s.face n).pc) [] ≠ .uncorrectable
  fetch : progRead n (s.face n).pc s = s'

/-- What a face-unit instruction that writes row vd leaves (R196, R199): its row with the flags it sets and its lanes' residue
codes (R382), every other row, the index registers, the buffers and the seams as they were, and the next place in the
program. -/
structure FaceResult (s t : State) (n : Nat) (w : InstrWord) (r : RowRes) : Prop where
  row : vget (t.face n) (fVd w) = r.row
  codes : rowGood (t.face n) (fVd w) = true
  rows : ∀ k, k ≠ fVd w → vget (t.face n) k = vget (s.face n) k
  saturated : (t.face n).sat = ((s.face n).sat || r.sat)
  invalid : (t.face n).inv = ((s.face n).inv || r.inv)
  index : (t.face n).xs = (s.face n).xs
  place : (t.face n).pc = ((s.face n).pc + 1) % 256
  buffers : t.bufMem = s.bufMem
  seams : t.seamMem = s.seamMem

/-- Command `ws` of operation `op`, well formed, is at the head of vein port `p`, and the engine can perform it: the port's
completion ring has room, the stack is not STOPPED, and the command is not one that only drops references still (R226, R227,
R229, R232). -/
structure VeinAt (s : State) (p op : Nat) (ws : List Word) (req : Option Nat) : Prop where
  port : p < 9
  head : ∃ rest, (s.vport p).queue = (ws, req) :: rest
  opcode : bits 7 0 (vw ws 0) = op
  good : vGood ws = true
  room : ringFull (s.vport p) = false
  runs : s.thm.stopped = false
  fresh : (s.vport p).result = none

/-- The 256 bytes `t` of token IDs of command `ws` are read and hashed in a check unit (R220, R221); `s'`: the state after. -/
structure BlockAt (s s' : State) (p : Nat) (ws : List Word) (t : List Byte) : Prop where
  aligned : vdpa ws 4 % 64 = 0
  hashed : ∃ s0 u, hashUnit s = some u ∧ vRead p (vdpa ws 4) 256 s = (s0, .ok t)
    ∧ hashTake u (crc64 (leBytes 8 (vdpa ws 2) ++ t)) s0 = s'

/-- Engine `e` works on block `b` of shard `sh`, and its program has reached instruction `w` of opcode `op` (R251, R259, R261);
`s'`: the state after the fetch, which counts a line that was corrected (R370). -/
structure MillAt (s s' : State) (e op : Nat) (w : Word) (sh : Shard) (b : Block) : Prop where
  runs : millRuns s e = true
  shard : (s.eng e).cur = some sh
  block : (s.eng e).block = some b
  stage : b.stage = 1 ∨ b.stage = 2
  word : (s.eng e).prog[(s.eng e).pc]? = some w
  opcode : mOp w = op
  fetch : millDecode e (81920 + (s.eng e).pc / 16) 1 s = (s', false)

/-- What an instruction of a Mill program that writes lane register fd leaves (R259 to R261): its lanes in fd, every other
lane register, the scalars, the block, the shard and every memory as they were, and the next place in the program. -/
structure MillResult (s t : State) (e : Nat) (w : Word) (v : List Word) : Prop where
  lanes : freg (t.eng e) (mFd w) = v
  others : ∀ k, k ≠ mFd w → freg (t.eng e) k = freg (s.eng e) k
  scalars : (t.eng e).kregs = (s.eng e).kregs
  place : (t.eng e).pc = (s.eng e).pc + 1
  block : (t.eng e).block = (s.eng e).block
  shard : (t.eng e).cur = (s.eng e).cur
  stock : t.stockMem = s.stockMem
  seams : t.seamMem = s.seamMem

/-- A new host request of operation `op` at place `i` of the runtime's list, its unused bytes zero, of an operation its function
may use (R354, R356). -/
structure ReqNew (s : State) (i op : Nat) (used : List (Nat × Nat)) (r : HostReq) : Prop where
  listed : s.hif.reqs[i]? = some r
  opcode : reqOp r = op
  fresh : r.stage = 0
  clean : reqClean r used = true
  allowed : opAllowed s r = true

end Sys2Proof.Safety
end

