-- ==== Sys2Proof/Certificates/Slice0/Obligations.lean ====
section
/-! DEFINITION. The statements about the block: what each command does, under hypotheses on the state and the operands alone,
and what every step keeps. -/

open Sys2Proof Sys2Proof.Machine

/-- A step performs the front command. -/
def Obligations.FrontCommand : Prop :=
  ∀ (c : Instr) (s : State) (rest : List Instr), s.pending = c :: rest → step s = exec c { s with pending := rest }

/-- An idle step (log entry 4: the model's choice). -/
def Obligations.IdleTick : Prop :=
  ∀ s : State, s.pending = [] → s.fld.steer = 0 → step s = .next { s with
    now := s.now + 1, tclk := s.tclk + 1
    fld := { s.fld with ppsDue := s.fld.ppsDue || decide ((s.tclk.toNat + 1) % 1000000000 = 0) } }

/-- Every step goes on. -/
def Obligations.EveryStepGoesOn : Prop :=
  ∀ s : State, Safety.goesOn s ∧ ∀ t, step s = .next t →
    t.pending = s.pending.tail ∧ (t.now = s.now ∨ t.now = s.now + 1) ∧ s.free ≤ t.free ∧ s.out <:+ t.out

/-- The canonical form of the memories is kept. -/
def Obligations.MemoriesCanonical : Prop :=
  ∀ s t : State, Safety.memoriesWf s = true → step s = .next t → Safety.memoriesWf t = true

/-- The memories at reset. That an unlisted byte reads as zero is the model's choice (log entry 5). -/
def Obligations.ResetMemories : Prop :=
  Safety.memoriesWf State.reset = true ∧ State.reset.seamMem = [] ∧ State.reset.binMem = [] ∧ State.reset.storeMem = []
    ∧ State.reset.stockMem = [] ∧ State.reset.lsMem = [] ∧ State.reset.tlyMem = [] ∧ State.reset.bufMem = [] ∧ State.reset.slotMem = []

/-- Reading a line after a write. -/
def Obligations.LineReadAfterWrite : Prop :=
  ∀ (s : State) (l m : LineId) (bs : List Byte), m.kind = l.kind → bs.length = 64 →
    (l.kind < 5 ∨ (l.kind = 6 ∧ l.inst = 8 ∧ m.inst = 8)) →
    (∃ p ∈ storeParts l.kind l.inst, p.1 ≤ l.line ∧ l.line < p.1 + p.2) →
    (∃ p ∈ storeParts m.kind m.inst, p.1 ≤ m.line ∧ m.line < p.1 + p.2) →
    (l.kind = 4 → l.line < 1024 ∧ m.line < 1024) →
    idRead (idWrite l bs s) l = bs ∧ (m ≠ l → idRead (idWrite l bs s) m = idRead s m)

/-- R41: the two views never alias; each byte of an enabled seam has exactly one DPA, in the view its block is assigned to. The
windows are 0, the striped view, and 1, the seam-linear view, of Table 2-3. -/
def Obligations.OneDpaPerSeamByte : Prop :=
  ∀ (s : State) (n off : Nat), s.seamPresent n = true → off < 0x20000000 →
    let w := if bit (off / 0x4000000) s.chr.stripeMask then 0 else 1
    rawDecode s (seamDpa s n off) = some (w, .ok (.seam n off))
      ∧ ∀ dpa v, rawDecode s dpa = some (v, .ok (.seam n off)) → dpa = seamDpa s n off ∧ v = w

/-- R44: a slice's addresses, each byte of the bin at one DPA only. A byte of the bin is numbered through the slices in order. -/
def Obligations.BinSlices : Prop :=
  ∀ (s : State) (col off : Nat), col < 64 → off < 0x1000000 →
    rawDecode s (0x10000000000 + col * 0x1000000 + off) = some (2, .ok (.bin (col * 0x1000000 + off)))
      ∧ ∀ dpa w, rawDecode s dpa = some (w, .ok (.bin (col * 0x1000000 + off))) → dpa = 0x10000000000 + col * 0x1000000 + off

/-- R42: the decode of an offset in the striped window, in the rule's own steps; two granules never meet (R41). -/
def Obligations.StripedView : Prop :=
  ∀ (s : State) (a : Nat), a < 0x6000000000 →
    let e := (List.range 12).filter s.layerOn
    let b := (List.range 8).filter (fun j => bit j s.chr.stripeMask)
    let g := a / 4096
    let q := g / 64
    let r := q / e.length
    (64 * e.length * b.length * 0x4000000 ≤ a → rawDecode s a = some (0, .error 0))
    ∧ (a < 64 * e.length * b.length * 0x4000000 → ∃ k blk, e[q % e.length]? = some k ∧ b[r / 16384]? = some blk
        ∧ rawDecode s a = some (0, .ok (.seam (64 * k + g % 64) (blk * 0x4000000 + r % 16384 * 4096 + a % 4096))))

/-- R403: GAL_DROOP over a run of readings after a re-arm: the lowest of them, with the time of the first that was so low. -/
def Obligations.DroopRecord : Prop :=
  (∀ (s : State) (g mv : Nat), g < 32 → ∀ i ∈ [Instr.droopTrip g mv, Instr.droopRecover g mv], ∃ t, exec i s = .next t
      ∧ (t.gal g).vmin = min mv (s.gal g).vmin ∧ (t.gal g).droopTs = (if mv < (s.gal g).vmin then s.tclk else (s.gal g).droopTs)
      ∧ ∀ h, h ≠ g → t.gal h = s.gal h)
  ∧ (∀ (s : State) (r : Requester) (g : Nat), g < 32 → reachesRegs r = true →
      ∃ t, exec (.droopRearm r g) s = .next t ∧ (t.gal g).vmin = 0x3FF ∧ (t.gal g).droopTs = 0)
  ∧ (∀ (s : State) (g n : Nat), ∃ u, exec (.rampLimitTrip g n) s = .next u
      ∧ ∀ h, (u.gal h).vmin = (s.gal h).vmin ∧ (u.gal h).droopTs = (s.gal h).droopTs)

/-- The duty tokens (R31 to R34, R172): what the tally's token instructions and a revocation do. -/
def Obligations.DutyTokens : Prop :=
  (∀ (s : State) (c rd rs1 : Nat), s.tallyRuns c = true →
    let h := hewerFor s c ((tget s c rs1).toNat % 2)
    let layer := layerOf c
    let col := colOf c h
    let t := s.tok col
    (s.holds layer col = true → exec (.tokAcq c rd rs1) s = .next (tset c rd 1 s))
    ∧ (s.holds layer col = false → t.holders.length < s.tokLimit →
        (s.tokAdjacency = true → ∀ k ∈ t.holders, k + 1 ≠ layer ∧ layer + 1 ≠ k) →
        exec (.tokAcq c rd rs1) s = .next (tset c rd 1
          (s.setTok col { holders := t.holders ++ [layer], revoked := setDel layer t.revoked })))
    ∧ (s.holds layer col = false →
        (s.tokLimit ≤ t.holders.length ∨ s.tokAdjacency = true ∧ ∃ k ∈ t.holders, k + 1 = layer ∨ layer + 1 = k) →
        exec (.tokAcq c rd rs1) s = .next (tset c rd 0 s))
    ∧ exec (.tokRel c rs1) s
        = .next (s.setTok col { holders := t.holders.filter (fun k => k ≠ layer), revoked := t.revoked }))
  ∧ (∀ (s : State) (c rd rs1 : Nat), s.tallyRuns c = true →
      exec (.tokStat c rd rs1) s
        = .next (tset c rd (BitVec.ofNat 64 (tokWord s (colOf c ((tget s c rs1).toNat % 2)))) s))
  ∧ (∀ (s : State) (c rd : Nat), s.tallyRuns c = true →
      exec (.crewStat c rd) s = .next (tset c rd (BitVec.ofNat 64 (crewWord s c)) s))
  ∧ (∀ (s : State) (col : Nat), col < 64 → (s.tok col).holders.length ≤ s.tokLimit + 4 →
      ∃ t, exec (.tokenRevoke col) s = .next t ∧ (t.tok col).holders = (s.tok col).holders.take s.tokLimit)

/-- The tally's instructions that queue work (R135, R149, R159, R161, R164, Table 6-2). -/
def Obligations.TallyQueues : Prop :=
  (∀ (s s' : State) (c rd rs1 rs2 : Nat) (bs : List Byte), s.tallyRuns c = true →
    (tget s c rs1).toNat % 32 = 0 → (tget s c rs1).toNat + 32 ≤ 0x20000 →
    localRead (.tly c) (tget s c rs1).toNat 32 s = (s', some bs) →
    let role := (tget s c rs2).toNat % 2
    (cutUse (s'.crew c) role < 19 →
      exec (.cutPush c rd rs1 rs2) s = .next (tset c rd 1 (pushCut c role (wordsOf bs) s')))
    ∧ (19 ≤ cutUse (s'.crew c) role → exec (.cutPush c rd rs1 rs2) s = .next (tset c rd 0 s')))
  ∧ (∀ (s : State) (c rd rs1 rs2 : Nat), s.tallyRuns c = true → (tget s c rs1).toNat % 32 ≠ 0 →
      exec (.cutPush c rd rs1 rs2) s = .next (tallyTrap c 4 (tget s c rs1) s))
  ∧ (∀ (s : State) (c rd rs1 rs2 : Nat), s.tallyRuns c = true →
      let a := (tget s c rs1).toNat
      let o := (tget s c rs2).toNat
      let role := bits 2 2 o
      let q : TblReq := { arr := bits 1 0 o, addr := a, id := bits 8 3 o, kind := bits 9 9 o, role := role }
      a % 16 = 0 → a + 16 ≤ 0x200000 → redirected s c role = false → (s.hewer c role).fenceCause = 0 →
      (tblUse (s.crew c) role < 4 →
        exec (.tblLoad c rd rs1 rs2) s
          = .next (startLoad c role q (tset c rd 1 (s.setCrew c (takeTbl role (s.crew c))))))
      ∧ (4 ≤ tblUse (s.crew c) role → exec (.tblLoad c rd rs1 rs2) s = .next (tset c rd 0 s)))
  ∧ (∀ (s : State) (c rs1 rs2 : Nat), s.tallyRuns c = true →
      let first := bits 10 0 (tget s c rs1).toNat
      let count := bits 11 0 (tget s c rs2).toNat
      let role := bits 16 16 (tget s c rs2).toNat
      first + count ≤ 2048 → count ≠ 0 → redirected s c role = false →
      exec (.blkRel c rs1 rs2) s = .next (applyRels c (s.setCrew c { s.crew c with
        order := (s.crew c).order + 1, rels := (s.crew c).rels ++ [(role, first, count, (s.crew c).order)] })))
  ∧ (∀ (s : State) (c rs1 rs2 : Nat), s.tallyRuns c = true →
      let d := s.dresser c
      (d.queue.length < 4 → exec (.drsLaunch c rs1 rs2) s = .next (s.setDresser c { d with
        queue := d.queue ++ [{ start := bits 12 0 (tget s c rs1).toNat, base := bits 28 16 (tget s c rs1).toNat
                               tag := bits 15 0 (tget s c rs2).toNat }] }))
      ∧ (4 ≤ d.queue.length → exec (.drsLaunch c rs1 rs2) s
          = .next (s.setCrew c { s.crew c with wait := .launch (tget s c rs1) (tget s c rs2) })))
  ∧ (∀ (s : State) (c rd rs1 : Nat), s.tallyRuns c = true →
      let role := bits 16 16 (tget s c rs1).toNat
      let seq := bits 15 0 (tget s c rs1).toNat
      exec (.sqDrop c rd rs1) s = .next (tset c rd
        (BitVec.ofNat 64 ((s.dresser c).skq.filter (fun p => sqDrops role seq p.2)).length) (dropTiles c role seq s)))

/-- Records, transfers, notices and heartbeats (R160, R161, R165, R170 to R174). -/
def Obligations.TallyRecords : Prop :=
  (∀ (s : State) (c rd : Nat), s.tallyRuns c = true →
      ((s.crew c).cpl = [] → exec (.cplGet c rd) s = .next (tset c rd 0 s))
      ∧ (∀ r rest, (s.crew c).cpl = r :: rest →
          exec (.cplGet c rd) s = .next (tset c rd (recWord r) (s.setCrew c (freeCredit r { s.crew c with cpl := rest })))))
  ∧ (∀ (s : State) (c rd rs1 : Nat), s.tallyRuns c = true →
      (∀ r rest, (s.crew c).cpl = r :: rest →
        exec (.cplWait c rd rs1) s = .next (tset c rd (recWord r) ((beat c s).setCrew c
          (freeCredit r { (beat c s).crew c with cpl := rest }))))
      ∧ ((s.crew c).cpl = [] → (tget s c rs1).toNat = 0 → exec (.cplWait c rd rs1) s = .next (tset c rd 0 (beat c s)))
      ∧ ((s.crew c).cpl = [] → (tget s c rs1).toNat ≠ 0 →
          exec (.cplWait c rd rs1) s = .next ((beat c s).setCrew c { (beat c s).crew c with
            wait := .cpl rd (s.hclkNs (galOf c) + min (tget s c rs1).toNat 16000) })))
  ∧ (∀ (s : State) (c rd dl : Nat), (s.crew c).state = 4 → s.crewRuns c = true → (s.crew c).wait = .cpl rd dl →
      (s.crew c).cpl = [] → dl ≤ s.hclkNs (galOf c) →
      exec (.cplWaitTimeout c) s = .next (beat c (tset c rd 0 (s.setCrew c { s.crew c with wait := .none }))))
  ∧ (∀ (s s' : State) (c rd rs1 : Nat) (bs : List Byte), s.tallyRuns c = true →
      (tget s c rs1).toNat % 32 = 0 → (tget s c rs1).toNat + 32 ≤ 0x20000 →
      localRead (.tly c) (tget s c rs1).toNat 32 s = (s', some bs) →
      (8 ≤ (s'.crew c).sendUse → exec (.xfer c rd rs1) s = .next (tset c rd 0 s'))
      ∧ ((s'.crew c).sendUse < 8 →
          exec (.xfer c rd rs1) s = .next (tset c rd 1 (s'.setCrew c { s'.crew c with
            sendUse := (s'.crew c).sendUse + 1, order := (s'.crew c).order + 1
            xferQ := (s'.crew c).xferQ ++ [{ words := redirectEnd s' c 7 4 (redirectEnd s' c 4 2 (wordsOf bs))
                                             order := (s'.crew c).order }] }))))
  ∧ (∀ (s : State) (c rd rs1 rs2 : Nat), s.tallyRuns c = true →
      let a := (tget s c rs1).toNat
      let b := (tget s c rs2).toNat
      let n := (c, (s.tclk + BitVec.ofNat 64 b).toNat, sext 10 (bits 9 0 a), bits 31 16 a)
      bits 15 10 a = 0 → bits 63 32 a = 0 → bits 63 16 b = 0 →
      ∃ t, exec (.notice c rd rs1 rs2) s = .next t ∧ tget t c rd = (if rd = 0 then 0 else s.tclk + BitVec.ofNat 64 b)
        ∧ (t.gal (galOf c)).notices = (s.gal (galOf c)).notices ++ [n]
        ∧ (t.gal (galOf c)).forecast.getLast? = some n
        ∧ (t.crew c).late = ((s.crew c).late || decide (b < 1500)))
  ∧ (∀ (s : State) (c rs1 : Nat), s.tallyRuns c = true →
      exec (.hbeat c rs1) s = .next (s.setCrew c { s.crew c with
        progress := bits 15 0 (tget s c rs1).toNat, hbFrom := s.hclkNs (galOf c) }))
  ∧ (∀ (s : State) (c : Nat), s.crewPresent c = true → (s.crew c).state = 4 → s.crewRuns c = true →
      (s.crew c).hbFrom + 20000 ≤ s.hclkNs (galOf c) →
      exec (.heartbeatExpired c) s
        = .next (logEvent 0x08 c 0x0803 [(0, 2, c), (2, 2, (s.crew c).progress)] (fenceCrew c 3 s)))

/-- Arrivals (R161, R167 to R169, R183) and the tally's memory accesses (R158). -/
def Obligations.Arrivals : Prop :=
  (∀ (s : State) (c rd rs1 : Nat), s.tallyRuns c = true → 8 ≤ (s.crew c).sendUse →
      exec (.arrSend c rd rs1) s = .next (tset c rd 0 s) ∧ exec (.arrPoison c rd rs1) s = .next (tset c rd 0 s))
  ∧ (∀ (s : State) (c rd rs1 : Nat), s.tallyRuns c = true → (s.crew c).sendUse < 8 →
      let t := fun poison => s.setCrew c { s.crew c with
        sendUse := (s.crew c).sendUse + 1
        arrs := (s.crew c).arrs ++ [{ addr := tget s c rs1, poison := poison, at_ := s.now, order := (s.crew c).order }] }
      exec (.arrSend c rd rs1) s = .next (pumpSends c 16 (tset c rd 1 (t false)))
      ∧ exec (.arrPoison c rd rs1) s = .next (pumpSends c 16 (tset c rd 1 (t true))))
  ∧ (∀ (s : State) (c rd rs1 : Nat), s.tallyRuns c = true →
      let n := (tget s c rs1).toNat % 16
      exec (.arrRead c rd rs1) s = .next (tset c rd (BitVec.ofNat 64 ((Tbl.look 0 (s.crew c).counts n).toNat
        + 2 ^ 32 * b2n ((s.crew c).dead.contains n))) s))
  ∧ (∀ (s : State) (c rd rs1 rs2 : Nat), s.tallyRuns c = true →
      let n := (tget s c rs1).toNat % 16
      let target := BitVec.ofNat 32 (bits 63 32 (tget s c rs1).toNat)
      let count := Tbl.look 0 (s.crew c).counts n
      ((s.crew c).dead.contains n = true → exec (.arrWait c rd rs1 rs2) s = .next (tset c rd 7 (beat c s)))
      ∧ ((s.crew c).dead.contains n = false → (count - target).toNat < 2 ^ 31 →
          exec (.arrWait c rd rs1 rs2) s = .next (tset c rd 0 (beat c s)))
      ∧ ((s.crew c).dead.contains n = false → 2 ^ 31 ≤ (count - target).toNat → (tget s c rs2).toNat = 0 →
          exec (.arrWait c rd rs1 rs2) s = .next (tset c rd 3 (beat c s)))
      ∧ ((s.crew c).dead.contains n = false → 2 ^ 31 ≤ (count - target).toNat → (tget s c rs2).toNat ≠ 0 →
          exec (.arrWait c rd rs1 rs2) s = .next ((beat c s).setCrew c { (beat c s).crew c with
            wait := .arr n target rd (s.hclkNs (galOf c) + min (tget s c rs2).toNat 16000) })))
  ∧ (∀ (s : State) (c n rd dl : Nat) (target : Word), (s.crew c).state = 4 → s.crewRuns c = true →
      (s.crew c).wait = .arr n target rd dl → dl ≤ s.hclkNs (galOf c) →
      exec (.arrWaitTimeout c) s = .next (beat c (tset c rd 3 (s.setCrew c { s.crew c with wait := .none }))))
  ∧ (∀ (s : State) (c rs1 : Nat), s.tallyRuns c = true →
      let n := (tget s c rs1).toNat % 16
      exec (.arrClr c rs1) s = .next (s.setCrew c { s.crew c with
        counts := Tbl.put (s.crew c).counts n 0, dead := setDel n (s.crew c).dead }))
  ∧ (∀ (s : State) (c i : Nat) (a : ArrSend), (s.crew c).arrs[i]? = some a → a.sent = true → a.xfer = none →
      a.at_ + 1000000 ≤ s.now →
      exec (.arrSendTimeout c i) s = .next (postRec c { tag := a.addr.toNat % 65536, status := .timeout, source := 7 }
        (forgetSend c a.addr (s.setCrew c { s.crew c with arrs := listDel (s.crew c).arrs i }))))
  ∧ (∀ (s : State) (i : Nat) (a : Arrival), s.arrQ[i]? = some a →
      exec (.arrivalApply i) s = .next (arrivalApply a { s with arrQ := listDel s.arrQ i }))
  ∧ (∀ (s : State) (r : Requester) (c n : Nat) (v : Word), reachesRegs r = true → s.crewPresent c = true → n < 16 →
      exec (.arrCountWrite r c n v) s = .next (wakeArr c (s.setCrew c { s.crew c with
        counts := Tbl.put (s.crew c).counts n v, dead := setDel n (s.crew c).dead })))
  ∧ (∀ (s : State) (c i : Nat) (a : Dword), (s.crew c).poisonAt = some i → (s.crew c).sends[i]? = some a →
      exec (.sendTablePoison c) s = .next (slicePoison c a (s.setCrew c { s.crew c with poisonAt := some (i + 1) })))
  ∧ (∀ (s s' : State) (c reg size : Nat) (addr : Dword) (bs : List Byte) (sg : Bool), s.tallyRuns c = true →
      (size = 1 ∨ size = 2 ∨ size = 4 ∨ size = 8) →
      loadValue sg size bs = (if sg = true then (BitVec.ofNat (8 * size) (leNat bs)).signExtend 64 else BitVec.ofNat 64 (leNat bs))
      ∧
      (addr.toNat % size ≠ 0 → exec (.tallyDpaAccess c false addr size (reg, sg)) s = .next (tallyTrap c 4 addr s)
        ∧ exec (.tallyDpaAccess c true addr size (reg, sg)) s = .next (tallyTrap c 6 addr s))
      ∧ (addr.toNat % size = 0 → addr.toNat + size ≤ 0x20000 →
          localRead (.tly c) addr.toNat size s = (s', some bs) →
          exec (.tallyDpaAccess c false addr size (reg, sg)) s = .next (tset c reg (loadValue sg size bs) s'))
      ∧ (addr.toNat % size = 0 → (0x8000 ≤ addr.toNat ∨ (s.crew c).user = false) → addr.toNat + size ≤ 0x20000 →
          localWrite (.tly c) addr.toNat (leBytes size (tget s c reg).toNat) s = (s', true) →
          exec (.tallyDpaAccess c true addr size (reg, sg)) s = .next s')
      ∧ (addr.toNat % size = 0 → addr.toNat < 0x8000 → (s.crew c).user = true →
          exec (.tallyDpaAccess c true addr size (reg, sg)) s = .next (tallyTrap c 7 addr s))
      ∧ (∀ dpa, addr.toNat % size = 0 → addr.toNat = 2 ^ 63 + dpa → dpa < 2 ^ 48 → spanHeld s (.crew c) dpa size = false →
          (dpaRead (.crew c) dpa size s = (s', bs, .ok) →
            exec (.tallyDpaAccess c false addr size (reg, sg)) s = .next (tset c reg (loadValue sg size bs) s'))
          ∧ (∀ n off, dpaWrite (.crew c) dpa (leBytes size (tget s c reg).toNat) s = (s', .ok) →
            decodeDpa s (.crew c) dpa = .ok (.seam n off) →
            exec (.tallyDpaAccess c true addr size (reg, sg)) s = .next (s'.setCrew c { s'.crew c with wait := .merge addr }))
          ∧ (dpaWrite (.crew c) dpa (leBytes size (tget s c reg).toNat) s = (s', .ok) →
            (∀ n off, decodeDpa s (.crew c) dpa ≠ .ok (.seam n off)) →
            exec (.tallyDpaAccess c true addr size (reg, sg)) s = .next s')))

/-- Programs of a crew (R169, R170, R175 to R181). -/
def Obligations.Programs : Prop :=
  (∀ (s : State) (r : Requester) (c : Nat), reachesRegs r = true → s.crewPresent c = true →
      ((s.crew c).state = 1 ∨ (s.crew c).state = 5) →
      exec (.tlyLoad r c) s = .next (s.setCrew c { s.crew c with state := 2, trap := false }))
  ∧ (∀ (s s' : State) (c : Nat) (h img : List Byte), s.crewPresent c = true → (s.crew c).state = 2 →
      s.crewRuns c = true → (s.gal (galOf c)).parked = false →
      ((s.crew c).img % 64 ≠ 0 → s.waited = false →
        exec (.imageLoaded c) s = .next (s.setCrew c { s.crew c with state := 1, cause := 8 }))
      ∧ ((s.crew c).img % 64 = 0 → readPieces (.crew c) (pieces (s.crew c).img 64) s = (s', h, .ok) →
          leAt h 0 4 = 0x50435A4B → 64 ≤ leAt h 0x10 4 → leAt h 0x10 4 ≤ 0x1000000 →
          ∀ (s'' : State), readPieces (.crew c) (pieces (s.crew c).img (leAt h 0x10 4)) s' = (s'', img, .ok) →
          (imgGood s'' c img = true →
            ((placeImage c img s'').waited = false → exec (.imageLoaded c) s = .next (placeImage c img s''))
            ∧ ((placeImage c img s'').waited = true → exec (.imageLoaded c) s = .next s))
          ∧ (imgGood s'' c img = false → s''.waited = false →
            exec (.imageLoaded c) s = .next (s''.setCrew c { s''.crew c with state := 1, cause := 8 }))))
  ∧ (∀ (s : State) (r : Requester) (c : Nat), reachesRegs r = true → s.crewPresent c = true → (s.crew c).state = 3 →
      exec (.tlyStart r c) s = .next (s.setCrew c { s.crew c with
        state := 4, trap := false, cause := 0, wait := .none, user := true, hbFrom := s.hclkNs (galOf c) }))
  ∧ (∀ (s : State) (r : Requester) (c : Nat), reachesRegs r = true → s.crewPresent c = true → (s.crew c).state = 4 →
      exec (.tlyStop r c) s
        = .next (poisonStart c (s.setCrew c { s.crew c with state := 5, trap := false, wait := .none, user := false })))
  ∧ (∀ (s : State) (c : Nat), s.tallyRuns c = true →
      exec (.tlyEcall c) s
        = .next (s.setCrew c { s.crew c with state := 5, trap := false, user := false, exit := (tget s c 10).toNat % 65536 }))
  ∧ (∀ (s : State) (c cause : Nat) (tval : Dword), s.tallyRuns c = true →
      exec (.tlyTrap c cause tval) s = .next (poisonStart c (s.setCrew c { s.crew c with
        state := 5, trap := true, cause := cause % 16, mcause := cause, mtval := tval, wait := .none, user := false })))
  ∧ (∀ (s s' : State) (c d : Nat), (s.crew c).takeover = some d → s.crewRuns c = true → (s.crew c).state = 4 →
      (s.hewer c d).issued = [] → (s.hewer c d).loads = [] → (s.crew c).buddy = false → (s.hewer c (1 - d)).fenceCause = 0 →
      ((s.crew c).buddyEn = false ∨ (s.crew c).buddyReady = false →
        exec (.buddyTakeover c) s = .next (refuseTakeover c d 1 s))
      ∧ ((s.crew c).buddyEn = true → (s.crew c).buddyReady = true →
          (s.dresser c).skq.any (fun p => p.2.st == 2 && p.2.role == d
            && (interrupted (s.crew c) d).any (fun k => k.seq == p.2.seq)) = false →
          (s.dresser c).popped.any (fun p => p.1 == d && (interrupted (s.crew c) d).any (fun k => k.seq == p.2)) = false →
          copyBlocks c d (List.range 1024) s = (s', true) →
          let cuts := interrupted (s.crew c) d
          let t := cuts.foldl (fun s k => pushAgain c d k s) (cuts.foldl (fun s k => dropTiles c d k.seq s) s')
          let y := ((t.crew c).absorbed.filter (fun r => r.source != d)).foldl (fun y r => freeCredit r y) (t.crew c)
          exec (.buddyTakeover c) s = .next (logTakeover c d 0
            (t.setCrew c { y with buddy := true, deadRole := d, takeover := none, absorbed := [] }))))
  ∧ (∀ (s : State) (r : Requester) (n : Nat) (v : Word), reachesRegs r = true → n < 128 →
      ((bit 7 v.toNat = false ∨ ∀ k < 128, k ≠ n → Tbl.look (0, false) s.crewMap k ≠ (bits 6 0 v.toNat, true)) →
        exec (.crewMapWrite r n v) s
          = .next { s with crewMap := Tbl.put s.crewMap n (bits 6 0 v.toNat, bit 7 v.toNat) })
      ∧ (bit 7 v.toNat = true → (∃ k < 128, k ≠ n ∧ Tbl.look (0, false) s.crewMap k = (bits 6 0 v.toNat, true)) →
          exec (.crewMapWrite r n v) s = .next (logIgnored 0x0C 0 r (0x03500400 + 4 * n) 4 s)))

/-- Transfers (R162 to R166), seam grants (R53 to R55) and merges (R207, R374, R375). -/
def Obligations.TransfersAndSeams : Prop :=
  (∀ (s : State) (c : Nat) (x : Xfer) (rest : List Xfer), (s.crew c).xferQ = x :: rest → s.crewPresent c = true →
      s.crewRuns c = true → ((s.crew c).xferRun.filter (fun y => !y.arrSent)).length < 4 →
      let s' := s.setCrew c { s.crew c with xferQ := rest }
      (xferBad s c x = true → exec (.xferStart c) s = .next (pumpSends c 16 (applyRels c
        (postRec c { tag := xTag x, status := .badDescriptor, source := 3 } s'))))
      ∧ (xferBad s c x = false → sourceFree s c x = true → xferEmpty s c x = false →
          (xWrites s c x = [] ∨ nextFree s c x = true) →
          (xRemote s x = true → spaceHeld s c (xSrc x) (xSrcAddr x) (xLen x) none = false) →
          exec (.xferStart c) s = .next (launchXfer c x s')))
  ∧ (∀ (s s' : State) (c i : Nat) (x x' : Xfer), (s.crew c).xferRun[i]? = some x → s.crewPresent c = true →
      s.crewRuns c = true → xWrites s c x ≠ [] → blockRest x ≠ 0 → nextFree s c x = true →
      rangeHeld s c x x.done (blockRest x) = false → shaftClear s c x (x.done + blockRest x) = true →
      ∀ transit, moveLines c transit (blockRest x / 64) 0 x.done { x with badAt := none, status := .ok }
        (xferTurn c x x.done (blockRest x) s) = (s', x') →
      ∀ b, nextBlock c x = some b →
      let good := x'.badAt.isNone
      let y := { keepFail x x' with done := x.done + blockRest x, failed := if good then x.failed else x.failed ++ [b] }
      ∃ t, exec (.xferBlockDone c (i, transit)) s = .next t
        ∧ t = fillNext c y (setBlocks c b.1 [b.2] (if good then 2 else 1) (setXfer c i y s'))
        ∧ (nextBlock c y ≠ some b → blockSt t c b.1 b.2 = if good then 2 else 1))
  ∧ (∀ (s : State) (c i : Nat) (x : Xfer), (s.crew c).xferRun[i]? = some x → s.crewPresent c = true →
      s.crewRuns c = true → x.arrSent = false → x.sent = false → xWrites s c x ≠ [] → x.done = xLen x → ∀ transit,
      exec (.xferComplete c (i, transit)) s = .next (endXfer c i x s))
  ∧ (∀ (s₀ : State) (n : Nat) (a : Nat × SeamReq), let s := serveHeld s₀
      s.seamPresent n = true →
      (oldestOf s n true = some a → oldestOf s n false = none →
        exec (.seamGrant n) s₀ = .next (serveHeld (grantReq n a.1 a.2 false s)))
      ∧ (oldestOf s n true = none → oldestOf s n false = some a →
          exec (.seamGrant n) s₀ = .next (serveHeld (grantReq n a.1 a.2 false s)))
      ∧ (∀ b, oldestOf s n true = some a → oldestOf s n false = some b → overdue s b.2 a.2 = false →
          shaftWins s n = true → exec (.seamGrant n) s₀ = .next (serveHeld (grantReq n a.1 a.2 false s)))
      ∧ (∀ b, oldestOf s n true = some a → oldestOf s n false = some b → overdue s b.2 a.2 = true →
          shaftWins s n = true → exec (.seamGrant n) s₀ = .next (serveHeld (grantReq n b.1 b.2 true s)))
      ∧ (∀ b, oldestOf s n true = some a → oldestOf s n false = some b → overdue s a.2 b.2 = false →
          shaftWins s n = false → exec (.seamGrant n) s₀ = .next (serveHeld (grantReq n b.1 b.2 false s)))
      ∧ (∀ b, oldestOf s n true = some a → oldestOf s n false = some b → overdue s a.2 b.2 = true →
          shaftWins s n = false → exec (.seamGrant n) s₀ = .next (serveHeld (grantReq n a.1 a.2 true s))))
  ∧ (∀ (s : State) (n : Nat) (shaft : Bool) (a b : Nat × SeamReq), s.seamPresent n = true →
      oldestOf s n shaft = some a → oldestOf s n (!shaft) = some b → overdue s a.2 b.2 = true →
      exec (.seamGuardExpiry n shaft) s = .next (serveHeld (grantReq n a.1 a.2 true s)))
  ∧ (∀ (s : State) (col : Nat) (m : Merge) (rest : List Merge), (s.seam m.seam).selfRefresh = false →
      ((s.mergeCol col).host = m :: rest → exec (.mergeDone col false) s = .next (serveHeld (hostRefill col 64
        (doMerge m (s.setMergeCol col { s.mergeCol col with host := rest })).1)))
      ∧ ((s.mergeCol col).face = m :: rest → exec (.mergeDone col true) s = .next (serveHeld (faceRefill col
        (faceMerge m (s.setMergeCol col { s.mergeCol col with face := rest }))))))

/-- The hewer's events (R28, R111 to R128, R147). -/
def Obligations.CutEvents : Prop :=
  (∀ (s : State) (c role hclk : Nat), s.crewPresent c = true → role < 2 → hclk ≠ 0 →
      let x := s.hewer c role
      exec (.busyWindow c role hclk) s = .next (s.setHewer c role { x with
        occ := min 1024 (x.busy * 1024 / (4 * hclk)), heavy := decide (240 * hclk < 100 * x.busy), busy := 0 }))
  ∧ (∀ (s : State) (c role : Nat) (k : Cut) (rest : List Cut), (s.hewer c role).queue = k :: rest →
      s.hewerRuns c role = true →
      let x := s.hewer c role
      (x.checked = false → k.good (s.crewPresent c) = true → tblBad x k = false →
        exec (.cutHeadCheck c role) s = .next (s.setHewer c role { x with checked := true }))
      ∧ (x.checked = false → (k.good (s.crewPresent c) = false ∨ tblBad x k = true) →
          exec (.cutHeadCheck c role) s = .next (applyRels c (flushDone c role (s.setHewer c role { x with
            queue := rest, checked := false, issued := x.issued ++ [{ cut := k, phase := 2, st := .badDescriptor }] }))))
      ∧ (x.checked = true → tblBad x k = false → canIssue s c role k = true →
          exec (.cutIssue c role) s = .next (issueCut c role k rest s)))
  ∧ (∀ (s : State) (c role i : Nat) (k : CutRun), streaming (s.hewer c role) = some (i, k) → s.hewerRuns c role = true →
      let x := s.hewer c role
      (checksOn s k.cut = true → k.retried = false → exec (.cutRetry c role) s
        = .next (s.setHewer c role { x with
            issued := listSet x.issued i { k with retried := true, ran := k.ran + k.cut.busySum }
            busy := x.busy + k.cut.busySum }))
      ∧ (checksOn s k.cut = true → k.retried = true →
          exec (.cutRetry c role) s
            = .next (fenceHewer c role 1 3 (failCut c role i .unitFault (ranFor c role k k.cut.busySum s))))
      ∧ (x.issued.all (fun r => r.phase != 1) = true → (k.cut.op ≠ 2 ∨ k.retried = true) →
          (((k.cut.xbarS || k.cut.xbarT) && (s.hewer c (1 - role)).fenceCause == 5) = true →
            exec (.cutVerdict c role) s = .next (stopCut c role i .denied s))
          ∧ (((k.cut.xbarS || k.cut.xbarT) && (s.hewer c (1 - role)).fenceCause == 5) = false →
            (cutErrs s c role k.cut).any (fun p => faceVerdict s c p.1 p.2 == .uncorrectable) = false →
            exec (.cutVerdict c role) s = .next (passCut c role i k s))))
  ∧ (∀ (s : State) (c role i : Nat) (k : CutRun) (p : Nat × Nat), ueCut s c role = some (i, k) → s.hewerRuns c role = true →
      (cutErrs s c role k.cut).find? (fun p => faceVerdict s c p.1 p.2 == .uncorrectable) = some p →
      exec (.faceStoreUe c role) s = .next (stopCut c role i .uncorrectable
        (noteRead (lineOf (.face c p.1 (64 * p.2))) .uncorrectable false false s)))
  ∧ (∀ (s : State) (c role i a : Nat) (k : CutRun), decoding (s.hewer c role) a = some (i, k) → s.hewerRuns c role = true →
      let x := s.hewer c role
      exec (.tblParityError c role a) s = .next (stopCut c role i .unitFault (s.setHewer c role { x with
        act := Tbl.put x.act a { Tbl.look {} x.act a with valid := false }, tblParity := satInc 0xFF x.tblParity })))
  ∧ (∀ (s : State) (c role i : Nat) (k : CutRun), draining (s.hewer c role) = some (i, k) → s.hewerDrains c = true →
      (k.cut.toSkip = true → k.drained < k.entries.length → (skqEntry s c (k.entries.getD k.drained 0)).st = 1 →
        ∃ t, exec (.cutDrainTile c role) s = .next t
          ∧ (skqEntry t c (k.entries.getD k.drained 0)).st = 2
          ∧ (skqEntry t c (k.entries.getD k.drained 0)).data = (k.cut.tile (drainResult k s).2 k.drained).1)
      ∧ ((k.cut.toSkip = false ∨ k.drained = k.entries.length) →
          exec (.cutComplete c role) s = .next (completeCut c role i k s)))
  ∧ (∀ (s s' : State) (c role a : Nat) (q : TblReq) (ln : List Byte),
      (s.hewer c role).loads.find? (fun l => l.arr == a) = some q → s.crewPresent c = true → s.crewRuns c = true →
      ((s.hewer c role).fenceCause ≠ 0 → exec (.tblLoadDone c role a) s = .next (endLoad c role q .unitDead [] s))
      ∧ ((s.hewer c role).fenceCause = 0 → readLine (.face c role (q.addr / 64 * 64)) s = (s', some ln) →
      let bs := (ln.drop (q.addr % 64)).take (if q.kind = 0 then 16 else 8)
      (tableGood bs = true → exec (.tblLoadDone c role a) s = .next (endLoad c role q .ok bs s'))
      ∧ (tableGood bs = false → exec (.tblLoadDone c role a) s = .next (endLoad c role q .badDescriptor [] s'))))

/-- Results of the dresser's arithmetic pipe (R142, R145, R154, R155): what each opcode writes and what it leaves. -/
def Obligations.DresserArith : Prop :=
  ∀ (s s' : State) (c mm : Nat) (w : InstrWord) (r : Routine), mm ≤ 1 → s'.chr.residueEn = true →
    let d := s'.dresser c
    d.laneFaults w = 0 →
    (Safety.DrsFetched s s' c 0x10 w r → ∃ t, exec (.drsAdd c w mm) s = .next t
        ∧ Safety.DrsResult s' t c w (List.zipWith bfxAdd (d.opA w) (d.opB w)))
    ∧ (Safety.DrsFetched s s' c 0x11 w r → ∃ t, exec (.drsSub c w mm) s = .next t
        ∧ Safety.DrsResult s' t c w (List.zipWith bfxSub (d.opA w) (d.opB w)))
    ∧ (Safety.DrsFetched s s' c 0x12 w r → ∃ t, exec (.drsMul c w mm) s = .next t
        ∧ Safety.DrsResult s' t c w (List.zipWith bfxMul (d.opA w) (d.opB w)))
    ∧ (Safety.DrsFetched s s' c 0x13 w r → ∃ t, exec (.drsMad c w mm) s = .next t
        ∧ Safety.DrsResult s' t c w (List.zipWith (fun p c => bfxMad p.1 p.2 c) (List.zip (d.opA w) (d.opB w)) (d.opC w)))
    ∧ (Safety.DrsFetched s s' c 0x14 w r → ∃ t, exec (.drsMax c w mm) s = .next t
        ∧ Safety.DrsResult s' t c w (List.zipWith bfxMax (d.opA w) (d.opB w)))
    ∧ (Safety.DrsFetched s s' c 0x15 w r → ∃ t, exec (.drsMin c w mm) s = .next t
        ∧ Safety.DrsResult s' t c w (List.zipWith bfxMin (d.opA w) (d.opB w)))
    ∧ (Safety.DrsFetched s s' c 0x16 w r → ∃ t, exec (.drsCmp c w mm) s = .next t
        ∧ Safety.DrsResult s' t c w (List.zipWith (bfxCmp (dSub w)) (d.opA w) (d.opB w)))
    ∧ (Safety.DrsFetched s s' c 0x17 w r → ∃ t, exec (.drsSel c w mm) s = .next t
        ∧ Safety.DrsResult s' t c w (List.zipWith (fun p c => bfxSel p.1 p.2 c) (List.zip (d.opA w) (d.opB w)) (d.opC w)))

/-- Results of the dresser's arithmetic pipe (R142, R145, R154, R155): what each opcode writes and what it leaves. -/
def Obligations.DresserBits : Prop :=
  ∀ (s s' : State) (c mm : Nat) (w : InstrWord) (r : Routine), mm ≤ 1 → s'.chr.residueEn = true →
    let d := s'.dresser c
    d.laneFaults w = 0 →
    (Safety.DrsFetched s s' c 0x20 w r → ∃ t, exec (.drsShl c w mm) s = .next t
        ∧ Safety.DrsResult s' t c w ((d.opA w).map (bfxShl (dImm w))))
    ∧ (Safety.DrsFetched s s' c 0x21 w r → ∃ t, exec (.drsShr c w mm) s = .next t
        ∧ Safety.DrsResult s' t c w ((d.opA w).map (bfxShr (dImm w))))
    ∧ (Safety.DrsFetched s s' c 0x22 w r → ∃ t, exec (.drsAnd c w mm) s = .next t
        ∧ Safety.DrsResult s' t c w (List.zipWith (bfxBit Nat.land) (d.opA w) (d.opB w)))
    ∧ (Safety.DrsFetched s s' c 0x23 w r → ∃ t, exec (.drsOr c w mm) s = .next t
        ∧ Safety.DrsResult s' t c w (List.zipWith (bfxBit Nat.lor) (d.opA w) (d.opB w)))
    ∧ (Safety.DrsFetched s s' c 0x24 w r → ∃ t, exec (.drsXor c w mm) s = .next t
        ∧ Safety.DrsResult s' t c w (List.zipWith (bfxBit Nat.xor) (d.opA w) (d.opB w)))
    ∧ (Safety.DrsFetched s s' c 0x30 w r → ∃ t, exec (.drsAlgn c w mm) s = .next t
        ∧ Safety.DrsResult s' t c w (List.zipWith bfxAlgn (d.opA w) (d.opB w)))
    ∧ (Safety.DrsFetched s s' c 0x31 w r → ∃ t, exec (.drsEadd c w mm) s = .next t
        ∧ Safety.DrsResult s' t c w ((d.opA w).map (bfxEadd (sext 32 (dImm w)))))
    ∧ (Safety.DrsFetched s s' c 0x32 w r → ∃ t, exec (.drsNorm c w mm) s = .next t
        ∧ Safety.DrsResult s' t c w ((d.opA w).map (bfxNorm (dImm w))))
    ∧ (Safety.DrsFetched s s' c 0x33 w r → ∃ t, exec (.drsTrn c w mm) s = .next t
        ∧ Safety.DrsResult s' t c w (bfxTrn (d.opA w)))
    ∧ (Safety.DrsFetched s s' c 0x34 w r → ∃ t, exec (.drsRmax c w mm) s = .next t
        ∧ Safety.DrsResult s' t c w ((d.opA w).map bfxRmax))
    ∧ (Safety.DrsFetched s s' c 0x35 w r → ∃ t, exec (.drsRsum c w mm) s = .next t
        ∧ Safety.DrsResult s' t c w ((d.opA w).map (bfxRsum (dImm w))))
    ∧ (Safety.DrsFetched s s' c 0x40 w r → ∃ t, exec (.drsFn c w mm) s = .next t
        ∧ Safety.DrsResult s' t c w ((d.opA w).map (bfxFn (dSub w))))

/-- The dresser's loads (R134, R137, R143, R149). -/
def Obligations.DresserLoads : Prop :=
  ∀ (s s' s'' : State) (c mm a : Nat) (w : InstrWord) (r : Routine) (bs : List Byte),
    mm ≤ 1 → s'.chr.residueEn = true → s''.chr.residueEn = true →
    (Safety.DrsFetched s s' c 0x01 w r → lineOperand r w 65 = some a → localRead (.ls c) a 4160 s' = (s'', some bs) →
        ∃ t, exec (.drsLdt c w) s = .next t
          ∧ Safety.DrsResult s'' t c w ((imageRows bs).map (fun r => { row := r })))
    ∧ (Safety.DrsFetched s s' c 0x03 w r → lineOperand r w 64 = some a → localRead (.ls c) a 4096 s' = (s'', some bs) →
        ∃ t, exec (.drsLdf c w mm) s = .next t
          ∧ Safety.DrsResult s'' t c w ((wordRows bs 32).map (fun r => bfxPack (r.map numOfWord))))
    ∧ (∀ ps bl, Safety.DrsFetched s s' c 0x05 w r → dLay w = true → rowParts r (s'.dresser c) w = some ps →
        rowBlocks c (blockBytes (dSub w)) ps s' = (s'', some bl) →
        ∃ t, exec (.drsLdmx c w mm) s = .next t
          ∧ Safety.DrsResult s'' t c w (bl.map (fun b => bfxOfMx (dSub w) [] b.1 b.2)))
    ∧ (Safety.DrsFetched s s' c 0x05 w r → dLay w = false → dSub w ≤ 5 →
        lineOperand r w (1 + (32 * blockBytes (dSub w) + 63) / 64) = some a →
        localRead (.ls c) a (64 + 32 * blockBytes (dSub w)) s' = (s'', some bs) →
        ∃ t, exec (.drsLdmx c w mm) s = .next t
          ∧ Safety.DrsResult s'' t c w ((List.range 32).map (fun i =>
              bfxOfMx (dSub w) [] (leAt bs i 1) ((bs.drop (64 + i * blockBytes (dSub w))).take (blockBytes (dSub w))))))
    ∧ (Safety.DrsFetched s s' c 0x08 w r → 4 * (16 * r.base + dImm w) + 4 ≤ 0x80000 →
        localRead (.ls c) (4 * (16 * r.base + dImm w)) 4 s' = (s'', some bs) →
        ∃ t, exec (.drsLds c w) s = .next t
          ∧ (t.dresser c).sregs = Tbl.put (s''.dresser c).sregs (dSreg w) (BitVec.ofNat 32 (leNat bs))
          ∧ (t.dresser c).tiles = (s''.dresser c).tiles ∧ (t.dresser c).pc = (s''.dresser c).pc + 1
          ∧ t.lsMem = s''.lsMem ∧ t.crews = s''.crews)
    ∧ (Safety.DrsFetched s s' c 0x09 w r →
        ∃ t, exec (.drsMov c w) s = .next t
          ∧ Safety.DrsResult s' t c w (((s'.dresser c).opA w).map (fun r => { row := r })))
    ∧ (∀ k, Safety.DrsFetched s s' c 0x07 w r → sqOldest s' c (dImm w) = some k → (skqEntry s' c k).parityBad = false →
        ∃ t, exec (.drsSqpop c w (mm, false)) s = .next t ∧ skqEntry t c k = {}
          ∧ Safety.DrsResult s' t c w ((skqEntry s' c k).data.map (fun r => bfxPack (r.map numOfWord))))
    ∧ (∀ k parity, Safety.DrsFetched s s' c 0x07 w r → sqOldest s' c (dImm w) = some k →
        ((skqEntry s' c k).parityBad = true ∨ parity = true) →
        ∃ t, exec (.drsSqpop c w (mm, parity)) s = .next t ∧ skqEntry t c k = {}
          ∧ (∀ q, (s'.dresser c).run = some q → (t.dresser c).done = some (q.tag, .uncorrectable))
          ∧ (t.dresser c).parity = min 0xFF ((s'.dresser c).parity + 1))
    ∧ (Safety.DrsFetched s s' c 0x07 w r → sqOldest s' c (dImm w) = none → (s'.dresser c).waitFrom = none →
        ∀ parity, exec (.drsSqpop c w (mm, parity)) s
          = .next (s'.setDresser c { s'.dresser c with waitFrom := some (s'.hclkNs (galOf c)) }))

/-- The dresser's stores and routines (R134 to R137, R143, R150, R161). -/
def Obligations.DresserStores : Prop :=
  (∀ (s s' : State) (c a : Nat) (w : InstrWord) (r : Routine),
    (Safety.DrsFetched s s' c 0x02 w r → lineOperand r w 65 = some a →
        let bs := rowsImage ((s'.dresser c).opA w)
        bs.length = 4160 →
        ∃ t, exec (.drsStt c w) s = .next t ∧ (t.dresser c).pc = (s'.dresser c).pc + 1
          ∧ t.lsMem.read (0x80000 * c + a) 4160 = bs
          ∧ (∀ b, b < 0x80000 * c + a ∨ 0x80000 * c + a + 4160 ≤ b → t.lsMem.get b = s'.lsMem.get b)
          ∧ (t.dresser c).tiles = (s'.dresser c).tiles ∧ (t.dresser c).sregs = (s'.dresser c).sregs ∧ t.crews = s'.crews)
    ∧ (Safety.DrsFetched s s' c 0x04 w r → lineOperand r w 64 = some a →
        let bs := ((s'.dresser c).opA w).flatMap (fun r => (bfxUnpack r).flatMap (fun v => leBytes 4 v.toNat))
        bs.length = 4096 →
        ∃ t, exec (.drsStf c w) s = .next t ∧ (t.dresser c).pc = (s'.dresser c).pc + 1
          ∧ t.lsMem.read (0x80000 * c + a) 4096 = bs
          ∧ (∀ b, b < 0x80000 * c + a ∨ 0x80000 * c + a + 4096 ≤ b → t.lsMem.get b = s'.lsMem.get b)
          ∧ (t.dresser c).tiles = (s'.dresser c).tiles ∧ (t.dresser c).sregs = (s'.dresser c).sregs ∧ t.crews = s'.crews)
    ∧ (Safety.DrsFetched s s' c 0x06 w r →
        let bl := tileBlocks (dSub w) ((s'.dresser c).opA w)
        (∀ ps, dLay w = true → rowParts r (s'.dresser c) w = some ps →
          exec (.drsStmx c w) s
            = .next (drsStore c ((List.zip ps bl).flatMap (fun q => [(q.1.1, leBytes 1 q.2.1), (q.1.2, q.2.2)])) s'))
        ∧ (dLay w = false → lineOperand r w (1 + (32 * blockBytes (dSub w) + 63) / 64) = some a →
          exec (.drsStmx c w) s
            = .next (drsStore c [(a, padLine (bl.map (fun b => BitVec.ofNat 8 b.1)) ++ padLine (bl.flatMap (·.2)))] s')))
    ∧ (Safety.DrsFetched s s' c 0x7F w r → (s'.dresser c).run = some r →
        exec (.drsEnd c w) s
          = .next (s'.setDresser c { s'.dresser c with done := some (r.tag, .ok), waitFrom := none })))
  ∧ (∀ (s : State) (c : Nat) (r : Routine) (rest : List Routine),
      s.crewPresent c = true → (s.crew c).fenced = false → s.crewRuns c = true →
      (s.dresser c).run = none → (s.dresser c).done = none → (s.dresser c).queue = r :: rest →
      exec (.routineStart c) s = .next (wakeLaunch c (s.setDresser c { s.dresser c with
        queue := rest, run := some r, pc := 0, rsat := false, rinv := false, waitFrom := none })))
  ∧ (∀ (s : State) (c tag : Nat) (st : Status),
      s.crewPresent c = true → (s.crew c).fenced = false → s.crewRuns c = true → dresserRoom s c = true →
      (s.dresser c).done = some (tag, st) →
      let d := s.dresser c
      exec (.routineComplete c) s
        = .next (postRec c { tag := tag, status := st, source := 2, flags := b2n d.rsat + 2 * b2n d.rinv }
            (s.setDresser c { d with run := none, done := none, lastStatus := st.code })))
  ∧ (∀ (s : State) (c t : Nat) (r : Routine), drsRuns s c = true → (s.dresser c).waitFrom = some t →
      (s.dresser c).run = some r →
      let w : InstrWord := BitVec.ofNat 64 (leNat (s.lsMem.read (0x80000 * c + 64 * r.start + 8 * (s.dresser c).pc) 8))
      sqOldest s c (dImm w) = none →
      t + 1000 * (if (s.dresser c).sqWait = 0 then 256 else (s.dresser c).sqWait) ≤ s.hclkNs (galOf c) →
      exec (.sqpopTimeout c) s
        = .next (s.setDresser c { s.dresser c with done := some (r.tag, .timeout), waitFrom := none }))

/-- Residue verdicts (R154, R155, R383). -/
def Obligations.DresserResidue : Prop :=
  ∀ (s s' : State) (c op mm : Nat) (w : InstrWord) (r : Routine) (g : Dresser → List RowRes),
    Safety.DrsFetched s s' c op w r →
    (s'.chr.residueEn = true → mm = 1 → (s'.dresser c).laneFaults w = 0 → ∃ t, drsArith c op w mm g s = .next t
      ∧ (t.dresser c).retries = min 0xFFFF ((s'.dresser c).retries + 1) ∧ (t.crew c).fenced = (s'.crew c).fenced
      ∧ (t.dresser c).pc = (s'.dresser c).pc + 1)
    ∧ (s'.chr.residueEn = true → 2 ≤ mm + (s'.dresser c).laneFaults w → (s'.crew c).fenced = false → (s'.dresser c).run = some r →
        ∃ t, drsArith c op w mm g s = .next t ∧ (t.crew c).fenced = true ∧ (t.crew c).state = 6
          ∧ (t.dresser c).faultOp = op ∧ (t.dresser c).run = none)
    ∧ (s'.chr.residueEn = false → 1 ≤ mm + (s'.dresser c).laneFaults w → ∃ t, drsArith c op w mm g s = .next t
        ∧ (t.dresser c).pc = (s'.dresser c).pc + 1
        ∧ (t.dresser c).retries = min 0xFFFF ((s'.dresser c).retries + 1) ∧ t.crews = s'.crews)

/-- Results of the face units' arithmetic (R196, R199). -/
def Obligations.FaceArith : Prop :=
  ∀ (s s' : State) (n mm : Nat) (w : InstrWord), mm ≤ 1 → s'.chr.residueEn = true → (s.face n).strokes = [] →
    let x := s'.face n
    faceLaneFaults x w = 0 →
    (Safety.FaceAt s s' n 0x10 w → ∃ t, exec (.faceAdd n w mm) s = .next t
        ∧ Safety.FaceResult s' t n w (bfxAdd (vA x w) (vB x w)))
    ∧ (Safety.FaceAt s s' n 0x11 w → ∃ t, exec (.faceSub n w mm) s = .next t
        ∧ Safety.FaceResult s' t n w (bfxSub (vA x w) (vB x w)))
    ∧ (Safety.FaceAt s s' n 0x12 w → ∃ t, exec (.faceMul n w mm) s = .next t
        ∧ Safety.FaceResult s' t n w (bfxMul (vA x w) (vB x w)))
    ∧ (Safety.FaceAt s s' n 0x13 w → ∃ t, exec (.faceMad n w mm) s = .next t
        ∧ Safety.FaceResult s' t n w (bfxMad (vA x w) (vB x w) (vC x w)))
    ∧ (Safety.FaceAt s s' n 0x14 w → ∃ t, exec (.faceMax n w mm) s = .next t
        ∧ Safety.FaceResult s' t n w (bfxMax (vA x w) (vB x w)))
    ∧ (Safety.FaceAt s s' n 0x15 w → ∃ t, exec (.faceMin n w mm) s = .next t
        ∧ Safety.FaceResult s' t n w (bfxMin (vA x w) (vB x w)))
    ∧ (Safety.FaceAt s s' n 0x18 w → ∃ t, exec (.faceIns n w mm) s = .next t
        ∧ Safety.FaceResult s' t n w (bfxIns (fImm w) (vD x w) (vA x w)))
    ∧ (Safety.FaceAt s s' n 0x31 w → ∃ t, exec (.faceEadd n w mm) s = .next t
        ∧ Safety.FaceResult s' t n w (bfxEadd (sext 32 (fImm w)) (vA x w)))
    ∧ (Safety.FaceAt s s' n 0x32 w → ∃ t, exec (.faceNorm n w mm) s = .next t
        ∧ Safety.FaceResult s' t n w (bfxNorm (fImm w) (vA x w)))
    ∧ (Safety.FaceAt s s' n 0x34 w → ∃ t, exec (.faceRmax n w mm) s = .next t
        ∧ Safety.FaceResult s' t n w (bfxRmax (vA x w)))
    ∧ (Safety.FaceAt s s' n 0x35 w → ∃ t, exec (.faceRsum n w mm) s = .next t
        ∧ Safety.FaceResult s' t n w (bfxRsum (fImm w) (vA x w)))
    ∧ (Safety.FaceAt s s' n 0x36 w → ∃ t, exec (.faceDot n w mm) s = .next t
        ∧ Safety.FaceResult s' t n w (bfxDot (fImm w) (fNx w) (vA x w) (vB x w)))
    ∧ (Safety.FaceAt s s' n 0x40 w → ∃ t, exec (.faceFn n w mm) s = .next t
        ∧ Safety.FaceResult s' t n w (bfxFn (fSub w) (vA x w)))

/-- Row moves, index registers and ends of the face units (R195 to R199). -/
def Obligations.FaceMoves : Prop :=
  (∀ (s s₁ s' : State) (n mm : Nat) (w : InstrWord) (bs : List (List Byte)) (ps : List (Nat × Nat)),
      mm ≤ 1 → s'.chr.residueEn = true → (s.face n).strokes = [] → Safety.FaceAt s s₁ n 0x08 w →
      ldParts (fSub w) (ldPlace (s₁.face n) w).1 (ldPlace (s₁.face n) w).2 = some ps → bufReads n ps s₁ = (s', some bs) →
      ∃ t, exec (.faceLdr n w mm) s = .next t
        ∧ Safety.FaceResult s' t n w (normRes (bits 21 18 (fImm w)) (ldRow (fSub w) bs)))
  ∧ (∀ (s s₁ s1 s2 : State) (n mm : Nat) (w : InstrWord) (e : List Byte) (ms : List Int),
      mm ≤ 1 → s2.chr.residueEn = true → (s.face n).strokes = [] → Safety.FaceAt s s₁ n 0x0A w →
      fImm w + 129 ≤ 1024 → localRead (.buf n) (64 * (fImm w + 128)) 1 s₁ = (s1, some e) →
      biasLanes n (fImm w) ((List.range 32).map (biasIndex (xget (s1.face n) (fXs w)))) s1 = (s2, some ms) →
      ∃ t, exec (.faceLdb n w mm) s = .next t ∧ Safety.FaceResult s2 t n w { row := { e := leNat e, m := ms } })
  ∧ (∀ (s s₁ s' : State) (n : Nat) (w : InstrWord) (ps : List (Nat × Nat)),
      (s.face n).strokes = [] → Safety.FaceAt s s₁ n 0x09 w →
      ldParts (fSub w) (ldPlace (s₁.face n) w).1 (ldPlace (s₁.face n) w).2 = some ps →
      let b := stBytes (fSub w) (vA (s₁.face n) w)
      let parts := List.zip (ps.map (·.1)) b.1
      bufWrites n parts s₁ = (s', true) →
      ∃ t, exec (.faceStr n w) s = .next t ∧ t.bufMem = s'.bufMem
        ∧ (t.face n).rows = (s'.face n).rows ∧ (t.face n).xs = (s'.face n).xs
        ∧ (t.face n).sat = ((s'.face n).sat || b.2) ∧ (t.face n).pc = ((s'.face n).pc + 1) % 256)
  ∧ (∀ (s₀ s : State) (n : Nat) (w : InstrWord), (s₀.face n).strokes = [] → Safety.FaceAt s₀ s n 0x50 w → fXs w ≠ 0 →
      ∃ t, exec (.faceXadd n w) s₀ = .next t
        ∧ (t.face n).xs = Tbl.put (s.face n).xs (fXs w) (sext 32 (tc 32 (xget (s.face n) (fXs w) + sext 32 (fImm w))))
        ∧ (t.face n).rows = (s.face n).rows ∧ (t.face n).pc = ((s.face n).pc + 1) % 256)
  ∧ (∀ (s₀ s : State) (n : Nat) (w : InstrWord), (s₀.face n).strokes = [] → Safety.FaceAt s₀ s n 0x50 w → fXs w = 0 →
      exec (.faceXadd n w) s₀ = .next (s.setFace n { s.face n with pc := ((s.face n).pc + 1) % 256 }))
  ∧ (∀ (s₀ s : State) (n : Nat) (w : InstrWord), (s₀.face n).strokes = [] → Safety.FaceAt s₀ s n 0x51 w →
      let v := sext 32 (tc 32 (xget (s.face n) (fXs w) - 1))
      ∃ t, exec (.faceLoop n w) s₀ = .next t
        ∧ (t.face n).pc = (if v = 0 then ((s.face n).pc + 1) % 256 else fImm w)
        ∧ (fXs w ≠ 0 → xget (t.face n) (fXs w) = sext 32 (tc 32 v)) ∧ (t.face n).rows = (s.face n).rows)
  ∧ (∀ (s₀ s : State) (n : Nat) (w : InstrWord), (s₀.face n).strokes = [] → Safety.FaceAt s₀ s n 0x7F w →
      ∃ t, exec (.faceEnd n w) s₀ = .next t ∧ (t.face n).ended = some .ok ∧ (t.face n).strokes = []
        ∧ (t.face n).rows = (s.face n).rows ∧ t.bufMem = s.bufMem ∧ t.seamMem = s.seamMem)
  ∧ (∀ (s₀ s : State) (n op mm : Nat) (w : InstrWord) (g : Face → RowRes), (s₀.face n).strokes = [] →
      Safety.FaceAt s₀ s n op w → 2 ≤ mm + faceLaneFaults (s.face n) w → s.chr.residueEn = true →
      faceArith n op w mm g s₀ = .next (faceFence n .unitFault (s.setFace n { s.face n with faultOp := op })))

/-- Launches, strokes and completions of the face units (R186 to R193, R200 to R207). -/
def Obligations.FacePrograms : Prop :=
  (∀ (s : State) (r : Requester) (n : Nat) (v : Word), reachesRegs r = true → faceHere s n = true →
      faceOwner s r = true → (s.face n).state ≠ 3 →
      (∀ f, r = .host f → writesOpen s f = false ∧ s.launchWait.any (fun w => w.1 == f) = false) →
      let st := Tbl.put (s.face n).staged 7 v
      let l : FLaunch := { words := (List.range 8).map (fun k => Tbl.look 0 st k), req := none }
      ((s.face n).queue.length < 4 → exec (.faceLaunchEnqueue r n v) s
        = .next (s.setFace n { s.face n with staged := st, queue := (s.face n).queue ++ [l] }))
      ∧ (4 ≤ (s.face n).queue.length → exec (.faceLaunchEnqueue r n v) s
        = .next (s.setFace n { s.face n with staged := st, dropped := true })))
  ∧ (∀ (s : State) (f n : Nat) (v : Word), faceHere s n = true → faceOwner s (.host f) = true →
      (writesOpen s f = true ∨ s.launchWait.any (fun w => w.1 == f) = true) →
      let st := Tbl.put (s.face n).staged 7 v
      let l : FLaunch := { words := (List.range 8).map (fun k => Tbl.look 0 st k), req := none }
      exec (.faceLaunchEnqueue (.host f) n v) s
        = .next { (s.setFace n { s.face n with staged := st }) with launchWait := s.launchWait ++ [(f, n, l)] })
  ∧ (∀ (s : State) (n : Nat) (l : FLaunch) (rest : List FLaunch), faceRuns s n = true → (s.face n).state = 0 →
      (s.face n).queue = l :: rest →
      let p := fWord l 1
      let len := 8 * (bits 7 0 (fWord l 0) + 1)
      bits 15 8 (fWord l 0) = 0 → bits 31 29 p = 0 → p % 64 = 0 → fWord l 2 % 64 = 0 →
      (fArr l = 0 ∨ faceArrGood s (fArr l) = true) → faceDenies s n p ((len + 63) / 64) = none →
      ∃ t, exec (.faceFetch n) s = .next t ∧ (t.face n).state = 1 ∧ (t.face n).cur = some l ∧ (t.face n).queue = rest
        ∧ (t.face n).pc = 0 ∧ (t.face n).ended = none ∧ xget (t.face n) 1 = sext 32 (fWord l 2)
        ∧ xget (t.face n) 4 = sext 32 (fWord l 5) ∧ xget (t.face n) 7 = 0
        ∧ (t.face n).strokes.map (fun k => (k.op, k.line, k.lines, k.buf))
            = (spans 4096 3 p (64 * ((len + 63) / 64))).map (fun q => (0, q.1 / 64, q.2 / 64, (q.1 - p) / 64)))
  ∧ (∀ (s : State) (n : Nat) (l : FLaunch) (rest : List FLaunch), faceRuns s n = true → (s.face n).state = 0 →
      (s.face n).queue = l :: rest →
      (bits 15 8 (fWord l 0) ≠ 0 ∨ bits 31 29 (fWord l 1) ≠ 0 ∨ fWord l 1 % 64 ≠ 0 ∨ fWord l 2 % 64 ≠ 0
        ∨ fArr l ≠ 0 ∧ faceArrGood s (fArr l) = false) →
      ∃ t, exec (.faceFetch n) s = .next t ∧ (t.face n).ended = some .badDescriptor ∧ (t.face n).strokes = [])
  ∧ (∀ (s : State) (n : Nat), faceRuns s n = true → (s.face n).state = 1 → (s.face n).ended = none →
      (s.face n).strokes = [] → exec (.faceFetchDone n) s = .next (s.setFace n { s.face n with state := 2 }))
  ∧ (∀ (s₀ s : State) (n b l : Nat) (w : InstrWord), (s₀.face n).strokes.length < 2 →
      let k := bits 14 10 (fImm w) + 1
      (Safety.FaceAt s₀ s n 0x01 w → strokeCheck s n w k = .good b l →
        ∃ t, exec (.faceSld n w) s₀ = .next t ∧ (t.face n).pc = ((s.face n).pc + 1) % 256
          ∧ (t.face n).strokes = (s.face n).strokes ++ [{ op := 1, line := l, buf := b, lines := k, at_ := s.now }]
          ∧ (t.face n).rows = (s.face n).rows ∧ t.bufMem = s.bufMem ∧ t.seamMem = s.seamMem)
      ∧ (Safety.FaceAt s₀ s n 0x02 w → strokeCheck s n w k = .good b l →
        ∃ t, exec (.faceSst n w) s₀ = .next t ∧ (t.face n).pc = ((s.face n).pc + 1) % 256
          ∧ (t.face n).strokes = (s.face n).strokes ++ [{ op := 2, line := l, buf := b, lines := k, at_ := s.now }]
          ∧ (t.face n).rows = (s.face n).rows ∧ t.bufMem = s.bufMem ∧ t.seamMem = s.seamMem)
      ∧ (Safety.FaceAt s₀ s n 0x03 w → s.faceShare ≠ 0 → strokeCheck s n w 1 = .good b l →
        ∃ t, exec (.faceSnw n w) s₀ = .next t ∧ (t.face n).pc = ((s.face n).pc + 1) % 256
          ∧ (t.face n).strokes = (s.face n).strokes
              ++ [{ op := 3, line := l, buf := b, lines := 1, p := fP w, q := fQ w, at_ := s.now }]
          ∧ (t.face n).rows = (s.face n).rows ∧ t.bufMem = s.bufMem ∧ t.seamMem = s.seamMem))
  ∧ (∀ (s s' : State) (n : Nat) (k : Stroke) (rest : List Stroke) (bs : List Byte), faceHere s n = true →
      (s.face n).strokes = k :: rest → k.granted = true →
      (k.op = 0 → seamLines n k.line k.lines s = (s', some bs) →
        let f := s'.face n
        ∃ t, exec (.strokeEnd n) s = .next (serveHeld t) ∧ (t.face n).strokes = (s'.face n).strokes.drop 1
          ∧ (t.face n).prog = f.prog.take (8 * k.buf) ++ dwords bs ++ f.prog.drop (8 * k.buf + (dwords bs).length)
          ∧ t.bufMem = s'.bufMem ∧ t.seamMem = s'.seamMem)
      ∧ (k.op = 1 → seamLines n k.line k.lines s = (s', some bs) →
        ∃ t, exec (.strokeEnd n) s = .next (serveHeld t) ∧ (t.face n).strokes = (s'.face n).strokes.drop 1
          ∧ t.bufMem = s'.bufMem.write (0x10000 * n + 64 * k.buf) (bs.take (64 * k.lines)))
      ∧ (k.op = 2 → localRead (.buf n) (64 * k.buf) (64 * k.lines) s = (s', some bs) →
        ((s'.face n).tainted = false → exec (.strokeEnd n) s = .next (serveHeld (popStroke n (putLines n k.line bs k.lines s'))))
        ∧ ((s'.face n).tainted = true → ∃ d, d.length = bs.length
          ∧ exec (.strokeEnd n) s = .next (serveHeld (popStroke n (putLines n k.line d k.lines { s' with free := s'.free + bs.length })))))
      ∧ (k.op = 3 → exec (.strokeEnd n) s = .next (serveHeld (if k.merged then popStroke n s else s))))
  ∧ (∀ (s : State) (n : Nat) (l : FLaunch) (st : Status), faceRuns s n = true → (s.face n).state = 1 ∨ (s.face n).state = 2 →
      (s.face n).strokes = [] → (s.face n).cur = some l → (s.face n).ended = some st →
      exec (.faceProgramComplete n) s
        = .next (faceDone n l st (s.setFace n { s.face n with
            state := 0, cur := none, ended := none, foreign := if (s.face n).queue = [] then [] else (s.face n).foreign })))
  ∧ (∀ (s : State) (n : Nat), faceRuns s n = true → (s.face n).state = 1 ∨ (s.face n).state = 2 → (s.face n).ended = none →
      (s.face n).limit ≠ 0 → (s.seam n).selfRefresh = false →
      (s.face n).startAt + (s.face n).pausedNs + 1000 * (s.face n).limit ≤ s.now →
      exec (.faceTimeLimit n) s = .next (s.setFace n { s.face n with ended := some .timeout }))

/-- Slots, pins, limbo and completions of the vein-index engine (R211, R212, R226 to R232). -/
def Obligations.VeinSlots : Prop :=
  (∀ (s s' : State) (p : Nat) (ws : List Word) (req : Option Nat) (bs : List Byte), Safety.VeinAt s p 0x01 ws req →
      vdpa ws 2 % 64 = 0 → (s.slot (vSlot ws)).st = 0 → vRead p (vdpa ws 2) 8 s = (s', .ok bs) →
      s'.waited = false →
      exec (.slotOpen p ws) s = .next (veinDone p .ok (0, 0, 0) (putSlot (vSlot ws)
        { st := 1, fn := bits 19 16 (vw ws 1), length := 0, map := vdpa ws 2, tail := BitVec.ofNat 64 (leNat bs), pin := 0 } s')))
  ∧ (∀ (s : State) (p : Nat) (ws : List Word) (req : Option Nat), Safety.VeinAt s p 0x01 ws req →
      vdpa ws 2 % 64 = 0 → (s.slot (vSlot ws)).st ≠ 0 → s.waited = false →
      exec (.slotOpen p ws) s = .next (veinDone p .denied (0, 0, 0) s))
  ∧ (∀ (s s1 s2 : State) (p k : Nat) (ws : List Word) (req : Option Nat) (ids : List Nat), Safety.VeinAt s p 0x02 ws req →
      (s.slot (vSlot ws)).st = 1 → (s.vport p).applied = 0 →
      mapIds p (s.slot (vSlot ws)).map (putSlot (vSlot ws) { s.slot (vSlot ws) with st := 2, pin := 0 } s) = (s1, .ok ids) →
      pageList pageUnref ids 0 s1 = (s2, .ok k) → s2.waited = false →
      exec (.slotClose p ws) s
        = .next (veinDone p .ok (0, k, 0) (putSlot (vSlot ws) { s2.slot (vSlot ws) with st := 0 } s2)))
  ∧ (∀ (s : State) (p : Nat) (ws : List Word) (req : Option Nat),
      let n := vSlot ws
      let x := s.slot n
      x.st = 1 → s.waited = false →
      (Safety.VeinAt s p 0x03 ws req → exec (.veinPin p ws) s
        = .next (veinDone p .ok (0, 0, s.vein.epoch) (putSlot n { x with pin := s.vein.epoch } s)))
      ∧ (Safety.VeinAt s p 0x04 ws req → exec (.veinUnpin p ws) s
        = .next (veinDone p .ok (0, 0, 0) (putSlot n { x with pin := 0 } s)))
      ∧ (Safety.VeinAt s p 0x05 ws req → exec (.slotTail p ws) s
        = .next (veinDone p .ok (0, 0, 0) (putSlot n { x with length := vw ws 2, tail := BitVec.ofNat 64 (vdpa ws 4) } s))))
  ∧ (∀ (s : State) (p : Nat) (ws : List Word) (req : Option Nat), (s.slot (vSlot ws)).st ≠ 1 → s.waited = false →
      (Safety.VeinAt s p 0x03 ws req → exec (.veinPin p ws) s = .next (veinDone p .denied (0, 0, 0) s))
      ∧ (Safety.VeinAt s p 0x04 ws req → exec (.veinUnpin p ws) s = .next (veinDone p .denied (0, 0, 0) s))
      ∧ (Safety.VeinAt s p 0x05 ws req → exec (.slotTail p ws) s = .next (veinDone p .denied (0, 0, 0) s)))
  ∧ (∀ (s : State) (p : Nat) (ws : List Word) (rest : List (List Word × Option Nat)) (st : Status) (r : VDone),
      (s.vport p).queue = (ws, none) :: rest →
      let x := s.vport p
      ((veinDone p st r s).vport p).tail = (x.tail + 1) % 64
      ∧ veinDone p st r s
          = (let t := postWrite (.vein p) (x.cplBase + 16 * x.tail)
                (leBytes 2 (bits 31 16 (vw ws 0)) ++ leBytes 1 (st.code + 16 * r.1) ++ leBytes 1 (bits 7 0 (vw ws 0))
                  ++ leBytes 4 r.2.1 ++ leBytes 8 r.2.2)
                (s.setVport p { x with queue := rest, waitFrom := none, applied := 0, drops := [], result := none })
             t.setVport p { t.vport p with tail := (x.tail + 1) % 64 }))
  ∧ (∀ (s : State) (i id e : Nat), s.vein.limbo[i]? = some (id, e) →
      (∀ q ∈ s.slots, q.2.pin = 0 ∨ e < q.2.pin) →
      ∃ t, exec (.limboReclaim i) s = .next t ∧ t.vein.limbo = listDel s.vein.limbo i ∧ (t.page id).dying = false
        ∧ (t.page id).count = (s.page id).count ∧ t.vein.epoch = s.vein.epoch)
  ∧ (∀ (s : State) (p t0 : Nat), (s.vport p).waitFrom = some t0 → 65536 ≤ s.vein.limbo.length → t0 + 10000000 ≤ s.now →
      exec (.limboFullTimeout p) s = .next (veinDone p .timeout (0, (s.vport p).applied, 0) s))

/-- The vein table's commands (R220 to R225). -/
def Obligations.VeinTable : Prop :=
  (∀ (s s1 : State) (p : Nat) (ws : List Word) (req : Option Nat) (t : List Byte), Safety.BlockAt s s1 p ws t →
      let h := crc64 (leBytes 8 (vdpa ws 2) ++ t)
      (Safety.VeinAt s p 0x08 ws req → s1.waited = false → exec (.veinHash p ws) s = .next (veinDone p .ok (0, 0, h) s1))
      ∧ (∀ s2, Safety.VeinAt s p 0x09 ws req → findAny p h t (vTables s1) s1 = (s2, .ok none) → s2.waited = false →
          exec (.veinLookup p ws) s = .next (veinDone p .ok (0, 0, 0) s2))
      ∧ (∀ s2 s3 a e, Safety.VeinAt s p 0x09 ws req → findAny p h t (vTables s1) s1 = (s2, .ok (some (a, e))) →
          vWrite p a (entBytes { e with hit := s2.tclk.toNat }) s2 = (s3, .ok ()) → s3.waited = false →
          exec (.veinLookup p ws) s = .next (veinDone p .ok (1, 0, e.record) s3))
      ∧ (∀ s2 q, Safety.VeinAt s p 0x0A ws req → vdpa ws 6 % 64 = 0 →
          findAny p h t (vTables s1) s1 = (s2, .ok (some q)) → s2.waited = false →
          exec (.veinInsert p ws) s = .next (veinDone p .ok (2, 0, h) s2))
      ∧ (∀ s2 s3 s4 s5 ids k ev, Safety.VeinAt s p 0x0A ws req → vdpa ws 6 % 64 = 0 →
          findAny p h t (vTables s1) s1 = (s2, .ok none) → recordPages p (vdpa ws 6) s2 = (s3, .ok ids) →
          pageList pageRef ids 0 s3 = (s4, .ok k) →
          putEntry p (if s3.vein.migrating then newTable s3 else oldTable s3)
            { hash := h, record := vdpa ws 6, valid := true, hit := s3.tclk.toNat } s4 = (s5, .ok ev) →
          s5.waited = false →
          exec (.veinInsert p ws) s = .next (match ev with
            | none => veinDone p .ok (0, 0, h) s5
            | some old => veinDrop p old (0, 0, h)
                { s5 with vein := { s5.vein with evict := satInc 0xFFFF s5.vein.evict } }))
      ∧ (∀ s2, Safety.VeinAt s p 0x0B ws req → findAll p h t (vTables s1) s1 = (s2, .ok []) → s2.waited = false →
          exec (.veinRemove p ws) s = .next (veinDone p .ok (0, 0, 0) s2))
      ∧ (∀ s2 s3 s4 a e more ids, Safety.VeinAt s p 0x0B ws req →
          findAll p h t (vTables s1) s1 = (s2, .ok ((a, e) :: more)) → recordPages p e.record s2 = (s3, .ok ids) →
          clearEntries p ((a, e) :: more) s3 = (s4, .ok ()) → s4.waited = false →
          exec (.veinRemove p ws) s = .next (veinDrop p ids (1, 0, 0) s4)))
  ∧ (∀ (s : State) (p : Nat) (ws : List Word) (req : Option Nat) (st : Status), s.waited = false →
      (vdpa ws 4 % 64 ≠ 0 ∧ st = .badDescriptor ∨ vdpa ws 4 % 64 = 0 ∧ hashUnit s = none ∧ st = .unitDead) →
      (Safety.VeinAt s p 0x08 ws req → exec (.veinHash p ws) s = .next (veinDone p st (0, 0, 0) s))
      ∧ (Safety.VeinAt s p 0x09 ws req → exec (.veinLookup p ws) s = .next (veinDone p st (0, 0, 0) s))
      ∧ (Safety.VeinAt s p 0x0A ws req → vdpa ws 6 % 64 = 0 → exec (.veinInsert p ws) s = .next (veinDone p st (0, 0, 0) s))
      ∧ (Safety.VeinAt s p 0x0B ws req → exec (.veinRemove p ws) s = .next (veinDone p st (0, 0, 0) s)))
  ∧ (∀ (s : State) (p : Nat) (ids : List Nat) (r : VDone),
      ((dropRefs ids s).2 = [] → veinDrop p ids r s = veinDone p .ok r (dropRefs ids s).1)
      ∧ ((dropRefs ids s).2 ≠ [] →
          ((veinDrop p ids r s).vport p).drops = (dropRefs ids s).2 ∧ ((veinDrop p ids r s).vport p).result = some r
          ∧ ((veinDrop p ids r s).vport p).queue = ((dropRefs ids s).1.vport p).queue))
  ∧ (∀ (s : State) (p : Nat) (ws : List Word) (rest : List (List Word × Option Nat)) (req : Option Nat) (r : VDone), p < 9 →
      (s.vport p).queue = (ws, req) :: rest → vGood ws = true → ringFull (s.vport p) = false → s.thm.stopped = false →
      (s.vport p).result = some r → s.waited = false →
      (bits 7 0 (vw ws 0) = 0x0A → exec (.veinInsert p ws) s = .next (veinDrop p (s.vport p).drops r s))
      ∧ (bits 7 0 (vw ws 0) = 0x0B → exec (.veinRemove p ws) s = .next (veinDrop p (s.vport p).drops r s)))
  ∧ (∀ (s : State) (p : Nat) (ws : List Word) (req : Option Nat), Safety.VeinAt s p 0x18 ws req → s.waited = false →
      exec (.veinMigrate p ws) s = .next (
        if tableGoodAt s (vw ws 1) (vdpa ws 4) = false then veinDone p .badDescriptor (0, 0, 0) s
        else if s.vein.migrating = true then veinDone p .denied (0, 0, 0) s
        else veinDone p .ok (0, 0, 0) { s with vein := { s.vein with
          migrating := true, pointer := 0, newLog2 := vw ws 1, newSeed := BitVec.ofNat 64 (vdpa ws 2), newTable := vdpa ws 4 } }))
  ∧ (∀ (s s1 s2 : State) (bs : List Byte), s.vein.migrating = true → s.thm.stopped = false →
      vRead 8 (s.vein.table + 256 * s.vein.pointer) 256 s = (s1, .ok bs) →
      moveWays (newTable s1) bs (List.range 8) s1 = some s2 → s2.waited = false →
      ∃ t, exec .migrateBucket s = .next t
        ∧ (2 ^ (s2.vein.log2 - 3) ≤ s2.vein.pointer + 1 →
            t.vein.migrating = false ∧ oldTable t = newTable s2)
        ∧ (s2.vein.pointer + 1 < 2 ^ (s2.vein.log2 - 3) →
            t.vein.pointer = s2.vein.pointer + 1 ∧ t.vein.migrating = s2.vein.migrating ∧ oldTable t = oldTable s2))

/-- Pages and references (R215, R216, R228, R230). -/
def Obligations.VeinPages : Prop :=
  (∀ (s : State) (p : Nat) (ws : List Word) (req : Option Nat), Safety.VeinAt s p 0x10 ws req → bit 0 (vw ws 2) = false →
      pageBad s (vw ws 1) = false → s.waited = false →
      (pageFree s (vw ws 1) = true → exec (.pageAlloc p ws) s
        = .next (veinDone p .ok (0, 1, vw ws 1) (s.setPage (vw ws 1) { count := 1, dying := false })))
      ∧ (pageFree s (vw ws 1) = false → exec (.pageAlloc p ws) s = .next (veinDone p .denied (0, 0, 0) s)))
  ∧ (∀ (s : State) (p q0 : Nat) (ws : List Word) (req : Option Nat), Safety.VeinAt s p 0x10 ws req → bit 0 (vw ws 2) = true →
      bits 31 25 (vw ws 1) = 0 → s.seamPresent (pageSeam (vw ws 1)) = true →
      q0 ∈ seamPages s (pageSeam (vw ws 1)) → pageFree s q0 = true → s.waited = false →
      ∃ q, q ∈ seamPages s (pageSeam (vw ws 1)) ∧ pageFree s q = true
        ∧ exec (.pageAlloc p ws) s = .next (veinDone p .ok (0, 1, q)
            ({ s with free := s.free + 1 }.setPage q { count := 1, dying := false })))
  ∧ (∀ (s s1 s2 : State) (p k : Nat) (ws : List Word) (req : Option Nat) (ids : List Nat),
      listOperand p ws s = (s1, .ok ids) → s2.waited = false →
      (Safety.VeinAt s p 0x11 ws req →
        pageList pageRef (ids.drop (s.vport p).applied) (s.vport p).applied s1 = (s2, .ok k) →
        exec (.pageRef p ws) s = .next (veinDone p .ok (0, k, 0) s2))
      ∧ (Safety.VeinAt s p 0x12 ws req →
        pageList pageUnref (ids.drop (s.vport p).applied) (s.vport p).applied s1 = (s2, .ok k) →
        exec (.pageUnref p ws) s = .next (veinDone p .ok (0, k, 0) s2)))
  ∧ (∀ (s s1 : State) (p : Nat) (ws : List Word) (req : Option Nat) (bs : List Byte), Safety.VeinAt s p 0x13 ws req →
      vdpa ws 4 % 4 = 0 → (vw ws 1 = noPage ∨ pageBad s (vw ws 1) = false) →
      (vw ws 2 = noPage ∨ pageBad s (vw ws 2) = false) → vRead p (vdpa ws 4) 4 s = (s1, .ok bs) →
      (leNat bs ≠ vw ws 1 → s1.waited = false → exec (.mapSwap p ws) s = .next (veinDone p .ok (4, 0, 0) s1))
      ∧ (∀ s2 s3, leNat bs = vw ws 1 → pageUnref (vw ws 1) s1 = (s2, .ok ()) →
          vWrite p (vdpa ws 4) (leBytes 4 (vw ws 2)) s2 = (s3, .ok ()) → s3.waited = false →
          exec (.mapSwap p ws) s = .next (veinDone p .ok (0, 0, 0) s3)))
  ∧ (∀ (s : State) (id : Nat), id ≠ noPage → pageBad s id = false →
      ((s.page id).count < 65535 → ∃ t, pageRef id s = (t, .ok ()) ∧ (t.page id).count = (s.page id).count + 1
        ∧ (t.page id).dying = false ∧ (∀ e ∈ t.vein.limbo, e.1 ≠ id) ∧ t.vein.epoch = s.vein.epoch)
      ∧ (1 < (s.page id).count → ∃ t, pageUnref id s = (t, .ok ()) ∧ (t.page id).count = (s.page id).count - 1
        ∧ t.vein = s.vein)
      ∧ ((s.page id).count = 1 → s.vein.limbo.length < 65536 → ∃ t, pageUnref id s = (t, .ok ()) ∧ (t.page id).count = 0
        ∧ (t.page id).dying = true ∧ t.vein.limbo = s.vein.limbo ++ [(id, s.vein.epoch)]
        ∧ t.vein.epoch = (s.vein.epoch + 1) % 2 ^ 64)
      ∧ (∀ k, k ≠ id → ((pageRef id s).1.page k = s.page k ∧ (pageUnref id s).1.page k = s.page k)))

/-- The Mill's arithmetic (R259 to R262). -/
def Obligations.MillArith : Prop :=
  (∀ (s₀ s : State) (e mm : Nat) (w : Word) (sh : Shard) (b : Block), mm ≤ 1 → s.chr.residueEn = true →
    (Safety.MillAt s₀ s e 0x01 w sh b → ∃ t, exec (.millAdd e w mm) s₀ = .next t
        ∧ Safety.MillResult s t e w (lanes2 fpAdd w (s.eng e)))
    ∧ (Safety.MillAt s₀ s e 0x02 w sh b → ∃ t, exec (.millSub e w mm) s₀ = .next t
        ∧ Safety.MillResult s t e w (lanes2 fpSub w (s.eng e)))
    ∧ (Safety.MillAt s₀ s e 0x03 w sh b → ∃ t, exec (.millMul e w mm) s₀ = .next t
        ∧ Safety.MillResult s t e w (lanes2 fpMul w (s.eng e)))
    ∧ (Safety.MillAt s₀ s e 0x04 w sh b → ∃ t, exec (.millFma e w mm) s₀ = .next t
        ∧ Safety.MillResult s t e w (lanes3 fpFma w (s.eng e)))
    ∧ (Safety.MillAt s₀ s e 0x05 w sh b → ∃ t, exec (.millMin e w mm) s₀ = .next t
        ∧ Safety.MillResult s t e w (lanes2 fpMin w (s.eng e)))
    ∧ (Safety.MillAt s₀ s e 0x06 w sh b → ∃ t, exec (.millMax e w mm) s₀ = .next t
        ∧ Safety.MillResult s t e w (lanes2 fpMax w (s.eng e)))
    ∧ (Safety.MillAt s₀ s e 0x07 w sh b → ∃ t, exec (.millCmp e w mm) s₀ = .next t
        ∧ Safety.MillResult s t e w (lanes2 (fpCmp (mSub w)) w (s.eng e)))
    ∧ (Safety.MillAt s₀ s e 0x08 w sh b → ∃ t, exec (.millSel e w mm) s₀ = .next t
        ∧ Safety.MillResult s t e w (lanes3 fpSel w (s.eng e)))
    ∧ (Safety.MillAt s₀ s e 0x09 w sh b → ∃ t, exec (.millRsqrt e w mm) s₀ = .next t
        ∧ Safety.MillResult s t e w ((freg (s.eng e) (mFa w)).map fpRsqrt))
    ∧ (Safety.MillAt s₀ s e 0x0A w sh b → ∃ t, exec (.millRecip e w mm) s₀ = .next t
        ∧ Safety.MillResult s t e w ((freg (s.eng e) (mFa w)).map fpRecip)))
  ∧ (∀ (s₀ s : State) (e op mm : Nat) (w : Word) (sh : Shard) (b : Block) (g : Eng → List Word), 2 ≤ mm → s.chr.residueEn = true →
      Safety.MillAt s₀ s e op w sh b →
      millArith e op w mm g s₀ = .next (millFence e (s.setEng e { s.eng e with faultOp := op })))

/-- The course of a block (R244 to R247, R251, R256, R261, R263, R266). -/
def Obligations.MillBlocks : Prop :=
  (∀ (s s1 s2 : State) (e b : Nat) (sh : Shard) (j : List Byte), millRuns s e = true → (s.eng e).cur = some sh →
      inFlight (s.eng e) < 16 → sh.seen.length < shBlocks sh → orderRead e sh s = (s1, b, .ok) → b < shBlocks sh →
      b ∉ sh.seen → mRead e (hdpa sh 10 + 64 * b) 64 s1 = (s2, j, .ok) →
      let n := shStep sh - 1
      let mtag := leAt j 0 4
      let wtag := leAt j 4 4
      let sh' := { sh with seen := sh.seen ++ [b] }
      let blk : Block := { index := b, pos := sh.seen.length, mbank := bits 0 0 (leAt j 8 1), wbank := bits 1 1 (leAt j 8 1)
                           mtag := mtag, wtag := wtag, sumsq := BitVec.ofNat 32 (leAt j 12 4) }
      let set := s2.setEng e { s2.eng e with cur := some sh' }
      (∀ cls s3 s4 s5 s6 m v w,
        (mtag = n ∧ wtag = n ∧ shMode sh = 1 ∧ cls = 0 ∧ s3 = set
          ∨ n ≠ shStep sh ∧ mtag = shStep sh ∧ wtag = n ∧ cls = 1 ∧ s3 = dropLanded e sh.id b set) →
        mRead e (bankDpa sh 4 blk.mbank b) 0x4000 s3 = (s4, m, .ok) →
        mRead e (bankDpa sh 6 blk.mbank b) 0x4000 s4 = (s5, v, .ok) →
        mRead e (bankDpa sh 8 blk.wbank b) 0x4000 s5 = (s6, w, .ok) → s6.waited = false →
        exec (.blockClassify e) s = .next (advance e (freshLines e (stageLine blk) 768 (s6.setEng e { s6.eng e with
          ahead := (s6.eng e).ahead ++ [{ blk with cls := cls, m := blockWords m, v := blockWords v, w := blockWords w }] }))))
      ∧ (mtag = n → wtag = n → shMode sh ≠ 1 → s2.waited = false → ∃ t, exec (.blockClassify e) s = .next t
          ∧ (t.eng e).block = (s2.eng e).block ∧ (t.eng e).ahead = (s2.eng e).ahead
          ∧ (t.eng e).cur = some { sh' with left := sh.left + 1, pos := listPos (s2.eng e) sh' })
      ∧ (n ≠ shStep sh → mtag = shStep sh → wtag = shStep sh → s2.waited = false → ∃ t, exec (.blockClassify e) s = .next t
          ∧ (t.eng e).block = (s2.eng e).block ∧ (t.eng e).ahead = (s2.eng e).ahead
          ∧ (t.eng e).landed = (s2.eng e).landed.filter (fun l => !(l.1 == sh.id && l.2.1 / 256 == b))
          ∧ (t.eng e).cur = some { sh' with doneBefore := sh.doneBefore + 1, pos := listPos (s2.eng e) sh' })
      ∧ (mtag ≠ n → mtag ≠ shStep sh → s2.waited = false → ∃ t, exec (.blockClassify e) s = .next t
          ∧ (t.eng e).ended = some .denied))
  ∧ (∀ (s : State) (e : Nat) (b : Block) (rest : List Block),
      ((s.eng e).block = some b → ((advance e s).eng e).block = some b ∧ ((advance e s).eng e).ahead = (s.eng e).ahead)
      ∧ ((s.eng e).block = none → (s.eng e).ahead = b :: rest → b.cls ≠ 1 →
          ((advance e s).eng e).block = some b ∧ ((advance e s).eng e).ahead = rest)
      ∧ (∀ s1, (s.eng e).block = none → (s.eng e).ahead = b :: rest → b.cls = 1 →
          millDecode e (stageLine b) 768 (s.setEng e { s.eng e with ahead := rest, block := some b }) = (s1, false) →
          let y := (advance e s).eng e
          y.block = some { b with stage := 2 } ∧ y.phase = 3 ∧ y.pc = weightStart (s.eng e).prog
            ∧ freg y 1 = b.m ∧ freg y 2 = b.v ∧ freg y 3 = b.w))
  ∧ (∀ (s s0 : State) (e : Nat) (sh : Shard) (b : Block) (g : List Word), millRuns s e = true → (s.eng e).cur = some sh →
      (s.eng e).block = some b → b.stage = 0 → gradient (s.eng e) sh.id b.index = some g →
      millDecode e (256 * b.index % 65536) 256 s = (s0, false) →
      let dup := (s0.eng e).dups.contains (sh.id, b.index)
      let large := (numOfWord (BitVec.ofNat 32 (hw sh 20))).lt false (numOfWord (blockSumsq g))
      let s1 := fun (sh : Shard) (b : Block) => s0.setEng e { s0.eng e with
        cur := some sh, block := some b, progressAt := s0.now
        landed := (s0.eng e).landed.filter (fun l => !(l.1 == sh.id && l.2.1 / 256 == b.index)) }
      let sh' := { sh with sumsq := sh.sumsq ++ [blockSumsq g] }
      let b' := { b with sumsq := blockSumsq g }
      (∀ s2, g.any notFinite = false → dup = false → large = false →
        millDecode e (stageLine b) 768 (s1 sh' b') = (s2, false) →
        ∃ t, exec (.blockCompute e) s = .next t ∧ freg (t.eng e) 0 = g ∧ freg (t.eng e) 1 = b.m
          ∧ freg (t.eng e) 2 = b.v ∧ freg (t.eng e) 3 = b.w ∧ (t.eng e).pc = 0 ∧ (t.eng e).phase = 1
          ∧ (t.eng e).block = some { b' with stage := 1 })
      ∧ (g.any notFinite = false → dup = true ∨ large = true →
        exec (.blockCompute e) s = .next (failBlock e sh' b' (s1 sh' b')))
      ∧ (g.any notFinite = true →
        exec (.blockCompute e) s = .next (failBlock e sh { b with sumsq := 0x7FC00000 } (s1 sh { b with sumsq := 0x7FC00000 }))))
  ∧ (∀ (s : State) (e : Nat) (sh : Shard) (b : Block), (s.eng e).ahead = [] →
      ((failBlock e sh b s).eng e).wback = (s.eng e).wback ++ [{ b with stage := 8 }]
      ∧ ((failBlock e sh b s).eng e).block = none ∧ ((failBlock e sh b s).eng e).phase = 0
      ∧ ((toWriteback e b s).eng e).wback = (s.eng e).wback ++ [b] ∧ ((toWriteback e b s).eng e).block = none
      ∧ ((toWriteback e b s).eng e).phase = 0)
  ∧ (∀ (s₀ s : State) (e mm : Nat) (w : Word) (sh : Shard) (b : Block),
      (Safety.MillAt s₀ s e 0x10 w sh b → ∃ t, exec (.millMend e w) s₀ = .next t ∧ freg (t.eng e) 3 = b.w
        ∧ (t.eng e).phase = 2 ∧ (t.eng e).pc = (s.eng e).pc + 1
        ∧ (t.eng e).block = some { b with stage := 2, m := freg (s.eng e) 1, v := freg (s.eng e) 2 }
        ∧ t.stockMem = s.stockMem ∧ t.seamMem = s.seamMem)
      ∧ (Safety.MillAt s₀ s e 0x11 w sh b → mm ≤ 1 → s.chr.residueEn = true → ∃ t, exec (.millQmx e w mm) s₀ = .next t
        ∧ (t.eng e).block = some { b with copy := quantGroups sh b.index (mSub w == 1) (freg (s.eng e) (mFa w)) }
        ∧ (t.eng e).pc = (s.eng e).pc + 1 ∧ (t.eng e).fregs = (s.eng e).fregs
        ∧ t.stockMem = s.stockMem ∧ t.seamMem = s.seamMem)
      ∧ (Safety.MillAt s₀ s e 0x3F w sh b →
        ((b.m ++ b.v ++ freg (s.eng e) 3).any notFinite = false → exec (.millEnd e w) s₀
          = .next (toWriteback e { b with w := freg (s.eng e) 3, stage := if b.cls = 0 then 4 else 6 } s))
        ∧ ((b.m ++ b.v ++ freg (s.eng e) 3).any notFinite = true → exec (.millEnd e w) s₀
          = .next (failBlock e sh { b with w := freg (s.eng e) 3 } s))))
  ∧ (∀ (s s1 s2 : State) (e : Nat) (sh : Shard) (b : Block) (rest : List Block), millRuns s e = true →
      (s.eng e).cur = some sh → (s.eng e).wback = b :: rest → s2.waited = false →
      let t := shStep sh
      let on := fun (b : Block) => s2.setEng e { s2.eng e with wback := b :: (s2.eng e).wback.drop 1 }
      let off := fun (sh : Shard) => s2.setEng e { s2.eng e with wback := (s2.eng e).wback.drop 1, cur := some sh }
      (b.stage = 4 → mWrite e (bankDpa sh 4 (1 - b.mbank) b.index) (wordBytes b.m) s = (s1, .ok) →
        mWrite e (bankDpa sh 6 (1 - b.mbank) b.index) (wordBytes b.v) s1 = (s2, .ok) →
        exec (.blockWritebackDone e) s = .next (on { b with stage := 5 }))
      ∧ (b.stage = 5 → mWrite e (jrnlDpa sh b.index) (jrnlLine t b.wtag (1 - b.mbank) b.wbank false b.sumsq) s = (s2, .ok) →
        exec (.blockWritebackDone e) s = .next (on { b with mtag := t, mbank := 1 - b.mbank, stage := 6 }))
      ∧ (b.stage = 6 → mWrite e (bankDpa sh 8 (1 - b.wbank) b.index) (wordBytes b.w) s = (s1, .ok) →
        (shFmt sh = 0xF ∧ s2 = s1 ∨ shFmt sh ≠ 0xF
          ∧ mWrite e (hdpa sh 14 + b.index * copySize sh) (copyBytes (shBroad sh) b.copy) s1 = (s2, .ok)) →
        exec (.blockWritebackDone e) s = .next (on { b with stage := 7 }))
      ∧ (b.stage = 7 → mWrite e (jrnlDpa sh b.index) (jrnlLine t t b.mbank (1 - b.wbank) false b.sumsq) s = (s2, .ok) →
        exec (.blockWritebackDone e) s = .next (off
          (if b.cls = 0 then { sh with updated := sh.updated + 1 } else { sh with replayed := sh.replayed + 1 })))
      ∧ (b.stage = 8 → mWrite e (jrnlDpa sh b.index) (jrnlLine t t b.mbank b.wbank true b.sumsq) s = (s2, .ok) →
        exec (.blockWritebackDone e) s = .next (off { sh with skipped := sh.skipped + 1 })))

/-- The course of a shard (R248 to R255, R258, R267). -/
def Obligations.MillShards : Prop :=
  (∀ (s : State) (r : Requester) (e : Nat) (v : Word), reachesRegs r = true → millOwner r = true → e < 4 →
      let x := s.eng e
      let st := Tbl.put x.staged 31 v
      let s1 := s.setEng e { x with staged := st, nextId := x.nextId + 1 }
      let sh : Shard := { words := (List.range 32).map (fun k => Tbl.look 0 st k), id := x.nextId, req := none }
      (x.queue.length < 4 → x.state ≠ 2 → shardBad s1 e sh = false → rangesFull s1 e sh = false →
        (stagedMode s e ≠ 2 → ∃ t, exec (.shardUpdate r e v) s = .next t ∧ (t.eng e).queue = x.queue ++ [sh]
          ∧ (shMode sh = 1 → (t.eng e).ranges = x.ranges.filter (fun h => !takesOver (shRange sh x.nextId) h) ++ [shRange sh x.nextId])
          ∧ (shMode sh ≠ 1 → (t.eng e).ranges = x.ranges))
        ∧ (stagedMode s e = 2 → ∃ t, exec (.shardResume r e v) s = .next t ∧ (t.eng e).queue = x.queue ++ [sh]
          ∧ (shMode sh ≠ 1 → (t.eng e).ranges = x.ranges)))
      ∧ (x.queue.length < 4 → x.state ≠ 2 → shardBad s1 e sh = true → stagedMode s e ≠ 2 →
        exec (.shardUpdate r e v) s = .next (shardEnd e sh .badDescriptor s1))
      ∧ (4 ≤ x.queue.length → stagedMode s e ≠ 2 →
        exec (.shardUpdate r e v) s = .next (s.setEng e { x with staged := st, dropped := true })))
  ∧ (∀ (s s1 s2 s3 : State) (e n : Nat) (sh : Shard) (rest : List Shard) (ks h bs : List Byte), e < 4 → (s.eng e).state = 0 →
      s.thm.stopped = false → s.brg.stockReset = false → (s.eng e).queue = sh :: rest →
      mRead e (hdpa sh 18) 64 (s.setEng e { (s.eng e).idle with
        state := 1, cur := some sh, queue := rest, ended := none, progressAt := s.now }) = (s1, ks, .ok) →
      mRead e (hdpa sh 16) 16 s1 = (s2, h, .ok) → progHeader h = some n →
      mRead e (hdpa sh 16 + 16) (4 * n) s2 = (s3, bs, .ok) → s3.waited = false →
      ∃ t, exec (.shardStart e) s = .next t ∧ (t.eng e).prog = wordsOf bs
        ∧ (t.eng e).kregs = (wordsOf ks).mapIdx (fun i k => (i, k))
        ∧ (progGood (shFmt sh) (wordsOf bs) = true → (t.eng e).ended = (s3.eng e).ended)
        ∧ (progGood (shFmt sh) (wordsOf bs) = false → (t.eng e).ended = some .badDescriptor))
  ∧ (∀ (s : State) (r : Requester) (addr e : Nat) (data : List Byte) (g : Range), landingOf s r addr = some (e, g) →
      (addr % 64 = 0 → data.length % 64 = 0 → (writePieces r (pieces addr data.length) data s).1.waited = false →
        exec (.gradientWrite r addr data) s = .next (writePieces r (pieces addr data.length) data s).1)
      ∧ (addr % 64 ≠ 0 ∨ data.length % 64 ≠ 0 → g.armed = true → s.waited = false →
        exec (.gradientWrite r addr data) s = .next (recordDeny r addr true 3 s)))
  ∧ (∀ (s : State) (e : Nat) (h : Nat × Nat × List Byte × Requester) (rest : List (Nat × Nat × List Byte × Requester)), e < 4 →
      (s.eng e).held = h :: rest →
      ((rangeOf (s.eng e) h.1).armed = false ∨ admits s e h.1 (h.2.1 / 256) 0 = true) →
      exec (.landingAdmit e) s
        = .next (entryTaken (landTake e (rangeOf (s.eng e) h.1) h.2.1 h.2.2.1 (s.setEng e { s.eng e with held := rest })) h.2.2.2))
  ∧ (∀ (s : State) (e : Nat), millRuns s e = true → s.millStall ≠ 0 →
      (s.eng e).progressAt + 1000 * s.millStall ≤ s.now →
      exec (.millStall e) s
        = .next (s.setEng e { (s.eng e).idle with ended := some .timeout }))
  ∧ (∀ (s : State) (e : Nat) (sh : Shard), e < 4 → (s.eng e).state = 1 → s.thm.stopped = false → (s.eng e).cur = some sh →
      ((s.eng e).ended.isSome = true ∨ inFlight (s.eng e) = 0 ∧ shBlocks sh ≤ sh.seen.length) →
      exec (.shardComplete e) s = .next (shardEnd e sh ((s.eng e).ended.getD .ok)
        (s.setEng e { (s.eng e).idle with state := 0, cur := none, ended := none })))
  ∧ (∀ (s : State) (r : Requester) (e : Nat), reachesRegs r = true → e < 4 →
      exec (.millDisarm r e) s = .next (s.setEng e { s.eng e with ranges := (s.eng e).ranges.filter (·.armed) }))

/-- Messages and flits (R282, R312 to R317, R327). -/
def Obligations.FieldMessages : Prop :=
  (∀ (s : State) (a : Nat) (m : Msg) (rest : List (Nat × Msg)), s.fld.inbox = (a, m) :: rest →
      let s' := { s with fld := { s.fld with inbox := rest } }
      let dpa := m.addr.toNat % 2 ^ 48
      (s.isMember m.src = true →
        (m.op = 0x01 → opOnVc m.vc 0x01 = true → badRange m = false → m.data.length = m.len → writeWaits s a m = false →
          exec (.msgWrite a m) s = .next (respond m.src m.tag 0x12 m.ordered (dpaWrite (.peer a m.src) dpa m.data s').2 []
            (dpaWrite (.peer a m.src) dpa m.data s').1))
        ∧ (m.op = 0x01 → opOnVc m.vc 0x01 = true → badRange m = true →
          exec (.msgWrite a m) s = .next (respond m.src m.tag 0x12 m.ordered .badDescriptor [] s'))
        ∧ (m.op = 0x02 → opOnVc m.vc 0x02 = true → badRange m = false → spanHeld s (.peer a m.src) dpa m.len = false →
          let r := dpaRead (.peer a m.src) dpa m.len s'
          exec (.msgRead a m) s
            = .next (respond m.src m.tag 0x11 m.ordered r.2.2 (if r.2.2 = .ok then r.2.1 else []) r.1))
        ∧ (m.op = 0x03 → opOnVc m.vc 0x03 = true → arrBad m.addr = false →
          exec (.msgArrive a m) s = .next (arrivalApply
            { addr := m.addr, poison := false, from_ := none, peer := some (m.src, m.tag, m.ordered) } s'))
        ∧ (m.op = 0x04 → opOnVc m.vc 0x04 = true → arrBad m.addr = false →
          exec (.msgPoison a m) s = .next (arrivalApply
            { addr := m.addr, poison := true, from_ := none, peer := some (m.src, m.tag, m.ordered) } s'))
        ∧ (m.op = 0x03 → opOnVc m.vc 0x03 = true → arrBad m.addr = true →
          exec (.msgArrive a m) s = .next (respond m.src m.tag 0x13 m.ordered .badDescriptor [] s')))
      ∧ (s.isMember m.src = false → m.op = 0x03 →
          exec (.msgArrive a m) s
            = .next { s' with fld := { s'.fld with unknownSrc := min 0xFFFF (s.fld.unknownSrc + 1) } })
      ∧ (m.op = 0x11 → exec (.msgReadData a m) s = .next (fieldAnswer m.tag (statusOf m.status s') s'))
      ∧ (m.op = 0x12 → exec (.msgWriteAck a m) s = .next (fieldAnswer m.tag (statusOf m.status s') s'))
      ∧ (m.op = 0x13 → exec (.msgArriveAck a m) s = .next (fieldAnswer m.tag (statusOf m.status s') s')))
  ∧ (∀ (s : State) (f : MsgFlit) (b : Nat) (nm : Bool), f.first = true → f.dst ≠ s.fld.id →
      let v := chooseVia { (default : Msg) with vc := f.vc, ordered := f.ordered, dst := f.dst, src := s.fld.id } s
      let f' := { f with nm := v.1.isSome, via := v.1.getD 0 }
      (f.ordered = true → v = (none, s))
      ∧ (s.isMember f.dst = true → routeOf v.2 f' false 0 = .port b nm →
        ∃ t, exec (.routeFlit none f) s = .next t
          ∧ ((s.adit (s.rolePort b)).state = 5 → ∃ e : Flit, e.f = { f' with nm := nm, hops := 0 } ∧ e.local_ = true
              ∧ e.msg = s.fld.msgs ∧ (t.adit (s.rolePort b)).txq = (s.adit (s.rolePort b)).txq ++ [e])
          ∧ t.fld.msgs = s.fld.msgs + 1)
      ∧ (s.isMember f.dst = false → f.vc = 1 ∨ f.vc = 3 → ∃ t, exec (.routeFlit none f) s = .next t
          ∧ t.fld.noroute = min 0xFFFF (s.fld.noroute + 1) ∧ t.adits = s.adits))
  ∧ (∀ (s : State) (a : Nat) (f : MsgFlit) (rest : List MsgFlit), (s.adit a).rxbuf = f :: rest →
      exec (.routeFlit (some a) f) s = .next (if f.first then takeFirst a 0 f s else takeNext a 0 f s))
  ∧ (∀ (s : State) (a : Nat), (s.adit a).state ≠ 5 →
      exec (.ordWaitExpiry a) s
        = .next (rerouteHeld a (fun e => decide (e.at_ + s.fld.ordWait * 1000000 ≤ s.now)) s))

/-- Membership (R306, R311, R323 to R328). -/
def Obligations.Membership : Prop :=
  (∀ (s : State) (a x inc serial : Nat), (s.memberOf x).inc < inc → (x = s.fld.id → serial = s.fuses.serial.toNat) →
      applyJoin (some a) x inc serial s = sendPeers (some a) (memberData 0x10 x { member := true, inc := inc, serial := serial })
        { s with members := Tbl.put s.members x { member := true, inc := inc, serial := serial } })
  ∧ (∀ (s : State) (a x inc serial : Nat), x = s.fld.id → serial ≠ s.fuses.serial.toNat →
      (applyJoin (some a) x inc serial s).fld.dupId = true ∧ (applyJoin (some a) x inc serial s).members = s.members)
  ∧ (∀ (s : State) (a x inc : Nat), (s.memberOf x).member = true → (s.memberOf x).inc ≤ inc → x ≠ s.fld.id →
      applyLeave (some a) x inc s = sendPeers (some a) (memberData 0x11 x { s.memberOf x with member := false, inc := inc })
        { s with members := Tbl.put s.members x { s.memberOf x with member := false, inc := inc } })
  ∧ (∀ (s : State) (a : Nat) (m : Msg) (rest : List (Nat × Msg)), s.fld.inbox = (a, m) :: rest → m.op = 0x20 →
      let s' := { s with fld := { s.fld with inbox := rest } }
      let e := parseEntry m.data 16
      (leAt m.data 0 1 = 0x10 → exec (.joinMsg a e) s = .next (applyJoin (some a) e.stack e.incarnation e.serial s'))
      ∧ (leAt m.data 0 1 = 0x11 → exec (.leaveMsg a e) s = .next (applyLeave (some a) e.stack e.incarnation s'))
      ∧ (leAt m.data 0 1 = 0x13 → exec (.snapshotMsg a (parseSnapshot m.data)) s
          = .next ((parseSnapshot m.data).foldl (fun s m =>
              if m.member then applyJoin (some a) m.stack m.incarnation m.serial s
              else applyLeave (some a) m.stack m.incarnation s) s'))
      ∧ (leAt m.data 0 1 = 0x12 → groupOf m.src = groupOf s.fld.id →
          exec (.linkmapMsg a (memberOf m.src) (leAt m.data 4 4) (leAt m.data 8 2)) s
            = .next { s' with linkmaps := Tbl.put s.linkmaps (memberOf m.src) {
                locals := leAt m.data 4 4, globals := leAt m.data 8 2, at_ := s.now, fresh := true } }))
  ∧ (∀ s : State, exec .linkmapTimer s = .next (sendLinkmaps s))
  ∧ (∀ (s : State) (k : Nat), (s.linkmap k).fresh = true → (s.linkmap k).at_ + 3000000 < s.now →
      ∃ t, exec (.linkmapStale k) s = .next t ∧ (t.linkmap k).fresh = false ∧ (∀ j, j ≠ k → t.linkmap j = s.linkmap j))
  ∧ (∀ s : State, s.fld.joinSent = true → s.fld.left = false → s.fld.joinAt + 100000 ≤ s.now →
      exec .joinSettle s = .next { s with fld := { s.fld with joined := true } })
  ∧ (∀ (s : State) (r : Requester) (v : Word), reachesRegs r = true →
      (s.fld.idLocked = false → groupOf (bits 13 0 v.toNat) < s.chr.groups →
        exec (.fldIdWrite r v) s = .next { s with fld := { s.fld with id := bits 13 0 v.toNat } })
      ∧ (s.fld.idLocked = true → exec (.fldIdWrite r v) s = .next (logIgnored 0x10 0 r 0x03A00100 0 s))
      ∧ (s.fld.idLocked = false → s.chr.groups ≤ groupOf (bits 13 0 v.toNat) →
        exec (.fldIdWrite r v) s = .next (logIgnored 0x10 0 r 0x03A00100 4 s)))
  ∧ (∀ (s : State) (r : Requester) (x : Nat), reachesRegs r = true →
      exec (.memberLeave r x) s = .next (applyLeave none x (s.memberOf x).inc s)
      ∧ (x = s.fld.id → s.fld.left = true → ∃ t, exec (.memberRejoin r x) s = .next t
          ∧ t.fld.joinSent = true ∧ t.fld.joinAt = s.now ∧ (t.memberOf x).member = true
          ∧ (t.memberOf x).inc = (heldIncarnation (surveyEntries s) + 1) % 2 ^ 32))

/-- Field time (R330 to R334). -/
def Obligations.FieldTime : Prop :=
  (∀ (s : State) (a stamp : Nat) (p : TimePayload), (s.adit a).inUse = true → (s.adit a).state = 5 →
      let x := s.adit a
      let s1 := selectGm (s.setAdit a { x with
        lastTtx := p.tTx, lastTrx := stamp, timeGot := true
        advert := if p.prio = 0 then none else some (p.prio, p.gm, p.distance), advertAt := s.now })
      (s1.fld.hasParent = true → s1.fld.parent = a → x.timeGot = true → p.tEcho ≠ 0 →
        let ofs := (stampDiff x.lastTrx x.lastTtx - stampDiff p.tRx p.tEcho) / 2
        let delay := (stampDiff p.tRx x.lastTtx - stampDiff p.tEcho x.lastTrx) / 2
        exec (.timeFlit a p stamp) s
          = .next (useOffset ofs { s1 with fld := { s1.fld with offset := ofs, delay := delay } }))
      ∧ (s1.fld.hasParent = false ∨ s1.fld.parent ≠ a ∨ x.timeGot = false ∨ p.tEcho = 0 →
        exec (.timeFlit a p stamp) s = .next s1))
  ∧ (∀ (s : State) (ofs : Int), s.fld.tstate = 0 →
      (useOffset ofs s).tclk = BitVec.ofInt 64 ((s.tclk.toNat : Int) - ofs / 256) ∧ (useOffset ofs s).fld.tstate = 1)
  ∧ (∀ (s : State) (a : Nat), (s.adit a).inUse = true → (s.adit a).state = 5 →
      ∃ (p : TimePayload) (t : State), exec (.timeFlitTimer a) s = .next t
        ∧ t.out = .flit a (linkBytes 4 (timeBytes p) (s.adit a).rxAck (s.adit a).nakDue (takeCredit (s.adit a)).1) :: (selectGm s).out
        ∧ p.tEcho = (s.adit a).lastTtx ∧ p.tRx = (s.adit a).lastTrx ∧ p.gm = (selectGm s).fld.gm
        ∧ p.distance = (selectGm s).fld.distance ∧ p.tTx / 256 = s.tclk.toNat % 2 ^ 56)
  ∧ (∀ (s : State) (t0 : Nat), s.fld.within4Since = some t0 → s.fld.tstate = 1 → t0 + 1000000 ≤ s.now →
      exec .timeLocked s = .next { s with fld := { s.fld with tstate := 2 } })
  ∧ (∀ s : State, s.fld.hasParent = false → s.fld.tstate ≠ 3 → s.fld.noParentAt + 1000000000 ≤ s.now →
      exec .parentTimeout s = .next (selectGm { s with fld := { s.fld with tstate := 0, within4Since := none } }))
  ∧ (∀ (s : State) (a : Nat), (s.adit a).advert.isSome = true → (s.adit a).advertAt + 64000 < s.now →
      exec (.gmAdvertStale a) s = .next (selectGm (s.setAdit a { s.adit a with advert := none })))
  ∧ (∀ s : State, (selectGm s).chr.auxPpsIn.isSome = true → (selectGm s).fld.tstate = 3 →
      ∃ t, exec .ppsInEdge s = .next t
        ∧ ((s.tclk.toNat : Int) + t.fld.steer) % 1000000000 = 0 ∧ t.fld.steer.natAbs ≤ 500000000)
  ∧ (∀ s : State, s.chr.auxPpsOut.isSome = true → s.fld.ppsDue = true →
      exec .ppsOutEdge s = .next { s with out := .ppsOut s.tclk :: s.out, fld := { s.fld with ppsDue := false } })

/-- Flits received and sent (R278 to R292). -/
def Obligations.LinkFlits : Prop :=
  (∀ (s : State) (a : Nat) (flit : List Byte) (errs : List (Nat × Nat × Nat)), (s.adit a).state = 5 →
      let h := leAt flit 0 8
      let sw := leAt flit 248 4
      let s0 := fecTake a errs s
      let s1 := takeReturns a h sw s0
      (flit.length = 256 → leAt flit 252 4 = crc32c (flit.take 252) → (bits 4 2 h = 1 ∨ bits 4 2 h = 2) →
        (s1.adit a).state = 5 →
        (bits 11 0 sw = (s1.adit a).rxNext →
          exec (.flitReceive a flit (false, errs)) s = .next (acceptFlit a h (parseFlit flit) (bit 51 h) s1))
        ∧ (bits 11 0 sw ≠ (s1.adit a).rxNext → exec (.flitReceive a flit (false, errs)) s = .next (refuseFlit a s1)))
      ∧ (flit.length = 256 → leAt flit 252 4 ≠ crc32c (flit.take 252) →
        exec (.flitReceive a flit (false, errs)) s = .next (if bit 25 sw then refuseFlit a s0 else s0)))
  ∧ (∀ (s : State) (a h : Nat) (f : MsgFlit) (sh : Bool),
      let x := s.adit a
      badHeader x.rev h f = false → creditUsed x (creditKind f sh) < creditLimit x.rev f.vc (creditKind f sh).2 →
      (f.first = true ∨ f.vc ∉ x.rxBad) →
      acceptFlit a h f sh s = s.setAdit a { x with
        rxAck := x.rxNext, rxNext := (x.rxNext + 1) % 4096, nakSent := false
        rxbuf := x.rxbuf ++ [f], rxSh := x.rxSh ++ [sh], rxBad := setDel f.vc x.rxBad })
  ∧ (∀ (s : State) (a : Nat), (s.adit a).nakSent = false →
      refuseFlit a s = s.setAdit a { s.adit a with nakSent := true, nakDue := true })
  ∧ (∀ (s : State) (a : Nat), (s.adit a).state = 5 →
      let x := s.adit a
      (∀ v d i e sh, x.resend = [] → x.replay.length < 512 → pickVc x = some (v, d) → readyOf x v = some (i, e, sh) →
        ∃ t, exec (.flitSlot a) s = .next t
          ∧ t.out = .flit a (msgBytes e.f sh x.txSeq x.rxAck x.nakDue (takeCredit x).1) :: s.out
          ∧ (t.adit a).replay = x.replay ++ [{ e with seq := x.txSeq, sends := 1, sh := sh }]
          ∧ (t.adit a).txq = listDel x.txq i ∧ (t.adit a).txSeq = (x.txSeq + 1) % 4096 ∧ (t.adit a).nakDue = false)
      ∧ (∀ e rest, x.resend = e :: rest →
        ∃ t, exec (.flitSlot a) s = .next t ∧ t.out = .flit a (msgBytes e.f e.sh e.seq x.rxAck x.nakDue (takeCredit x).1) :: s.out
          ∧ (t.adit a).resend = rest ∧ (t.adit a).txq = x.txq ∧ (t.adit a).txSeq = x.txSeq)
      ∧ (x.resend = [] → (512 ≤ x.replay.length ∨ pickVc x = none) →
        ∃ t, exec (.flitSlot a) s = .next t ∧ t.out = .flit a (linkBytes 0 [] x.rxAck x.nakDue (takeCredit x).1) :: s.out
          ∧ (t.adit a).replay = x.replay ∧ (t.adit a).txq = x.txq ∧ (t.adit a).txSeq = x.txSeq))
  ∧ (∀ (s : State) (a : Nat), (s.adit a).state = 5 → (s.adit a).replay ≠ [] → (s.adit a).ackAt + 10000 ≤ s.now →
      ((∀ e ∈ (s.adit a).replay, e.sends < 16) → exec (.replayTimeout a) s
        = .next (s.setAdit a { s.adit a with resend := (s.adit a).replay, ackAt := s.now }))
      ∧ ((∃ e ∈ (s.adit a).replay, 16 ≤ e.sends) → exec (.replayTimeout a) s = .next (enterRetrain a 8 s)))

/-- The states of a port (R293 to R304). -/
def Obligations.LinkStates : Prop :=
  (∀ (s : State) (a rate lanes : Nat),
      let x := s.adit a
      let w := widthOf (maskOf 4 (fun l => bit l lanes && !bit l x.laneFault))
      x.state = 1 → (rate = s.chr.aditRate ∨ s.chr.aditFallback = true ∧ s.chr.aditRate < rate) →
      s.chr.aditMinWidth ≤ w.length → w ≠ [] →
      ∃ t, exec (.trainDone a rate lanes) s = .next t ∧ (t.adit a).state = 2 ∧ (t.adit a).rate = rate
        ∧ (t.adit a).lanes = maskOf 4 (fun l => w.contains l))
  ∧ (∀ (s : State) (a : Nat) (p : CapsPayload), (s.adit a).state = 2 →
      (p.fieldId ≠ s.chr.fieldId → exec (.capsFlit a p) s = .next (aditFail a 3 s))
      ∧ (p.fieldId = s.chr.fieldId → p.stack = s.fld.id → exec (.capsFlit a p) s = .next (aditFail a 13 s))
      ∧ (p.fieldId = s.chr.fieldId → p.stack ≠ s.fld.id → s.chr.aditRevMin ≤ min 2 p.revMax → p.revMin ≤ min 2 p.revMax →
        p.rate = (s.adit a).rate → p.lanes = (s.adit a).lanes → p.seen = true → (s.adit a).capsGot = true →
        ∃ t, exec (.capsFlit a p) s = .next t ∧ (t.adit a).state = (if s.fld.ready then 4 else 3)
          ∧ (t.adit a).peerStack = p.stack ∧ (t.adit a).peerAdit = p.adit ∧ (t.adit a).rev = min 2 p.revMax
          ∧ (t.adit a).peerValid = true))
  ∧ (∀ (s : State) (a : Nat),
      ((s.adit a).state = 2 → exec (.capsResendTimer a) s = .next (sendLink a 3 (capsBytes (capsOf s a)) s))
      ∧ ((s.adit a).state = 2 → (s.adit a).stateAt + 10000000 ≤ s.now → ∃ c, c < 16
          ∧ exec (.capsTimeout a) s = .next (aditFail a c { s with free := s.free + 1 }))
      ∧ ((s.adit a).state = 3 → (s.adit a).qualSent = true → exec (.qualReq a) s
          = .next (s.setAdit a ({ s.adit a with qualGot := true }.qualify s.now)))
      ∧ ((s.adit a).state = 3 → (s.adit a).qualSent = false → s.fld.ready = true → exec (.qualReq a) s
          = .next (sendLink a 3 [2] (s.setAdit a ({ s.adit a with qualGot := true, qualSent := true }.qualify s.now))))
      ∧ ((s.adit a).state = 3 → (s.adit a).qualSent = false → s.fld.ready = false →
          exec (.qualReq a) s = .next (s.setAdit a { s.adit a with qualGot := true }))
      ∧ ((s.adit a).state = 3 → (s.adit a).qualSent = true →
          exec (.qualReqTimer a) s = .next (sendLink a 3 [2] s))
      ∧ ((s.adit a).state = 4 → (s.adit a).rxDone = true → (s.adit a).passRx = true →
          exec (.qualResult a true) s
            = .next (goActive a (s.setAdit a { s.adit a with peerDone := true, passPeer := true })))
      ∧ ((s.adit a).state = 4 → exec (.qualResult a false) s
            = .next (aditFail a 5 (s.setAdit a { s.adit a with peerDone := true, passPeer := false })))
      ∧ ((s.adit a).state = 4 → (s.adit a).stateAt + 30000000000 ≤ s.now →
          exec (.qualifyTimeout a) s = .next (aditFail a 5 s))
      ∧ ((s.adit a).state = 5 → exec (.retrainReq a) s = .next (enterRetrain a 10 s))
      ∧ ((s.adit a).state ≠ 0 → (s.adit a).state ≠ 7 → ((aditFail a 11 s).adit a).state = 7 →
          exec (.linkStop a) s = .next (if (s.adit a).peerValid then
            applyLeave none (s.adit a).peerStack ((aditFail a 11 s).memberOf (s.adit a).peerStack).inc (aditFail a 11 s)
            else aditFail a 11 s))
      ∧ ((s.adit a).state = 1 → (s.adit a).stateAt + 500000000 ≤ s.now →
          exec (.trainTimeout a true) s = .next (aditFail a 2 s))
      ∧ ((s.adit a).state = 1 → (s.adit a).stateAt + 100000000 ≤ s.now →
          exec (.trainTimeout a false) s = .next (aditFail a 1 s))
      ∧ (∀ cause, (s.adit a).state = 5 →
          (cause = 6 ∧ (∃ l ∈ lanesOf (s.adit a).lanes, laneMsBits (s.adit a).rate < 10000 * laneMsErrs s a l)
            ∨ cause = 7 ∧ 8 < (((s.adit a).fec.filter (fun e => decide (s.now < e.1 + 1000000))).map (fun e => e.2.2.2)).sum
            ∨ cause = 8 ∧ (∃ e ∈ (s.adit a).replay, 16 ≤ e.sends) ∨ cause = 9) →
          exec (.linkFaultTrip a cause) s = .next (enterRetrain a cause s))
      ∧ (∀ m, (s.adit a).state = 6 → exec (.fastRetrainDone a true m) s = .next (goActive a s))
      ∧ (∀ m, (s.adit a).state = 6 → exec (.fastRetrainDone a false m) s
          = .next (logRetrain a (aditTrain a (s.adit a).cause true (s.setAdit a { s.adit a with
              laneFault := maskOf 4 (fun l => bit l (s.adit a).laneFault || bit l m) }))))
      ∧ ((s.adit a).state = 7 → (s.adit a).cause = 1 → (a / 12) ∉ s.clk.refLost →
          ∃ t, exec (.signalDetect a) s = .next t ∧ (t.adit a).state = 1)
      ∧ (∀ r, reachesRegs r = true → (s.adit a).spare = false → (s.adit a).state = 7 →
          ∃ t, exec (.adtRetrain r a) s = .next t ∧ (t.adit a).state = 1 ∧ (t.adit a).laneFault = 0 ∧ (t.adit a).cause = 15)
      ∧ (∀ r, reachesRegs r = true → s.fld.ready = false → (s.adit a).state ≠ 5 →
          ∃ t, exec (.adtReset r a) s = .next t ∧ (t.adit a).state = 0 ∧ (t.adit a).cause = 14
            ∧ (t.adit a).replay = [] ∧ (t.adit a).txq = [] ∧ (t.adit a).rxbuf = []))
  ∧ (∀ (s : State) (a : Nat) (ls : List (Nat × Nat × Nat)), (s.adit a).state = 4 → (s.adit a).rxDone = false →
      ls.length = (lanesOf (s.adit a).lanes).length → 10 ^ 12 ≤ ls.foldl (fun n l => n + l.1) 0 →
      let pass := ls.all (fun l => decide (10 ^ 11 ≤ l.1) && decide ((l.2.1 + 10 * l.2.2) * 10 ^ 5 ≤ l.1) && l.2.2 == 0)
      let l := ls.getD (worstLane ls) (1, 0, 0)
      let s1 := sendLink a 3 [3, BitVec.ofNat 8 (b2n pass)] (s.setAdit a { s.adit a with
          rxDone := true, passRx := pass, berQ := berCode l.1 (laneErrs l)
          worstLane := (lanesOf (s.adit a).lanes).getD (worstLane ls) 0
          uncorr := satAdd 0xFFFF (s.adit a).uncorr (ls.map (fun l => l.2.2 / 544)).sum })
      exec (.qualifyDone a ls) s = .next (if !pass then aditFail a 5 s1
        else if (s.adit a).peerDone && (s.adit a).passPeer then goActive a s1 else s1))
  ∧ (∀ s : State, s.chr.aditSpare < 47 → (s.adit s.chr.aditSpare).state = 7 → (s.adit 47).state = 5 →
      (s.adit 47).spare = false →
      let s1 := s.setAdit s.chr.aditSpare { s.adit s.chr.aditSpare with spare := true }
      let s2 := sendSnapshot 47 (s1.setAdit 47 { s1.adit 47 with spare := true, inUse := true })
      exec .spareTakeover s = .next (sendLinkmaps
        (if s2.fld.ready = true ∧ s2.fld.joinSent = false ∧ s2.fld.left = false then sendJoin s2 else s2)))
  ∧ (∀ (s : State) (edge : Nat),
      (edge ∉ s.clk.refLost → exec (.aditRefclkLoss edge) s = .next ((aditsOf edge).foldl
        (fun s a => if (s.adit a).state = 0 ∨ (s.adit a).state = 7 then s else aditFail a 1 s)
        (logEvent 0x05 0 0x0404 [(0, 1, 9 + edge)] { s with clk := { s.clk with refLost := setAdd edge s.clk.refLost } })))
      ∧ (edge ∈ s.clk.refLost → exec (.aditRefclkReturn edge) s = .next ((aditsOf edge).foldl
        (fun s a => if (s.adit a).state = 7 ∧ (s.adit a).cause = 1 then aditTrain a 1 false s else s)
        { s with clk := { s.clk with refLost := setDel edge s.clk.refLost } })))

/-- Accesses of the host (R340 to R366). -/
def Obligations.HostAccess : Prop :=
  (∀ (s : State) (f off len dpa : Nat), s.fnExists f = true → s.thm.stopped = false → bar2Dpa s f off = some (dpa, none) →
      spanHeld s (.host f) dpa len = false →
      let r := dpaRead (.host f) dpa len s
      exec (.bar2Read f off len) s = .next { r.1 with out := (match r.2.2 with
        | .ok => Out.cplData f r.2.1
        | .denied => Out.cplUR f
        | _ => Out.cplCA f) :: r.1.out })
  ∧ (∀ (s : State) (f off len dpa why : Nat), s.fnExists f = true → s.thm.stopped = false →
      bar2Dpa s f off = some (dpa, some why) →
      exec (.bar2Read f off len) s = .next ((recordDeny (.host f) dpa false why s).emit (.cplUR f)))
  ∧ (∀ (s : State) (f off dpa : Nat) (data : List Byte) (rel : Bool), s.fnExists f = true → s.thm.stopped = false →
      bar2Dpa s f off = some (dpa, none) →
      exec (.bar2Write f off data true rel) s = .next (s.setFn f { s.fn f with aerPoison := true })
      ∧ (spanHeld s (.host f) dpa data.length = false →
        (dpaWrite (.host f) dpa data s).2 = .ok →
        exec (.bar2Write f off data false rel) s = .next (dpaWrite (.host f) dpa data s).1))
  ∧ (∀ (s : State) (f a : Nat), s.fnExists f = true →
      exec (.atomicopRequest f a) s = .next { s with out := .cplUR f :: s.out })
  ∧ (∀ (s : State) (f off : Nat) (data : List Byte), s.fnExists f = true → off + data.length ≤ 0x80000 →
      off % 128 + data.length ≤ 128 → data ≠ [] →
      let k := (if f = 0 then 0 else (fnSlots (s.fn f)).1) + off / 128
      let p := 128 * k + off % 128
      (k < 4096 → ownsSlot (s.fn f) k = true → s.errs = [] → ∃ t, exec (.slotWrite f off data) s = .next t
        ∧ (off % 64 = 0 → data.length = 64 → t.slotMem = s.slotMem.write p data)
        ∧ (off % 64 + data.length ≤ 64 → data.length < 64 → t.slotMem = s.slotMem.write (p / 64 * 64)
            (overlay (s.slotMem.read (p / 64 * 64) 64) (data.mapIdx (fun i x => (p % 64 + i, x)))))
        ∧ k ∈ t.hif.marked ∧ t.fns = s.fns)
      ∧ (ownsSlot (s.fn f) k = false → exec (.slotWrite f off data) s
          = .next (logIgnored 0x01 0 (.host f) (if f = 0 then 0x01000000 + off else 0x80000 + off) 2 s)))
  ∧ (∀ (s : State) (k f : Nat) (rest : List Nat), s.hif.pickup = true → s.thm.stopped = false → scanOrder s = k :: rest →
      s.errs = [] → bit 0 ((s.slotMem.read (128 * k) 64).getD 0 0).toNat = true → slotOwner s k = some f →
      pickable (s.fn f) = true →
      let bs := s.slotMem.read (128 * k) 64 ++ s.slotMem.read (128 * k + 64) 64
      leAt bs 1 1 < 6 →
      ∃ t, exec .slotPickup s = .next t ∧ t.hif.lastSlot = k ∧ (t.fn f).outstanding = (s.fn f).outstanding + 1
        ∧ t.hif.reqs = s.hif.reqs ++ [{ id := s.hif.nextReq, fn := f, slot := k - (fnSlots (s.fn f)).1
                                        bytes := bs }]
        ∧ t.hif.marked = setDel k s.hif.marked
        ∧ t.slotMem = s.slotMem.write (128 * k) (overlay (s.slotMem.read (128 * k) 64) [(0, s.slotMem.get (128 * k) &&& 0xFE#8)]))
  ∧ (∀ (s : State) (f : Nat) (cfg : CfgOp), s.fnExists f = true →
      let s1 := fun bme d3 => s.setFn f { s.fn f with bme := bme, d3 := d3, bmSeen := true }
      exec (.busMasterEnable f true (false, cfg)) s = .next (cfgAccess f cfg (releaseFn f (s1 true false)))
      ∧ exec (.busMasterEnable f false (false, cfg)) s = .next (cfgAccess f cfg (s1 false false))
      ∧ exec (.busMasterEnable f true (true, cfg)) s = .next (cfgAccess f cfg (s1 true true)))
  ∧ (∀ (s : State) (f : Nat),
      cfgAccess f .none s = s
      ∧ (∀ r, cfgAccess f (.read r) s = { s with out := .cplData f (cfgGet f s r) :: s.out })
      ∧ cfgGet f s .deviceId = leBytes 2 (if f = 0 then 0x4B18 else 0x4B19) ∧ cfgGet f s .classCode = leBytes 3 0x120000
      ∧ cfgGet f s .subsysVendorId = leBytes 2 s.chr.subsys.1 ∧ cfgGet f s .subsysId = leBytes 2 s.chr.subsys.2
      ∧ (∀ v a d m, v < s.msixSize f → cfgAccess f (.msixEntry v a d m) s
          = msixFlush f (s.setFn f { s.fn f with msixTbl := Tbl.put (s.fn f).msixTbl v { addr := a, data := d, masked := m } }))
      ∧ cfgAccess f .aerClear s = s.setFn f { s.fn f with aerPoison := false })
  ∧ (∀ (s : State) (n : Nat), 30 ≤ n → n ≤ 40 → n ≠ s.hif.bar2Log2 → ∃ t, exec (.resizableBarWrite (n, false)) s = .next t
      ∧ t.hif.bar2Log2 = n ∧ (∀ p ∈ t.hif.apt, p.2.2 = false) ∧ t.hif.apt.map (fun p => (p.1, p.2.1)) = s.hif.apt.map (fun p => (p.1, p.2.1)))
  ∧ (∀ (s : State) (n : Nat), 28 ≤ n → n ≤ 36 →
      exec (.resizableBarWrite (n, true)) s = .next { s with hif := { s.hif with vfBar2Log2 := n } })
  ∧ (∀ (s : State) (r : Requester) (f : Nat) (v : Word), reachesFn s r f = true → bit 0 v.toNat = true →
      ∃ t, exec (.cqEnable r f v) s = .next t ∧ (t.fn f).cqEn = true ∧ (t.fn f).tail = 0 ∧ (t.fn f).phase = 1
        ∧ (t.fn f).cqLog2 = bits 5 1 v.toNat ∧ (t.fn f).vector = bits 26 16 v.toNat ∧ (t.fn f).cqBase = (s.fn f).cqBase)
  ∧ (∀ (s : State) (f : Nat), (s.fn f).unsig ≠ 0 → (s.fn f).modTime ≠ 0 →
      (s.fn f).oldestAt + 1000 * (s.fn f).modTime ≤ s.now →
      exec (.cqModTimer f) s = .next (msix f (s.fn f).vector (s.setFn f { s.fn f with unsig := 0 })))
  ∧ (∀ (s : State) (t : Nat) (data : List Byte), s.hif.doe = none → data.length ≤ 4096 →
      (t = 1 ∨ t = 2 → exec (.doeRequest t data) s = .next { s with hif := { s.hif with doe := some (t, data) } })
      ∧ exec (.doeRequest 0 data) s = .next { s with out := .doe (doeDiscovery (leAt data 0 1)) :: s.out })
  ∧ (∀ s : State, exec .doeAbort s = .next { s with hif := { s.hif with doe := none } })

/-- Resets on the host side (R336, R338, R340, R363). -/
def Obligations.HostResets : Prop :=
  (∀ s : State, exec .perstDeassert s = .next { s with hif := { s.hif with perst := false } })
  ∧ (∀ (s : State) (sp w : Nat) (fl : Bool), s.hif.training = true → s.hif.perst = false → s.clk.pclkLost = false →
      linkMode sp w fl = true →
      exec (.pcieLinkUp sp w fl) s
        = .next { s with hif := { s.hif with up := true, speed := sp, width := w, flit := fl } })
  ∧ (∀ (s : State) (why : PcieReset), ∃ t, exec (.pciePartitionReset why) s = .next t
      ∧ t.fns = [(0, { slotCount := 64, seqCount := 256, ops := 0x3F })] ∧ t.slotMem = [] ∧ t.hif.marked = []
      ∧ t.hif.vfEn = false ∧ t.hif.numVfs = 0 ∧ t.hif.doe = none ∧ t.hif.resets = min 15 (s.hif.resets + 1)
      ∧ t.hif.pickup = s.hif.pickup ∧ (why ≠ .pfFlr → t.hif.up = false ∧ t.hif.speed = 0 ∧ t.hif.width = 0)
      ∧ (why = .pfFlr → t.hif.up = s.hif.up) ∧ (why = .perst → t.hif.perst = true)
      ∧ (why = .pclkLoss → t.clk.pclkLost = true) ∧ (∀ r ∈ t.hif.reqs, r.dead = true)
      ∧ t.crews = s.crews ∧ t.seams = s.seams ∧ t.pwr = s.pwr ∧ t.evt = s.evt ∧ t.seamMem = s.seamMem ∧ t.binMem = s.binMem
      ∧ t.storeMem = s.storeMem ∧ t.stockMem = s.stockMem)
  ∧ (∀ (s : State) (f : Nat), f ≠ 0 → s.fnExists f = true → ∃ t, exec (.vfFlr f) s = .next t
      ∧ (t.fn f).slotBase = (s.fn f).slotBase ∧ (t.fn f).slotCount = (s.fn f).slotCount ∧ (t.fn f).seqBase = (s.fn f).seqBase
      ∧ (t.fn f).seqCount = (s.fn f).seqCount ∧ (t.fn f).ops = (s.fn f).ops ∧ (t.fn f).vapt = (s.fn f).vapt
      ∧ (t.fn f).outstanding = 0 ∧ (t.fn f).cqEn = false ∧ (t.fn f).bme = false ∧ (t.fn f).heldRecs = [])
  ∧ (∀ s : State, exec .pclkReturn s = .next { s with clk := { s.clk with pclkLost := false } })
  ∧ (∀ (s : State) (n : Nat) (en : Bool), s.hif.vfEn = false → exec (.vfEnableWrite n en) s
      = .next { s with hif := { s.hif with vfEn := en, numVfs := min 15 n } })
  ∧ (∀ (s : State) (n : Nat), s.hif.vfEn = true → ∃ t, exec (.vfEnableWrite n false) s = .next t ∧ t.hif.vfEn = false
      ∧ ∀ f, f ≠ 0 → t.fnExists f = false)

/-- Host requests (R350, R354 to R359). -/
def Obligations.HostRequests : Prop :=
  (∀ (s : State) (i : Nat) (r : HostReq), Safety.ReqNew s i 0x00 [] r →
      exec (.reqNop i) s = .next (completeReq r.id .ok 0 [] s))
  ∧ (∀ (s : State) (i : Nat) (r : HostReq), s.hif.reqs[i]? = some r → reqOp r = 0x00 → r.stage = 0 → reqClean r [] = true →
      opAllowed s r = false → exec (.reqNop i) s = .next (completeReq r.id .denied 0 [] s))
  ∧ (∀ (s : State) (i : Nat) (r : HostReq), Safety.ReqNew s i 0x01 [(8, 21)] r → copyGood r = true →
      (∀ a w, s.waited = false → copyOut s r = some (a, w) →
        exec (.reqCopy i) s = .next (completeReq r.id .denied 0 [] (recordDeny (.host r.fn) a w 3 s)))
      ∧ (copyOut s r = none → writesOpen s r.fn = false → copyHeld s r = false → cpSrcHost r = false →
        (copyMove (allParts r) r s).1.waited = false →
        exec (.reqCopy i) s = .next (copyEnd (copyMove (allParts r) r s).2 (copyMove (allParts r) r s).1))
      ∧ (copyOut s r = none → writesOpen s r.fn = false → copyHeld s r = false → cpSrcHost r = true → s.waited = false →
        exec (.reqCopy i) s = .next ((hostSpans s.hif.mrrs (cpSrc r) (cpLen r)).foldl
          (fun s p => s.emit (.dmaRead r.fn p.1 p.2 r.id)) (setReq { r with stage := 1, at_ := s.now } s))))
  ∧ (∀ (s : State) (i off : Nat) (r : HostReq) (data : List Byte), s.hif.reqs[i]? = some r → reqOp r = 0x01 → r.stage = 1 →
      data ≠ [] → off + data.length ≤ cpLen r →
      (∀ g ∈ r.got, off + data.length ≤ g.1 ∨ g.1 + g.2 ≤ off) →
      (∀ p ∈ pieces (cpDst r + off) data.length, spanHeld s (.host r.fn) p.1 p.2 = false) →
      let w := copyLand (pieces (cpDst r + off) data.length) data { r with got := r.got ++ [(off, data.length)] } s
      w.1.waited = false →
      exec (.dmaReadCompletion i off data) s
        = .next (if gotBytes w.2 = cpLen w.2 then copyEnd w.2 w.1 else setReq w.2 w.1))
  ∧ (∀ (s : State) (i : Nat) (r : HostReq), s.hif.reqs[i]? = some r → reqOp r = 0x01 → r.stage = 1 →
      r.at_ + s.hif.cplTimeout ≤ s.now →
      exec (.copyReadTimeout i) s = .next (copyEnd (copyFail (firstGap r) .timeout r) s))
  ∧ (∀ (s : State) (i : Nat) (r : HostReq), Safety.ReqNew s i 0x02 [(8, 3), (16, 8)] r → leAt r.bytes 10 1 < 2 →
      clImg r % 64 = 0 → clCrew r < 128 → reachable s r.fn (clImg r) 64 = true → s.crewPresent (clCrew r) = true →
      (s.crew (clCrew r)).state = 1 ∨ (s.crew (clCrew r)).state = 5 → writesOpen s r.fn = false →
      exec (.reqCrewLoad i) s = .next (setReq { r with stage := 1 }
        (loadTally (clCrew r) (s.setCrew (clCrew r) { s.crew (clCrew r) with img := clImg r }))))
  ∧ (∀ (s : State) (i : Nat) (r : HostReq), Safety.ReqNew s i 0x03 [(8, 2), (16, 32)] r →
      s.chr.faceLauncherHost = false → faceHere s (leAt r.bytes 8 2) = true → writesOpen s r.fn = false →
      ((s.face (leAt r.bytes 8 2)).state = 3 ∨ (s.face (leAt r.bytes 8 2)).queue.length < 4) →
      exec (.reqFaceLaunch i) s = .next (faceEnqueue (leAt r.bytes 8 2)
        { words := (List.range 8).map (fun k => BitVec.ofNat 32 (leAt r.bytes (16 + 4 * k) 4)), req := some r.id }
        (setReq { r with stage := 1 } s)))
  ∧ (∀ (s : State) (i : Nat) (r : HostReq), Safety.ReqNew s i 0x04 [(8, 1), (16, 8)] r → leAt r.bytes 8 1 < 4 →
      let a := leAt r.bytes 16 8
      reachable s r.fn a 128 = true → (∀ p ∈ pieces a 128, spanHeld s (.host r.fn) p.1 p.2 = false) →
      (s.eng (leAt r.bytes 8 1)).queue.length < 4 → (readPieces (.host r.fn) (pieces a 128) s).2.2 = .ok →
      let d := readPieces (.host r.fn) (pieces a 128) s
      writesOpen s r.fn = false → (shardSubmit (leAt r.bytes 8 1) (wordsOf d.2.1) (some r.id) (setReq { r with stage := 1 } d.1)).waited = false →
      exec (.reqMillShard i) s
        = .next (shardSubmit (leAt r.bytes 8 1) (wordsOf d.2.1) (some r.id) (setReq { r with stage := 1 } d.1)))
  ∧ (∀ (s : State) (i port : Nat) (r : HostReq), Safety.ReqNew s i 0x05 [(16, 32)] r → s.waited = false →
      let ws := (List.range 8).map (fun k => BitVec.ofNat 32 (leAt r.bytes (16 + 4 * k) 4))
      let op := bits 7 0 (vw ws 0)
      (vGood ws = false → exec (.reqVein (i, port)) s = .next (completeReq r.id .badDescriptor 0 [] s))
      ∧ (vGood ws = true → (namesSlot ws = true → ownsSeq (s.fn r.fn) (vSlot ws) = true) → (op = 0x18 → r.fn = 0) →
        op ≠ 0x11 → op ≠ 0x12 → (∀ d ∈ veinDpas ws, reachable s r.fn d.1 d.2 = true) →
        (∀ id ∈ veinPages ws, pageOut s r.fn id = false) → writesOpen s r.fn = false → port < 8 →
        (s.vport port).queue.length < 32 → ringFull (s.vport port) = false →
        exec (.reqVein (i, port)) s = .next (veinForward port r ws s)))
  ∧ (∀ (s : State) (id : Nat) (r : HostReq) (st : Status) (res : Nat) (det : List Byte),
      s.hif.reqs.find? (fun q => q.id == id) = some r → r.dead = false → (s.fn r.fn).cqEn = true → (s.fn r.fn).hold = false →
      (s.fn r.fn).unsig + 1 < max 1 (s.fn r.fn).modCount → 
      ∃ t, completeReq id st res det s = t ∧ t.hif.reqs = s.hif.reqs.filter (fun q => q.id != id)
        ∧ t.out = .dmaWrite r.fn ((s.fn r.fn).cqBase + 32 * (s.fn r.fn).tail)
            (listSet (cqRecord r st res det) 6 (BitVec.ofNat 8 (s.fn r.fn).phase)) :: s.out
        ∧ (t.fn r.fn).outstanding = (s.fn r.fn).outstanding - 1
        ∧ (t.fn r.fn).tail = (if (s.fn r.fn).ringSize ≤ (s.fn r.fn).tail + 1 then 0 else (s.fn r.fn).tail + 1))

/-- Data integrity (R370 to R387). -/
def Obligations.Integrity : Prop :=
  (∀ (s : State) (kind inst line : Nat),
      (∀ e, s.lineErr ⟨kind, inst, line⟩ = some e → e.wb = true → storeAwake s kind inst = true →
        exec (.eccWriteback kind inst line) s = .next (idWrite ⟨kind, inst, line⟩
          (s.delivered ⟨kind, inst, line⟩ (idRead s ⟨kind, inst, line⟩)) (s.cleanLine ⟨kind, inst, line⟩)))
      ∧ (s.lineErr ⟨kind, inst, line⟩ = none → exec (.eccWriteback kind inst line) s = .next s))
  ∧ (∀ s : State, ∃ t, exec .eccLeak s = .next t
      ∧ t = { s with buckets := t.buckets } ∧ t.buckets.map (·.1) = s.buckets.map (·.1)
      ∧ ∀ k, ((Tbl.look {} t.buckets k).level = (Tbl.look {} s.buckets k).level - 1
          ∧ (Tbl.look {} t.buckets k).since = (Tbl.look {} s.buckets k).since))
  ∧ (∀ (s : State) (kind inst part : Nat), s.chr.scrubEn = true → storeIdle s kind inst = true →
      part < (storeParts kind inst).length →
      let k := scrubKey kind inst part
      let l : LineId := ⟨kind, inst, ((storeParts kind inst).getD part (0, 0)).1 + (Tbl.look {} s.scrubs k).line⟩
      let b := Tbl.look {} s.scrubs k
      let start := if b.line = 0 then s.now else b.lapStart
      exec (.scrubRead kind (inst, part)) s = .next (noteRead l (s.verdict l (idRead s l)) true false
        { s with scrubs := Tbl.put s.scrubs k (if b.line + 1 < storeLines kind inst part
            then { line := b.line + 1, lapStart := start, lap := b.lap }
            else { line := 0, lapStart := start, lap := some (min 0xFFFFFF ((s.now - start) / 1000000000)) }) }))
  ∧ (∀ (s : State) (r : Requester) (n : Nat) (v : Word), reachesRegs r = true → s.seamPresent n = true →
      ∃ t, exec (.seamInjArm r n v) s = .next t
        ∧ (t.seam n).inj = [bits 6 0 v.toNat, bits 13 7 v.toNat, bits 20 14 v.toNat, bits 22 21 v.toNat]
        ∧ (t.seam n).injArm = ((s.seam n).injArm || bit 23 v.toNat) ∧ (∀ m, m ≠ n → t.seam m = s.seam m)
        ∧ t.seamMem = s.seamMem ∧ t.crews = s.crews)
  ∧ (∀ (s : State) (c role fails group : Nat) (command : Bool) (lanes : List Nat), role < 2 → s.hewerLive c role = true →
      s.crewRuns c = true →
      let s1 := s.setHewer c role { s.hewer c role with resends := satAdd 0xFFFF (s.hewer c role).resends (min fails 7) }
      (0 < fails → fails < 8 → lanes = [] → exec (.shaftResend c role command fails group lanes) s = .next s1)
      ∧ (8 ≤ fails → exec (.shaftResend c role command fails group lanes) s
          = .next (exhaustShaft c role (if command then 0xFF else group) s1)))
  ∧ (∀ (s : State) (src index dpa u : Nat) (data : List Byte), 1 ≤ src → src ≤ 7 → dpa % 64 = 0 → data.length = 64 →
      u < 32 → chkSnoops s u src index dpa = true → (s.chk u).window = false →
      (∀ w, w < 32 → w ≠ u → chkSnoops s w src index dpa = false) →
      ∃ t, exec (.chkLine src index dpa data) s = .next t
        ∧ (let k := crcKind (s.chk u).poly
           (t.chk u).val = BitVec.ofNat 64 (crcFlip k (crcRun k (crcFlip k (s.chk u).val.toNat) data)))
        ∧ (t.chk u).cnt = (s.chk u).cnt + 64 ∧ (∀ w, w ≠ u → t.chk w = s.chk w) ∧ t.seamMem = s.seamMem)
  ∧ (∀ (s : State) (r : Requester) (u : Nat) (v : Word), reachesRegs r = true → u < 32 →
      (s.chr.veinChk ≤ u → ∃ t, exec (.chkCtrlWrite r u v) s = .next t ∧ (∀ w, t.chk w = if w = u then { s.chk u with
            arm := bit 0 v.toNat, window := bit 1 v.toNat, poly := bits 3 2 v.toNat, src := if bits 7 4 v.toNat ≤ 7 then bits 7 4 v.toNat else 0
            index := bits 16 8 v.toNat
            val := if bit 0 v.toNat ∧ (s.chk u).val = 0 ∧ (s.chk u).cnt = 0
              then BitVec.ofNat 64 (crcKind (bits 3 2 v.toNat)).init else (s.chk u).val
            lines := if (s.chk u).cnt = 0 then [] else (s.chk u).lines } else s.chk w))
      ∧ (u < s.chr.veinChk → exec (.chkCtrlWrite r u v) s
          = .next (logIgnored 0x11 u r (0x03C01000 + 0x40 * u) 3 s)))

/-- A gallery's points, droop and ramps (R399 to R412). -/
def Obligations.GalleryPoints : Prop :=
  (∀ (s : State) (r : Requester) (g : Nat) (v : Word), reachesRegs r = true → g < 32 →
      let t := bits 15 8 v.toNat
      (s.committed = false → exec (.vfTargetWrite r g v) s = .next (govern g (s.setGal g { s.gal g with
        target := bits 3 0 v.toNat, droopTrip := if 20 ≤ t ∧ t ≤ 60 then t else 40 })))
      ∧ (s.committed = true → t = (s.gal g).droopTrip → exec (.vfTargetWrite r g v) s
          = .next (govern g (s.setGal g { s.gal g with target := bits 3 0 v.toNat })))
      ∧ (exec (.droopRearm r g) s = .next (s.setGal g { s.gal g with vmin := 0x3FF, droopTs := 0 }))
      ∧ (exec (.galParkWrite r g v) s = .next (setReasons g (fun x => { x with park := bit 0 v.toNat }) s)))
  ∧ (∀ (s : State) (g : Nat), g < 32 →
      ((s.gal g).raiseOk = true → (s.gal g).moving = false → (s.gal g).reasons = false →
        exec (.vfRaise g) s = .next (s.setGal g { s.gal g with moving := true, raiseOk := false, slewAt := s.now }))
      ∧ ((s.gal g).moving = false → (s.gal g).fenced = false → effPoint s g < (s.gal g).point →
          let s1 := if (s.gal g).waiting || (s.gal g).raiseOk then withdraw g s else s
          exec (.vfLower g) s = .next (recomputeK g (s1.setGal g { s1.gal g with
                point := effPoint s g, goal := effPoint s g, moving := true, slewAt := s1.now })))
      ∧ ((s.gal g).moving = true →
          (s.gal g).slewAt + 100 * (pointMv (s.gal g).goal - (s.gal g).mv + ((s.gal g).mv - pointMv (s.gal g).goal)) ≤ s.now →
          let drawn := if (s.gal g).point < (s.gal g).goal then s.pwr.granted.del g else s.pwr.granted
          exec (.vfSlewDone g) s = .next (govern g (recomputeK g (({ s with pwr := { s.pwr with granted := drawn } }).setGal g
            { s.gal g with moving := false, mv := pointMv (s.gal g).goal, point := (s.gal g).goal }))))
      ∧ (∀ mv, (s.gal g).vmin ≤ mv → mv + (s.gal g).droopTrip < mvNow s g → s.running g = true → (s.gal g).dropping = false →
          exec (.droopTrip g mv) s
            = .next (s.setGal g { s.gal g with dropping := true, events := satInc 0xFFFF (s.gal g).events }))
      ∧ (∀ mv, mv < (s.gal g).vmin → s.running g = false →
          exec (.droopTrip g mv) s = .next (s.setGal g { s.gal g with vmin := mv, droopTs := s.tclk }))
      ∧ (∀ mv, (s.gal g).dropping = true → 2 * mvNow s g < 2 * mv + (s.gal g).droopTrip →
          exec (.droopRecover g mv) s = .next ((noteReading g mv s).setGal g { (noteReading g mv s).gal g with dropping := false }))
      ∧ (∀ mv, (mv < (s.gal g).vmin → noteReading g mv s = s.setGal g { s.gal g with vmin := mv, droopTs := s.tclk })
          ∧ ((s.gal g).vmin ≤ mv → noteReading g mv s = s))
      ∧ (∀ rise, rampLimit s < rise → s.running g = true → (s.gal g).rampTrip = false →
          exec (.rampLimitTrip g rise) s
            = .next (s.setGal g { s.gal g with rampTrip := true, events := satInc 0xFFFF (s.gal g).events }))
      ∧ (∀ rise, rise ≤ rampLimit s → exec (.rampLimitTrip g rise) s = .next (s.setGal g { s.gal g with rampTrip := false }))
      ∧ ((s.gal g).ramp = 1 → (s.gal g).step < rampSteps (s.gal g) →
          exec (.parkRampStep g) s = .next (s.setGal g { s.gal g with step := (s.gal g).step + 1 }))
      ∧ ((s.gal g).ramp = 1 → rampSteps (s.gal g) ≤ (s.gal g).step → exec (.parkRampStep g) s = .next (clockStop g s))
      ∧ ((s.gal g).ramp = 2 → (s.gal g).step = 8 → (s.gal g).partial_ = true → (∃ q ∈ s.pwr.queue, q.1 = g) →
          exec (.unparkRampStep g) s = .next (drawHalf g s))
      ∧ ((s.gal g).ramp = 2 → (s.gal g).step = 8 → (s.gal g).partial_ = true → (∀ q ∈ s.pwr.queue, q.1 ≠ g) →
          exec (.unparkRampStep g) s = .next ((drawHalf g s).setGal g { (drawHalf g s).gal g with step := 9 }))
      ∧ ((s.gal g).halfDrawn = true → drawHalf g s = s)
      ∧ ((s.gal g).halfDrawn = false → ((drawHalf g s).gal g) = { s.gal g with halfDrawn := true }
          ∧ ((∃ q ∈ s.pwr.queue, q.1 = g) → Tbl.look 0 (drawHalf g s).pwr.granted g = 0)
          ∧ ((∀ q ∈ s.pwr.queue, q.1 ≠ g) → Tbl.look 0 (drawHalf g s).pwr.granted g
              = Tbl.look 0 s.pwr.granted g - Tbl.look 0 s.pwr.granted g / 2))
      ∧ ((s.gal g).ramp = 2 → (s.gal g).step ≠ 8 → (s.gal g).step < rampSteps (s.gal g) →
          exec (.unparkRampStep g) s = .next (s.setGal g { s.gal g with step := (s.gal g).step + 1 }))
      ∧ ((s.gal g).ramp = 2 → (s.gal g).step = rampSteps (s.gal g) → (s.gal g).partial_ = false →
          exec (.unparkRampStep g) s = .next (govern g (({ s with pwr := { s.pwr with granted := s.pwr.granted.del g } }).setGal g
            { s.gal g with ramp := 0, step := 0, partial_ := false }))))

/-- DEMAND frames and the ledger (R407 to R410). -/
def Obligations.Ledger : Prop :=
  (∀ (s : State) (slot : Nat) (x : Int) (rest : List (Nat × Int)), s.pwr.steps = (slot, x) :: rest → s.chr.boardDemand = true →
      x % 6480 ≠ 3240 →
      let a := if 3240 < x % 6480 then x / 6480 + 1 else x / 6480
      let lead := slot * 250 - s.tclk.toNat
      let q := (s.pwr.seq + 1) % 16
      (a = 0 → exec .demandFrame s = .next { s with pwr := { s.pwr with steps := rest } })
      ∧ (a ≠ 0 → exec .demandFrame s = .next { s with
          pwr := { s.pwr with steps := rest, seq := q, frames := satInc 0xFFFF s.pwr.frames, late := if lead < 1000 then satInc 0xFF s.pwr.late else s.pwr.late }
          out := .demand ((demandNibbles a (min 0xFFF (lead / 50)) q).map (BitVec.ofNat 8)) :: s.out }))
  ∧ (∀ (s : State) (ms : List Nat), s.brg.foreman = true →
      ∃ t, exec (.ledgerEvaluate ms) s = .next t ∧ t.pwr.headroom = headroom8 t / 2
        ∧ (s.pwr.fresh = [] → s.pwr.sagActive = true ∨ s.pwr.queue = [] →
            t.pwr.granted = s.pwr.granted ∧ t.pwr.queue = s.pwr.queue
            ∧ t.pwr.over_ = decide (4 * s.chr.ledgerLimit < (List.range 32).foldl (fun n g => n + ms.getD g 0) 0)
            ∧ ∀ g, g < 32 → (t.gal g).measured = ms.getD g 0 ∧ ms.getD g 0 ≤ (t.gal g).account))
  ∧ (∀ (s : State) (n g r : Nat) (isRaise half : Bool) (rest : List (Nat × Nat × Bool × Bool)),
      s.pwr.queue = (g, r, isRaise, half) :: rest →
      ((r : Int) ≤ headroom8 s → serveQueue (n + 1) s = serveQueue n (granted g isRaise true { s with pwr := { s.pwr with
        queue := rest, granted := Tbl.put s.pwr.granted g (Tbl.look 0 s.pwr.granted g + r) } }))
      ∧ (headroom8 s < r → half = false → (r : Int) ≤ 2 * headroom8 s → 0 < r →
          serveQueue (n + 1) s = granted g isRaise false { s with pwr := { s.pwr with
            queue := (g, r - r / 2, isRaise, true) :: rest, granted := Tbl.put s.pwr.granted g (Tbl.look 0 s.pwr.granted g + r / 2) } })
      ∧ (headroom8 s < r → half = true → serveQueue (n + 1) s = s))
  ∧ (∀ (s : State) (t0 : Nat), s.pwr.overSince = some t0 → s.pwr.over_ = true → t0 + 10000 ≤ s.now →
      ∃ t, exec .ledgerOver s = .next t ∧ t.pwr.overSince = some s.now ∧ t.pwr.overLogged = true
        ∧ ∀ g, g < 32 → (t.gal g).ledgerClamp
          = if s.running g = true ∧ effPoint s g = topPoint s then topPoint s - 1 else (s.gal g).ledgerClamp)
  ∧ (∀ (s : State) (t0 : Nat), s.pwr.underSince = some t0 → t0 + 1000000 ≤ s.now → s.brg.foreman = true →
      (∃ g, g < 32 ∧ (s.gal g).ledgerClamp < 16) →
      ∃ t, exec .ledgerClampRelease s = .next t ∧ t.pwr.underSince = some s.now
        ∧ ∀ g, g < 32 → (t.gal g).ledgerClamp = min 16 ((s.gal g).ledgerClamp + 1))

/-- Clock loss, ageing, the survey's writes and the rails (R393, R397, R402, R413, R458, R507). -/
def Obligations.ClocksAndRails : Prop :=
  (∀ (s : State) (d g : Nat), s.brg.powered = true → g < 32 →
      let ev := fun (k : Clk) => logEvent 0x05 0 0x0404 [(0, 1, d), (1, 1, if d = 8 then g else 0)] { s with clk := k }
      let lost := Nat.lor s.clk.lost (2 ^ d)
      (d = 8 → exec (.clockLoss d g) s = .next (fenceGal g true (ev { s.clk with hclk := true, gallery := g })))
      ∧ (d = 7 → exec (.clockLoss d g) s = .next (stockCtrlReset (ev { s.clk with lost := lost })))
      ∧ (d = 6 → ∃ t, exec (.clockLoss d g) s = .next t ∧ t.clk.pclkLost = true ∧ t.clk.lost = lost)
      ∧ (d = 5 → exec (.clockLoss d g) s = .next (foremanReset 1 (ev { s.clk with lost := lost, fallback := true })))
      ∧ (d < 5 → exec (.clockLoss d g) s = .next (warmReset 2 true (ev { s.clk with lost := lost }))))
  ∧ (∀ (s : State) (n : Word) (e : Event) (rest : List (Word × Event)), s.evt.trace = (n, e) :: rest →
      s.chr.auxTrace ≠ none → s.brg.charterDone = true →
      exec .traceRecord s = .next { s with evt := { s.evt with trace := rest }, out := .trace (0xA5 :: recordBytes n e) :: s.out })
  ∧ (∀ (s : State) (g n : Nat) (v m : Int), g < 32 → n < 16 → s.running g = true → corePresent s g n = true →
      (s.core g n).slack = some m → s.now < (s.core g n).slackAt + 1000000000 →
      exec (.cpmMeasure [(g, n, v)]) s = .next (s.setCore g n { s.core g n with slack := some (if v < m then v else m) }))
  ∧ (∀ (s : State) (g n : Nat) (m : Int), g < 32 → n < 16 → s.brg.foreman = true → (s.core g n).slack = some m →
      (s.core g n).slackAt + 1000000000 ≤ s.now → m < Config.guardBand (16 * g + n) →
      ∃ t, exec (.ageingReduction g n) s = .next t ∧ (t.core g n).aged = (s.core g n).aged + 1
        ∧ (t.core g n).slack = none ∧ t.brg.ageUnwritten = s.brg.ageUnwritten ++ [(16 * g + n, (s.core g n).aged + 1, s.now)])
  ∧ (∀ (s : State) (a : Nat × Nat × Nat), s.brg.foreman = true → s.brg.unwritten = [] → s.brg.remapUnwritten = [] →
      s.brg.ageUnwritten = [a] → surveyNow s = some (false, s.brg.surveyA) → (surveyEntries s).length < surveyRoom →
      ∃ t, exec .surveyWrite s = .next t ∧ t.brg.ageUnwritten = [] ∧ t.brg.surveyA = s.brg.surveyA
        ∧ t.brg.surveyB.valid = true ∧ t.brg.surveyB.count = (max s.brg.surveyA.count s.brg.surveyB.count + 1) % 2 ^ 32
        ∧ t.brg.surveyB.entries = s.brg.surveyA.entries ++ [{ kind := 3, cause := 0, grain := 2, index := a.1, data := a.2.1 }])
  ∧ (∀ (s : State) (g kind mv cur : Nat), g < 32 → (s.gal g).fenced = false →
      (kind = 0 ∧ mvNow s g + 80 < mv) ∨ (kind = 1 ∧ mv + 100 < mvNow s g) ∨ (kind = 2 ∧ 360 < cur) →
      let f := (logEvent 0x07 g 0x0406 [(0, 1, g), (1, 1, kind), (2, 2, mv)] s).fresh
      let u := fenceGal g false f.2
      exec (.regFault g kind (mv, cur)) s = .next (if f.1 % 2 = 1
          then (crewsOf g).foldl (fun s c => if s.crewPresent c then loseCrew c s else s) (u.setGal g { u.gal g with lostState := true })
          else u)
        ∧ (u.gal g).fenced = true ∧ (u.gal g).rFence = true ∧ g ∈ u.glb.galFenced)
  ∧ (∀ (s : State) (rail mv : Nat), rail ≠ 1 → rail ≠ 2 →
      (warnsAt s rail mv = true → rail ∉ s.pwr.warn → s.pwr.sagIrq = false →
        ∃ t, exec (.railWarning rail mv) s = .next t ∧ t.pwr.warn = s.pwr.warn ++ [rail] ∧ t.pwr.warned = true
          ∧ t.pwr.sagActive = true ∧ t.pwr.sagClamp = (s.pwr.sagClamp || s.pwr.sagClampEn))
      ∧ (s.brg.powered = true → resetsAt s rail mv = true → exec (.pwrSagReset rail mv) s
          = .next (warmReset 1 (rail != 4) (logEvent 0x03 0 0x0403 [(0, 1, rail), (2, 2, mv)]
              { s with pwr := { s.pwr with resetRail := rail } }))))
  ∧ (∀ (s : State) (rail mv : Nat), s.pwr.warn = [rail] →
      (rail = 1 ∧ 1730 < mv) ∨ (rail = 3 ∧ 720 < mv) ∨ (3 < rail ∧ 96 * railNominal s rail < 100 * mv) →
      let s1 := noteVin rail mv s
      exec (.railWarningClear (rail, mv)) s = .next { s1 with pwr := { s1.pwr with warn := [], clearAt := some s.now } })
  ∧ (∀ (s : State) (t0 : Nat), s.pwr.clearAt = some t0 → t0 + 1000000 ≤ s.now → exec .sagClampLift s
      = .next (governAll { s with pwr := { s.pwr with sagActive := false, sagClamp := false, clearAt := none } }))

/-- Thermal control (R417 to R434). -/
def Obligations.ThermalControl : Prop :=
  (∀ (s : State) (n : Nat), s.brg.powered = true → n < 624 → (s.can n).failed = false →
      let rules := fun t => if 240 ≤ n then pairRules ((n - 240) / 2) t else t
      (∀ v : Int, -320 ≤ v → v ≤ 1200 → exec (.canaryConvert n (some v)) s
          = .next (rules (s.setCan n { s.can n with reading := v, have_ := true, bad := 0 })))
      ∧ ((s.can n).bad ≠ 2 → exec (.canaryConvert n none) s = .next (rules (s.setCan n { s.can n with bad := (s.can n).bad + 1 })))
      ∧ ((s.can n).bad = 2 → exec (.canaryConvert n none) s = .next (rules (logEvent 0x04 0 0x0506
            [(0, 1, 0), (2, 2, sensorCode n)] ({ s with thm := { s.thm with tripAsserted := setDel n s.thm.tripAsserted } }.setCan n
              { s.can n with failed := true, bad := 3 })))))
  ∧ (∀ s : State, s.brg.powered = true → s.brg.foreman = true →
      let m := modelMeasures s
      ∃ t, exec .modelEvaluate s = .next t ∧ t.thm.evaluated = true
      ∧ (∀ g, g < 32 → (t.gal g).model = Config.thermalNode s.chr.thermalModel
            ((List.range 144).map (fun i => Tbl.look 0 s.thm.nodes i)) (modelInputs s m.2.1 m.2.2) (8 * compPos (g / 8) + g % 8)))
  ∧ (∀ (s : State) (g key : Nat) (c : Cause), g < 32 → s.brg.foreman = true → (s.gal g).causes = [(key, c)] →
      mayRise s g key c = true → exec (.thermalClampRise g) s = .next (govern g (s.setGal g { s.gal g with causes := [(key,
        { c with pt := c.pt + 1, riseAt := if c.pt = 15 then none else some s.now })] })))
  ∧ (∀ (s : State) (n : Nat) (v : Int), v < tripAt n → exec (.hardTrip n v) s
      = .next { s with thm := { s.thm with tripAsserted := setDel n s.thm.tripAsserted } })
  ∧ (∀ (s : State) (n : Nat) (v : Int), s.brg.powered = true → n < 624 → (s.can n).failed = false → tripAt n ≤ v →
      let s1 : State := { s with thm := { s.thm with tripAsserted := setAdd n s.thm.tripAsserted } }
      exec (.hardTrip n v) s = .next (stopStack 4 0x0503
        (logEvent 0x04 0 0x0503 [(0, 1, sensorPos n), (2, 2, sensorCode n), (4, 2, tc 16 v)]) s1))
  ∧ (∀ s : State, s.brg.charterDone = true → s.chr.air = false →
      (s.chr.flowOkEn = true → exec .flowOkLow s = .next (stopStack 1 0x0509 logCoolantStop s))
      ∧ (∀ t0, s.thm.dpLowSince = some t0 → t0 + 1000000 ≤ s.now →
          exec .dpCollapse s = .next (stopStack 2 0x0509 logCoolantStop s)))
  ∧ (∀ (s : State) (b code : Nat) (ev : State → State), s.thm.stopped = true →
      stopStack b code ev s = { s with thm := { s.thm with cause := Nat.lor s.thm.cause b } })
  ∧ (∀ (s : State) (r : Requester), reachesRegs r = true →
      (s.thm.stopped = false → exec (.thmRestart r) s = .next s)
      ∧ (s.thm.stopped = true →
          let u := if !s.chr.air && s.chr.flowOkEn then s.fresh.2 else s
          let why := restartFails s (s.fresh.1 % 2 == 1)
          let s1 := logEvent 0x04 0 0x050A [(0, 1, if why = 0 then 0 else 1), (1, 1, why)] u
          (why ≠ 0 → exec (.thmRestart r) s = .next { s1 with thm := { s1.thm with refused := true } })
          ∧ (why = 0 → exec (.thmRestart r) s = .next (restartStack s1) ∧ (s.heldReqs = [] → s.launchWait = [] → (restartStack s1).thm.stopped = false))))

/-- Cooling (R428 to R436). -/
def Obligations.Coolant : Prop :=
  (∀ (s : State), s.brg.charterDone = true → s.chr.air = false →
      (∀ (i o : Int) (dp : Nat), ∃ t, exec (.coolantSample i o dp) s = .next t ∧ t.thm.inlet = i ∧ t.thm.outlet = o ∧ t.thm.dp = dp
          ∧ (s.chr.dpNom ≤ 4 * dp → t.thm.dpLowSince = none)
          ∧ (4 * dp < s.chr.dpNom → s.thm.dpLowSince = none → t.thm.dpLowSince = some s.now)
          ∧ t.gals = s.gals ∧ t.thm.duty = s.thm.duty)
      ∧ (s.chr.auxFlow ≠ none → exec .flowPulse s
          = .next { s with thm := { s.thm with pulses := s.thm.pulses + 1, lastPulse := s.now } })
      ∧ (s.chr.flowSrcPressure = false → s.thm.pulseFailed = false → ∃ t, exec .flowWindowUpdate s = .next t
          ∧ t.thm.pulseWin = (s.thm.pulses :: s.thm.pulseWin).take 10 ∧ t.thm.pulses = 0
          ∧ (t.thm.pulseFailed = true ↔ s.thm.lastPulse + 100000000 ≤ s.now ∧ s.chr.dpNom < 2 * s.thm.dp))
      ∧ (∀ level, s.thm.level < level → level = levelDue s → ∃ t, exec (.flowLevel level) s = .next t ∧ t.thm.level = level
          ∧ (2 ≤ level → ∀ g, g < 32 → (t.gal g).coolantClamp = 8)
          ∧ (level = 3 → ∀ g, g < 32 → bit g s.chr.coolKeep = false → (t.gal g).rCoolant = true))
      ∧ (∀ level, s.thm.level = level + 1 → s.brg.foreman = true → held s.now 1000000000 s.thm.aboveSince = true →
          exec (.flowLevel level) s = .next (levelTake s.thm.level level s)))
  ∧ (∀ (s : State) (g : Nat) (rest : List Nat), s.thm.unparkQ = g :: rest → s.thm.stopped = false →
      exec .coolantUnparkTick s = .next (setReasons g (fun x => { x with rCoolant := false })
        { s with thm := { s.thm with unparkQ := rest } }))
  ∧ (∀ s : State, s.brg.charterDone = true → s.brg.foreman = true → s.chr.air = false →
      (s.thm.level ≠ 0 → ∃ t, exec .valveLoop s = .next t ∧ t.thm.duty = 1024 ∧ t.thm.forced = true
          ∧ t.out = if s.chr.auxValve.isSome then .valve 1024 s.chr.valveHz :: s.out else s.out)
      ∧ (s.thm.level = 0 → s.thm.stopped = false → 100 * (flowFrac s).2 ≤ (flowFrac s).1 →
          ∃ t, exec .valveLoop s = .next t ∧ t.thm.duty = dutyOf s (Config.piDuty s.chr.gains s.thm.integ (s.thm.outlet - (s.chr.outSet : Nat)))
            ∧ t.thm.forced = false ∧ (s.chr.valveMin ≤ 1024 → s.chr.valveMin ≤ t.thm.duty ∧ t.thm.duty ≤ 1024)))
  ∧ (∀ s : State, (smbUp s = false → ∀ q, exec (.pldmRequest q) s = .next s)
      ∧ (∀ t0, s.thm.airReportAt = some t0 → t0 + 10000000000 ≤ s.now → exec .inletReportTimeout s
          = .next { s with thm := { s.thm with airInlet := 320, airReportAt := none } }))
  ∧ (∀ s : State, smbUp s = true →
      (∀ id v, pldmSensor s id = some v → exec (.pldmRequest (.readSensor id)) s = .next { s with out := .pldm 0 v :: s.out })
      ∧ (∀ id, 11 < id → exec (.pldmRequest (.readSensor id)) s = .next { s with out := .pldm 0x80 0 :: s.out })
      ∧ (∀ t, exec (.pldmRequest (.setInletAir t)) s = .next { s with
            thm := { s.thm with airInlet := t, airReportAt := some s.now }, out := .pldm 0 0 :: s.out }))

/-- The resets of the block and its parts (R438, R448, R455 to R457). -/
def Obligations.StackResets : Prop :=
  (∀ s : State, ∃ t, exec .powerOn s = .next t ∧ t.fuses = s.fuses ∧ t.crews = [] ∧ t.hewers = [] ∧ t.seamMem = [] ∧ t.binMem = []
      ∧ t.stockMem = [] ∧ t.errs = [] ∧ t.committed = false ∧ t.brg.powered = true ∧ t.brg.surveyA = s.brg.surveyA
      ∧ t.brg.surveyB = s.brg.surveyB ∧ t.tclk = 0 ∧ t.pending = s.pending)
  ∧ (∀ (s : State) (r : Requester) (v : Word), reachesRegs r = true →
      (s.brg.foreman = false → exec (.warmReset r v) s = .next s ∧ exec (.surveyDiscard r) s = .next s)
      ∧ (s.brg.foreman = true → warmKey v = false → exec (.warmReset r v) s
          = .next { s with brg := { s.brg with keepDram := bit 0 v.toNat, discard := s.brg.discard || bit 1 v.toNat } })
      ∧ (s.brg.foreman = true → exec (.surveyDiscard r) s = .next { s with brg := { s.brg with discard := true } })
      ∧ (s.brg.foreman = true → s.evt.held = [] → warmKey v = true → ∃ b, exec (.warmReset r v) s = .next (bootRom b)
          ∧ b.glb.resetCause = 3 ∧ b.brg.warm = true ∧ b.seamMem = s.seamMem ∧ b.stockMem = s.stockMem ∧ b.fuses = s.fuses
          ∧ b.evt.ring = s.evt.ring ∧ b.evt.next = s.evt.next
          ∧ b.pwr.resetRail = s.pwr.resetRail ∧ b.pwr.vinMin = s.pwr.vinMin ∧ b.crews = [] ∧ b.hewers = [] ∧ b.drs = []
          ∧ b.storeMem = [] ∧ b.lsMem = [] ∧ b.tlyMem = [] ∧ b.binMem = [] ∧ b.committed = false
          ∧ (bootRom b).glb = b.glb ∧ (bootRom b).seamMem = b.seamMem ∧ (bootRom b).crews = b.crews))
  ∧ (∀ (s : State) (cause : Nat), s.brg.powered = true → s.chr.auxValve = none → s.sec.session = none →
      ∃ t, exec (.foremanReset cause) s = .next t ∧ t.brg.foreman = false ∧ t.brg.foremanCause = cause ∧ t.brg.foremanAt = s.now
        ∧ t.thm.duty = 1024 ∧ t.thm.forced = true ∧ t.sec.spdms = [] ∧ t.crews = s.crews ∧ t.seamMem = s.seamMem
        ∧ (s.brg.state = 1 → t.brg.state = 4 ∧ t.brg.status = Status.code .abortedByReset)
        ∧ (s.brg.state ≠ 1 → t.brg.state = s.brg.state ∧ t.brg.status = s.brg.status))
  ∧ (∀ s : State, s.brg.foreman = false → copiesRun { s with brg := { s.brg with foreman := true } } = false →
      exec .foremanResume s = .next (logEvent 0x01 0 0x0605 [(0, 1, s.brg.foremanCause), (4, 4, s.evt.lost)] (flushHeld s)))
  ∧ (∀ s : State, ∃ t, exec .stockpileCtrlReset s = .next t ∧ t.brg.stockReset = true ∧ t.brg.stockSelf = true
      ∧ t.stockMem = s.stockMem)
  ∧ (∀ s : State, s.brg.stockReset = true → exec .stockpileCtrlResetEnd s
      = .next (serveHeld { s with brg := { s.brg with stockReset := false, stockSelf := s.thm.stopped } }))

/-- The steps of bring-up (R438 to R454). That an image verifies is the model's free functions of R466; CHARTER's clause holds
whatever they answer. -/
def Obligations.BringupSteps : Prop :=
  (∀ (s : State) (img : CharterRead), s.brg.step = 14 → s.brg.state = 1 → s.brg.powered = true → s.brg.foreman = true →
      (img.flashOk = false → ∃ t, exec (.brgCharter img) s = .next t ∧ t.brg.state = 5 ∧ t.brg.chResult = 3 ∧ t.brg.featA = 6
        ∧ t.brg.charterDone = false ∧ t.hif.apt = [])
      ∧ (img.flashOk = true →
          let r := selectAll [6, 2, 3, 4, 5] s
          let c := chrOf s.fuses.variantA img
          ∃ t, exec (.brgCharter img) s = .next t
            ∧ (r.2 = none ∧ chFirstInvalid s.fuses.variantA img = none ∧ chConflict c = none →
                t = charterGood c r.1 ∧ t.brg.charterDone = true ∧ t.brg.state = 2 ∧ t.chr = c)
            ∧ (∀ k, r.2 = some k → t = charterFails 3 k 0 0 r.1)
            ∧ (∀ n, r.2 = none → chFirstInvalid s.fuses.variantA img = some n → t = charterFails 1 n 0 0 r.1)))
  ∧ (∀ s : State, stepRuns 1 s = true →
      (∀ second v, surveyNow s = some (second, v) → ∃ t, exec .brgFuses s = .next t ∧ t.brg.entries = v.entries ∧ t.brg.lost = false
          ∧ t.brg.result = some (2, .ok, 0))
      ∧ (surveyNow s = none → s.brg.discard = true → ∃ t, exec .brgFuses s = .next t ∧ t.brg.entries = [] ∧ t.brg.lost = true
          ∧ t.brg.result = some (2, .ok, 0))
      ∧ (surveyNow s = none → s.brg.discard = false → exec .brgFuses s
          = .next { s with brg := { s.brg with result := some (4, .uncorrectable, 0) } }))
  ∧ (∀ s : State,
      (stepRuns 2 s = true → s.brg.assayBad = [] → essentialLost [] s = false →
        exec (.assayB []) s = .next { s with brg := { s.brg with result := some (2, .ok, 0) } })
      ∧ (stepRuns 2 s = true → ∀ f rest, f.grain = 0 → ∃ t, exec (.assayB (f :: rest)) s = .next t
          ∧ t.brg.result = some (4, .unitFault, 0))
      ∧ (stepRuns 3 s = true → exec (.assayS []) s = .next { s with brg := { s.brg with result := some (2, .ok, 0) } }
          ∧ ∀ f rest, exec (.assayS (f :: rest)) s
              = .next (verdict 4 .unitFault 0 ((f :: rest).foldl (fun s f => checkerLog f s) s)))
      ∧ (stepRuns 4 s = true → s.brg.assayBad = [] → keeps s = false → s.glb.groups ≠ 0 → exec (.assayD [] []) s
          = .next { s with seamMem := [], errs := s.errs.filter (fun e => e.kind != 0)
                           brg := { s.brg with result := some (2, .ok, 0) } })
      ∧ (stepRuns 5 s = true → s.brg.assayBad = [] → (∃ c, c < 128 ∧ crewGood s c = true) → exec (.assayC []) s
          = .next { s with brg := { s.brg with result := some (2, .ok, 0) } }))
  ∧ (∀ s : State,
      (stepRuns 6 s = true → exec (.brgGrade true) s
          = .next (verdict 2 .ok 0 { writeSurvey (surveyEntries s ++ assayEntries s) s with glb := gradeGlb s })
          ∧ (∀ c, c < 128 → (c ∈ (gradeGlb s).badCrews ↔ crewGood s c = false)))
      ∧ (stepRuns 7 s = true → s.glb.stock ≠ 0 → ∃ t, exec (.brgStockpile ([], [])) s = .next t ∧ t.glb = s.glb
          ∧ t.brg.result = some (2, .ok, 0) ∧ (keeps s = true → t.stockMem = s.stockMem) ∧ (keeps s = false → t.stockMem = []))
      ∧ (stepRuns 8 s = true → ∃ t, exec (.brgBroadcast ([], [])) s = .next t ∧ t.brg.result = some (2, .ok, 0)
          ∧ ((∀ c, c < 128 → s.crewPresent c = true → (s.crew c).fenced = false) → t.sec.crewMicro = true)
          ∧ (∀ c, c < 128 → s.crewPresent c = true → (s.crew c).fenced = false → (t.crew c).microcode = true ∧ (t.crew c).state = 1)
          ∧ (∀ g, g < 32 → (crewsOf g).any s.crewPresent = true → (t.gal g).rBoot = false))
      ∧ (stepRuns 9 s = true → ∃ t, exec .brgAditTrain s = .next t ∧ t.brg.result = some (2, .ok, 0)
          ∧ (∀ a, a < 48 → aditOn s a = true → (t.adit a).state = 1))
      ∧ (stepRuns 10 s = true → ∃ t, exec .brgAditQualify s = .next t ∧ t.brg.result = some (2, .ok, 0)
          ∧ (∀ a, a < 48 → aditOn s a = true → (s.adit a).state = 3 → (t.adit a).qualSent = true
              ∧ ((s.adit a).qualGot = true → (t.adit a).state = 4)))
      ∧ (stepRuns 11 s = true → ∃ t, exec .brgReady s = .next t ∧ t.committed = true ∧ t.hif.pickup = true ∧ t.fld.ready = true
          ∧ t.brg.result = some (2, .ok, 0) ∧ (∃ m, m = Tbl.look {} t.members s.fld.id ∧ m.member = true ∧ m.serial = s.fuses.serial.toNat)))
  ∧ (∀ (s : State), s.brg.state = 1 → s.thm.stopped = false → s.brg.foreman = true →
      (∀ v, s.brg.step ≠ 14 → s.brg.step ≠ 9 → s.brg.step ≠ 10 → s.brg.step ≠ 11 → s.brg.step ≠ 2 → s.brg.result = some v →
        (v.1 = 2 ∨ v.1 = 3) → ∃ t, exec .brgStepEnd s = .next t ∧ t.brg.state = v.1 ∧ t.brg.status = v.2.1.code
          ∧ t.brg.detail = v.2.2 % 4096 ∧ t.brg.done = s.brg.step ∧ t.brg.result = none)
      ∧ (s.brg.powered = true → s.brg.step ≠ 9 → s.brg.step ≠ 10 → s.brg.result = none →
          s.brg.stepAt + s.brg.stepPaused + 1000000 * stepLimit s.brg.step ≤ s.now →
          ∃ t, exec .stepTimeout s = .next t ∧ t.brg.state = 4 ∧ t.brg.status = Status.code .timeout ∧ t.brg.detail = 0
            ∧ t.brg.done = s.brg.done))
  ∧ (∀ (s : State) (b : Bool), s.sec.ovLoading = true →
      exec (.overseerLoadDone true b) s = .next { s with sec := { s.sec with ovLoading := false, ovReset := false } }
      ∧ (let u := reRead 2 true { s with sec := { s.sec with ovLoading := false } }
         exec (.overseerLoadDone false true) s = .next { u with sec := { u.sec with ovReset := false } })
      ∧ exec (.overseerLoadDone false false) s = .next (reRead 2 false { s with sec := { s.sec with ovLoading := false } }))

/-- Updating an image (R473 to R477, R480, R482). -/
def Obligations.Firmware : Prop :=
  (∀ (s : State) (pldm : Bool) (k n : Nat), updReady pldm s = true → 1 ≤ k → k ≤ 6 →
      (s.sec.session = none → (s.img k).st ≤ 1 → exec (.secBegin pldm k n) s = .next (updTaken pldm .ok { s with sec := { s.sec with
        session := some { pldm := pldm, total := n, recv := [] }, phase := 1, ready := true, kind := k, recvCount := 0 } }))
      ∧ (s.sec.session ≠ none → pldm = false → exec (.secBegin pldm k n) s
          = .next { s with sec := { s.sec with status := Status.code .denied } }))
  ∧ (∀ (s : State) (k n : Nat), s.sec.ready = false →
      exec (.secBegin false k n) s = .next { s with sec := { s.sec with orderErr := true } })
  ∧ (∀ (s : State) (x : Session) (pldm : Bool) (chunk : List Byte), s.brg.foreman = true → s.sec.session = some x → x.pldm = pldm →
      s.sec.ready = true → chunk.length % 4 = 0 → 4 ≤ chunk.length → chunk.length ≤ 65536 →
      x.recv.length + chunk.length ≤ x.total →
      let x' := { x with recv := x.recv ++ chunk, chunk := chunk.length }
      let u : State := { s with sec := { s.sec with session := some x', recvCount := (x.recv ++ chunk).length } }
      let answer := fun (t : State) => if pldm then { t with out := .pldmFw 0 :: t.out } else t
      (s.sec.phase = 1 → x.recv.length + chunk.length < 0x4400 → exec (.secPush pldm chunk) s = .next (answer u))
      ∧ (s.sec.phase = 3 → exec (.secPush pldm chunk) s = .next (answer { u with sec := { u.sec with ready := false } })))
  ∧ (∀ (s : State) (x : Session) (pldm : Bool) (h : ImgHdr), s.brg.foreman = true → s.sec.session = some x → x.pldm = pldm →
      x.hdr = some h → s.sec.phase = 3 → s.sec.ready = true → x.recv.length = x.total →
      ∃ t, exec (.secEnd pldm) s = .next t ∧ t.sec.session = none
        ∧ (if Config.sha384 (x.recv.drop 0x4400) = h.bodyDigest then (t.img s.sec.kind).st = 3 ∧ (t.img s.sec.kind).boots = 0
            ∧ (t.img s.sec.kind).run = some { hdr := h, body := x.recv.drop 0x4400 } ∧ t.sec.status = 0
          else (t.img s.sec.kind).st = 4 ∧ t.sec.status = Status.code .denied))
  ∧ (∀ (s : State) (x : Session) (pldm : Bool), s.brg.foreman = true → s.sec.session = some x → x.pldm = pldm → s.sec.ready = true →
      ∃ t, exec (.secAbort pldm) s = .next t ∧ t.sec.session = none ∧ t.sec.status = 0
        ∧ ((s.img s.sec.kind).st = 2 → (t.img s.sec.kind).st = 4))
  ∧ (∀ s : State, s.brg.foreman = true → s.sec.ready = true →
      (∀ k, (s.img k).st = 3 → ∃ t, exec (.secRevert k) s = .next t ∧ (t.img k).st = 4 ∧ (t.img k).reverted = true)
      ∧ exec .secFactory s = .next { s with fuses := { s.fuses with startUp := true } })
  ∧ (∀ (s : State), smbUp s = true →
      (∀ k n, exec (.pldmFwUpdate (.begin_ k n)) s = .next (updBegin true k n s) ∧ exec (.secBegin true k n) s = .next (updBegin true k n s))
      ∧ (∀ c, exec (.pldmFwUpdate (.push c)) s = .next (updPush true c s) ∧ exec (.secPush true c) s = .next (updPush true c s))
      ∧ (exec (.pldmFwUpdate .end_) s = .next (updEnd true s) ∧ exec (.secEnd true) s = .next (updEnd true s))
      ∧ (exec (.pldmFwUpdate .abort) s = .next (updAbort true s) ∧ exec (.secAbort true) s = .next (updAbort true s)))
  ∧ (∀ (s : State) (q : FwCommand), smbUp s = false → exec (.pldmFwUpdate q) s = .next s)
  ∧ (∀ s : State, s.sec.session ≠ none → s.sec.phase = 3 →
      exec .updateChunkDone s = .next { s with sec := { s.sec with ready := true } })
  ∧ (∀ (s : State) (k : Nat), s.brg.foreman = true →
      (s.sec.session ≠ none → s.sec.kind = k → s.sec.phase = 2 → ∃ t, exec (.reserveCopyDone k) s = .next t ∧ (t.img k).st = 2
          ∧ (t.img k).run = none ∧ (t.img k).reserve = copySource (s.img k) ∧ t.sec.phase = 3 ∧ t.sec.ready = true)
      ∧ (∀ restore, s.sec.session = none → s.sec.copying = [(k, restore)] → ∃ t, exec (.reserveCopyDone k) s = .next t
          ∧ (t.img k).st = 0 ∧ t.sec.copying = []
          ∧ (restore = true → (t.img k).run = (s.img k).reserve) ∧ (restore = false → (t.img k).reserve = copySource (s.img k))))

/-- Confirming an image and falling back (R468, R478 to R480, R483). The code of the reset's cause is the model's free value
(log entry 117). -/
def Obligations.Confirmation : Prop :=
  (∀ (s : State) (k : Nat) (b : Image), (s.img k).booted = some b → (s.img k).st = 3 → (s.img k).boots ≠ 0 →
      (s.img k).fromReserve = false → (s.img k).reverted = false → (s.img k).fuseFail = false →
      (∀ (o : Nat) (v : Word), k = 2 → bit 0 v.toNat = true → (∃ t, exec (.secConfirm (.overseer o) v true) s = .next t
            ∧ t.counter 2 = max (s.counter 2) b.hdr.svn ∧ (t.img 2).st < 2)
          ∧ (∀ f slot, firstFuse s 2 b.hdr = some (f, slot) → exec (.secConfirm (.overseer o) v false) s
            = .next (logEvent 0x12 0 0x0705 [(0, 1, 2), (1, 1, f), (2, 1, slot)] (s.setImg 2 { s.img 2 with fuseFail := true }))))
      ∧ (∀ t0, (k = 1 ∨ (k = 3 ∧ s.sec.crewMicro = true) ∨ k = 4 ∨ k = 5 ∨ k = 6) → s.sec.readyAt = some t0 →
          t0 + 60000000000 ≤ s.now → s.sec.foremanResetSinceReady = false → s.brg.foreman = true →
          ∃ t, exec (.confirmTimer true) s = .next t ∧ t.counter k = max (s.counter k) b.hdr.svn ∧ (t.img k).st < 2)
      ∧ (∀ t0, s.sec.readyAt = some t0 → t0 + 600000000000 ≤ s.now → s.brg.foreman = true →
          ∃ t, exec (.confirmWindowExpiry k) s = .next t ∧ (t.img k).st = 4 ∧ (t.img k).reverted = true
            ∧ t.sec.revertAt = some (s.sec.revertAt.getD s.now)))
  ∧ (∀ (s : State) (v : Word) (ok : Bool), exec (.secConfirm .foreman v ok) s
      = .next (logIgnored 0x12 0 .foreman 0x03D00114 1 s))
  ∧ (∀ (s : State) (t0 : Nat), s.sec.revertAt = some t0 → t0 + 1000000000 ≤ s.now → s.brg.foreman = true →
      ∃ c, c < 5 ∧ exec .revertReset s = .next (warmReset c true { s with free := s.free + 1 }))
  ∧ (∀ s : State, (s.img 1).booted.isSome = true → s.brg.foreman = true →
      exec .aliasKeysReady s = .next { s with sec := { s.sec with attestReady := true } })

/-- SPDM answers up to the measurements (R484 to R488; phases and error codes are log entry 62's). -/
def Obligations.SpdmConnection : Prop :=
  ∀ (s : State) (ch : SpdmChannel), s.brg.foreman = true → (s.img 1).booted.isSome = true → (takeRequest ch s).isSome = true →
    let s1 := (takeRequest ch s).getD s
    let x := s.spdmOf ch
    (exec (.spdmGetVersion ch) s = .next (spdmAnswer ch (.version 0x13) (s1.setSpdm ch { version := true }))
      ∧ ((spdmAnswer ch (.version 0x13) (s1.setSpdm ch { version := true })).spdmOf ch).algs = false)
    ∧ (x.version = true → exec (.spdmGetCapabilities ch) s
        = .next (spdmAnswer ch (.capabilities 4096 65536) (s1.setSpdm ch { x with caps := true })))
    ∧ (x.caps = true → ∃ t, exec (.spdmNegotiateAlgorithms ch) s = .next t ∧ (t.spdmOf ch) = { x with algs := true })
    ∧ (x.algs = true →
        exec (.spdmGetDigests ch) s = .next (spdmAnswer ch (.digests [Config.sha384 (slotChain 0 s), Config.sha384 (slotChain 1 s)]) s1)
        ∧ (∀ slot off len, let part := ((slotChain slot s).drop off).take (min len 4080)
            exec (.spdmGetCertificate ch slot off len) s
              = .next (spdmAnswer ch (if slot ≤ 1 ∧ off < (slotChain slot s).length
                  then .certificate slot part ((slotChain slot s).length - off - part.length) else .error spdmInvalid) s1))
        ∧ (∀ slot nonce, slot ≤ 1 → s.sec.attestReady = false →
            exec (.spdmChallenge ch slot nonce) s = .next (spdmAnswer ch (.error spdmBusy) s1))
        ∧ (∀ slot nonce, slot ≤ 1 → s.sec.attestReady = true → ∃ t tr, exec (.spdmChallenge ch slot nonce) s = .next t
            ∧ t.out = .spdm ch (.challengeAuth slot nonce (Config.aliasSign 0 (aliasKey 0 s) tr)
                (Config.aliasSign 1 (aliasKey 1 s) tr)) :: s1.out
            ∧ (t.spdmOf ch).chunkOut ≠ none)
        ∧ (∀ nonce bs, measAsked 0xFF s = some bs → ∃ t, exec (.spdmGetMeasurements ch 0xFF false nonce) s = .next t
            ∧ t = spdmAnswer ch (.measurements bs.length bs nonce none) s1
            ∧ (∀ i m, 1 ≤ i → i ≤ 6 → (s.img i).booted = some m → (i, Config.sha384 m.hdr.signed, some (m.hdr.version, m.hdr.svn)) ∈ bs))
        ∧ (∀ index nonce bs, measAsked index s = some bs → s.sec.attestReady = true → ∃ t n g,
            exec (.spdmGetMeasurements ch index true nonce) s = .next t ∧ t.out = .spdm ch (.measurements n bs nonce (some g)) :: s1.out))
    ∧ (x.algs = false → ∀ slot off len nonce signed,
        exec (.spdmGetDigests ch) s = .next (spdmAnswer ch (.error spdmUnexpected) s1)
        ∧ exec (.spdmGetCertificate ch slot off len) s = .next (spdmAnswer ch (.error spdmUnexpected) s1)
        ∧ exec (.spdmChallenge ch slot nonce) s = .next (spdmAnswer ch (.error spdmUnexpected) s1)
        ∧ exec (.spdmGetMeasurements ch slot signed nonce) s = .next (spdmAnswer ch (.error spdmUnexpected) s1))

/-- SPDM sessions and chunks (R485 to R489; phases and error codes are log entry 62's). -/
def Obligations.SpdmSessions : Prop :=
  ∀ (s : State) (ch : SpdmChannel), s.brg.foreman = true → (s.img 1).booted.isSome = true → (takeRequest ch s).isSome = true →
    (s.spdmOf ch).algs = true →
    let s1 := (takeRequest ch s).getD s
    let x := s.spdmOf ch
    (∀ n, s.sec.attestReady = true →
        let id := bits 15 0 n + 65536 * x.nextSession
        exec (.spdmKeyExchange ch n) s = .next (spdmAnswer ch (.keyExchange id) (s1.setSpdm ch { x with
          sessions := x.sessions ++ [(id, false)], nextSession := (x.nextSession + 1) % 65536 })))
    ∧ (∀ n, (n, false) ∈ x.sessions → ∃ t, exec (.spdmFinish ch n) s = .next t ∧ (n, true) ∈ (t.spdmOf ch).sessions
        ∧ (n, false) ∉ (t.spdmOf ch).sessions ∧ t.out = .spdm ch (.finish n) :: s1.out)
    ∧ (∀ n, (n, true) ∈ x.sessions →
        (∃ t, exec (.spdmEndSession ch n) s = .next t ∧ (∀ b, (n, b) ∉ (t.spdmOf ch).sessions)
          ∧ (∀ m b, m ≠ n → ((m, b) ∈ (t.spdmOf ch).sessions ↔ (m, b) ∈ x.sessions)))
        ∧ exec (.spdmHeartbeat ch n) s = .next (spdmAnswer ch (.heartbeat n) s1)
        ∧ exec (.spdmKeyUpdate ch n 3) s = .next (spdmAnswer ch (.keyUpdate n 3) s1)
        ∧ (∀ op, op = 1 ∨ op = 2 → exec (.spdmKeyUpdate ch n op) s
            = .next (spdmAnswer ch (.keyUpdate n op) (s1.setSpdm ch { x with keyGen := x.keyGen + 1 }))))
    ∧ (∀ n op, (n, true) ∉ x.sessions →
        exec (.spdmEndSession ch n) s = .next (spdmAnswer ch (.error spdmNoSession) s1)
        ∧ exec (.spdmHeartbeat ch n) s = .next (spdmAnswer ch (.error spdmNoSession) s1)
        ∧ exec (.spdmKeyUpdate ch n op) s = .next (spdmAnswer ch (.error spdmNoSession) s1))
    ∧ (∀ h d, d.length ≤ 65536 →
        exec (.spdmChunkSend ch h 0 false d) s = .next ((spdmAnswer ch (.chunkSendAck h 0) s1).setSpdm ch { x with chunkIn := some (h, 1, d) }))
    ∧ (∀ h n e d, n ≠ 0 → x.chunkIn = some (h, n, e) → (e ++ d).length ≤ 65536 →
        exec (.spdmChunkSend ch h n true d) s
          = .next (largeRequest ch (e ++ d) ((spdmAnswer ch (.chunkSendAck h n) s1).setSpdm ch { x with chunkIn := none })))
    ∧ (∀ h n l d, n ≠ 0 → x.chunkIn = none → exec (.spdmChunkSend ch h n l d) s
        = .next (spdmAnswer ch (.error spdmInvalid) (s1.setSpdm ch { x with chunkIn := none })))
    ∧ (∀ h n d, x.chunkOut = some (h, n, d) →
        exec (.spdmChunkGet ch h n) s = .next (spdmAnswer ch
          (.chunk h n (decide (d.length - n * 4080 ≤ 4080)) ((d.drop (n * 4080)).take 4080))
          (s1.setSpdm ch { x with chunkOut := if d.length - n * 4080 ≤ 4080 then none else some (h, n + 1, d) })))

/-- Register accesses (R8, R9, R49, R442, R493). -/
def Obligations.Registers : Prop :=
  (∀ (s : State) (a : Nat) (v : Word) (r : Requester), (r = .foreman ∨ ∃ o, r = .overseer o) → a % 4 = 0 → a < 0x4000000 →
      bar0Slot 0 a = none → recovering s = false → inReset r a s = false →
      (isLow s a = true →
        exec (.reg64LowWrite r a 4 v) s = .next { s with pendLow := assocSet s.pendLow (r, a) v }
        ∧ (let u := ringNote a { s with free := s.free + 1, latches := assocSet s.latches (r, a) (BitVec.ofNat 32 (regRead s (a + 4))) }
           exec (.reg64LowRead r a 4) s = .next { u with out := .answer r .ok (leBytes 4 (regRead s a)) :: u.out }))
      ∧ (isHigh s a = true →
          exec (.reg64HighWrite r a 4 v) s = .next (pairWrite r (a - 4) (2 ^ 32 * v.toNat + lowWord s r (a - 4))
            { s with pendLow := s.pendLow.filter (fun p => p.1 != (r, a - 4)) })
          ∧ (∀ w, s.latches.find? (fun p => p.1 == (r, a - 4)) = some ((r, a - 4), w) →
              let u := ringNote a { s with free := s.free + 1 }
              exec (.reg64LowRead r a 4) s = .next { u with out := .answer r .ok (leBytes 4 w.toNat) :: u.out }))
      ∧ (isLow s a = false → isHigh s a = false → exec (.registerWrite r a 4 v) s = .next (soloWrite r a v.toNat s)))
  ∧ (∀ (s : State) (r : Requester) (a n : Nat) (v : Word), (r = .foreman ∨ ∃ o, r = .overseer o) → pcieOff s = true →
      0x800000 ≤ a → a < 0x2000000 →
      let t : State := { s with out := .answer r .abortedByReset [] :: s.out }
      exec (.registerWrite r a n v) s = .next t ∧ exec (.reg64LowRead r a n) s = .next t
      ∧ exec (.reg64LowWrite r a n v) s = .next t ∧ exec (.reg64HighWrite r a n v) s = .next t)
  ∧ (∀ (s : State) (v : Word), recovering s = false →
      exec (.registerWrite .foreman 0x320 4 v) s
        = .next { s with glb := { s.glb with resetCause := if v.toNat % 8 ≤ 4 then v.toNat % 8 else 0 } }
      ∧ (bit 0 v.toNat = true → s.glb.deny.valid = true → exec (.registerWrite .foreman 0x104 4 v) s
          = .next { s with glb := { s.glb with deny := { s.glb.deny with valid := false, overflow := false } } }))
  ∧ (∀ (s : State) (a n : Nat) (v : Word), s.fnExists 0 = true → (n ≠ 4 ∨ a % 4 ≠ 0 ∨ 0x4000000 ≤ a) → bar0Slot 0 a = none →
      (pcieOff s = false ∨ a < 0x800000 ∨ 0x2000000 ≤ a) →
      exec (.registerWrite (.host 0) a n v) s = .next { s with out := .cplUR 0 :: s.out }
      ∧ exec (.registerWrite .foreman a n v) s = .next { recordDeny .foreman (0xF0000000000 + a) true 0 s with
          out := .answer .foreman .denied [] :: (recordDeny .foreman (0xF0000000000 + a) true 0 s).out })
  ∧ (∀ (s : State) (a src addr : Nat) (v : Dword), (s.adit a).state = 5 → addr % 4 = 0 → addr < 0x4000000 → recovering s = false →
      (pcieOff s = false ∨ addr < 0x800000 ∨ 0x2000000 ≤ addr) →
      (let u := ringNote addr { s with free := s.free + 1 }
       ∀ x, pairRead s addr = some x → exec (.fieldRegisterAccess a src addr false v) s = .next { u with
          out := .answer (.peer a src) .ok (leBytes 8 x) :: u.out })
      ∧ (isLow s addr = true → exec (.fieldRegisterAccess a src addr true v) s
          = .next ((pairWrite (.peer a src) addr v.toNat s).emit (.answer (.peer a src) .ok [])))
      ∧ (isLow s addr = false → isHigh s addr = false → exec (.fieldRegisterAccess a src addr true v) s
          = .next ((soloWrite (.peer a src) addr (v.toNat % 2 ^ 32) s).emit (.answer (.peer a src) .ok []))))
  ∧ (∀ (s : State) (r : Requester) (store : Bool) (dpa len : Nat) (data : List Byte), (r = .foreman ∨ ∃ o, r = .overseer o) →
      dpa < 0xF0000000000 → exec (.overseerDpaAccess r store dpa len data) s = .next (dpaAccess r store dpa len data s))
  ∧ (∀ (s : State) (r : Requester) (dpa len : Nat) (data : List Byte), (r = .foreman ∨ ∃ o, r = .overseer o) →
      0xF0000000000 ≤ dpa → dpa < 0xF0004000000 → data.length = 4 → let a := winOff dpa
      a % 4 = 0 → a < 0x4000000 → bar0Slot 0 a = none → recovering s = false → inReset r a s = false → isLow s a = false → isHigh s a = false →
      exec (.overseerDpaAccess r true dpa len data) s
        = .next ((soloWrite r a (leNat data) s).emit (.answer r .ok [])))

/-- R457: bring-up starts again from CHARTER, step code 14; the cause is recorded and reads back after the reset. -/
def Obligations.ResetStartsCharter : Prop :=
  ∀ s : State,
    (∃ t, exec .powerOn s = .next t ∧ t.brg.step = 14 ∧ (t.brg.state = 1 ∨ t.brg.state = 5) ∧ regRead t 0x320 = 0)
    ∧ (∀ r v, reachesRegs r = true → s.brg.foreman = true → warmKey v = true →
        ∃ t, exec (.warmReset r v) s = .next t ∧ t.brg.step = 14 ∧ (t.brg.state = 1 ∨ t.brg.state = 5) ∧ regRead t 0x320 = 3)
    ∧ (∀ rail mv, s.brg.powered = true → resetsAt s rail mv = true →
        ∃ t, exec (.pwrSagReset rail mv) s = .next t ∧ t.brg.step = 14 ∧ (t.brg.state = 1 ∨ t.brg.state = 5) ∧ regRead t 0x320 = 1)
    ∧ (∀ d g, s.brg.powered = true → d < 5 → g < 32 →
        ∃ t, exec (.clockLoss d g) s = .next t ∧ t.brg.step = 14 ∧ (t.brg.state = 1 ∨ t.brg.state = 5) ∧ regRead t 0x320 = 2)

/-- R30: the token limit with every active reduction of Table 1-8. That low flow leaves at most 1 is read from the table's row. -/
def Obligations.TokenLimit : Prop :=
  ∀ s : State,
    let base := if s.chr.testMode then s.chr.testTokens else if s.chr.air then 1 else 2
    1 ≤ s.tokLimit
      ∧ (s.flowClamp = false → s.layerSuspect = false → 1 ≤ base → s.tokLimit = base)
      ∧ (s.flowClamp = true → s.tokLimit = 1)
      ∧ (s.layerSuspect = true → s.flowClamp = false → s.tokLimit = max 1 (base - 1))
      ∧ (s.tokLimit ≤ 4 → ∀ col, col < 64 → regRead s (0x3400200 + 4 * col) % 8 = s.tokLimit)

/-- Reset values that the register tables give. -/
def Obligations.ResetValues : Prop :=
  let s := State.reset
  s.glb.deny.valid = false ∧ s.glb.resetCause = 0 ∧ s.evt.next = 0 ∧ s.evt.ring = [] ∧ s.evt.irq = false ∧ s.committed = false
    ∧ (s.brg.step = 14 ∧ s.brg.state = 1 ∧ s.brg.orderErr = false ∧ s.brg.chResult = 0 ∧ s.brg.keepDram = false)
    ∧ (∀ g, (s.gal g).point = 4 ∧ (s.gal g).moving = false ∧ (s.gal g).vmin = 0x3FF ∧ (s.gal g).events = 0 ∧ (s.gal g).droopTs = 0
        ∧ (s.gal g).rBoot = true ∧ (s.gal g).park = false ∧ (s.gal g).parked = true ∧ (s.gal g).step = 0)
    ∧ (∀ c, (s.crew c).microcode = false ∧ (s.crew c).fenced = false)
    ∧ (∀ a, (s.adit a).state = 0) ∧ (∀ n, (s.seam n).ueValid = false ∧ (s.seam n).corrected = 0 ∧ (s.seam n).injArm = false)
    ∧ (∀ u, (s.chk u).arm = false ∧ (s.chk u).val = 0 ∧ (s.chk u).cnt = 0) ∧ s.hif.doe = none ∧ s.pwr.warned = false
    ∧ s.sec.session = none ∧ s.pending = []

/-- No word spells a command (log entry 1). -/
def Obligations.NoEncodedCommands : Prop :=
  ∀ (s : State) (nbits w : Nat), Sys2Proof.decodeTableWord nbits w = none ∧ s.withFetchWord nbits w = s

/-- Decode and encode agree on the crew extension (R159). -/
def Obligations.CrewEncoding : Prop :=
  (∀ (i : Instr) (w : Word), i.wf = true → encodeCrewExt i = some w → ∃ c, c < 128 ∧ decodeCrewExt c w = some i)
  ∧ (∀ (c : Nat) (w : Word), w.toNat % 128 = 0x0B →
      [3, 2, 1, 2, 5, 5, 1, 0].getD (w.toNat / 2 ^ 12 % 8) 0 ≤ w.toNat / 2 ^ 25 →
      decodeCrewExt c w = some (.tlyTrap c 2 (w.setWidth 64)))
  ∧ (∀ (c : Nat) (w : Word), w.toNat % 128 ≠ 0x0B → decodeCrewExt c w = none)
end

