-- ==== Sys2Proof/Laws/Memory.lean ====
section
/-! SUPPORT. Laws of tables and of the byte memories: a read after a write, what a write leaves alone, and that every memory
operation keeps the canonical form. -/

set_option Elab.async false

namespace Sys2Proof.Machine

@[simp] theorem Tbl.look_put_same {α : Type} (d : α) (t : Tbl α) (k : Nat) (v : α) : Tbl.look d (Tbl.put t k v) k = v := by
  induction t with
  | nil => simp [Tbl.put, Tbl.look]
  | cons p t ih =>
    obtain ⟨j, w⟩ := p
    unfold Tbl.put
    split
    · simp [Tbl.look]
    · split
      · simp [Tbl.look]
      · simp [Tbl.look, *]

theorem Tbl.look_put_other {α : Type} (d : α) (t : Tbl α) {k i : Nat} (v : α) (h : i ≠ k) :
    Tbl.look d (Tbl.put t k v) i = Tbl.look d t i := by
  induction t with
  | nil => simp [Tbl.put, Tbl.look, Ne.symm h]
  | cons p t ih =>
    obtain ⟨j, w⟩ := p
    unfold Tbl.put
    split
    · simp [Tbl.look, Ne.symm h]
    · split
      · subst_vars
        simp [Tbl.look, Ne.symm h]
      · simp [Tbl.look, ih]

theorem Tbl.look_put {α : Type} (d : α) (t : Tbl α) (k i : Nat) (v : α) :
    Tbl.look d (Tbl.put t k v) i = if i = k then v else Tbl.look d t i := by
  split
  · next h => subst h; exact Tbl.look_put_same d t _ v
  · exact Tbl.look_put_other d t v ‹_›

@[simp] theorem Tbl.put_put {α : Type} (t : Tbl α) (k : Nat) (v w : α) : Tbl.put (Tbl.put t k v) k w = Tbl.put t k w := by
  induction t with
  | nil => simp [Tbl.put]
  | cons p t ih =>
    obtain ⟨j, u⟩ := p
    by_cases h : k < j
    · simp [Tbl.put, h]
    · by_cases h2 : j = k
      · simp [Tbl.put, h2]
      · simp [Tbl.put, h, h2, ih]

theorem Tbl.look_filter_same {α : Type} (d : α) (t : Tbl α) (k : Nat) :
    Tbl.look d (t.filter (fun c => c.1 != k)) k = d := by
  induction t with
  | nil => rfl
  | cons p t ih =>
    obtain ⟨j, w⟩ := p
    by_cases h : j = k
    · simpa [List.filter_cons, h] using ih
    · simpa [List.filter_cons, h, Tbl.look] using ih

theorem Tbl.look_filter_other {α : Type} (d : α) (t : Tbl α) {k i : Nat} (h : i ≠ k) :
    Tbl.look d (t.filter (fun c => c.1 != k)) i = Tbl.look d t i := by
  induction t with
  | nil => rfl
  | cons p t ih =>
    obtain ⟨j, w⟩ := p
    by_cases hj : j = k
    · subst hj
      simpa [List.filter_cons, Tbl.look, Ne.symm h] using ih
    · simp [hj, Tbl.look, ih]

@[simp] theorem Memory.get_set_same (m : Memory) (a : Nat) (b : Byte) : (m.set a b).get a = b := by
  unfold Memory.set Memory.get
  split
  · rw [Tbl.look_filter_same]; exact Eq.symm ‹_›
  · exact Tbl.look_put_same _ _ _ _

theorem Memory.get_set_other (m : Memory) {a i : Nat} (b : Byte) (h : i ≠ a) : (m.set a b).get i = m.get i := by
  unfold Memory.set Memory.get
  split
  · exact Tbl.look_filter_other _ _ h
  · exact Tbl.look_put_other _ _ _ h

/-- A write leaves every byte outside it alone. -/
theorem Memory.get_write_other (m : Memory) (a : Nat) (bs : List Byte) (i : Nat) (h : i < a ∨ a + bs.length ≤ i) :
    (m.write a bs).get i = m.get i := by
  induction bs generalizing m a with
  | nil => rfl
  | cons b bs ih =>
    simp only [List.length_cons] at h
    rw [Memory.write, ih _ _ (by omega), Memory.get_set_other _ _ (by omega)]

/-- A byte of a write reads back. -/
theorem Memory.get_write (m : Memory) (a : Nat) (bs : List Byte) (i : Nat) (h : i < bs.length) :
    (m.write a bs).get (a + i) = bs[i] := by
  induction bs generalizing m a i with
  | nil => simp at h
  | cons b bs ih =>
    cases i with
    | zero => simp [Memory.write, Memory.get_write_other]
    | succ i =>
      simp only [List.length_cons] at h
      simpa [Memory.write, Nat.add_assoc, Nat.add_comm 1] using ih (m.set a b) (a + 1) i (by omega)

/-- A range reads as written. -/
theorem Memory.read_write (m : Memory) (a : Nat) (bs : List Byte) : (m.write a bs).read a bs.length = bs := by
  induction bs generalizing m a with
  | nil => rfl
  | cons b bs ih =>
    simp [Memory.write, Memory.read, Memory.get_write_other, ih]

/-- A range apart from a write reads as before. -/
theorem Memory.read_write_other (m : Memory) (a : Nat) (bs : List Byte) (i n : Nat) (h : i + n ≤ a ∨ a + bs.length ≤ i) :
    (m.write a bs).read i n = m.read i n := by
  induction n generalizing i with
  | zero => rfl
  | succ n ih => rw [Memory.read, Memory.read, ih (i + 1) (by omega), Memory.get_write_other _ _ _ _ (by omega)]

/-! ### The canonical form -/

theorem Memory.wf_tail {c : Host.Cell} {m : Memory} (h : Memory.wf (c :: m) = true) : Memory.wf m = true := by
  cases m with
  | nil => rfl
  | cons d t => simp [Memory.wf] at h; exact h.2

/-- The canonical form of a memory with a first entry. -/
theorem Memory.wf_cons {c : Host.Cell} {m : Memory} :
    Memory.wf (c :: m) = true ↔ c.2 ≠ emptyByte ∧ (∀ d ∈ m, c.1 < d.1) ∧ Memory.wf m = true := by
  induction m generalizing c with
  | nil => simp [Memory.wf]
  | cons d t ih =>
    simp only [Memory.wf, Bool.and_eq_true, bne_iff_ne, ne_eq, decide_eq_true_eq]
    constructor
    · rintro ⟨⟨h1, h2⟩, h3⟩
      refine ⟨h1, ?_, h3⟩
      intro e he
      rcases List.mem_cons.1 he with rfl | he
      · exact h2
      · exact lt_trans h2 ((ih.1 h3).2.1 e he)
    · rintro ⟨h1, h2, h3⟩
      exact ⟨⟨h1, h2 d (by simp)⟩, h3⟩

theorem Memory.wf_filter (m : Memory) (p : Host.Cell → Bool) (h : Memory.wf m = true) : Memory.wf (m.filter p) = true := by
  induction m with
  | nil => rfl
  | cons c m ih =>
    obtain ⟨h1, h2, h3⟩ := Memory.wf_cons.1 h
    by_cases hp : p c = true
    · rw [List.filter_cons_of_pos hp]
      exact Memory.wf_cons.2 ⟨h1, fun d hd => h2 d (List.mem_filter.1 hd).1, ih h3⟩
    · rw [List.filter_cons_of_neg hp]
      exact ih h3

theorem Tbl.mem_put {α : Type} {t : Tbl α} {k : Nat} {v : α} {e : Nat × α} (h : e ∈ Tbl.put t k v) : e = (k, v) ∨ e ∈ t := by
  induction t with
  | nil => simpa [Tbl.put] using h
  | cons p t ih =>
    obtain ⟨j, w⟩ := p
    unfold Tbl.put at h
    split at h
    · simpa using h
    · split at h
      · simp only [List.mem_cons] at h ⊢; tauto
      · simp only [List.mem_cons] at h ⊢
        rcases h with h | h
        · tauto
        · rcases ih h with h | h <;> tauto

theorem Memory.wf_put (m : Memory) (a : Nat) (b : Byte) (hb : b ≠ emptyByte) (h : Memory.wf m = true) :
    Memory.wf (Tbl.put m a b) = true := by
  induction m with
  | nil => simp [Tbl.put, Memory.wf, hb]
  | cons c m ih =>
    obtain ⟨j, w⟩ := c
    obtain ⟨h1, h2, h3⟩ := Memory.wf_cons.1 h
    unfold Tbl.put
    split
    · refine Memory.wf_cons.2 ⟨hb, ?_, h⟩
      intro d hd
      rcases List.mem_cons.1 hd with rfl | hd
      · assumption
      · exact lt_trans ‹_› (h2 d hd)
    · split
      · subst_vars
        exact Memory.wf_cons.2 ⟨hb, h2, h3⟩
      · refine Memory.wf_cons.2 ⟨h1, ?_, ih h3⟩
        intro d hd
        rcases Tbl.mem_put hd with rfl | hd
        · simp only; omega
        · exact h2 d hd

/-- A byte stored keeps the canonical form. -/
@[simp] theorem Memory.wf_set (m : Memory) (a : Nat) (b : Byte) (h : Memory.wf m = true) : Memory.wf (m.set a b) = true := by
  unfold Memory.set
  split
  · exact Memory.wf_filter _ _ h
  · exact Memory.wf_put _ _ _ ‹_› h

/-- Bytes stored keep the canonical form. -/
@[simp] theorem Memory.wf_write (m : Memory) (a : Nat) (bs : List Byte) (h : Memory.wf m = true) :
    Memory.wf (m.write a bs) = true := by
  induction bs generalizing m a with
  | nil => exact h
  | cons b bs ih => exact ih _ _ (Memory.wf_set _ _ _ h)

end Sys2Proof.Machine
end

