-- ==== Sys2Proof/Laws/Crew.lean ====
section
/-! SUPPORT. What the tally's shared operations can do: they change crews and nothing else. -/

set_option Elab.async false

namespace Sys2Proof.Machine

/-- State `t` is state `s` but for its crews. -/
def OnlyCrews (s t : State) : Prop := t = { s with crews := t.crews }

theorem OnlyCrews.refl (s : State) : OnlyCrews s s := rfl

theorem OnlyCrews.trans {s t u : State} (h : OnlyCrews s t) (k : OnlyCrews t u) : OnlyCrews s u := by
  unfold OnlyCrews at *
  rw [k, h]

theorem OnlyCrews.setCrew (s : State) (c : Nat) (x : Crew) : OnlyCrews s (s.setCrew c x) := rfl

theorem OnlyCrews.tset (c r : Nat) (v : Dword) (s : State) : OnlyCrews s (tset c r v s) := by
  unfold Machine.tset
  split <;> rfl

theorem OnlyCrews.beat (c : Nat) (s : State) : OnlyCrews s (beat c s) := rfl

theorem OnlyCrews.cplTake (c rd : Nat) (s : State) : OnlyCrews s (cplTake c rd s) := by
  unfold Machine.cplTake
  split
  · exact OnlyCrews.tset _ _ _ _
  · exact (OnlyCrews.setCrew _ _ _).trans (OnlyCrews.tset _ _ _ _)

theorem OnlyCrews.wakeCpl (c : Nat) (s : State) : OnlyCrews s (wakeCpl c s) := by
  unfold Machine.wakeCpl
  split
  · split
    · exact ((OnlyCrews.setCrew _ _ _).trans (OnlyCrews.cplTake _ _ _)).trans (OnlyCrews.beat _ _)
    · rfl
  · rfl

/-- A completion record changes crews only (R160). -/
theorem OnlyCrews.postRec (c : Nat) (r : CplRec) (s : State) : OnlyCrews s (postRec c r s) := by
  unfold Machine.postRec
  dsimp only
  split
  · rfl
  · exact (OnlyCrews.setCrew _ _ _).trans (OnlyCrews.wakeCpl _ _)

theorem OnlyCrews.postRevoked (c role : Nat) (s : State) : OnlyCrews s (postRevoked c role s) := by
  unfold Machine.postRevoked
  dsimp only
  split
  · split
    · rfl
    · exact (OnlyCrews.setCrew _ _ _).trans (OnlyCrews.postRec _ _ _)
  · split
    · rfl
    · exact (OnlyCrews.setCrew _ _ _).trans (OnlyCrews.postRec _ _ _)

theorem OnlyCrews.wakeArr (c : Nat) (s : State) : OnlyCrews s (wakeArr c s) := by
  unfold Machine.wakeArr
  split
  · split
    · split
      · exact ((OnlyCrews.setCrew _ _ _).trans (OnlyCrews.tset _ _ _ _)).trans (OnlyCrews.beat _ _)
      · split
        · exact ((OnlyCrews.setCrew _ _ _).trans (OnlyCrews.tset _ _ _ _)).trans (OnlyCrews.beat _ _)
        · rfl
    · rfl
  · rfl

/-- What reads the state and not its crews reads the same after an operation that changes crews only. -/
theorem OnlyCrews.tok {s t : State} (h : OnlyCrews s t) (col : Nat) : t.tok col = s.tok col := by rw [h]; rfl

theorem OnlyCrews.tokLimit {s t : State} (h : OnlyCrews s t) : t.tokLimit = s.tokLimit := by rw [h]; rfl

theorem OnlyCrews.hewer {s t : State} (h : OnlyCrews s t) (c r : Nat) : t.hewer c r = s.hewer c r := by rw [h]; rfl

theorem OnlyCrews.dresser {s t : State} (h : OnlyCrews s t) (c : Nat) : t.dresser c = s.dresser c := by rw [h]; rfl

end Sys2Proof.Machine
end

