-- ==== Sys2Proof/Laws/State.lean ====
section
/-! SUPPORT. Laws of the state's setters: each reads back, leaves every other unit alone, and the last of two writes of a unit
counts. The lemmas field by field are those of `simps` beside each setter. -/

set_option Elab.async false

namespace Sys2Proof.Machine

@[simp] theorem State.crew_setCrew (s : State) (c : Nat) (x : Crew) : (s.setCrew c x).crew c = x := by
  simp [State.crew, State.setCrew]

@[simp] theorem State.setCrew_setCrew (s : State) (c : Nat) (x y : Crew) : (s.setCrew c x).setCrew c y = s.setCrew c y := by
  simp [State.setCrew]

@[simp] theorem State.hewer_setCrew (s : State) (c : Nat) (x : Crew) (c' r' : Nat) :
    (s.setCrew c x).hewer c' r' = s.hewer c' r' := rfl

@[simp] theorem State.dresser_setCrew (s : State) (c : Nat) (x : Crew) (c' : Nat) :
    (s.setCrew c x).dresser c' = s.dresser c' := rfl

@[simp] theorem State.gal_setCrew (s : State) (c : Nat) (x : Crew) (g' : Nat) :
    (s.setCrew c x).gal g' = s.gal g' := rfl

@[simp] theorem State.core_setCrew (s : State) (c : Nat) (x : Crew) (g' n' : Nat) :
    (s.setCrew c x).core g' n' = s.core g' n' := rfl

@[simp] theorem State.seam_setCrew (s : State) (c : Nat) (x : Crew) (n' : Nat) :
    (s.setCrew c x).seam n' = s.seam n' := rfl

@[simp] theorem State.face_setCrew (s : State) (c : Nat) (x : Crew) (n' : Nat) :
    (s.setCrew c x).face n' = s.face n' := rfl

@[simp] theorem State.eng_setCrew (s : State) (c : Nat) (x : Crew) (e' : Nat) :
    (s.setCrew c x).eng e' = s.eng e' := rfl

@[simp] theorem State.adit_setCrew (s : State) (c : Nat) (x : Crew) (a' : Nat) :
    (s.setCrew c x).adit a' = s.adit a' := rfl

@[simp] theorem State.fn_setCrew (s : State) (c : Nat) (x : Crew) (f' : Nat) :
    (s.setCrew c x).fn f' = s.fn f' := rfl

@[simp] theorem State.tok_setCrew (s : State) (c : Nat) (x : Crew) (col' : Nat) :
    (s.setCrew c x).tok col' = s.tok col' := rfl

@[simp] theorem State.mergeCol_setCrew (s : State) (c : Nat) (x : Crew) (col' : Nat) :
    (s.setCrew c x).mergeCol col' = s.mergeCol col' := rfl

@[simp] theorem State.vport_setCrew (s : State) (c : Nat) (x : Crew) (p' : Nat) :
    (s.setCrew c x).vport p' = s.vport p' := rfl

@[simp] theorem State.slot_setCrew (s : State) (c : Nat) (x : Crew) (n' : Nat) :
    (s.setCrew c x).slot n' = s.slot n' := rfl

@[simp] theorem State.page_setCrew (s : State) (c : Nat) (x : Crew) (p' : Nat) :
    (s.setCrew c x).page p' = s.page p' := rfl

@[simp] theorem State.chk_setCrew (s : State) (c : Nat) (x : Crew) (u' : Nat) :
    (s.setCrew c x).chk u' = s.chk u' := rfl

@[simp] theorem State.can_setCrew (s : State) (c : Nat) (x : Crew) (n' : Nat) :
    (s.setCrew c x).can n' = s.can n' := rfl

@[simp] theorem State.pair_setCrew (s : State) (c : Nat) (x : Crew) (n' : Nat) :
    (s.setCrew c x).pair n' = s.pair n' := rfl

@[simp] theorem State.bucket_setCrew (s : State) (c : Nat) (x : Crew) (k' : Nat) :
    (s.setCrew c x).bucket k' = s.bucket k' := rfl

@[simp] theorem State.hewer_setHewer (s : State) (c r : Nat) (x : Hewer) : (s.setHewer c r x).hewer c r = x := by
  simp [State.hewer, State.setHewer]

@[simp] theorem State.setHewer_setHewer (s : State) (c r : Nat) (x y : Hewer) : (s.setHewer c r x).setHewer c r y = s.setHewer c r y := by
  simp [State.setHewer]

@[simp] theorem State.crew_setHewer (s : State) (c r : Nat) (x : Hewer) (c' : Nat) :
    (s.setHewer c r x).crew c' = s.crew c' := rfl

@[simp] theorem State.dresser_setHewer (s : State) (c r : Nat) (x : Hewer) (c' : Nat) :
    (s.setHewer c r x).dresser c' = s.dresser c' := rfl

@[simp] theorem State.gal_setHewer (s : State) (c r : Nat) (x : Hewer) (g' : Nat) :
    (s.setHewer c r x).gal g' = s.gal g' := rfl

@[simp] theorem State.core_setHewer (s : State) (c r : Nat) (x : Hewer) (g' n' : Nat) :
    (s.setHewer c r x).core g' n' = s.core g' n' := rfl

@[simp] theorem State.seam_setHewer (s : State) (c r : Nat) (x : Hewer) (n' : Nat) :
    (s.setHewer c r x).seam n' = s.seam n' := rfl

@[simp] theorem State.face_setHewer (s : State) (c r : Nat) (x : Hewer) (n' : Nat) :
    (s.setHewer c r x).face n' = s.face n' := rfl

@[simp] theorem State.eng_setHewer (s : State) (c r : Nat) (x : Hewer) (e' : Nat) :
    (s.setHewer c r x).eng e' = s.eng e' := rfl

@[simp] theorem State.adit_setHewer (s : State) (c r : Nat) (x : Hewer) (a' : Nat) :
    (s.setHewer c r x).adit a' = s.adit a' := rfl

@[simp] theorem State.fn_setHewer (s : State) (c r : Nat) (x : Hewer) (f' : Nat) :
    (s.setHewer c r x).fn f' = s.fn f' := rfl

@[simp] theorem State.tok_setHewer (s : State) (c r : Nat) (x : Hewer) (col' : Nat) :
    (s.setHewer c r x).tok col' = s.tok col' := rfl

@[simp] theorem State.mergeCol_setHewer (s : State) (c r : Nat) (x : Hewer) (col' : Nat) :
    (s.setHewer c r x).mergeCol col' = s.mergeCol col' := rfl

@[simp] theorem State.vport_setHewer (s : State) (c r : Nat) (x : Hewer) (p' : Nat) :
    (s.setHewer c r x).vport p' = s.vport p' := rfl

@[simp] theorem State.slot_setHewer (s : State) (c r : Nat) (x : Hewer) (n' : Nat) :
    (s.setHewer c r x).slot n' = s.slot n' := rfl

@[simp] theorem State.page_setHewer (s : State) (c r : Nat) (x : Hewer) (p' : Nat) :
    (s.setHewer c r x).page p' = s.page p' := rfl

@[simp] theorem State.chk_setHewer (s : State) (c r : Nat) (x : Hewer) (u' : Nat) :
    (s.setHewer c r x).chk u' = s.chk u' := rfl

@[simp] theorem State.can_setHewer (s : State) (c r : Nat) (x : Hewer) (n' : Nat) :
    (s.setHewer c r x).can n' = s.can n' := rfl

@[simp] theorem State.pair_setHewer (s : State) (c r : Nat) (x : Hewer) (n' : Nat) :
    (s.setHewer c r x).pair n' = s.pair n' := rfl

@[simp] theorem State.bucket_setHewer (s : State) (c r : Nat) (x : Hewer) (k' : Nat) :
    (s.setHewer c r x).bucket k' = s.bucket k' := rfl

@[simp] theorem State.dresser_setDresser (s : State) (c : Nat) (x : Dresser) : (s.setDresser c x).dresser c = x := by
  simp [State.dresser, State.setDresser]

@[simp] theorem State.setDresser_setDresser (s : State) (c : Nat) (x y : Dresser) : (s.setDresser c x).setDresser c y = s.setDresser c y := by
  simp [State.setDresser]

@[simp] theorem State.crew_setDresser (s : State) (c : Nat) (x : Dresser) (c' : Nat) :
    (s.setDresser c x).crew c' = s.crew c' := rfl

@[simp] theorem State.hewer_setDresser (s : State) (c : Nat) (x : Dresser) (c' r' : Nat) :
    (s.setDresser c x).hewer c' r' = s.hewer c' r' := rfl

@[simp] theorem State.gal_setDresser (s : State) (c : Nat) (x : Dresser) (g' : Nat) :
    (s.setDresser c x).gal g' = s.gal g' := rfl

@[simp] theorem State.core_setDresser (s : State) (c : Nat) (x : Dresser) (g' n' : Nat) :
    (s.setDresser c x).core g' n' = s.core g' n' := rfl

@[simp] theorem State.seam_setDresser (s : State) (c : Nat) (x : Dresser) (n' : Nat) :
    (s.setDresser c x).seam n' = s.seam n' := rfl

@[simp] theorem State.face_setDresser (s : State) (c : Nat) (x : Dresser) (n' : Nat) :
    (s.setDresser c x).face n' = s.face n' := rfl

@[simp] theorem State.eng_setDresser (s : State) (c : Nat) (x : Dresser) (e' : Nat) :
    (s.setDresser c x).eng e' = s.eng e' := rfl

@[simp] theorem State.adit_setDresser (s : State) (c : Nat) (x : Dresser) (a' : Nat) :
    (s.setDresser c x).adit a' = s.adit a' := rfl

@[simp] theorem State.fn_setDresser (s : State) (c : Nat) (x : Dresser) (f' : Nat) :
    (s.setDresser c x).fn f' = s.fn f' := rfl

@[simp] theorem State.tok_setDresser (s : State) (c : Nat) (x : Dresser) (col' : Nat) :
    (s.setDresser c x).tok col' = s.tok col' := rfl

@[simp] theorem State.mergeCol_setDresser (s : State) (c : Nat) (x : Dresser) (col' : Nat) :
    (s.setDresser c x).mergeCol col' = s.mergeCol col' := rfl

@[simp] theorem State.vport_setDresser (s : State) (c : Nat) (x : Dresser) (p' : Nat) :
    (s.setDresser c x).vport p' = s.vport p' := rfl

@[simp] theorem State.slot_setDresser (s : State) (c : Nat) (x : Dresser) (n' : Nat) :
    (s.setDresser c x).slot n' = s.slot n' := rfl

@[simp] theorem State.page_setDresser (s : State) (c : Nat) (x : Dresser) (p' : Nat) :
    (s.setDresser c x).page p' = s.page p' := rfl

@[simp] theorem State.chk_setDresser (s : State) (c : Nat) (x : Dresser) (u' : Nat) :
    (s.setDresser c x).chk u' = s.chk u' := rfl

@[simp] theorem State.can_setDresser (s : State) (c : Nat) (x : Dresser) (n' : Nat) :
    (s.setDresser c x).can n' = s.can n' := rfl

@[simp] theorem State.pair_setDresser (s : State) (c : Nat) (x : Dresser) (n' : Nat) :
    (s.setDresser c x).pair n' = s.pair n' := rfl

@[simp] theorem State.bucket_setDresser (s : State) (c : Nat) (x : Dresser) (k' : Nat) :
    (s.setDresser c x).bucket k' = s.bucket k' := rfl

@[simp] theorem State.gal_setGal (s : State) (g : Nat) (x : Gal) : (s.setGal g x).gal g = x := by
  simp [State.gal, State.setGal]

@[simp] theorem State.setGal_setGal (s : State) (g : Nat) (x y : Gal) : (s.setGal g x).setGal g y = s.setGal g y := by
  simp [State.setGal]

@[simp] theorem State.crew_setGal (s : State) (g : Nat) (x : Gal) (c' : Nat) :
    (s.setGal g x).crew c' = s.crew c' := rfl

@[simp] theorem State.hewer_setGal (s : State) (g : Nat) (x : Gal) (c' r' : Nat) :
    (s.setGal g x).hewer c' r' = s.hewer c' r' := rfl

@[simp] theorem State.dresser_setGal (s : State) (g : Nat) (x : Gal) (c' : Nat) :
    (s.setGal g x).dresser c' = s.dresser c' := rfl

@[simp] theorem State.core_setGal (s : State) (g : Nat) (x : Gal) (g' n' : Nat) :
    (s.setGal g x).core g' n' = s.core g' n' := rfl

@[simp] theorem State.seam_setGal (s : State) (g : Nat) (x : Gal) (n' : Nat) :
    (s.setGal g x).seam n' = s.seam n' := rfl

@[simp] theorem State.face_setGal (s : State) (g : Nat) (x : Gal) (n' : Nat) :
    (s.setGal g x).face n' = s.face n' := rfl

@[simp] theorem State.eng_setGal (s : State) (g : Nat) (x : Gal) (e' : Nat) :
    (s.setGal g x).eng e' = s.eng e' := rfl

@[simp] theorem State.adit_setGal (s : State) (g : Nat) (x : Gal) (a' : Nat) :
    (s.setGal g x).adit a' = s.adit a' := rfl

@[simp] theorem State.fn_setGal (s : State) (g : Nat) (x : Gal) (f' : Nat) :
    (s.setGal g x).fn f' = s.fn f' := rfl

@[simp] theorem State.tok_setGal (s : State) (g : Nat) (x : Gal) (col' : Nat) :
    (s.setGal g x).tok col' = s.tok col' := rfl

@[simp] theorem State.mergeCol_setGal (s : State) (g : Nat) (x : Gal) (col' : Nat) :
    (s.setGal g x).mergeCol col' = s.mergeCol col' := rfl

@[simp] theorem State.vport_setGal (s : State) (g : Nat) (x : Gal) (p' : Nat) :
    (s.setGal g x).vport p' = s.vport p' := rfl

@[simp] theorem State.slot_setGal (s : State) (g : Nat) (x : Gal) (n' : Nat) :
    (s.setGal g x).slot n' = s.slot n' := rfl

@[simp] theorem State.page_setGal (s : State) (g : Nat) (x : Gal) (p' : Nat) :
    (s.setGal g x).page p' = s.page p' := rfl

@[simp] theorem State.chk_setGal (s : State) (g : Nat) (x : Gal) (u' : Nat) :
    (s.setGal g x).chk u' = s.chk u' := rfl

@[simp] theorem State.can_setGal (s : State) (g : Nat) (x : Gal) (n' : Nat) :
    (s.setGal g x).can n' = s.can n' := rfl

@[simp] theorem State.pair_setGal (s : State) (g : Nat) (x : Gal) (n' : Nat) :
    (s.setGal g x).pair n' = s.pair n' := rfl

@[simp] theorem State.bucket_setGal (s : State) (g : Nat) (x : Gal) (k' : Nat) :
    (s.setGal g x).bucket k' = s.bucket k' := rfl

@[simp] theorem State.core_setCore (s : State) (g n : Nat) (x : Core) : (s.setCore g n x).core g n = x := by
  simp [State.core, State.setCore]

@[simp] theorem State.setCore_setCore (s : State) (g n : Nat) (x y : Core) : (s.setCore g n x).setCore g n y = s.setCore g n y := by
  simp [State.setCore]

@[simp] theorem State.crew_setCore (s : State) (g n : Nat) (x : Core) (c' : Nat) :
    (s.setCore g n x).crew c' = s.crew c' := rfl

@[simp] theorem State.hewer_setCore (s : State) (g n : Nat) (x : Core) (c' r' : Nat) :
    (s.setCore g n x).hewer c' r' = s.hewer c' r' := rfl

@[simp] theorem State.dresser_setCore (s : State) (g n : Nat) (x : Core) (c' : Nat) :
    (s.setCore g n x).dresser c' = s.dresser c' := rfl

@[simp] theorem State.gal_setCore (s : State) (g n : Nat) (x : Core) (g' : Nat) :
    (s.setCore g n x).gal g' = s.gal g' := rfl

@[simp] theorem State.seam_setCore (s : State) (g n : Nat) (x : Core) (n' : Nat) :
    (s.setCore g n x).seam n' = s.seam n' := rfl

@[simp] theorem State.face_setCore (s : State) (g n : Nat) (x : Core) (n' : Nat) :
    (s.setCore g n x).face n' = s.face n' := rfl

@[simp] theorem State.eng_setCore (s : State) (g n : Nat) (x : Core) (e' : Nat) :
    (s.setCore g n x).eng e' = s.eng e' := rfl

@[simp] theorem State.adit_setCore (s : State) (g n : Nat) (x : Core) (a' : Nat) :
    (s.setCore g n x).adit a' = s.adit a' := rfl

@[simp] theorem State.fn_setCore (s : State) (g n : Nat) (x : Core) (f' : Nat) :
    (s.setCore g n x).fn f' = s.fn f' := rfl

@[simp] theorem State.tok_setCore (s : State) (g n : Nat) (x : Core) (col' : Nat) :
    (s.setCore g n x).tok col' = s.tok col' := rfl

@[simp] theorem State.mergeCol_setCore (s : State) (g n : Nat) (x : Core) (col' : Nat) :
    (s.setCore g n x).mergeCol col' = s.mergeCol col' := rfl

@[simp] theorem State.vport_setCore (s : State) (g n : Nat) (x : Core) (p' : Nat) :
    (s.setCore g n x).vport p' = s.vport p' := rfl

@[simp] theorem State.slot_setCore (s : State) (g n : Nat) (x : Core) (n' : Nat) :
    (s.setCore g n x).slot n' = s.slot n' := rfl

@[simp] theorem State.page_setCore (s : State) (g n : Nat) (x : Core) (p' : Nat) :
    (s.setCore g n x).page p' = s.page p' := rfl

@[simp] theorem State.chk_setCore (s : State) (g n : Nat) (x : Core) (u' : Nat) :
    (s.setCore g n x).chk u' = s.chk u' := rfl

@[simp] theorem State.can_setCore (s : State) (g n : Nat) (x : Core) (n' : Nat) :
    (s.setCore g n x).can n' = s.can n' := rfl

@[simp] theorem State.pair_setCore (s : State) (g n : Nat) (x : Core) (n' : Nat) :
    (s.setCore g n x).pair n' = s.pair n' := rfl

@[simp] theorem State.bucket_setCore (s : State) (g n : Nat) (x : Core) (k' : Nat) :
    (s.setCore g n x).bucket k' = s.bucket k' := rfl

@[simp] theorem State.seam_setSeam (s : State) (n : Nat) (x : Seam) : (s.setSeam n x).seam n = x := by
  simp [State.seam, State.setSeam]

@[simp] theorem State.setSeam_setSeam (s : State) (n : Nat) (x y : Seam) : (s.setSeam n x).setSeam n y = s.setSeam n y := by
  simp [State.setSeam]

@[simp] theorem State.crew_setSeam (s : State) (n : Nat) (x : Seam) (c' : Nat) :
    (s.setSeam n x).crew c' = s.crew c' := rfl

@[simp] theorem State.hewer_setSeam (s : State) (n : Nat) (x : Seam) (c' r' : Nat) :
    (s.setSeam n x).hewer c' r' = s.hewer c' r' := rfl

@[simp] theorem State.dresser_setSeam (s : State) (n : Nat) (x : Seam) (c' : Nat) :
    (s.setSeam n x).dresser c' = s.dresser c' := rfl

@[simp] theorem State.gal_setSeam (s : State) (n : Nat) (x : Seam) (g' : Nat) :
    (s.setSeam n x).gal g' = s.gal g' := rfl

@[simp] theorem State.core_setSeam (s : State) (n : Nat) (x : Seam) (g' n' : Nat) :
    (s.setSeam n x).core g' n' = s.core g' n' := rfl

@[simp] theorem State.face_setSeam (s : State) (n : Nat) (x : Seam) (n' : Nat) :
    (s.setSeam n x).face n' = s.face n' := rfl

@[simp] theorem State.eng_setSeam (s : State) (n : Nat) (x : Seam) (e' : Nat) :
    (s.setSeam n x).eng e' = s.eng e' := rfl

@[simp] theorem State.adit_setSeam (s : State) (n : Nat) (x : Seam) (a' : Nat) :
    (s.setSeam n x).adit a' = s.adit a' := rfl

@[simp] theorem State.fn_setSeam (s : State) (n : Nat) (x : Seam) (f' : Nat) :
    (s.setSeam n x).fn f' = s.fn f' := rfl

@[simp] theorem State.tok_setSeam (s : State) (n : Nat) (x : Seam) (col' : Nat) :
    (s.setSeam n x).tok col' = s.tok col' := rfl

@[simp] theorem State.mergeCol_setSeam (s : State) (n : Nat) (x : Seam) (col' : Nat) :
    (s.setSeam n x).mergeCol col' = s.mergeCol col' := rfl

@[simp] theorem State.vport_setSeam (s : State) (n : Nat) (x : Seam) (p' : Nat) :
    (s.setSeam n x).vport p' = s.vport p' := rfl

@[simp] theorem State.slot_setSeam (s : State) (n : Nat) (x : Seam) (n' : Nat) :
    (s.setSeam n x).slot n' = s.slot n' := rfl

@[simp] theorem State.page_setSeam (s : State) (n : Nat) (x : Seam) (p' : Nat) :
    (s.setSeam n x).page p' = s.page p' := rfl

@[simp] theorem State.chk_setSeam (s : State) (n : Nat) (x : Seam) (u' : Nat) :
    (s.setSeam n x).chk u' = s.chk u' := rfl

@[simp] theorem State.can_setSeam (s : State) (n : Nat) (x : Seam) (n' : Nat) :
    (s.setSeam n x).can n' = s.can n' := rfl

@[simp] theorem State.pair_setSeam (s : State) (n : Nat) (x : Seam) (n' : Nat) :
    (s.setSeam n x).pair n' = s.pair n' := rfl

@[simp] theorem State.bucket_setSeam (s : State) (n : Nat) (x : Seam) (k' : Nat) :
    (s.setSeam n x).bucket k' = s.bucket k' := rfl

@[simp] theorem State.face_setFace (s : State) (n : Nat) (x : Face) : (s.setFace n x).face n = x := by
  simp [State.face, State.setFace]

@[simp] theorem State.setFace_setFace (s : State) (n : Nat) (x y : Face) : (s.setFace n x).setFace n y = s.setFace n y := by
  simp [State.setFace]

@[simp] theorem State.crew_setFace (s : State) (n : Nat) (x : Face) (c' : Nat) :
    (s.setFace n x).crew c' = s.crew c' := rfl

@[simp] theorem State.hewer_setFace (s : State) (n : Nat) (x : Face) (c' r' : Nat) :
    (s.setFace n x).hewer c' r' = s.hewer c' r' := rfl

@[simp] theorem State.dresser_setFace (s : State) (n : Nat) (x : Face) (c' : Nat) :
    (s.setFace n x).dresser c' = s.dresser c' := rfl

@[simp] theorem State.gal_setFace (s : State) (n : Nat) (x : Face) (g' : Nat) :
    (s.setFace n x).gal g' = s.gal g' := rfl

@[simp] theorem State.core_setFace (s : State) (n : Nat) (x : Face) (g' n' : Nat) :
    (s.setFace n x).core g' n' = s.core g' n' := rfl

@[simp] theorem State.seam_setFace (s : State) (n : Nat) (x : Face) (n' : Nat) :
    (s.setFace n x).seam n' = s.seam n' := rfl

@[simp] theorem State.eng_setFace (s : State) (n : Nat) (x : Face) (e' : Nat) :
    (s.setFace n x).eng e' = s.eng e' := rfl

@[simp] theorem State.adit_setFace (s : State) (n : Nat) (x : Face) (a' : Nat) :
    (s.setFace n x).adit a' = s.adit a' := rfl

@[simp] theorem State.fn_setFace (s : State) (n : Nat) (x : Face) (f' : Nat) :
    (s.setFace n x).fn f' = s.fn f' := rfl

@[simp] theorem State.tok_setFace (s : State) (n : Nat) (x : Face) (col' : Nat) :
    (s.setFace n x).tok col' = s.tok col' := rfl

@[simp] theorem State.mergeCol_setFace (s : State) (n : Nat) (x : Face) (col' : Nat) :
    (s.setFace n x).mergeCol col' = s.mergeCol col' := rfl

@[simp] theorem State.vport_setFace (s : State) (n : Nat) (x : Face) (p' : Nat) :
    (s.setFace n x).vport p' = s.vport p' := rfl

@[simp] theorem State.slot_setFace (s : State) (n : Nat) (x : Face) (n' : Nat) :
    (s.setFace n x).slot n' = s.slot n' := rfl

@[simp] theorem State.page_setFace (s : State) (n : Nat) (x : Face) (p' : Nat) :
    (s.setFace n x).page p' = s.page p' := rfl

@[simp] theorem State.chk_setFace (s : State) (n : Nat) (x : Face) (u' : Nat) :
    (s.setFace n x).chk u' = s.chk u' := rfl

@[simp] theorem State.can_setFace (s : State) (n : Nat) (x : Face) (n' : Nat) :
    (s.setFace n x).can n' = s.can n' := rfl

@[simp] theorem State.pair_setFace (s : State) (n : Nat) (x : Face) (n' : Nat) :
    (s.setFace n x).pair n' = s.pair n' := rfl

@[simp] theorem State.bucket_setFace (s : State) (n : Nat) (x : Face) (k' : Nat) :
    (s.setFace n x).bucket k' = s.bucket k' := rfl

@[simp] theorem State.eng_setEng (s : State) (e : Nat) (x : Eng) : (s.setEng e x).eng e = x := by
  simp [State.eng, State.setEng]

@[simp] theorem State.setEng_setEng (s : State) (e : Nat) (x y : Eng) : (s.setEng e x).setEng e y = s.setEng e y := by
  simp [State.setEng]

@[simp] theorem State.crew_setEng (s : State) (e : Nat) (x : Eng) (c' : Nat) :
    (s.setEng e x).crew c' = s.crew c' := rfl

@[simp] theorem State.hewer_setEng (s : State) (e : Nat) (x : Eng) (c' r' : Nat) :
    (s.setEng e x).hewer c' r' = s.hewer c' r' := rfl

@[simp] theorem State.dresser_setEng (s : State) (e : Nat) (x : Eng) (c' : Nat) :
    (s.setEng e x).dresser c' = s.dresser c' := rfl

@[simp] theorem State.gal_setEng (s : State) (e : Nat) (x : Eng) (g' : Nat) :
    (s.setEng e x).gal g' = s.gal g' := rfl

@[simp] theorem State.core_setEng (s : State) (e : Nat) (x : Eng) (g' n' : Nat) :
    (s.setEng e x).core g' n' = s.core g' n' := rfl

@[simp] theorem State.seam_setEng (s : State) (e : Nat) (x : Eng) (n' : Nat) :
    (s.setEng e x).seam n' = s.seam n' := rfl

@[simp] theorem State.face_setEng (s : State) (e : Nat) (x : Eng) (n' : Nat) :
    (s.setEng e x).face n' = s.face n' := rfl

@[simp] theorem State.adit_setEng (s : State) (e : Nat) (x : Eng) (a' : Nat) :
    (s.setEng e x).adit a' = s.adit a' := rfl

@[simp] theorem State.fn_setEng (s : State) (e : Nat) (x : Eng) (f' : Nat) :
    (s.setEng e x).fn f' = s.fn f' := rfl

@[simp] theorem State.tok_setEng (s : State) (e : Nat) (x : Eng) (col' : Nat) :
    (s.setEng e x).tok col' = s.tok col' := rfl

@[simp] theorem State.mergeCol_setEng (s : State) (e : Nat) (x : Eng) (col' : Nat) :
    (s.setEng e x).mergeCol col' = s.mergeCol col' := rfl

@[simp] theorem State.vport_setEng (s : State) (e : Nat) (x : Eng) (p' : Nat) :
    (s.setEng e x).vport p' = s.vport p' := rfl

@[simp] theorem State.slot_setEng (s : State) (e : Nat) (x : Eng) (n' : Nat) :
    (s.setEng e x).slot n' = s.slot n' := rfl

@[simp] theorem State.page_setEng (s : State) (e : Nat) (x : Eng) (p' : Nat) :
    (s.setEng e x).page p' = s.page p' := rfl

@[simp] theorem State.chk_setEng (s : State) (e : Nat) (x : Eng) (u' : Nat) :
    (s.setEng e x).chk u' = s.chk u' := rfl

@[simp] theorem State.can_setEng (s : State) (e : Nat) (x : Eng) (n' : Nat) :
    (s.setEng e x).can n' = s.can n' := rfl

@[simp] theorem State.pair_setEng (s : State) (e : Nat) (x : Eng) (n' : Nat) :
    (s.setEng e x).pair n' = s.pair n' := rfl

@[simp] theorem State.bucket_setEng (s : State) (e : Nat) (x : Eng) (k' : Nat) :
    (s.setEng e x).bucket k' = s.bucket k' := rfl

@[simp] theorem State.adit_setAdit (s : State) (a : Nat) (x : Adit) : (s.setAdit a x).adit a = x := by
  simp [State.adit, State.setAdit]

@[simp] theorem State.setAdit_setAdit (s : State) (a : Nat) (x y : Adit) : (s.setAdit a x).setAdit a y = s.setAdit a y := by
  simp [State.setAdit]

@[simp] theorem State.crew_setAdit (s : State) (a : Nat) (x : Adit) (c' : Nat) :
    (s.setAdit a x).crew c' = s.crew c' := rfl

@[simp] theorem State.hewer_setAdit (s : State) (a : Nat) (x : Adit) (c' r' : Nat) :
    (s.setAdit a x).hewer c' r' = s.hewer c' r' := rfl

@[simp] theorem State.dresser_setAdit (s : State) (a : Nat) (x : Adit) (c' : Nat) :
    (s.setAdit a x).dresser c' = s.dresser c' := rfl

@[simp] theorem State.gal_setAdit (s : State) (a : Nat) (x : Adit) (g' : Nat) :
    (s.setAdit a x).gal g' = s.gal g' := rfl

@[simp] theorem State.core_setAdit (s : State) (a : Nat) (x : Adit) (g' n' : Nat) :
    (s.setAdit a x).core g' n' = s.core g' n' := rfl

@[simp] theorem State.seam_setAdit (s : State) (a : Nat) (x : Adit) (n' : Nat) :
    (s.setAdit a x).seam n' = s.seam n' := rfl

@[simp] theorem State.face_setAdit (s : State) (a : Nat) (x : Adit) (n' : Nat) :
    (s.setAdit a x).face n' = s.face n' := rfl

@[simp] theorem State.eng_setAdit (s : State) (a : Nat) (x : Adit) (e' : Nat) :
    (s.setAdit a x).eng e' = s.eng e' := rfl

@[simp] theorem State.fn_setAdit (s : State) (a : Nat) (x : Adit) (f' : Nat) :
    (s.setAdit a x).fn f' = s.fn f' := rfl

@[simp] theorem State.tok_setAdit (s : State) (a : Nat) (x : Adit) (col' : Nat) :
    (s.setAdit a x).tok col' = s.tok col' := rfl

@[simp] theorem State.mergeCol_setAdit (s : State) (a : Nat) (x : Adit) (col' : Nat) :
    (s.setAdit a x).mergeCol col' = s.mergeCol col' := rfl

@[simp] theorem State.vport_setAdit (s : State) (a : Nat) (x : Adit) (p' : Nat) :
    (s.setAdit a x).vport p' = s.vport p' := rfl

@[simp] theorem State.slot_setAdit (s : State) (a : Nat) (x : Adit) (n' : Nat) :
    (s.setAdit a x).slot n' = s.slot n' := rfl

@[simp] theorem State.page_setAdit (s : State) (a : Nat) (x : Adit) (p' : Nat) :
    (s.setAdit a x).page p' = s.page p' := rfl

@[simp] theorem State.chk_setAdit (s : State) (a : Nat) (x : Adit) (u' : Nat) :
    (s.setAdit a x).chk u' = s.chk u' := rfl

@[simp] theorem State.can_setAdit (s : State) (a : Nat) (x : Adit) (n' : Nat) :
    (s.setAdit a x).can n' = s.can n' := rfl

@[simp] theorem State.pair_setAdit (s : State) (a : Nat) (x : Adit) (n' : Nat) :
    (s.setAdit a x).pair n' = s.pair n' := rfl

@[simp] theorem State.bucket_setAdit (s : State) (a : Nat) (x : Adit) (k' : Nat) :
    (s.setAdit a x).bucket k' = s.bucket k' := rfl

@[simp] theorem State.fn_setFn (s : State) (f : Nat) (x : Fn) : (s.setFn f x).fn f = x := by
  simp [State.fn, State.setFn]

@[simp] theorem State.setFn_setFn (s : State) (f : Nat) (x y : Fn) : (s.setFn f x).setFn f y = s.setFn f y := by
  simp [State.setFn]

@[simp] theorem State.crew_setFn (s : State) (f : Nat) (x : Fn) (c' : Nat) :
    (s.setFn f x).crew c' = s.crew c' := rfl

@[simp] theorem State.hewer_setFn (s : State) (f : Nat) (x : Fn) (c' r' : Nat) :
    (s.setFn f x).hewer c' r' = s.hewer c' r' := rfl

@[simp] theorem State.dresser_setFn (s : State) (f : Nat) (x : Fn) (c' : Nat) :
    (s.setFn f x).dresser c' = s.dresser c' := rfl

@[simp] theorem State.gal_setFn (s : State) (f : Nat) (x : Fn) (g' : Nat) :
    (s.setFn f x).gal g' = s.gal g' := rfl

@[simp] theorem State.core_setFn (s : State) (f : Nat) (x : Fn) (g' n' : Nat) :
    (s.setFn f x).core g' n' = s.core g' n' := rfl

@[simp] theorem State.seam_setFn (s : State) (f : Nat) (x : Fn) (n' : Nat) :
    (s.setFn f x).seam n' = s.seam n' := rfl

@[simp] theorem State.face_setFn (s : State) (f : Nat) (x : Fn) (n' : Nat) :
    (s.setFn f x).face n' = s.face n' := rfl

@[simp] theorem State.eng_setFn (s : State) (f : Nat) (x : Fn) (e' : Nat) :
    (s.setFn f x).eng e' = s.eng e' := rfl

@[simp] theorem State.adit_setFn (s : State) (f : Nat) (x : Fn) (a' : Nat) :
    (s.setFn f x).adit a' = s.adit a' := rfl

@[simp] theorem State.tok_setFn (s : State) (f : Nat) (x : Fn) (col' : Nat) :
    (s.setFn f x).tok col' = s.tok col' := rfl

@[simp] theorem State.mergeCol_setFn (s : State) (f : Nat) (x : Fn) (col' : Nat) :
    (s.setFn f x).mergeCol col' = s.mergeCol col' := rfl

@[simp] theorem State.vport_setFn (s : State) (f : Nat) (x : Fn) (p' : Nat) :
    (s.setFn f x).vport p' = s.vport p' := rfl

@[simp] theorem State.slot_setFn (s : State) (f : Nat) (x : Fn) (n' : Nat) :
    (s.setFn f x).slot n' = s.slot n' := rfl

@[simp] theorem State.page_setFn (s : State) (f : Nat) (x : Fn) (p' : Nat) :
    (s.setFn f x).page p' = s.page p' := rfl

@[simp] theorem State.chk_setFn (s : State) (f : Nat) (x : Fn) (u' : Nat) :
    (s.setFn f x).chk u' = s.chk u' := rfl

@[simp] theorem State.can_setFn (s : State) (f : Nat) (x : Fn) (n' : Nat) :
    (s.setFn f x).can n' = s.can n' := rfl

@[simp] theorem State.pair_setFn (s : State) (f : Nat) (x : Fn) (n' : Nat) :
    (s.setFn f x).pair n' = s.pair n' := rfl

@[simp] theorem State.bucket_setFn (s : State) (f : Nat) (x : Fn) (k' : Nat) :
    (s.setFn f x).bucket k' = s.bucket k' := rfl

@[simp] theorem State.tok_setTok (s : State) (col : Nat) (x : ColTok) : (s.setTok col x).tok col = x := by
  simp [State.tok, State.setTok]

@[simp] theorem State.setTok_setTok (s : State) (col : Nat) (x y : ColTok) : (s.setTok col x).setTok col y = s.setTok col y := by
  simp [State.setTok]

@[simp] theorem State.crew_setTok (s : State) (col : Nat) (x : ColTok) (c' : Nat) :
    (s.setTok col x).crew c' = s.crew c' := rfl

@[simp] theorem State.hewer_setTok (s : State) (col : Nat) (x : ColTok) (c' r' : Nat) :
    (s.setTok col x).hewer c' r' = s.hewer c' r' := rfl

@[simp] theorem State.dresser_setTok (s : State) (col : Nat) (x : ColTok) (c' : Nat) :
    (s.setTok col x).dresser c' = s.dresser c' := rfl

@[simp] theorem State.gal_setTok (s : State) (col : Nat) (x : ColTok) (g' : Nat) :
    (s.setTok col x).gal g' = s.gal g' := rfl

@[simp] theorem State.core_setTok (s : State) (col : Nat) (x : ColTok) (g' n' : Nat) :
    (s.setTok col x).core g' n' = s.core g' n' := rfl

@[simp] theorem State.seam_setTok (s : State) (col : Nat) (x : ColTok) (n' : Nat) :
    (s.setTok col x).seam n' = s.seam n' := rfl

@[simp] theorem State.face_setTok (s : State) (col : Nat) (x : ColTok) (n' : Nat) :
    (s.setTok col x).face n' = s.face n' := rfl

@[simp] theorem State.eng_setTok (s : State) (col : Nat) (x : ColTok) (e' : Nat) :
    (s.setTok col x).eng e' = s.eng e' := rfl

@[simp] theorem State.adit_setTok (s : State) (col : Nat) (x : ColTok) (a' : Nat) :
    (s.setTok col x).adit a' = s.adit a' := rfl

@[simp] theorem State.fn_setTok (s : State) (col : Nat) (x : ColTok) (f' : Nat) :
    (s.setTok col x).fn f' = s.fn f' := rfl

@[simp] theorem State.mergeCol_setTok (s : State) (col : Nat) (x : ColTok) (col' : Nat) :
    (s.setTok col x).mergeCol col' = s.mergeCol col' := rfl

@[simp] theorem State.vport_setTok (s : State) (col : Nat) (x : ColTok) (p' : Nat) :
    (s.setTok col x).vport p' = s.vport p' := rfl

@[simp] theorem State.slot_setTok (s : State) (col : Nat) (x : ColTok) (n' : Nat) :
    (s.setTok col x).slot n' = s.slot n' := rfl

@[simp] theorem State.page_setTok (s : State) (col : Nat) (x : ColTok) (p' : Nat) :
    (s.setTok col x).page p' = s.page p' := rfl

@[simp] theorem State.chk_setTok (s : State) (col : Nat) (x : ColTok) (u' : Nat) :
    (s.setTok col x).chk u' = s.chk u' := rfl

@[simp] theorem State.can_setTok (s : State) (col : Nat) (x : ColTok) (n' : Nat) :
    (s.setTok col x).can n' = s.can n' := rfl

@[simp] theorem State.pair_setTok (s : State) (col : Nat) (x : ColTok) (n' : Nat) :
    (s.setTok col x).pair n' = s.pair n' := rfl

@[simp] theorem State.bucket_setTok (s : State) (col : Nat) (x : ColTok) (k' : Nat) :
    (s.setTok col x).bucket k' = s.bucket k' := rfl

@[simp] theorem State.mergeCol_setMergeCol (s : State) (col : Nat) (x : MergeCol) : (s.setMergeCol col x).mergeCol col = x := by
  simp [State.mergeCol, State.setMergeCol]

@[simp] theorem State.setMergeCol_setMergeCol (s : State) (col : Nat) (x y : MergeCol) : (s.setMergeCol col x).setMergeCol col y = s.setMergeCol col y := by
  simp [State.setMergeCol]

@[simp] theorem State.crew_setMergeCol (s : State) (col : Nat) (x : MergeCol) (c' : Nat) :
    (s.setMergeCol col x).crew c' = s.crew c' := rfl

@[simp] theorem State.hewer_setMergeCol (s : State) (col : Nat) (x : MergeCol) (c' r' : Nat) :
    (s.setMergeCol col x).hewer c' r' = s.hewer c' r' := rfl

@[simp] theorem State.dresser_setMergeCol (s : State) (col : Nat) (x : MergeCol) (c' : Nat) :
    (s.setMergeCol col x).dresser c' = s.dresser c' := rfl

@[simp] theorem State.gal_setMergeCol (s : State) (col : Nat) (x : MergeCol) (g' : Nat) :
    (s.setMergeCol col x).gal g' = s.gal g' := rfl

@[simp] theorem State.core_setMergeCol (s : State) (col : Nat) (x : MergeCol) (g' n' : Nat) :
    (s.setMergeCol col x).core g' n' = s.core g' n' := rfl

@[simp] theorem State.seam_setMergeCol (s : State) (col : Nat) (x : MergeCol) (n' : Nat) :
    (s.setMergeCol col x).seam n' = s.seam n' := rfl

@[simp] theorem State.face_setMergeCol (s : State) (col : Nat) (x : MergeCol) (n' : Nat) :
    (s.setMergeCol col x).face n' = s.face n' := rfl

@[simp] theorem State.eng_setMergeCol (s : State) (col : Nat) (x : MergeCol) (e' : Nat) :
    (s.setMergeCol col x).eng e' = s.eng e' := rfl

@[simp] theorem State.adit_setMergeCol (s : State) (col : Nat) (x : MergeCol) (a' : Nat) :
    (s.setMergeCol col x).adit a' = s.adit a' := rfl

@[simp] theorem State.fn_setMergeCol (s : State) (col : Nat) (x : MergeCol) (f' : Nat) :
    (s.setMergeCol col x).fn f' = s.fn f' := rfl

@[simp] theorem State.tok_setMergeCol (s : State) (col : Nat) (x : MergeCol) (col' : Nat) :
    (s.setMergeCol col x).tok col' = s.tok col' := rfl

@[simp] theorem State.vport_setMergeCol (s : State) (col : Nat) (x : MergeCol) (p' : Nat) :
    (s.setMergeCol col x).vport p' = s.vport p' := rfl

@[simp] theorem State.slot_setMergeCol (s : State) (col : Nat) (x : MergeCol) (n' : Nat) :
    (s.setMergeCol col x).slot n' = s.slot n' := rfl

@[simp] theorem State.page_setMergeCol (s : State) (col : Nat) (x : MergeCol) (p' : Nat) :
    (s.setMergeCol col x).page p' = s.page p' := rfl

@[simp] theorem State.chk_setMergeCol (s : State) (col : Nat) (x : MergeCol) (u' : Nat) :
    (s.setMergeCol col x).chk u' = s.chk u' := rfl

@[simp] theorem State.can_setMergeCol (s : State) (col : Nat) (x : MergeCol) (n' : Nat) :
    (s.setMergeCol col x).can n' = s.can n' := rfl

@[simp] theorem State.pair_setMergeCol (s : State) (col : Nat) (x : MergeCol) (n' : Nat) :
    (s.setMergeCol col x).pair n' = s.pair n' := rfl

@[simp] theorem State.bucket_setMergeCol (s : State) (col : Nat) (x : MergeCol) (k' : Nat) :
    (s.setMergeCol col x).bucket k' = s.bucket k' := rfl

@[simp] theorem State.vport_setVport (s : State) (p : Nat) (x : VeinPort) : (s.setVport p x).vport p = x := by
  simp [State.vport, State.setVport]

@[simp] theorem State.setVport_setVport (s : State) (p : Nat) (x y : VeinPort) : (s.setVport p x).setVport p y = s.setVport p y := by
  simp [State.setVport]

@[simp] theorem State.crew_setVport (s : State) (p : Nat) (x : VeinPort) (c' : Nat) :
    (s.setVport p x).crew c' = s.crew c' := rfl

@[simp] theorem State.hewer_setVport (s : State) (p : Nat) (x : VeinPort) (c' r' : Nat) :
    (s.setVport p x).hewer c' r' = s.hewer c' r' := rfl

@[simp] theorem State.dresser_setVport (s : State) (p : Nat) (x : VeinPort) (c' : Nat) :
    (s.setVport p x).dresser c' = s.dresser c' := rfl

@[simp] theorem State.gal_setVport (s : State) (p : Nat) (x : VeinPort) (g' : Nat) :
    (s.setVport p x).gal g' = s.gal g' := rfl

@[simp] theorem State.core_setVport (s : State) (p : Nat) (x : VeinPort) (g' n' : Nat) :
    (s.setVport p x).core g' n' = s.core g' n' := rfl

@[simp] theorem State.seam_setVport (s : State) (p : Nat) (x : VeinPort) (n' : Nat) :
    (s.setVport p x).seam n' = s.seam n' := rfl

@[simp] theorem State.face_setVport (s : State) (p : Nat) (x : VeinPort) (n' : Nat) :
    (s.setVport p x).face n' = s.face n' := rfl

@[simp] theorem State.eng_setVport (s : State) (p : Nat) (x : VeinPort) (e' : Nat) :
    (s.setVport p x).eng e' = s.eng e' := rfl

@[simp] theorem State.adit_setVport (s : State) (p : Nat) (x : VeinPort) (a' : Nat) :
    (s.setVport p x).adit a' = s.adit a' := rfl

@[simp] theorem State.fn_setVport (s : State) (p : Nat) (x : VeinPort) (f' : Nat) :
    (s.setVport p x).fn f' = s.fn f' := rfl

@[simp] theorem State.tok_setVport (s : State) (p : Nat) (x : VeinPort) (col' : Nat) :
    (s.setVport p x).tok col' = s.tok col' := rfl

@[simp] theorem State.mergeCol_setVport (s : State) (p : Nat) (x : VeinPort) (col' : Nat) :
    (s.setVport p x).mergeCol col' = s.mergeCol col' := rfl

@[simp] theorem State.slot_setVport (s : State) (p : Nat) (x : VeinPort) (n' : Nat) :
    (s.setVport p x).slot n' = s.slot n' := rfl

@[simp] theorem State.page_setVport (s : State) (p : Nat) (x : VeinPort) (p' : Nat) :
    (s.setVport p x).page p' = s.page p' := rfl

@[simp] theorem State.chk_setVport (s : State) (p : Nat) (x : VeinPort) (u' : Nat) :
    (s.setVport p x).chk u' = s.chk u' := rfl

@[simp] theorem State.can_setVport (s : State) (p : Nat) (x : VeinPort) (n' : Nat) :
    (s.setVport p x).can n' = s.can n' := rfl

@[simp] theorem State.pair_setVport (s : State) (p : Nat) (x : VeinPort) (n' : Nat) :
    (s.setVport p x).pair n' = s.pair n' := rfl

@[simp] theorem State.bucket_setVport (s : State) (p : Nat) (x : VeinPort) (k' : Nat) :
    (s.setVport p x).bucket k' = s.bucket k' := rfl

@[simp] theorem State.slot_setSlot (s : State) (n : Nat) (x : SeqSlot) : (s.setSlot n x).slot n = x := by
  simp [State.slot, State.setSlot]

@[simp] theorem State.setSlot_setSlot (s : State) (n : Nat) (x y : SeqSlot) : (s.setSlot n x).setSlot n y = s.setSlot n y := by
  simp [State.setSlot]

@[simp] theorem State.crew_setSlot (s : State) (n : Nat) (x : SeqSlot) (c' : Nat) :
    (s.setSlot n x).crew c' = s.crew c' := rfl

@[simp] theorem State.hewer_setSlot (s : State) (n : Nat) (x : SeqSlot) (c' r' : Nat) :
    (s.setSlot n x).hewer c' r' = s.hewer c' r' := rfl

@[simp] theorem State.dresser_setSlot (s : State) (n : Nat) (x : SeqSlot) (c' : Nat) :
    (s.setSlot n x).dresser c' = s.dresser c' := rfl

@[simp] theorem State.gal_setSlot (s : State) (n : Nat) (x : SeqSlot) (g' : Nat) :
    (s.setSlot n x).gal g' = s.gal g' := rfl

@[simp] theorem State.core_setSlot (s : State) (n : Nat) (x : SeqSlot) (g' n' : Nat) :
    (s.setSlot n x).core g' n' = s.core g' n' := rfl

@[simp] theorem State.seam_setSlot (s : State) (n : Nat) (x : SeqSlot) (n' : Nat) :
    (s.setSlot n x).seam n' = s.seam n' := rfl

@[simp] theorem State.face_setSlot (s : State) (n : Nat) (x : SeqSlot) (n' : Nat) :
    (s.setSlot n x).face n' = s.face n' := rfl

@[simp] theorem State.eng_setSlot (s : State) (n : Nat) (x : SeqSlot) (e' : Nat) :
    (s.setSlot n x).eng e' = s.eng e' := rfl

@[simp] theorem State.adit_setSlot (s : State) (n : Nat) (x : SeqSlot) (a' : Nat) :
    (s.setSlot n x).adit a' = s.adit a' := rfl

@[simp] theorem State.fn_setSlot (s : State) (n : Nat) (x : SeqSlot) (f' : Nat) :
    (s.setSlot n x).fn f' = s.fn f' := rfl

@[simp] theorem State.tok_setSlot (s : State) (n : Nat) (x : SeqSlot) (col' : Nat) :
    (s.setSlot n x).tok col' = s.tok col' := rfl

@[simp] theorem State.mergeCol_setSlot (s : State) (n : Nat) (x : SeqSlot) (col' : Nat) :
    (s.setSlot n x).mergeCol col' = s.mergeCol col' := rfl

@[simp] theorem State.vport_setSlot (s : State) (n : Nat) (x : SeqSlot) (p' : Nat) :
    (s.setSlot n x).vport p' = s.vport p' := rfl

@[simp] theorem State.page_setSlot (s : State) (n : Nat) (x : SeqSlot) (p' : Nat) :
    (s.setSlot n x).page p' = s.page p' := rfl

@[simp] theorem State.chk_setSlot (s : State) (n : Nat) (x : SeqSlot) (u' : Nat) :
    (s.setSlot n x).chk u' = s.chk u' := rfl

@[simp] theorem State.can_setSlot (s : State) (n : Nat) (x : SeqSlot) (n' : Nat) :
    (s.setSlot n x).can n' = s.can n' := rfl

@[simp] theorem State.pair_setSlot (s : State) (n : Nat) (x : SeqSlot) (n' : Nat) :
    (s.setSlot n x).pair n' = s.pair n' := rfl

@[simp] theorem State.bucket_setSlot (s : State) (n : Nat) (x : SeqSlot) (k' : Nat) :
    (s.setSlot n x).bucket k' = s.bucket k' := rfl

@[simp] theorem State.page_setPage (s : State) (p : Nat) (x : PageHdr) : (s.setPage p x).page p = x := by
  simp [State.page, State.setPage]

@[simp] theorem State.setPage_setPage (s : State) (p : Nat) (x y : PageHdr) : (s.setPage p x).setPage p y = s.setPage p y := by
  simp [State.setPage]

@[simp] theorem State.crew_setPage (s : State) (p : Nat) (x : PageHdr) (c' : Nat) :
    (s.setPage p x).crew c' = s.crew c' := rfl

@[simp] theorem State.hewer_setPage (s : State) (p : Nat) (x : PageHdr) (c' r' : Nat) :
    (s.setPage p x).hewer c' r' = s.hewer c' r' := rfl

@[simp] theorem State.dresser_setPage (s : State) (p : Nat) (x : PageHdr) (c' : Nat) :
    (s.setPage p x).dresser c' = s.dresser c' := rfl

@[simp] theorem State.gal_setPage (s : State) (p : Nat) (x : PageHdr) (g' : Nat) :
    (s.setPage p x).gal g' = s.gal g' := rfl

@[simp] theorem State.core_setPage (s : State) (p : Nat) (x : PageHdr) (g' n' : Nat) :
    (s.setPage p x).core g' n' = s.core g' n' := rfl

@[simp] theorem State.seam_setPage (s : State) (p : Nat) (x : PageHdr) (n' : Nat) :
    (s.setPage p x).seam n' = s.seam n' := rfl

@[simp] theorem State.face_setPage (s : State) (p : Nat) (x : PageHdr) (n' : Nat) :
    (s.setPage p x).face n' = s.face n' := rfl

@[simp] theorem State.eng_setPage (s : State) (p : Nat) (x : PageHdr) (e' : Nat) :
    (s.setPage p x).eng e' = s.eng e' := rfl

@[simp] theorem State.adit_setPage (s : State) (p : Nat) (x : PageHdr) (a' : Nat) :
    (s.setPage p x).adit a' = s.adit a' := rfl

@[simp] theorem State.fn_setPage (s : State) (p : Nat) (x : PageHdr) (f' : Nat) :
    (s.setPage p x).fn f' = s.fn f' := rfl

@[simp] theorem State.tok_setPage (s : State) (p : Nat) (x : PageHdr) (col' : Nat) :
    (s.setPage p x).tok col' = s.tok col' := rfl

@[simp] theorem State.mergeCol_setPage (s : State) (p : Nat) (x : PageHdr) (col' : Nat) :
    (s.setPage p x).mergeCol col' = s.mergeCol col' := rfl

@[simp] theorem State.vport_setPage (s : State) (p : Nat) (x : PageHdr) (p' : Nat) :
    (s.setPage p x).vport p' = s.vport p' := rfl

@[simp] theorem State.slot_setPage (s : State) (p : Nat) (x : PageHdr) (n' : Nat) :
    (s.setPage p x).slot n' = s.slot n' := rfl

@[simp] theorem State.chk_setPage (s : State) (p : Nat) (x : PageHdr) (u' : Nat) :
    (s.setPage p x).chk u' = s.chk u' := rfl

@[simp] theorem State.can_setPage (s : State) (p : Nat) (x : PageHdr) (n' : Nat) :
    (s.setPage p x).can n' = s.can n' := rfl

@[simp] theorem State.pair_setPage (s : State) (p : Nat) (x : PageHdr) (n' : Nat) :
    (s.setPage p x).pair n' = s.pair n' := rfl

@[simp] theorem State.bucket_setPage (s : State) (p : Nat) (x : PageHdr) (k' : Nat) :
    (s.setPage p x).bucket k' = s.bucket k' := rfl

@[simp] theorem State.chk_setChk (s : State) (u : Nat) (x : Chk) : (s.setChk u x).chk u = x := by
  simp [State.chk, State.setChk]

@[simp] theorem State.setChk_setChk (s : State) (u : Nat) (x y : Chk) : (s.setChk u x).setChk u y = s.setChk u y := by
  simp [State.setChk]

@[simp] theorem State.crew_setChk (s : State) (u : Nat) (x : Chk) (c' : Nat) :
    (s.setChk u x).crew c' = s.crew c' := rfl

@[simp] theorem State.hewer_setChk (s : State) (u : Nat) (x : Chk) (c' r' : Nat) :
    (s.setChk u x).hewer c' r' = s.hewer c' r' := rfl

@[simp] theorem State.dresser_setChk (s : State) (u : Nat) (x : Chk) (c' : Nat) :
    (s.setChk u x).dresser c' = s.dresser c' := rfl

@[simp] theorem State.gal_setChk (s : State) (u : Nat) (x : Chk) (g' : Nat) :
    (s.setChk u x).gal g' = s.gal g' := rfl

@[simp] theorem State.core_setChk (s : State) (u : Nat) (x : Chk) (g' n' : Nat) :
    (s.setChk u x).core g' n' = s.core g' n' := rfl

@[simp] theorem State.seam_setChk (s : State) (u : Nat) (x : Chk) (n' : Nat) :
    (s.setChk u x).seam n' = s.seam n' := rfl

@[simp] theorem State.face_setChk (s : State) (u : Nat) (x : Chk) (n' : Nat) :
    (s.setChk u x).face n' = s.face n' := rfl

@[simp] theorem State.eng_setChk (s : State) (u : Nat) (x : Chk) (e' : Nat) :
    (s.setChk u x).eng e' = s.eng e' := rfl

@[simp] theorem State.adit_setChk (s : State) (u : Nat) (x : Chk) (a' : Nat) :
    (s.setChk u x).adit a' = s.adit a' := rfl

@[simp] theorem State.fn_setChk (s : State) (u : Nat) (x : Chk) (f' : Nat) :
    (s.setChk u x).fn f' = s.fn f' := rfl

@[simp] theorem State.tok_setChk (s : State) (u : Nat) (x : Chk) (col' : Nat) :
    (s.setChk u x).tok col' = s.tok col' := rfl

@[simp] theorem State.mergeCol_setChk (s : State) (u : Nat) (x : Chk) (col' : Nat) :
    (s.setChk u x).mergeCol col' = s.mergeCol col' := rfl

@[simp] theorem State.vport_setChk (s : State) (u : Nat) (x : Chk) (p' : Nat) :
    (s.setChk u x).vport p' = s.vport p' := rfl

@[simp] theorem State.slot_setChk (s : State) (u : Nat) (x : Chk) (n' : Nat) :
    (s.setChk u x).slot n' = s.slot n' := rfl

@[simp] theorem State.page_setChk (s : State) (u : Nat) (x : Chk) (p' : Nat) :
    (s.setChk u x).page p' = s.page p' := rfl

@[simp] theorem State.can_setChk (s : State) (u : Nat) (x : Chk) (n' : Nat) :
    (s.setChk u x).can n' = s.can n' := rfl

@[simp] theorem State.pair_setChk (s : State) (u : Nat) (x : Chk) (n' : Nat) :
    (s.setChk u x).pair n' = s.pair n' := rfl

@[simp] theorem State.bucket_setChk (s : State) (u : Nat) (x : Chk) (k' : Nat) :
    (s.setChk u x).bucket k' = s.bucket k' := rfl

@[simp] theorem State.can_setCan (s : State) (n : Nat) (x : Canary) : (s.setCan n x).can n = x := by
  simp [State.can, State.setCan]

@[simp] theorem State.setCan_setCan (s : State) (n : Nat) (x y : Canary) : (s.setCan n x).setCan n y = s.setCan n y := by
  simp [State.setCan]

@[simp] theorem State.crew_setCan (s : State) (n : Nat) (x : Canary) (c' : Nat) :
    (s.setCan n x).crew c' = s.crew c' := rfl

@[simp] theorem State.hewer_setCan (s : State) (n : Nat) (x : Canary) (c' r' : Nat) :
    (s.setCan n x).hewer c' r' = s.hewer c' r' := rfl

@[simp] theorem State.dresser_setCan (s : State) (n : Nat) (x : Canary) (c' : Nat) :
    (s.setCan n x).dresser c' = s.dresser c' := rfl

@[simp] theorem State.gal_setCan (s : State) (n : Nat) (x : Canary) (g' : Nat) :
    (s.setCan n x).gal g' = s.gal g' := rfl

@[simp] theorem State.core_setCan (s : State) (n : Nat) (x : Canary) (g' n' : Nat) :
    (s.setCan n x).core g' n' = s.core g' n' := rfl

@[simp] theorem State.seam_setCan (s : State) (n : Nat) (x : Canary) (n' : Nat) :
    (s.setCan n x).seam n' = s.seam n' := rfl

@[simp] theorem State.face_setCan (s : State) (n : Nat) (x : Canary) (n' : Nat) :
    (s.setCan n x).face n' = s.face n' := rfl

@[simp] theorem State.eng_setCan (s : State) (n : Nat) (x : Canary) (e' : Nat) :
    (s.setCan n x).eng e' = s.eng e' := rfl

@[simp] theorem State.adit_setCan (s : State) (n : Nat) (x : Canary) (a' : Nat) :
    (s.setCan n x).adit a' = s.adit a' := rfl

@[simp] theorem State.fn_setCan (s : State) (n : Nat) (x : Canary) (f' : Nat) :
    (s.setCan n x).fn f' = s.fn f' := rfl

@[simp] theorem State.tok_setCan (s : State) (n : Nat) (x : Canary) (col' : Nat) :
    (s.setCan n x).tok col' = s.tok col' := rfl

@[simp] theorem State.mergeCol_setCan (s : State) (n : Nat) (x : Canary) (col' : Nat) :
    (s.setCan n x).mergeCol col' = s.mergeCol col' := rfl

@[simp] theorem State.vport_setCan (s : State) (n : Nat) (x : Canary) (p' : Nat) :
    (s.setCan n x).vport p' = s.vport p' := rfl

@[simp] theorem State.slot_setCan (s : State) (n : Nat) (x : Canary) (n' : Nat) :
    (s.setCan n x).slot n' = s.slot n' := rfl

@[simp] theorem State.page_setCan (s : State) (n : Nat) (x : Canary) (p' : Nat) :
    (s.setCan n x).page p' = s.page p' := rfl

@[simp] theorem State.chk_setCan (s : State) (n : Nat) (x : Canary) (u' : Nat) :
    (s.setCan n x).chk u' = s.chk u' := rfl

@[simp] theorem State.pair_setCan (s : State) (n : Nat) (x : Canary) (n' : Nat) :
    (s.setCan n x).pair n' = s.pair n' := rfl

@[simp] theorem State.bucket_setCan (s : State) (n : Nat) (x : Canary) (k' : Nat) :
    (s.setCan n x).bucket k' = s.bucket k' := rfl

@[simp] theorem State.pair_setPair (s : State) (n : Nat) (x : Pair) : (s.setPair n x).pair n = x := by
  simp [State.pair, State.setPair]

@[simp] theorem State.setPair_setPair (s : State) (n : Nat) (x y : Pair) : (s.setPair n x).setPair n y = s.setPair n y := by
  simp [State.setPair]

@[simp] theorem State.crew_setPair (s : State) (n : Nat) (x : Pair) (c' : Nat) :
    (s.setPair n x).crew c' = s.crew c' := rfl

@[simp] theorem State.hewer_setPair (s : State) (n : Nat) (x : Pair) (c' r' : Nat) :
    (s.setPair n x).hewer c' r' = s.hewer c' r' := rfl

@[simp] theorem State.dresser_setPair (s : State) (n : Nat) (x : Pair) (c' : Nat) :
    (s.setPair n x).dresser c' = s.dresser c' := rfl

@[simp] theorem State.gal_setPair (s : State) (n : Nat) (x : Pair) (g' : Nat) :
    (s.setPair n x).gal g' = s.gal g' := rfl

@[simp] theorem State.core_setPair (s : State) (n : Nat) (x : Pair) (g' n' : Nat) :
    (s.setPair n x).core g' n' = s.core g' n' := rfl

@[simp] theorem State.seam_setPair (s : State) (n : Nat) (x : Pair) (n' : Nat) :
    (s.setPair n x).seam n' = s.seam n' := rfl

@[simp] theorem State.face_setPair (s : State) (n : Nat) (x : Pair) (n' : Nat) :
    (s.setPair n x).face n' = s.face n' := rfl

@[simp] theorem State.eng_setPair (s : State) (n : Nat) (x : Pair) (e' : Nat) :
    (s.setPair n x).eng e' = s.eng e' := rfl

@[simp] theorem State.adit_setPair (s : State) (n : Nat) (x : Pair) (a' : Nat) :
    (s.setPair n x).adit a' = s.adit a' := rfl

@[simp] theorem State.fn_setPair (s : State) (n : Nat) (x : Pair) (f' : Nat) :
    (s.setPair n x).fn f' = s.fn f' := rfl

@[simp] theorem State.tok_setPair (s : State) (n : Nat) (x : Pair) (col' : Nat) :
    (s.setPair n x).tok col' = s.tok col' := rfl

@[simp] theorem State.mergeCol_setPair (s : State) (n : Nat) (x : Pair) (col' : Nat) :
    (s.setPair n x).mergeCol col' = s.mergeCol col' := rfl

@[simp] theorem State.vport_setPair (s : State) (n : Nat) (x : Pair) (p' : Nat) :
    (s.setPair n x).vport p' = s.vport p' := rfl

@[simp] theorem State.slot_setPair (s : State) (n : Nat) (x : Pair) (n' : Nat) :
    (s.setPair n x).slot n' = s.slot n' := rfl

@[simp] theorem State.page_setPair (s : State) (n : Nat) (x : Pair) (p' : Nat) :
    (s.setPair n x).page p' = s.page p' := rfl

@[simp] theorem State.chk_setPair (s : State) (n : Nat) (x : Pair) (u' : Nat) :
    (s.setPair n x).chk u' = s.chk u' := rfl

@[simp] theorem State.can_setPair (s : State) (n : Nat) (x : Pair) (n' : Nat) :
    (s.setPair n x).can n' = s.can n' := rfl

@[simp] theorem State.bucket_setPair (s : State) (n : Nat) (x : Pair) (k' : Nat) :
    (s.setPair n x).bucket k' = s.bucket k' := rfl

@[simp] theorem State.bucket_setBucket (s : State) (k : Nat) (x : Bucket) : (s.setBucket k x).bucket k = x := by
  simp [State.bucket, State.setBucket]

@[simp] theorem State.setBucket_setBucket (s : State) (k : Nat) (x y : Bucket) : (s.setBucket k x).setBucket k y = s.setBucket k y := by
  simp [State.setBucket]

@[simp] theorem State.crew_setBucket (s : State) (k : Nat) (x : Bucket) (c' : Nat) :
    (s.setBucket k x).crew c' = s.crew c' := rfl

@[simp] theorem State.hewer_setBucket (s : State) (k : Nat) (x : Bucket) (c' r' : Nat) :
    (s.setBucket k x).hewer c' r' = s.hewer c' r' := rfl

@[simp] theorem State.dresser_setBucket (s : State) (k : Nat) (x : Bucket) (c' : Nat) :
    (s.setBucket k x).dresser c' = s.dresser c' := rfl

@[simp] theorem State.gal_setBucket (s : State) (k : Nat) (x : Bucket) (g' : Nat) :
    (s.setBucket k x).gal g' = s.gal g' := rfl

@[simp] theorem State.core_setBucket (s : State) (k : Nat) (x : Bucket) (g' n' : Nat) :
    (s.setBucket k x).core g' n' = s.core g' n' := rfl

@[simp] theorem State.seam_setBucket (s : State) (k : Nat) (x : Bucket) (n' : Nat) :
    (s.setBucket k x).seam n' = s.seam n' := rfl

@[simp] theorem State.face_setBucket (s : State) (k : Nat) (x : Bucket) (n' : Nat) :
    (s.setBucket k x).face n' = s.face n' := rfl

@[simp] theorem State.eng_setBucket (s : State) (k : Nat) (x : Bucket) (e' : Nat) :
    (s.setBucket k x).eng e' = s.eng e' := rfl

@[simp] theorem State.adit_setBucket (s : State) (k : Nat) (x : Bucket) (a' : Nat) :
    (s.setBucket k x).adit a' = s.adit a' := rfl

@[simp] theorem State.fn_setBucket (s : State) (k : Nat) (x : Bucket) (f' : Nat) :
    (s.setBucket k x).fn f' = s.fn f' := rfl

@[simp] theorem State.tok_setBucket (s : State) (k : Nat) (x : Bucket) (col' : Nat) :
    (s.setBucket k x).tok col' = s.tok col' := rfl

@[simp] theorem State.mergeCol_setBucket (s : State) (k : Nat) (x : Bucket) (col' : Nat) :
    (s.setBucket k x).mergeCol col' = s.mergeCol col' := rfl

@[simp] theorem State.vport_setBucket (s : State) (k : Nat) (x : Bucket) (p' : Nat) :
    (s.setBucket k x).vport p' = s.vport p' := rfl

@[simp] theorem State.slot_setBucket (s : State) (k : Nat) (x : Bucket) (n' : Nat) :
    (s.setBucket k x).slot n' = s.slot n' := rfl

@[simp] theorem State.page_setBucket (s : State) (k : Nat) (x : Bucket) (p' : Nat) :
    (s.setBucket k x).page p' = s.page p' := rfl

@[simp] theorem State.chk_setBucket (s : State) (k : Nat) (x : Bucket) (u' : Nat) :
    (s.setBucket k x).chk u' = s.chk u' := rfl

@[simp] theorem State.can_setBucket (s : State) (k : Nat) (x : Bucket) (n' : Nat) :
    (s.setBucket k x).can n' = s.can n' := rfl

@[simp] theorem State.pair_setBucket (s : State) (k : Nat) (x : Bucket) (n' : Nat) :
    (s.setBucket k x).pair n' = s.pair n' := rfl

@[simp] theorem State.crew_emit (s : State) (o : Out) (c : Nat) : (s.emit o).crew c = s.crew c := rfl

@[simp] theorem State.crew_fresh (s : State) (c : Nat) : s.fresh.2.crew c = s.crew c := rfl

@[simp] theorem State.hewer_emit (s : State) (o : Out) (c r : Nat) : (s.emit o).hewer c r = s.hewer c r := rfl

@[simp] theorem State.hewer_fresh (s : State) (c r : Nat) : s.fresh.2.hewer c r = s.hewer c r := rfl

@[simp] theorem State.dresser_emit (s : State) (o : Out) (c : Nat) : (s.emit o).dresser c = s.dresser c := rfl

@[simp] theorem State.dresser_fresh (s : State) (c : Nat) : s.fresh.2.dresser c = s.dresser c := rfl

@[simp] theorem State.gal_emit (s : State) (o : Out) (g : Nat) : (s.emit o).gal g = s.gal g := rfl

@[simp] theorem State.gal_fresh (s : State) (g : Nat) : s.fresh.2.gal g = s.gal g := rfl

@[simp] theorem State.core_emit (s : State) (o : Out) (g n : Nat) : (s.emit o).core g n = s.core g n := rfl

@[simp] theorem State.core_fresh (s : State) (g n : Nat) : s.fresh.2.core g n = s.core g n := rfl

@[simp] theorem State.seam_emit (s : State) (o : Out) (n : Nat) : (s.emit o).seam n = s.seam n := rfl

@[simp] theorem State.seam_fresh (s : State) (n : Nat) : s.fresh.2.seam n = s.seam n := rfl

@[simp] theorem State.face_emit (s : State) (o : Out) (n : Nat) : (s.emit o).face n = s.face n := rfl

@[simp] theorem State.face_fresh (s : State) (n : Nat) : s.fresh.2.face n = s.face n := rfl

@[simp] theorem State.eng_emit (s : State) (o : Out) (e : Nat) : (s.emit o).eng e = s.eng e := rfl

@[simp] theorem State.eng_fresh (s : State) (e : Nat) : s.fresh.2.eng e = s.eng e := rfl

@[simp] theorem State.adit_emit (s : State) (o : Out) (a : Nat) : (s.emit o).adit a = s.adit a := rfl

@[simp] theorem State.adit_fresh (s : State) (a : Nat) : s.fresh.2.adit a = s.adit a := rfl

@[simp] theorem State.fn_emit (s : State) (o : Out) (f : Nat) : (s.emit o).fn f = s.fn f := rfl

@[simp] theorem State.fn_fresh (s : State) (f : Nat) : s.fresh.2.fn f = s.fn f := rfl

@[simp] theorem State.tok_emit (s : State) (o : Out) (col : Nat) : (s.emit o).tok col = s.tok col := rfl

@[simp] theorem State.tok_fresh (s : State) (col : Nat) : s.fresh.2.tok col = s.tok col := rfl

@[simp] theorem State.mergeCol_emit (s : State) (o : Out) (col : Nat) : (s.emit o).mergeCol col = s.mergeCol col := rfl

@[simp] theorem State.mergeCol_fresh (s : State) (col : Nat) : s.fresh.2.mergeCol col = s.mergeCol col := rfl

@[simp] theorem State.vport_emit (s : State) (o : Out) (p : Nat) : (s.emit o).vport p = s.vport p := rfl

@[simp] theorem State.vport_fresh (s : State) (p : Nat) : s.fresh.2.vport p = s.vport p := rfl

@[simp] theorem State.slot_emit (s : State) (o : Out) (n : Nat) : (s.emit o).slot n = s.slot n := rfl

@[simp] theorem State.slot_fresh (s : State) (n : Nat) : s.fresh.2.slot n = s.slot n := rfl

@[simp] theorem State.page_emit (s : State) (o : Out) (p : Nat) : (s.emit o).page p = s.page p := rfl

@[simp] theorem State.page_fresh (s : State) (p : Nat) : s.fresh.2.page p = s.page p := rfl

@[simp] theorem State.chk_emit (s : State) (o : Out) (u : Nat) : (s.emit o).chk u = s.chk u := rfl

@[simp] theorem State.chk_fresh (s : State) (u : Nat) : s.fresh.2.chk u = s.chk u := rfl

@[simp] theorem State.can_emit (s : State) (o : Out) (n : Nat) : (s.emit o).can n = s.can n := rfl

@[simp] theorem State.can_fresh (s : State) (n : Nat) : s.fresh.2.can n = s.can n := rfl

@[simp] theorem State.pair_emit (s : State) (o : Out) (n : Nat) : (s.emit o).pair n = s.pair n := rfl

@[simp] theorem State.pair_fresh (s : State) (n : Nat) : s.fresh.2.pair n = s.pair n := rfl

@[simp] theorem State.bucket_emit (s : State) (o : Out) (k : Nat) : (s.emit o).bucket k = s.bucket k := rfl

@[simp] theorem State.bucket_fresh (s : State) (k : Nat) : s.fresh.2.bucket k = s.bucket k := rfl

end Sys2Proof.Machine
end

