-- ==== Sys2Proof/Laws/Frames.lean ====
section
/-! SUPPORT. The frames of the shared operations: which fields of the state each can change at all. -/

set_option Elab.async false

namespace Sys2Proof.Machine

/-- An interrupt touches the functions and what is sent. -/
theorem msix_frame (f v : Nat) (s : State) : ∃ a o, msix f v s = { s with fns := a, out := o } := by
  simp only [msix]
  split
  · exact ⟨_, _, rfl⟩
  · split
    · exact ⟨_, _, rfl⟩
    · split <;> exact ⟨_, _, rfl⟩

/-- An event's record touches the log, the functions and what is sent. -/
theorem evAppend_frame (e : Event) (s : State) : ∃ v a o, evAppend e s = { s with evt := v, fns := a, out := o } := by
  simp only [evAppend]
  split
  · obtain ⟨a, o, h⟩ := msix_frame 0 1 _
    rw [h]; exact ⟨_, _, _, rfl⟩
  · exact ⟨_, _, _, rfl⟩

/-- Logging touches the log, the functions and what is sent. -/
theorem logEvent_frame (b i c : Nat) (d : List (Nat × Nat × Nat)) (s : State) :
    ∃ v a o, logEvent b i c d s = { s with evt := v, fns := a, out := o } := by
  simp only [logEvent]
  split
  · exact evAppend_frame _ s
  · split <;> exact ⟨_, _, _, rfl⟩

/-- An event that raises its interrupt whatever the mask selects. -/
theorem raiseIrq_frame (c : Nat) (s : State) : ∃ v a o, raiseIrq c s = { s with evt := v, fns := a, out := o } := by
  simp only [raiseIrq]
  split
  · exact ⟨_, _, _, rfl⟩
  · obtain ⟨a, o, h⟩ := msix_frame 0 1 _
    rw [h]; exact ⟨_, _, _, rfl⟩

/-- A loss noted touches the list of losses. -/
theorem noteLoss_frame (g i c : Nat) (s : State) :
    ∃ u, noteLoss g i c s = { s with brg := { s.brg with unwritten := u } } := by
  simp only [noteLoss]
  split <;> exact ⟨_, rfl⟩

/-- The governor touches the power record and the galleries. -/
theorem govern_frame (g : Nat) (s : State) : ∃ p x, govern g s = { s with pwr := p, gals := x } := by
  simp only [govern, withdraw, requestLedger, State.setGal]
  split <;> split <;> exact ⟨_, _, rfl⟩

/-- So do all of them. -/
theorem governAll_frame (s : State) : ∃ p x, governAll s = { s with pwr := p, gals := x } := by
  unfold governAll
  generalize List.range 32 = l
  induction l generalizing s with
  | nil => exact ⟨_, _, rfl⟩
  | cons g l ih =>
    obtain ⟨p, x, h⟩ := govern_frame g s
    obtain ⟨q, y, k⟩ := ih (govern g s)
    refine ⟨q, y, ?_⟩
    rw [List.foldl_cons, k, h]

/-- The cores' shares of edges touch the cores. -/
theorem recomputeK_frame (g : Nat) (s : State) : ∃ x, recomputeK g s = { s with cores := x } := by
  unfold recomputeK
  generalize List.range 16 = l
  induction l generalizing s with
  | nil => exact ⟨_, rfl⟩
  | cons n l ih =>
    obtain ⟨y, k⟩ := ih (s.setCore g n { s.core g n with k := keepOf s g n (mvNow s g) (s.gal g).point })
    refine ⟨y, ?_⟩
    rw [List.foldl_cons, k]
    rfl

/-- A token given back touches the tokens. -/
theorem tokRelease_frame (a b : Nat) (s : State) : ∃ x, tokRelease a b s = { s with toks := x } :=
  ⟨_, rfl⟩

/-- So do those of a gallery. -/
theorem galTokens_frame (g : Nat) (s : State) : ∃ x, galTokens g s = { s with toks := x } := by
  unfold galTokens
  generalize crewsOf g = l
  induction l generalizing s with
  | nil => exact ⟨_, rfl⟩
  | cons c l ih =>
    obtain ⟨a, ha⟩ := tokRelease_frame (layerOf c) (colOf c 0) s
    obtain ⟨b, hb⟩ := tokRelease_frame (layerOf c) (colOf c 1) (tokRelease (layerOf c) (colOf c 0) s)
    obtain ⟨y, k⟩ := ih (tokRelease (layerOf c) (colOf c 1) (tokRelease (layerOf c) (colOf c 0) s))
    refine ⟨y, ?_⟩
    rw [List.foldl_cons, k, hb, ha]

/-- The start of a park touches the power record, the galleries, the cores' shares and the tokens. -/
theorem beginPark_frame (g : Nat) (s : State) :
    ∃ p x y z, beginPark g s = { s with pwr := p, gals := x, cores := y, toks := z } := by
  have key : ∀ x : Gal, ∃ p x' y z, galTokens g (recomputeK g ((withdraw g s).setGal g x))
      = { s with pwr := p, gals := x', cores := y, toks := z } := by
    intro x
    obtain ⟨y, hy⟩ := recomputeK_frame g ((withdraw g s).setGal g x)
    obtain ⟨z, hz⟩ := galTokens_frame g (recomputeK g ((withdraw g s).setGal g x))
    exact ⟨_, _, y, z, by rw [hz, hy]; rfl⟩
  exact key _

/-- A change of park reasons touches the same. -/
theorem setReasons_frame (g : Nat) (f : Gal → Gal) (s : State) :
    ∃ p x y z, setReasons g f s = { s with pwr := p, gals := x, cores := y, toks := z } := by
  unfold setReasons
  dsimp only
  split
  · obtain ⟨p, x, y, z, h⟩ := beginPark_frame g (s.setGal g (f (s.gal g)))
    exact ⟨p, x, y, z, by rw [h]; rfl⟩
  · split
    · exact ⟨_, _, _, _, rfl⟩
    · exact ⟨_, _, _, _, rfl⟩

end Sys2Proof.Machine
end

