-- ==== Sys2Proof/Laws/Keeps.lean ====
section
/-! SUPPORT. What every operation of the block keeps: the queue and the model's clock stay, the free-value counter does not fall,
what was sent out stays sent, and the byte memories keep their canonical form. One relation, proved once for each operation. -/

set_option Elab.async false
set_option linter.unusedTactic false
set_option linter.unreachableTactic false

namespace Sys2Proof.Machine

/-- `Keeps` on the fields it is about. -/
def KeepsFields (r : State) (pending : List Instr) (now free : Nat) (out : List Out)
    (seamMem binMem storeMem stockMem lsMem tlyMem bufMem slotMem : Memory) : Prop :=
  pending = r.pending ∧ now = r.now ∧ r.free ≤ free ∧ r.out <:+ out
    ∧ (r.seamMem.wf = true → seamMem.wf = true) ∧ (r.binMem.wf = true → binMem.wf = true)
    ∧ (r.storeMem.wf = true → storeMem.wf = true) ∧ (r.stockMem.wf = true → stockMem.wf = true)
    ∧ (r.lsMem.wf = true → lsMem.wf = true) ∧ (r.tlyMem.wf = true → tlyMem.wf = true)
    ∧ (r.bufMem.wf = true → bufMem.wf = true) ∧ (r.slotMem.wf = true → slotMem.wf = true)

/-- State `s` has come from state `r` by operations of the block: see the file's heading. -/
def Keeps (r s : State) : Prop :=
  KeepsFields r s.pending s.now s.free s.out s.seamMem s.binMem s.storeMem s.stockMem s.lsMem s.tlyMem s.bufMem s.slotMem

theorem Keeps.refl (r : State) : Keeps r r := by
  simp [Keeps, KeepsFields]

theorem Keeps.trans {r s t : State} (h : Keeps r s) (k : Keeps s t) : Keeps r t := by
  obtain ⟨h1, h2, h3, h4, h5, h6, h7, h8, h9, h10, h11, h12⟩ := h
  obtain ⟨k1, k2, k3, k4, k5, k6, k7, k8, k9, k10, k11, k12⟩ := k
  exact ⟨k1.trans h1, k2.trans h2, h3.trans k3, h4.trans k4, k5 ∘ h5, k6 ∘ h6, k7 ∘ h7, k8 ∘ h8, k9 ∘ h9, k10 ∘ h10,
    k11 ∘ h11, k12 ∘ h12⟩

@[simp] theorem keeps_mk (r : State) x0 x1 x2 x3 x4 x5 x6 x7 x8 x9 x10 x11 x12 x13 x14 x15 x16 x17 x18 x19 x20 x21 x22 x23 x24 x25 x26 x27 x28 x29 x30 x31 x32 x33 x34 x35 x36 x37 x38 x39 x40 x41 x42 x43 x44 x45 x46 x47 x48 x49 x50 x51 x52 x53 x54 x55 x56 x57 x58 x59 x60 x61 :
    Keeps r (State.mk x0 x1 x2 x3 x4 x5 x6 x7 x8 x9 x10 x11 x12 x13 x14 x15 x16 x17 x18 x19 x20 x21 x22 x23 x24 x25 x26 x27 x28 x29 x30 x31 x32 x33 x34 x35 x36 x37 x38 x39 x40 x41 x42 x43 x44 x45 x46 x47 x48 x49 x50 x51 x52 x53 x54 x55 x56 x57 x58 x59 x60 x61)
      ↔ KeepsFields r x0 x1 x2 x3 x49 x50 x51 x52 x53 x54 x55 x56 := Iff.rfl

@[simp] theorem keepsFields_self (r s : State) :
    KeepsFields r s.pending s.now s.free s.out s.seamMem s.binMem s.storeMem s.stockMem s.lsMem s.tlyMem s.bufMem s.slotMem ↔ Keeps r s := Iff.rfl

@[simp] theorem keepsFields_write1 (r : State) (p : List Instr) (n f : Nat) (o : List Out) (m1 m2 m3 m4 m5 m6 m7 m8 : Memory)
    (a : Nat) (bs : List Byte) (h : KeepsFields r p n f o m1 m2 m3 m4 m5 m6 m7 m8) : KeepsFields r p n f o (m1.write a bs) m2 m3 m4 m5 m6 m7 m8 := by
  simp_all [KeepsFields]

@[simp] theorem keepsFields_nil1 (r : State) (p : List Instr) (n f : Nat) (o : List Out) (m1 m2 m3 m4 m5 m6 m7 m8 : Memory)
    (h : KeepsFields r p n f o m1 m2 m3 m4 m5 m6 m7 m8) : KeepsFields r p n f o [] m2 m3 m4 m5 m6 m7 m8 := by
  simp_all [KeepsFields, Memory.wf]

@[simp] theorem keepsFields_write2 (r : State) (p : List Instr) (n f : Nat) (o : List Out) (m1 m2 m3 m4 m5 m6 m7 m8 : Memory)
    (a : Nat) (bs : List Byte) (h : KeepsFields r p n f o m1 m2 m3 m4 m5 m6 m7 m8) : KeepsFields r p n f o m1 (m2.write a bs) m3 m4 m5 m6 m7 m8 := by
  simp_all [KeepsFields]

@[simp] theorem keepsFields_write3 (r : State) (p : List Instr) (n f : Nat) (o : List Out) (m1 m2 m3 m4 m5 m6 m7 m8 : Memory)
    (a : Nat) (bs : List Byte) (h : KeepsFields r p n f o m1 m2 m3 m4 m5 m6 m7 m8) : KeepsFields r p n f o m1 m2 (m3.write a bs) m4 m5 m6 m7 m8 := by
  simp_all [KeepsFields]

@[simp] theorem keepsFields_write4 (r : State) (p : List Instr) (n f : Nat) (o : List Out) (m1 m2 m3 m4 m5 m6 m7 m8 : Memory)
    (a : Nat) (bs : List Byte) (h : KeepsFields r p n f o m1 m2 m3 m4 m5 m6 m7 m8) : KeepsFields r p n f o m1 m2 m3 (m4.write a bs) m5 m6 m7 m8 := by
  simp_all [KeepsFields]

@[simp] theorem keepsFields_nil4 (r : State) (p : List Instr) (n f : Nat) (o : List Out) (m1 m2 m3 m4 m5 m6 m7 m8 : Memory)
    (h : KeepsFields r p n f o m1 m2 m3 m4 m5 m6 m7 m8) : KeepsFields r p n f o m1 m2 m3 [] m5 m6 m7 m8 := by
  simp_all [KeepsFields, Memory.wf]

@[simp] theorem keepsFields_write5 (r : State) (p : List Instr) (n f : Nat) (o : List Out) (m1 m2 m3 m4 m5 m6 m7 m8 : Memory)
    (a : Nat) (bs : List Byte) (h : KeepsFields r p n f o m1 m2 m3 m4 m5 m6 m7 m8) : KeepsFields r p n f o m1 m2 m3 m4 (m5.write a bs) m6 m7 m8 := by
  simp_all [KeepsFields]

@[simp] theorem keepsFields_write6 (r : State) (p : List Instr) (n f : Nat) (o : List Out) (m1 m2 m3 m4 m5 m6 m7 m8 : Memory)
    (a : Nat) (bs : List Byte) (h : KeepsFields r p n f o m1 m2 m3 m4 m5 m6 m7 m8) : KeepsFields r p n f o m1 m2 m3 m4 m5 (m6.write a bs) m7 m8 := by
  simp_all [KeepsFields]

@[simp] theorem keepsFields_write7 (r : State) (p : List Instr) (n f : Nat) (o : List Out) (m1 m2 m3 m4 m5 m6 m7 m8 : Memory)
    (a : Nat) (bs : List Byte) (h : KeepsFields r p n f o m1 m2 m3 m4 m5 m6 m7 m8) : KeepsFields r p n f o m1 m2 m3 m4 m5 m6 (m7.write a bs) m8 := by
  simp_all [KeepsFields]

@[simp] theorem keepsFields_write8 (r : State) (p : List Instr) (n f : Nat) (o : List Out) (m1 m2 m3 m4 m5 m6 m7 m8 : Memory)
    (a : Nat) (bs : List Byte) (h : KeepsFields r p n f o m1 m2 m3 m4 m5 m6 m7 m8) : KeepsFields r p n f o m1 m2 m3 m4 m5 m6 m7 (m8.write a bs) := by
  simp_all [KeepsFields]

@[simp] theorem keepsFields_set8 (r : State) (p : List Instr) (n f : Nat) (o : List Out) (m1 m2 m3 m4 m5 m6 m7 m8 : Memory)
    (a : Nat) (v : Byte) (h : KeepsFields r p n f o m1 m2 m3 m4 m5 m6 m7 m8) : KeepsFields r p n f o m1 m2 m3 m4 m5 m6 m7 (m8.set a v) := by
  simp_all [KeepsFields]

@[simp] theorem keepsFields_nil8 (r : State) (p : List Instr) (n f : Nat) (o : List Out) (m1 m2 m3 m4 m5 m6 m7 m8 : Memory)
    (h : KeepsFields r p n f o m1 m2 m3 m4 m5 m6 m7 m8) : KeepsFields r p n f o m1 m2 m3 m4 m5 m6 m7 [] := by
  simp_all [KeepsFields, Memory.wf]

@[simp] theorem keepsFields_free (r : State) (p : List Instr) (n f : Nat) (o : List Out) (m1 m2 m3 m4 m5 m6 m7 m8 : Memory) (k : Nat)
    (h : KeepsFields r p n f o m1 m2 m3 m4 m5 m6 m7 m8) : KeepsFields r p n (f + k) o m1 m2 m3 m4 m5 m6 m7 m8 := by
  simp_all [KeepsFields]; omega

@[simp] theorem keepsFields_out (r : State) (p : List Instr) (n f : Nat) (o : List Out) (m1 m2 m3 m4 m5 m6 m7 m8 : Memory) (x : Out)
    (h : KeepsFields r p n f o m1 m2 m3 m4 m5 m6 m7 m8) : KeepsFields r p n f (x :: o) m1 m2 m3 m4 m5 m6 m7 m8 := by
  simp_all [KeepsFields, List.suffix_cons_iff]

@[simp] theorem keeps_ite {r a b : State} {c : Prop} [Decidable c] (h : Keeps r a) (k : Keeps r b) :
    Keeps r (if c then a else b) := by split <;> assumption

@[simp] theorem keeps_ite_fst {α : Type} {r : State} {a b : State × α} {c : Prop} [Decidable c] (h : Keeps r a.1)
    (k : Keeps r b.1) : Keeps r (if c then a else b).1 := by split <;> assumption

@[simp] theorem keeps_ite_snd {α : Type} {r : State} {a b : α × State} {c : Prop} [Decidable c] (h : Keeps r a.2)
    (k : Keeps r b.2) : Keeps r (if c then a else b).2 := by split <;> assumption

theorem keeps_of_fst {α : Type} {r s : State} {p : State × α} {a : α} (e : p = (s, a)) (h : Keeps r p.1) : Keeps r s := by
  subst e; exact h

theorem keeps_of_snd {α : Type} {r s : State} {p : α × State} {a : α} (e : p = (a, s)) (h : Keeps r p.2) : Keeps r s := by
  subst e; exact h

/-- `Keeps` of the next state of an answer. -/
def KeepsRes (r : State) : Res → Prop
  | .next s => Keeps r s
  | _ => True

@[simp] theorem keepsRes_next (r s : State) : KeepsRes r (.next s) ↔ Keeps r s := Iff.rfl

/-- `Keeps` of the state an operation may answer. -/
def KeepsOpt (r : State) (o : Option State) : Prop := ∀ s, o = some s → Keeps r s

@[simp] theorem keepsOpt_none (r : State) : KeepsOpt r none := by simp [KeepsOpt]

@[simp] theorem keepsOpt_some (r s : State) : KeepsOpt r (some s) ↔ Keeps r s := by simp [KeepsOpt]

theorem keeps_of_opt {r s : State} {o : Option State} (e : o = some s) (h : KeepsOpt r o) : Keeps r s := h s e

/-- The same of an answer that carries another value beside the state. -/
def KeepsOptFst {α : Type} (r : State) (o : Option (State × α)) : Prop := ∀ p, o = some p → Keeps r p.1

@[simp] theorem keepsOptFst_none {α : Type} (r : State) : KeepsOptFst (α := α) r none := by simp [KeepsOptFst]

@[simp] theorem keepsOptFst_some {α : Type} (r : State) (p : State × α) : KeepsOptFst r (some p) ↔ Keeps r p.1 := by
  simp [KeepsOptFst]

theorem keeps_of_optFst {α : Type} {r s : State} {a : α} {o : Option (State × α)} (e : o = some (s, a))
    (h : KeepsOptFst r o) : Keeps r s := h _ e

/-- A fold of an operation that keeps. -/
@[simp] theorem keeps_foldl {α : Type} {r : State} (l : List α) (f : State → α → State) (s : State)
    (hf : ∀ s a, Keeps r s → Keeps r (f s a)) (h : Keeps r s) : Keeps r (l.foldl f s) := by
  induction l generalizing s with
  | nil => exact h
  | cons a l ih => exact ih _ (hf _ _ h)

/-- A fold that carries a state beside another value. -/
@[simp] theorem keeps_foldl_fst {α β : Type} {r : State} (l : List α) (f : State × β → α → State × β) (p : State × β)
    (hf : ∀ p a, Keeps r p.1 → Keeps r (f p a).1) (h : Keeps r p.1) : Keeps r (l.foldl f p).1 := by
  induction l generalizing p with
  | nil => exact h
  | cons a l ih => exact ih _ (hf _ _ h)

@[simp] theorem keeps_foldl_snd {α β : Type} {r : State} (l : List α) (f : β × State → α → β × State) (p : β × State)
    (hf : ∀ p a, Keeps r p.2 → Keeps r (f p a).2) (h : Keeps r p.2) : Keeps r (l.foldl f p).2 := by
  induction l generalizing p with
  | nil => exact h
  | cons a l ih => exact ih _ (hf _ _ h)

end Sys2Proof.Machine
end

