-- ==== Sys2Proof/Laws/KeepsOps.lean ====
section
/-! SUPPORT. What the operations of Machine/Ops.lean keep (Laws/Keeps.lean). -/

set_option Elab.async false
set_option linter.unusedTactic false
set_option linter.unreachableTactic false

namespace Sys2Proof.Machine

@[simp] theorem State.setCrew_keeps {r0 : State} {s : State} (c : Nat) (x : Crew) (hK : Keeps r0 s) :
    Keeps r0 (State.setCrew s c x) := by simp (maxDischargeDepth := 30) [State.setCrew, *]

@[simp] theorem State.setHewer_keeps {r0 : State} {s : State} (c r : Nat) (x : Hewer) (hK : Keeps r0 s) :
    Keeps r0 (State.setHewer s c r x) := by simp (maxDischargeDepth := 30) [State.setHewer, *]

@[simp] theorem State.setDresser_keeps {r0 : State} {s : State} (c : Nat) (x : Dresser) (hK : Keeps r0 s) :
    Keeps r0 (State.setDresser s c x) := by simp (maxDischargeDepth := 30) [State.setDresser, *]

@[simp] theorem State.setGal_keeps {r0 : State} {s : State} (g : Nat) (x : Gal) (hK : Keeps r0 s) :
    Keeps r0 (State.setGal s g x) := by simp (maxDischargeDepth := 30) [State.setGal, *]

@[simp] theorem State.setCore_keeps {r0 : State} {s : State} (g n : Nat) (x : Core) (hK : Keeps r0 s) :
    Keeps r0 (State.setCore s g n x) := by simp (maxDischargeDepth := 30) [State.setCore, *]

@[simp] theorem State.setSeam_keeps {r0 : State} {s : State} (n : Nat) (x : Seam) (hK : Keeps r0 s) :
    Keeps r0 (State.setSeam s n x) := by simp (maxDischargeDepth := 30) [State.setSeam, *]

@[simp] theorem State.setFace_keeps {r0 : State} {s : State} (n : Nat) (x : Face) (hK : Keeps r0 s) :
    Keeps r0 (State.setFace s n x) := by simp (maxDischargeDepth := 30) [State.setFace, *]

@[simp] theorem State.setEng_keeps {r0 : State} {s : State} (e : Nat) (x : Eng) (hK : Keeps r0 s) :
    Keeps r0 (State.setEng s e x) := by simp (maxDischargeDepth := 30) [State.setEng, *]

@[simp] theorem State.setAdit_keeps {r0 : State} {s : State} (a : Nat) (x : Adit) (hK : Keeps r0 s) :
    Keeps r0 (State.setAdit s a x) := by simp (maxDischargeDepth := 30) [State.setAdit, *]

@[simp] theorem State.setFn_keeps {r0 : State} {s : State} (f : Nat) (x : Fn) (hK : Keeps r0 s) :
    Keeps r0 (State.setFn s f x) := by simp (maxDischargeDepth := 30) [State.setFn, *]

@[simp] theorem State.setTok_keeps {r0 : State} {s : State} (col : Nat) (x : ColTok) (hK : Keeps r0 s) :
    Keeps r0 (State.setTok s col x) := by simp (maxDischargeDepth := 30) [State.setTok, *]

@[simp] theorem State.setMergeCol_keeps {r0 : State} {s : State} (col : Nat) (x : MergeCol) (hK : Keeps r0 s) :
    Keeps r0 (State.setMergeCol s col x) := by simp (maxDischargeDepth := 30) [State.setMergeCol, *]

@[simp] theorem State.setVport_keeps {r0 : State} {s : State} (p : Nat) (x : VeinPort) (hK : Keeps r0 s) :
    Keeps r0 (State.setVport s p x) := by simp (maxDischargeDepth := 30) [State.setVport, *]

@[simp] theorem State.setSlot_keeps {r0 : State} {s : State} (n : Nat) (x : SeqSlot) (hK : Keeps r0 s) :
    Keeps r0 (State.setSlot s n x) := by simp (maxDischargeDepth := 30) [State.setSlot, *]

@[simp] theorem State.setPage_keeps {r0 : State} {s : State} (p : Nat) (x : PageHdr) (hK : Keeps r0 s) :
    Keeps r0 (State.setPage s p x) := by simp (maxDischargeDepth := 30) [State.setPage, *]

@[simp] theorem State.setChk_keeps {r0 : State} {s : State} (u : Nat) (x : Chk) (hK : Keeps r0 s) :
    Keeps r0 (State.setChk s u x) := by simp (maxDischargeDepth := 30) [State.setChk, *]

@[simp] theorem State.setCan_keeps {r0 : State} {s : State} (n : Nat) (x : Canary) (hK : Keeps r0 s) :
    Keeps r0 (State.setCan s n x) := by simp (maxDischargeDepth := 30) [State.setCan, *]

@[simp] theorem State.setPair_keeps {r0 : State} {s : State} (n : Nat) (x : Pair) (hK : Keeps r0 s) :
    Keeps r0 (State.setPair s n x) := by simp (maxDischargeDepth := 30) [State.setPair, *]

@[simp] theorem State.setBucket_keeps {r0 : State} {s : State} (k : Nat) (x : Bucket) (hK : Keeps r0 s) :
    Keeps r0 (State.setBucket s k x) := by simp (maxDischargeDepth := 30) [State.setBucket, *]

@[simp] theorem State.emit_keeps {r0 : State} {s : State} (o : Out) (hK : Keeps r0 s) :
    Keeps r0 (State.emit s o) := by simp (maxDischargeDepth := 30) [State.emit, *]

@[simp] theorem State.fresh_keeps {r0 : State} {s : State} (hK : Keeps r0 s) :
    Keeps r0 (State.fresh s).2 := by simp (maxDischargeDepth := 30) [State.fresh, *]

@[simp] theorem msix_keeps {r0 : State} (f v : Nat) {s : State} (hK : Keeps r0 s) :
    Keeps r0 (msix f v s) := by simp (maxDischargeDepth := 30) [msix, *]

@[simp] theorem evAppend_keeps {r0 : State} (e : Event) {s : State} (hK : Keeps r0 s) :
    Keeps r0 (evAppend e s) := by simp (maxDischargeDepth := 30) [evAppend, *]

@[simp] theorem logEvent_keeps {r0 : State} (blk inst code : Nat) (items : List (Nat × Nat × Nat)) {s : State} (hK : Keeps r0 s) :
    Keeps r0 (logEvent blk inst code items s) := by simp (maxDischargeDepth := 30) [logEvent, *]

@[simp] theorem logIgnored_keeps {r0 : State} (blk inst : Nat) (r : Requester) (off reason : Nat) {s : State} (hK : Keeps r0 s) :
    Keeps r0 (logIgnored blk inst r off reason s) := by simp (maxDischargeDepth := 30) [logIgnored, *]

@[simp] theorem recordDeny_keeps {r0 : State} (r : Requester) (dpa : Nat) (write : Bool) (reason : Nat) {s : State} (hK : Keeps r0 s) :
    Keeps r0 (recordDeny r dpa write reason s) := by simp (maxDischargeDepth := 30) [recordDeny, *]

@[simp] theorem State.cleanLine_keeps {r0 : State} {s : State} (l : LineId) (hK : Keeps r0 s) :
    Keeps r0 (State.cleanLine s l) := by simp (maxDischargeDepth := 30) [State.cleanLine, *]

@[simp] theorem bucketAdd_keeps {r0 : State} (kind inst : Nat) {s : State} (hK : Keeps r0 s) :
    Keeps r0 (bucketAdd kind inst s) := by simp (maxDischargeDepth := 30) [bucketAdd, *]

@[simp] theorem noteCorrected_keeps {r0 : State} (l : LineId) {s : State} (hK : Keeps r0 s) :
    Keeps r0 (noteCorrected l s) := by simp (maxDischargeDepth := 30) [noteCorrected, *]

@[simp] theorem noteUe_keeps {r0 : State} (l : LineId) (scrub write : Bool) {s : State} (hK : Keeps r0 s) :
    Keeps r0 (noteUe l scrub write s) := by simp (maxDischargeDepth := 30) [noteUe, *]

@[simp] theorem noteRead_keeps {r0 : State} (l : LineId) (v : Verdict) (scrub write : Bool) {s : State} (hK : Keeps r0 s) :
    Keeps r0 (noteRead l v scrub write s) := by
  unfold noteRead
  (repeat' split) <;> simp (maxDischargeDepth := 30) [*]

@[simp] theorem State.poke_keeps {r0 : State} {s : State} (l : Loc) (bs : List Byte) (hK : Keeps r0 s) :
    Keeps r0 (State.poke s l bs) := by
  unfold State.poke
  (repeat' split) <;> simp (maxDischargeDepth := 30) [*]

@[simp] theorem readLine_keeps {r0 : State} (l : Loc) {s : State} (hK : Keeps r0 s) :
    Keeps r0 (readLine l s).1 := by simp (maxDischargeDepth := 30) [readLine, *]

@[simp] theorem writeLine_keeps {r0 : State} (l : Loc) (bs : List Byte) {s : State} (hK : Keeps r0 s) :
    Keeps r0 (writeLine l bs s) := by
  unfold writeLine
  (repeat' split) <;> simp (maxDischargeDepth := 30) [*]

@[simp] theorem mergeWrite_keeps {r0 : State} (l : Loc) (ups : List (Nat × Byte)) {s : State} (hK : Keeps r0 s) :
    Keeps r0 (mergeWrite l ups s).1 := by simp (maxDischargeDepth := 30) [mergeWrite, *]

end Sys2Proof.Machine
end

