-- ==== Sys2Proof/Laws/KeepsLanding.lean ====
section
/-! SUPPORT. What the operations of Machine/Landing.lean keep (Laws/Keeps.lean). -/

set_option Elab.async false
set_option linter.unusedTactic false
set_option linter.unreachableTactic false

namespace Sys2Proof.Machine

@[simp] theorem landTake_keeps {r0 : State} (e : Nat) (g : Range) (j : Nat) (bs : List Byte) {s : State} (hK : Keeps r0 s) :
    Keeps r0 (landTake e g j bs s) := by simp (maxDischargeDepth := 30) [landTake, *]

@[simp] theorem landLine_keeps {r0 : State} (r : Requester) (e : Nat) (g : Range) (dpa : Nat) (bs : List Byte) {s : State} (hK : Keeps r0 s) :
    Keeps r0 (landLine r e g dpa bs s) := by simp (maxDischargeDepth := 30) [landLine, *]

end Sys2Proof.Machine
end

