-- ==== Sys2Proof/Laws/KeepsAccess.lean ====
section
/-! SUPPORT. What the operations of Machine/Access.lean keep (Laws/Keeps.lean). -/

set_option Elab.async false
set_option linter.unusedTactic false
set_option linter.unreachableTactic false

namespace Sys2Proof.Machine

@[simp] theorem poisonStart_keeps {r0 : State} (c : Nat) {s : State} (hK : Keeps r0 s) :
    Keeps r0 (poisonStart c s) := by simp (maxDischargeDepth := 30) [poisonStart, *]

@[simp] theorem tallyTrap_keeps {r0 : State} (c cause : Nat) (tval : Dword) {s : State} (hK : Keeps r0 s) :
    Keeps r0 (tallyTrap c cause tval s) := by simp (maxDischargeDepth := 30) [tallyTrap, *]

@[simp] theorem mergeWake_keeps {r0 : State} (ok : Bool) (r : Requester) {s : State} (hK : Keeps r0 s) :
    Keeps r0 (mergeWake ok r s) := by
  unfold mergeWake
  (repeat' split) <;> simp (maxDischargeDepth := 30) [*]

@[simp] theorem entryTaken_keeps {r0 : State} {s : State} (r : Requester) (hK : Keeps r0 s) :
    Keeps r0 (entryTaken s r) := by
  unfold entryTaken
  (repeat' split) <;> simp (maxDischargeDepth := 30) [*]

@[simp] theorem freeLine_keeps {r0 : State} (n line : Nat) {s : State} (hK : Keeps r0 s) :
    Keeps r0 (freeLine n line s) := by
  unfold freeLine
  generalize (List.range 64).map (fun i => BitVec.ofNat 8 (Config.freeValue (s.free + i))) = bs
  have k := State.poke_keeps (.seam n (64 * line)) bs hK
  exact ⟨k.1, k.2.1, Nat.le_trans hK.2.2.1 (Nat.le_add_right _ _), k.2.2.2⟩

@[simp] theorem taintFace_keeps {r0 : State} (n line : Nat) {s : State} (hK : Keeps r0 s) :
    Keeps r0 (taintFace n line s) := by simp (maxDischargeDepth := 30) [taintFace, *]

@[simp] theorem doMerge_keeps {r0 : State} (m : Merge) {s : State} (hK : Keeps r0 s) :
    Keeps r0 (doMerge m s).1 := by
  unfold doMerge
  repeat' (first
    | (simp (maxDischargeDepth := 30) [*]; done)
    | (simp +contextual (maxDischargeDepth := 30) [*]; done)
    | (refine keeps_foldl _ _ _ (fun s a h => ?_) ?_)
    | (refine keeps_foldl_fst _ _ _ (fun s a h => ?_) ?_)
    | (refine keeps_foldl_snd _ _ _ (fun s a h => ?_) ?_)
    | (extract_lets +onlyGivenNames x
       first
         | (have hx : Keeps r0 x := by (first | (simp (maxDischargeDepth := 30) [x, *]; done) | (simp +contextual (maxDischargeDepth := 30) [x, *]; done) | ((try unfold x); (try dsimp only); (repeat' split) <;> simp (maxDischargeDepth := 30) [*]; done))
            clear_value x)
         | (have hx : Keeps r0 x.2 := by (first | (simp (maxDischargeDepth := 30) [x, *]; done) | (simp +contextual (maxDischargeDepth := 30) [x, *]; done) | ((try unfold x); (try dsimp only); (repeat' split) <;> simp (maxDischargeDepth := 30) [*]; done))
            clear_value x)
         | (have hx : Keeps r0 x.1 := by (first | (simp (maxDischargeDepth := 30) [x, *]; done) | (simp +contextual (maxDischargeDepth := 30) [x, *]; done) | ((try unfold x); (try dsimp only); (repeat' split) <;> simp (maxDischargeDepth := 30) [*]; done))
            clear_value x)
         | clear_value x)
    | (split <;> (try (rename_i e
                       first
                         | have k := keeps_of_snd (r := r0) e (by clear e; simp (maxDischargeDepth := 30) [*]; done)
                         | have k := keeps_of_fst (r := r0) e (by clear e; simp (maxDischargeDepth := 30) [*]; done)
                         | have k := keeps_of_opt (r := r0) e (by clear e; simp (maxDischargeDepth := 30) [*]; done)))))

@[simp] theorem hostMerge_keeps {r0 : State} (m : Merge) {s : State} (hK : Keeps r0 s) :
    Keeps r0 (hostMerge m s) := by
  unfold hostMerge
  dsimp only
  (repeat' split) <;> simp (maxDischargeDepth := 30) [*]

@[simp] theorem hostRefill_keeps {r0 : State} (col : Nat) (y1 : Nat) {s : State} (hK : Keeps r0 s) :
    Keeps r0 (hostRefill col y1 s) := by
  induction y1 generalizing s with
  | zero =>
    unfold hostRefill
    (repeat' split) <;> simp (maxDischargeDepth := 30) [*]
  | succ n ih =>
    unfold hostRefill
    repeat' (first
      | (simp (maxDischargeDepth := 30) [*]; done)
      | (simp +contextual (maxDischargeDepth := 30) [*]; done)
      | (refine keeps_foldl _ _ _ (fun s a h => ?_) ?_)
      | (refine keeps_foldl_fst _ _ _ (fun s a h => ?_) ?_)
      | (refine keeps_foldl_snd _ _ _ (fun s a h => ?_) ?_)
      | (extract_lets +onlyGivenNames x
         first
           | (have hx : Keeps r0 x := by (first | (simp (maxDischargeDepth := 30) [x, *]; done) | (simp +contextual (maxDischargeDepth := 30) [x, *]; done) | ((try unfold x); (try dsimp only); (repeat' split) <;> simp (maxDischargeDepth := 30) [*]; done))
              clear_value x)
           | (have hx : Keeps r0 x.2 := by (first | (simp (maxDischargeDepth := 30) [x, *]; done) | (simp +contextual (maxDischargeDepth := 30) [x, *]; done) | ((try unfold x); (try dsimp only); (repeat' split) <;> simp (maxDischargeDepth := 30) [*]; done))
              clear_value x)
           | (have hx : Keeps r0 x.1 := by (first | (simp (maxDischargeDepth := 30) [x, *]; done) | (simp +contextual (maxDischargeDepth := 30) [x, *]; done) | ((try unfold x); (try dsimp only); (repeat' split) <;> simp (maxDischargeDepth := 30) [*]; done))
              clear_value x)
           | clear_value x)
      | (split <;> (try (rename_i e
                         first
                           | have k := keeps_of_snd (r := r0) e (by clear e; simp (maxDischargeDepth := 30) [*]; done)
                           | have k := keeps_of_fst (r := r0) e (by clear e; simp (maxDischargeDepth := 30) [*]; done)
                           | have k := keeps_of_opt (r := r0) e (by clear e; simp (maxDischargeDepth := 30) [*]; done)))))

@[simp] theorem drainLine_keeps {r0 : State} (n line : Nat) {s : State} (hK : Keeps r0 s) :
    Keeps r0 (drainLine n line s) := by
  unfold drainLine
  repeat' (first
    | (simp (maxDischargeDepth := 30) [*]; done)
    | (simp +contextual (maxDischargeDepth := 30) [*]; done)
    | (refine keeps_foldl _ _ _ (fun s a h => ?_) ?_)
    | (refine keeps_foldl_fst _ _ _ (fun s a h => ?_) ?_)
    | (refine keeps_foldl_snd _ _ _ (fun s a h => ?_) ?_)
    | (extract_lets +onlyGivenNames x
       first
         | (have hx : Keeps r0 x := by (first | (simp (maxDischargeDepth := 30) [x, *]; done) | (simp +contextual (maxDischargeDepth := 30) [x, *]; done) | ((try unfold x); (try dsimp only); (repeat' split) <;> simp (maxDischargeDepth := 30) [*]; done))
            clear_value x)
         | (have hx : Keeps r0 x.2 := by (first | (simp (maxDischargeDepth := 30) [x, *]; done) | (simp +contextual (maxDischargeDepth := 30) [x, *]; done) | ((try unfold x); (try dsimp only); (repeat' split) <;> simp (maxDischargeDepth := 30) [*]; done))
            clear_value x)
         | (have hx : Keeps r0 x.1 := by (first | (simp (maxDischargeDepth := 30) [x, *]; done) | (simp +contextual (maxDischargeDepth := 30) [x, *]; done) | ((try unfold x); (try dsimp only); (repeat' split) <;> simp (maxDischargeDepth := 30) [*]; done))
            clear_value x)
         | clear_value x)
    | (split <;> (try (rename_i e
                       first
                         | have k := keeps_of_snd (r := r0) e (by clear e; simp (maxDischargeDepth := 30) [*]; done)
                         | have k := keeps_of_fst (r := r0) e (by clear e; simp (maxDischargeDepth := 30) [*]; done)
                         | have k := keeps_of_opt (r := r0) e (by clear e; simp (maxDischargeDepth := 30) [*]; done)))))

@[simp] theorem portTake_keeps {r0 : State} (l : Loc) {s : State} (hK : Keeps r0 s) :
    Keeps r0 (portTake l s) := by
  unfold portTake
  (repeat' split) <;> simp (maxDischargeDepth := 30) [*]

@[simp] theorem taintHewer_keeps {r0 : State} (c h role line : Nat) {s : State} (hK : Keeps r0 s) :
    Keeps r0 (taintHewer c h role line s) := by simp (maxDischargeDepth := 30) [taintHewer, *]

@[simp] theorem taint_keeps {r0 : State} (l : Loc) {s : State} (hK : Keeps r0 s) :
    Keeps r0 (taint l s) := by
  unfold taint
  (repeat' split) <;> simp (maxDischargeDepth := 30) [*]

@[simp] theorem lineGet_keeps {r0 : State} (r : Requester) (dpa : Nat) (first : Bool) {s : State} (hK : Keeps r0 s) :
    Keeps r0 (lineGet r dpa first s).1 := by
  unfold lineGet
  (repeat' split) <;> simp (maxDischargeDepth := 30) [*]

@[simp] theorem linePut_keeps {r0 : State} (r : Requester) (dpa : Nat) (bs : List Byte) (first : Bool) {s : State} (hK : Keeps r0 s) :
    Keeps r0 (linePut r dpa bs first s).1 := by
  unfold linePut
  (repeat' split) <;> simp (maxDischargeDepth := 30) [*]

@[simp] theorem partPut_keeps {r0 : State} (r : Requester) (dpa : Nat) (bs : List Byte) (first : Bool) {s : State} (hK : Keeps r0 s) :
    Keeps r0 (partPut r dpa bs first s).1 := by
  unfold partPut
  (repeat' split) <;> simp (maxDischargeDepth := 30) [*]

@[simp] theorem takeTurn_keeps {r0 : State} (r : Requester) (dpa : Nat) {s : State} (hK : Keeps r0 s) :
    Keeps r0 (takeTurn r dpa s) := by
  unfold takeTurn
  (repeat' split) <;> simp (maxDischargeDepth := 30) [*]

@[simp] theorem readSpans_keeps {r0 : State} (r : Requester) (y1 : List (Nat × Nat)) (y2 : Bool) {s : State} (hK : Keeps r0 s) :
    Keeps r0 (readSpans r y1 y2 s).1 := by
  induction y1 generalizing y2 s with
  | nil =>
    unfold readSpans
    (repeat' split) <;> simp (maxDischargeDepth := 30) [*]
  | cons a l ih =>
    unfold readSpans
    repeat' (first
      | (simp (maxDischargeDepth := 30) [*]; done)
      | (simp +contextual (maxDischargeDepth := 30) [*]; done)
      | (refine keeps_foldl _ _ _ (fun s a h => ?_) ?_)
      | (refine keeps_foldl_fst _ _ _ (fun s a h => ?_) ?_)
      | (refine keeps_foldl_snd _ _ _ (fun s a h => ?_) ?_)
      | (extract_lets +onlyGivenNames x
         first
           | (have hx : Keeps r0 x := by (first | (simp (maxDischargeDepth := 30) [x, *]; done) | (simp +contextual (maxDischargeDepth := 30) [x, *]; done) | ((try unfold x); (try dsimp only); (repeat' split) <;> simp (maxDischargeDepth := 30) [*]; done))
              clear_value x)
           | (have hx : Keeps r0 x.2 := by (first | (simp (maxDischargeDepth := 30) [x, *]; done) | (simp +contextual (maxDischargeDepth := 30) [x, *]; done) | ((try unfold x); (try dsimp only); (repeat' split) <;> simp (maxDischargeDepth := 30) [*]; done))
              clear_value x)
           | (have hx : Keeps r0 x.1 := by (first | (simp (maxDischargeDepth := 30) [x, *]; done) | (simp +contextual (maxDischargeDepth := 30) [x, *]; done) | ((try unfold x); (try dsimp only); (repeat' split) <;> simp (maxDischargeDepth := 30) [*]; done))
              clear_value x)
           | clear_value x)
      | (split <;> (try (rename_i e
                         first
                           | have k := keeps_of_snd (r := r0) e (by clear e; simp (maxDischargeDepth := 30) [*]; done)
                           | have k := keeps_of_fst (r := r0) e (by clear e; simp (maxDischargeDepth := 30) [*]; done)
                           | have k := keeps_of_opt (r := r0) e (by clear e; simp (maxDischargeDepth := 30) [*]; done)))))

@[simp] theorem dpaRead_keeps {r0 : State} (r : Requester) (dpa n : Nat) {s : State} (hK : Keeps r0 s) :
    Keeps r0 (dpaRead r dpa n s).1 := by
  unfold dpaRead
  (repeat' split) <;> simp (maxDischargeDepth := 30) [*]

@[simp] theorem writeSpans_keeps {r0 : State} (r : Requester) (y1 : List (Nat × Nat)) (y2 : List Byte) (y3 : Bool) {s : State} (hK : Keeps r0 s) :
    Keeps r0 (writeSpans r y1 y2 y3 s).1 := by
  induction y1 generalizing y2 y3 s with
  | nil =>
    unfold writeSpans
    (repeat' split) <;> simp (maxDischargeDepth := 30) [*]
  | cons a l ih =>
    unfold writeSpans
    repeat' (first
      | (simp (maxDischargeDepth := 30) [*]; done)
      | (simp +contextual (maxDischargeDepth := 30) [*]; done)
      | (refine keeps_foldl _ _ _ (fun s a h => ?_) ?_)
      | (refine keeps_foldl_fst _ _ _ (fun s a h => ?_) ?_)
      | (refine keeps_foldl_snd _ _ _ (fun s a h => ?_) ?_)
      | (extract_lets +onlyGivenNames x
         first
           | (have hx : Keeps r0 x := by (first | (simp (maxDischargeDepth := 30) [x, *]; done) | (simp +contextual (maxDischargeDepth := 30) [x, *]; done) | ((try unfold x); (try dsimp only); (repeat' split) <;> simp (maxDischargeDepth := 30) [*]; done))
              clear_value x)
           | (have hx : Keeps r0 x.2 := by (first | (simp (maxDischargeDepth := 30) [x, *]; done) | (simp +contextual (maxDischargeDepth := 30) [x, *]; done) | ((try unfold x); (try dsimp only); (repeat' split) <;> simp (maxDischargeDepth := 30) [*]; done))
              clear_value x)
           | (have hx : Keeps r0 x.1 := by (first | (simp (maxDischargeDepth := 30) [x, *]; done) | (simp +contextual (maxDischargeDepth := 30) [x, *]; done) | ((try unfold x); (try dsimp only); (repeat' split) <;> simp (maxDischargeDepth := 30) [*]; done))
              clear_value x)
           | clear_value x)
      | (split <;> (try (rename_i e
                         first
                           | have k := keeps_of_snd (r := r0) e (by clear e; simp (maxDischargeDepth := 30) [*]; done)
                           | have k := keeps_of_fst (r := r0) e (by clear e; simp (maxDischargeDepth := 30) [*]; done)
                           | have k := keeps_of_opt (r := r0) e (by clear e; simp (maxDischargeDepth := 30) [*]; done)))))

@[simp] theorem dpaWrite_keeps {r0 : State} (r : Requester) (dpa : Nat) (bs : List Byte) {s : State} (hK : Keeps r0 s) :
    Keeps r0 (dpaWrite r dpa bs s).1 := by
  unfold dpaWrite
  (repeat' split) <;> simp (maxDischargeDepth := 30) [*]

@[simp] theorem unlessHeld_keeps {r0 : State} (f : State → State) {s : State} (hFf : ∀ a0, Keeps r0 a0 → Keeps r0 (f a0)) (hK : Keeps r0 s) :
    Keeps r0 (unlessHeld f s) := by simp (maxDischargeDepth := 30) [unlessHeld, *]

@[simp] theorem postWrite_keeps {r0 : State} (r : Requester) (dpa : Nat) (bs : List Byte) {s : State} (hK : Keeps r0 s) :
    Keeps r0 (postWrite r dpa bs s) := by simp (maxDischargeDepth := 30) [postWrite, *]

@[simp] theorem readPieces_keeps {r0 : State} (r : Requester) (y1 : List (Nat × Nat)) {s : State} (hK : Keeps r0 s) :
    Keeps r0 (readPieces r y1 s).1 := by
  induction y1 generalizing s with
  | nil => simp (maxDischargeDepth := 30) [readPieces, *]
  | cons a l ih => simp (maxDischargeDepth := 30) [readPieces, *]

@[simp] theorem writePieces_keeps {r0 : State} (r : Requester) (y1 : List (Nat × Nat)) (y2 : List Byte) {s : State} (hK : Keeps r0 s) :
    Keeps r0 (writePieces r y1 y2 s).1 := by
  induction y1 generalizing y2 s with
  | nil => simp (maxDischargeDepth := 30) [writePieces, *]
  | cons a l ih => simp (maxDischargeDepth := 30) [writePieces, *]

@[simp] theorem Local.poke_keeps {r0 : State} (m : Local) (a : Nat) (bs : List Byte) {s : State} (hK : Keeps r0 s) :
    Keeps r0 (Local.poke m a bs s) := by
  unfold Local.poke
  (repeat' split) <;> simp (maxDischargeDepth := 30) [*]

@[simp] theorem localGet_keeps {r0 : State} (m : Local) (a : Nat) {s : State} (hK : Keeps r0 s) :
    Keeps r0 (localGet m a s).1 := by simp (maxDischargeDepth := 30) [localGet, *]

@[simp] theorem localPut_keeps {r0 : State} (m : Local) (a : Nat) (bs : List Byte) {s : State} (hK : Keeps r0 s) :
    Keeps r0 (localPut m a bs s) := by simp (maxDischargeDepth := 30) [localPut, *]

@[simp] theorem localPart_keeps {r0 : State} (m : Local) (a : Nat) (bs : List Byte) {s : State} (hK : Keeps r0 s) :
    Keeps r0 (localPart m a bs s).1 := by simp (maxDischargeDepth := 30) [localPart, *]

@[simp] theorem localReads_keeps {r0 : State} (m : Local) (y1 : List (Nat × Nat)) {s : State} (hK : Keeps r0 s) :
    Keeps r0 (localReads m y1 s).1 := by
  induction y1 generalizing s with
  | nil =>
    unfold localReads
    (repeat' split) <;> simp (maxDischargeDepth := 30) [*]
  | cons a l ih =>
    unfold localReads
    repeat' (first
      | (simp (maxDischargeDepth := 30) [*]; done)
      | (simp +contextual (maxDischargeDepth := 30) [*]; done)
      | (refine keeps_foldl _ _ _ (fun s a h => ?_) ?_)
      | (refine keeps_foldl_fst _ _ _ (fun s a h => ?_) ?_)
      | (refine keeps_foldl_snd _ _ _ (fun s a h => ?_) ?_)
      | (extract_lets +onlyGivenNames x
         first
           | (have hx : Keeps r0 x := by (first | (simp (maxDischargeDepth := 30) [x, *]; done) | (simp +contextual (maxDischargeDepth := 30) [x, *]; done) | ((try unfold x); (try dsimp only); (repeat' split) <;> simp (maxDischargeDepth := 30) [*]; done))
              clear_value x)
           | (have hx : Keeps r0 x.2 := by (first | (simp (maxDischargeDepth := 30) [x, *]; done) | (simp +contextual (maxDischargeDepth := 30) [x, *]; done) | ((try unfold x); (try dsimp only); (repeat' split) <;> simp (maxDischargeDepth := 30) [*]; done))
              clear_value x)
           | (have hx : Keeps r0 x.1 := by (first | (simp (maxDischargeDepth := 30) [x, *]; done) | (simp +contextual (maxDischargeDepth := 30) [x, *]; done) | ((try unfold x); (try dsimp only); (repeat' split) <;> simp (maxDischargeDepth := 30) [*]; done))
              clear_value x)
           | clear_value x)
      | (split <;> (try (rename_i e
                         first
                           | have k := keeps_of_snd (r := r0) e (by clear e; simp (maxDischargeDepth := 30) [*]; done)
                           | have k := keeps_of_fst (r := r0) e (by clear e; simp (maxDischargeDepth := 30) [*]; done)
                           | have k := keeps_of_opt (r := r0) e (by clear e; simp (maxDischargeDepth := 30) [*]; done)))))

@[simp] theorem localRead_keeps {r0 : State} (m : Local) (a n : Nat) {s : State} (hK : Keeps r0 s) :
    Keeps r0 (localRead m a n s).1 := by simp (maxDischargeDepth := 30) [localRead, *]

@[simp] theorem localWrites_keeps {r0 : State} (m : Local) (y1 : List (Nat × Nat)) (y2 : List Byte) {s : State} (hK : Keeps r0 s) :
    Keeps r0 (localWrites m y1 y2 s).1 := by
  induction y1 generalizing y2 s with
  | nil => simp (maxDischargeDepth := 30) [localWrites, *]
  | cons a l ih => simp (maxDischargeDepth := 30) [localWrites, *]

@[simp] theorem localWrite_keeps {r0 : State} (m : Local) (a : Nat) (bs : List Byte) {s : State} (hK : Keeps r0 s) :
    Keeps r0 (localWrite m a bs s).1 := by simp (maxDischargeDepth := 30) [localWrite, *]

end Sys2Proof.Machine
end

