-- ==== Sys2Proof/Laws/KeepsFieldOps.lean ====
section
/-! SUPPORT. What the operations of Machine/FieldOps.lean keep (Laws/Keeps.lean). -/

set_option Elab.async false
set_option linter.unusedTactic false
set_option linter.unreachableTactic false

namespace Sys2Proof.Machine

@[simp] theorem withReturns_keeps {r0 : State} (a : Nat) (k : List (Nat × Nat × Nat) → Bool → State → State) {s : State} (hFk : ∀ a0 a1 a2, Keeps r0 a2 → Keeps r0 (k a0 a1 a2)) (hK : Keeps r0 s) :
    Keeps r0 (withReturns a k s) := by simp (maxDischargeDepth := 30) [withReturns, *]

@[simp] theorem sendLink_keeps {r0 : State} (a kind : Nat) (payload : List Byte) {s : State} (hK : Keeps r0 s) :
    Keeps r0 (sendLink a kind payload s) := by
  unfold sendLink
  repeat' (first
    | (simp (maxDischargeDepth := 30) [*]; done)
    | (simp +contextual (maxDischargeDepth := 30) [*]; done)
    | (refine keeps_foldl _ _ _ (fun s a h => ?_) ?_)
    | (refine keeps_foldl_fst _ _ _ (fun s a h => ?_) ?_)
    | (refine keeps_foldl_snd _ _ _ (fun s a h => ?_) ?_)
    | (extract_lets +onlyGivenNames x
       first
         | (have hx : Keeps r0 x := by (first | (simp (maxDischargeDepth := 30) [x, *]; done) | (simp +contextual (maxDischargeDepth := 30) [x, *]; done) | ((try unfold x); (try dsimp only); (repeat' split) <;> simp (maxDischargeDepth := 30) [*]; done))
            clear_value x)
         | (have hx : Keeps r0 x.2 := by (first | (simp (maxDischargeDepth := 30) [x, *]; done) | (simp +contextual (maxDischargeDepth := 30) [x, *]; done) | ((try unfold x); (try dsimp only); (repeat' split) <;> simp (maxDischargeDepth := 30) [*]; done))
            clear_value x)
         | (have hx : Keeps r0 x.1 := by (first | (simp (maxDischargeDepth := 30) [x, *]; done) | (simp +contextual (maxDischargeDepth := 30) [x, *]; done) | ((try unfold x); (try dsimp only); (repeat' split) <;> simp (maxDischargeDepth := 30) [*]; done))
            clear_value x)
         | clear_value x)
    | (split <;> (try (rename_i e
                       first
                         | have k := keeps_of_snd (r := r0) e (by clear e; simp (maxDischargeDepth := 30) [*]; done)
                         | have k := keeps_of_fst (r := r0) e (by clear e; simp (maxDischargeDepth := 30) [*]; done)
                         | have k := keeps_of_opt (r := r0) e (by clear e; simp (maxDischargeDepth := 30) [*]; done)
                         | have k := keeps_of_optFst (r := r0) e (by clear e; simp (maxDischargeDepth := 30) [*]; done)))))

@[simp] theorem lostAt_keeps {r0 : State} (a : Nat) {s : State} (hK : Keeps r0 s) :
    Keeps r0 (lostAt a s) := by simp (maxDischargeDepth := 30) [lostAt, *]

@[simp] theorem portPush_keeps {r0 : State} (a : Nat) (es : List Flit) {s : State} (hK : Keeps r0 s) :
    Keeps r0 (portPush a es s) := by simp [portPush, *]

@[simp] theorem txPush_keeps {r0 : State} (a : Nat) (fs : List MsgFlit) (local_ : Bool) {s : State} (hK : Keeps r0 s) :
    Keeps r0 (txPush a fs local_ s) := by simp [txPush, *]

@[simp] theorem sendOneHop_keeps {r0 : State} (a : Nat) (m : Msg) {s : State} (hK : Keeps r0 s) :
    Keeps r0 (sendOneHop a m s) := by simp [sendOneHop, *]

@[simp] theorem chooseVia_keeps {r0 : State} (m : Msg) {s : State} (hK : Keeps r0 s) :
    Keeps r0 (chooseVia m s).2 := by
  unfold chooseVia
  dsimp only
  (repeat' split) <;> simp [*]

@[simp] theorem sendMsg_keeps {r0 : State} (m : Msg) {s : State} (hK : Keeps r0 s) :
    Keeps r0 (sendMsg m s).1 := by
  unfold sendMsg
  dsimp only
  (repeat' split) <;> simp [*]

@[simp] theorem fieldRequest_keeps {r0 : State} (m : Msg) (q : FieldReq) {s : State} (hK : Keeps r0 s) :
    Keeps r0 (fieldRequest m q s).1 := by
  unfold fieldRequest
  dsimp only
  (repeat' split) <;> simp [*]

end Sys2Proof.Machine
end

