-- ==== Sys2Proof/Laws/KeepsCrewOps.lean ====
section
/-! SUPPORT. What the operations of Machine/CrewOps.lean keep (Laws/Keeps.lean). -/

set_option Elab.async false
set_option linter.unusedTactic false
set_option linter.unreachableTactic false

namespace Sys2Proof.Machine

@[simp] theorem tset_keeps {r0 : State} (c r : Nat) (v : Dword) {s : State} (hK : Keeps r0 s) :
    Keeps r0 (tset c r v s) := by simp (maxDischargeDepth := 30) [tset, *]

@[simp] theorem tally_keeps {r0 : State} (c : Nat) (f : State → State) {s : State} (hFf : ∀ a0, Keeps r0 a0 → Keeps r0 (f a0)) (hK : Keeps r0 s) :
    KeepsRes r0 (tally c f s) := by simp (maxDischargeDepth := 30) [tally, *]

@[simp] theorem tallyIllegal_keeps {r0 : State} (c : Nat) {s : State} (hK : Keeps r0 s) :
    Keeps r0 (tallyIllegal c s) := by simp (maxDischargeDepth := 30) [tallyIllegal, *]

@[simp] theorem beat_keeps {r0 : State} (c : Nat) {s : State} (hK : Keeps r0 s) :
    Keeps r0 (beat c s) := by simp (maxDischargeDepth := 30) [beat, *]

@[simp] theorem withDescriptor_keeps {r0 : State} (c : Nat) (a : Dword) (f : List Byte → State → State) {s : State} (hFf : ∀ a0 a1, Keeps r0 a1 → Keeps r0 (f a0 a1)) (hK : Keeps r0 s) :
    Keeps r0 (withDescriptor c a f s) := by
  unfold withDescriptor
  repeat' (first
    | (simp (maxDischargeDepth := 30) [*]; done)
    | (simp +contextual (maxDischargeDepth := 30) [*]; done)
    | (refine keeps_foldl _ _ _ (fun s a h => ?_) ?_)
    | (refine keeps_foldl_fst _ _ _ (fun s a h => ?_) ?_)
    | (refine keeps_foldl_snd _ _ _ (fun s a h => ?_) ?_)
    | (extract_lets +onlyGivenNames x
       first
         | (have hx : Keeps r0 x := by (first | (simp (maxDischargeDepth := 30) [x, *]; done) | (simp +contextual (maxDischargeDepth := 30) [x, *]; done) | ((try unfold x); (try dsimp only); (repeat' split) <;> simp (maxDischargeDepth := 30) [*]; done))
            clear_value x)
         | (have hx : Keeps r0 x.2 := by (first | (simp (maxDischargeDepth := 30) [x, *]; done) | (simp +contextual (maxDischargeDepth := 30) [x, *]; done) | ((try unfold x); (try dsimp only); (repeat' split) <;> simp (maxDischargeDepth := 30) [*]; done))
            clear_value x)
         | (have hx : Keeps r0 x.1 := by (first | (simp (maxDischargeDepth := 30) [x, *]; done) | (simp +contextual (maxDischargeDepth := 30) [x, *]; done) | ((try unfold x); (try dsimp only); (repeat' split) <;> simp (maxDischargeDepth := 30) [*]; done))
            clear_value x)
         | clear_value x)
    | (split <;> (try (rename_i e
                       first
                         | have k := keeps_of_snd (r := r0) e (by clear e; simp (maxDischargeDepth := 30) [*]; done)
                         | have k := keeps_of_fst (r := r0) e (by clear e; simp (maxDischargeDepth := 30) [*]; done)
                         | have k := keeps_of_opt (r := r0) e (by clear e; simp (maxDischargeDepth := 30) [*]; done)))))

@[simp] theorem cplTake_keeps {r0 : State} (c rd : Nat) {s : State} (hK : Keeps r0 s) :
    Keeps r0 (cplTake c rd s) := by
  unfold cplTake
  (repeat' split) <;> simp (maxDischargeDepth := 30) [*]

@[simp] theorem wakeCpl_keeps {r0 : State} (c : Nat) {s : State} (hK : Keeps r0 s) :
    Keeps r0 (wakeCpl c s) := by
  unfold wakeCpl
  (repeat' split) <;> simp (maxDischargeDepth := 30) [*]

@[simp] theorem postRec_keeps {r0 : State} (c : Nat) (r : CplRec) {s : State} (hK : Keeps r0 s) :
    Keeps r0 (postRec c r s) := by simp (maxDischargeDepth := 30) [postRec, *]

@[simp] theorem tokRelease_keeps {r0 : State} (layer col : Nat) {s : State} (hK : Keeps r0 s) :
    Keeps r0 (tokRelease layer col s) := by simp (maxDischargeDepth := 30) [tokRelease, *]

@[simp] theorem postRevoked_keeps {r0 : State} (c role : Nat) {s : State} (hK : Keeps r0 s) :
    Keeps r0 (postRevoked c role s) := by simp (maxDischargeDepth := 30) [postRevoked, *]

@[simp] theorem setBlocks_keeps {r0 : State} (c role : Nat) (bs : List Nat) (st : Nat) {s : State} (hK : Keeps r0 s) :
    Keeps r0 (setBlocks c role bs st s) := by simp (maxDischargeDepth := 30) [setBlocks, *]

@[simp] theorem restoreBlocks_keeps {r0 : State} (c role : Nat) (saved : List (Nat × Nat)) {s : State} (hK : Keeps r0 s) :
    Keeps r0 (restoreBlocks c role saved s) := by simp (maxDischargeDepth := 30) [restoreBlocks, *]

@[simp] theorem setSkq_keeps {r0 : State} (c k : Nat) (e : SkqEntry) {s : State} (hK : Keeps r0 s) :
    Keeps r0 (setSkq c k e s) := by simp (maxDischargeDepth := 30) [setSkq, *]

@[simp] theorem skqRelease_keeps {r0 : State} (c : Nat) (es : List Nat) {s : State} (hK : Keeps r0 s) :
    Keeps r0 (skqRelease c es s) := by
  unfold skqRelease
  repeat' (first
    | (simp (maxDischargeDepth := 30) [*]; done)
    | (simp +contextual (maxDischargeDepth := 30) [*]; done)
    | (refine keeps_foldl _ _ _ (fun s a h => ?_) ?_)
    | (refine keeps_foldl_fst _ _ _ (fun s a h => ?_) ?_)
    | (refine keeps_foldl_snd _ _ _ (fun s a h => ?_) ?_)
    | (extract_lets +onlyGivenNames x
       first
         | (have hx : Keeps r0 x := by (first | (simp (maxDischargeDepth := 30) [x, *]; done) | (simp +contextual (maxDischargeDepth := 30) [x, *]; done) | ((try unfold x); (try dsimp only); (repeat' split) <;> simp (maxDischargeDepth := 30) [*]; done))
            clear_value x)
         | (have hx : Keeps r0 x.2 := by (first | (simp (maxDischargeDepth := 30) [x, *]; done) | (simp +contextual (maxDischargeDepth := 30) [x, *]; done) | ((try unfold x); (try dsimp only); (repeat' split) <;> simp (maxDischargeDepth := 30) [*]; done))
            clear_value x)
         | (have hx : Keeps r0 x.1 := by (first | (simp (maxDischargeDepth := 30) [x, *]; done) | (simp +contextual (maxDischargeDepth := 30) [x, *]; done) | ((try unfold x); (try dsimp only); (repeat' split) <;> simp (maxDischargeDepth := 30) [*]; done))
            clear_value x)
         | clear_value x)
    | (split <;> (try (rename_i e
                       first
                         | have k := keeps_of_snd (r := r0) e (by clear e; simp (maxDischargeDepth := 30) [*]; done)
                         | have k := keeps_of_fst (r := r0) e (by clear e; simp (maxDischargeDepth := 30) [*]; done)
                         | have k := keeps_of_opt (r := r0) e (by clear e; simp (maxDischargeDepth := 30) [*]; done)))))

@[simp] theorem flushCuts_keeps {r0 : State} (c h : Nat) (y1 : Nat) {s : State} (hK : Keeps r0 s) :
    Keeps r0 (flushCuts c h y1 s) := by
  induction y1 generalizing s with
  | zero =>
    unfold flushCuts
    (repeat' split) <;> simp (maxDischargeDepth := 30) [*]
  | succ n ih =>
    unfold flushCuts
    repeat' (first
      | (simp (maxDischargeDepth := 30) [*]; done)
      | (simp +contextual (maxDischargeDepth := 30) [*]; done)
      | (refine keeps_foldl _ _ _ (fun s a h => ?_) ?_)
      | (refine keeps_foldl_fst _ _ _ (fun s a h => ?_) ?_)
      | (refine keeps_foldl_snd _ _ _ (fun s a h => ?_) ?_)
      | (extract_lets +onlyGivenNames x
         first
           | (have hx : Keeps r0 x := by (first | (simp (maxDischargeDepth := 30) [x, *]; done) | (simp +contextual (maxDischargeDepth := 30) [x, *]; done) | ((try unfold x); (try dsimp only); (repeat' split) <;> simp (maxDischargeDepth := 30) [*]; done))
              clear_value x)
           | (have hx : Keeps r0 x.2 := by (first | (simp (maxDischargeDepth := 30) [x, *]; done) | (simp +contextual (maxDischargeDepth := 30) [x, *]; done) | ((try unfold x); (try dsimp only); (repeat' split) <;> simp (maxDischargeDepth := 30) [*]; done))
              clear_value x)
           | (have hx : Keeps r0 x.1 := by (first | (simp (maxDischargeDepth := 30) [x, *]; done) | (simp +contextual (maxDischargeDepth := 30) [x, *]; done) | ((try unfold x); (try dsimp only); (repeat' split) <;> simp (maxDischargeDepth := 30) [*]; done))
              clear_value x)
           | clear_value x)
      | (split <;> (try (rename_i e
                         first
                           | have k := keeps_of_snd (r := r0) e (by clear e; simp (maxDischargeDepth := 30) [*]; done)
                           | have k := keeps_of_fst (r := r0) e (by clear e; simp (maxDischargeDepth := 30) [*]; done)
                           | have k := keeps_of_opt (r := r0) e (by clear e; simp (maxDischargeDepth := 30) [*]; done)))))

@[simp] theorem flushDone_keeps {r0 : State} (c h : Nat) {s : State} (hK : Keeps r0 s) :
    Keeps r0 (flushDone c h s) := by simp (maxDischargeDepth := 30) [flushDone, *]

@[simp] theorem ranFor_keeps {r0 : State} (c h : Nat) (k : CutRun) (n : Nat) {s : State} (hK : Keeps r0 s) :
    Keeps r0 (ranFor c h k n s) := by simp (maxDischargeDepth := 30) [ranFor, *]

@[simp] theorem cutStops_keeps {r0 : State} (c h i : Nat) {s : State} (hK : Keeps r0 s) :
    Keeps r0 (cutStops c h i s) := by
  unfold cutStops
  (repeat' split) <;> simp (maxDischargeDepth := 30) [*]

@[simp] theorem failCut_keeps {r0 : State} (c h i : Nat) (st : Status) {s : State} (hK : Keeps r0 s) :
    Keeps r0 (failCut c h i st s) := by
  unfold failCut
  (repeat' split) <;> simp (maxDischargeDepth := 30) [*]

@[simp] theorem applyRels_keeps {r0 : State} (c : Nat) {s : State} (hK : Keeps r0 s) :
    Keeps r0 (applyRels c s) := by
  unfold applyRels
  repeat' (first
    | (simp (maxDischargeDepth := 30) [*]; done)
    | (simp +contextual (maxDischargeDepth := 30) [*]; done)
    | (refine keeps_foldl _ _ _ (fun s a h => ?_) ?_)
    | (refine keeps_foldl_fst _ _ _ (fun s a h => ?_) ?_)
    | (refine keeps_foldl_snd _ _ _ (fun s a h => ?_) ?_)
    | (extract_lets +onlyGivenNames x
       first
         | (have hx : Keeps r0 x := by (first | (simp (maxDischargeDepth := 30) [x, *]; done) | (simp +contextual (maxDischargeDepth := 30) [x, *]; done) | ((try unfold x); (try dsimp only); (repeat' split) <;> simp (maxDischargeDepth := 30) [*]; done))
            clear_value x)
         | (have hx : Keeps r0 x.2 := by (first | (simp (maxDischargeDepth := 30) [x, *]; done) | (simp +contextual (maxDischargeDepth := 30) [x, *]; done) | ((try unfold x); (try dsimp only); (repeat' split) <;> simp (maxDischargeDepth := 30) [*]; done))
            clear_value x)
         | (have hx : Keeps r0 x.1 := by (first | (simp (maxDischargeDepth := 30) [x, *]; done) | (simp +contextual (maxDischargeDepth := 30) [x, *]; done) | ((try unfold x); (try dsimp only); (repeat' split) <;> simp (maxDischargeDepth := 30) [*]; done))
            clear_value x)
         | clear_value x)
    | (split <;> (try (rename_i e
                       first
                         | have k := keeps_of_snd (r := r0) e (by clear e; simp (maxDischargeDepth := 30) [*]; done)
                         | have k := keeps_of_fst (r := r0) e (by clear e; simp (maxDischargeDepth := 30) [*]; done)
                         | have k := keeps_of_opt (r := r0) e (by clear e; simp (maxDischargeDepth := 30) [*]; done)))))

@[simp] theorem xferRecord_keeps {r0 : State} (c : Nat) (x : Xfer) (st : Status) {s : State} (hK : Keeps r0 s) :
    Keeps r0 (xferRecord c x st s) := by simp (maxDischargeDepth := 30) [xferRecord, *]

@[simp] theorem arrAnswered_keeps {r0 : State} (c : Nat) (addr : Dword) (xo : Option Nat) (st : Status) {s : State} (hK : Keeps r0 s) :
    Keeps r0 (arrAnswered c addr xo st s) := by
  unfold arrAnswered
  dsimp only
  (repeat' split) <;> simp (maxDischargeDepth := 30) [*]

@[simp] theorem sendArrival_keeps {r0 : State} (c : Nat) (a : ArrSend) {s : State} (hK : Keeps r0 s) :
    Keeps r0 (sendArrival c a s) := by
  unfold sendArrival
  dsimp only
  (repeat' split) <;> simp (maxDischargeDepth := 30) [*]

@[simp] theorem unitArrival_keeps {r0 : State} (a : Dword) (poison : Bool) {s : State} (hK : Keeps r0 s) :
    Keeps r0 (unitArrival a poison s) := by simp (maxDischargeDepth := 30) [unitArrival, *]

@[simp] theorem pumpSends_keeps {r0 : State} (c : Nat) (y1 : Nat) {s : State} (hK : Keeps r0 s) :
    Keeps r0 (pumpSends c y1 s) := by
  induction y1 generalizing s with
  | zero =>
    unfold pumpSends
    (repeat' split) <;> simp (maxDischargeDepth := 30) [*]
  | succ n ih =>
    unfold pumpSends
    repeat' (first
      | (simp (maxDischargeDepth := 30) [*]; done)
      | (simp +contextual (maxDischargeDepth := 30) [*]; done)
      | (refine keeps_foldl _ _ _ (fun s a h => ?_) ?_)
      | (refine keeps_foldl_fst _ _ _ (fun s a h => ?_) ?_)
      | (refine keeps_foldl_snd _ _ _ (fun s a h => ?_) ?_)
      | (extract_lets +onlyGivenNames x
         first
           | (have hx : Keeps r0 x := by (first | (simp (maxDischargeDepth := 30) [x, *]; done) | (simp +contextual (maxDischargeDepth := 30) [x, *]; done) | ((try unfold x); (try dsimp only); (repeat' split) <;> simp (maxDischargeDepth := 30) [*]; done))
              clear_value x)
           | (have hx : Keeps r0 x.2 := by (first | (simp (maxDischargeDepth := 30) [x, *]; done) | (simp +contextual (maxDischargeDepth := 30) [x, *]; done) | ((try unfold x); (try dsimp only); (repeat' split) <;> simp (maxDischargeDepth := 30) [*]; done))
              clear_value x)
           | (have hx : Keeps r0 x.1 := by (first | (simp (maxDischargeDepth := 30) [x, *]; done) | (simp +contextual (maxDischargeDepth := 30) [x, *]; done) | ((try unfold x); (try dsimp only); (repeat' split) <;> simp (maxDischargeDepth := 30) [*]; done))
              clear_value x)
           | clear_value x)
      | (split <;> (try (rename_i e
                         first
                           | have k := keeps_of_snd (r := r0) e (by clear e; simp (maxDischargeDepth := 30) [*]; done)
                           | have k := keeps_of_fst (r := r0) e (by clear e; simp (maxDischargeDepth := 30) [*]; done)
                           | have k := keeps_of_opt (r := r0) e (by clear e; simp (maxDischargeDepth := 30) [*]; done)))))

@[simp] theorem wakeArr_keeps {r0 : State} (c : Nat) {s : State} (hK : Keeps r0 s) :
    Keeps r0 (wakeArr c s) := by
  unfold wakeArr
  (repeat' split) <;> simp (maxDischargeDepth := 30) [*]

@[simp] theorem counterApply_keeps {r0 : State} (p n inc : Nat) (poison : Bool) {s : State} (hK : Keeps r0 s) :
    Keeps r0 (counterApply p n inc poison s) := by simp (maxDischargeDepth := 30) [counterApply, *]

@[simp] theorem respond_keeps {r0 : State} (dst tag op : Nat) (ordered : Bool) (st : Status) (data : List Byte) {s : State} (hK : Keeps r0 s) :
    Keeps r0 (respond dst tag op ordered st data s) := by simp (maxDischargeDepth := 30) [respond, *]

@[simp] theorem arrivalApply_keeps {r0 : State} (a : Arrival) {s : State} (hK : Keeps r0 s) :
    Keeps r0 (arrivalApply a s) := by
  unfold arrivalApply
  (repeat' split) <;> simp (maxDischargeDepth := 30) [*]

@[simp] theorem noteLoss_keeps {r0 : State} (grain index cause : Nat) {s : State} (hK : Keeps r0 s) :
    Keeps r0 (noteLoss grain index cause s) := by simp (maxDischargeDepth := 30) [noteLoss, *]

@[simp] theorem killIssued_keeps {r0 : State} (c h : Nat) (hard : Bool) (y1 : Nat) {s : State} (hK : Keeps r0 s) :
    Keeps r0 (killIssued c h hard y1 s) := by
  induction y1 generalizing s with
  | zero =>
    unfold killIssued
    (repeat' split) <;> simp (maxDischargeDepth := 30) [*]
  | succ n ih =>
    unfold killIssued
    repeat' (first
      | (simp (maxDischargeDepth := 30) [*]; done)
      | (simp +contextual (maxDischargeDepth := 30) [*]; done)
      | (refine keeps_foldl _ _ _ (fun s a h => ?_) ?_)
      | (refine keeps_foldl_fst _ _ _ (fun s a h => ?_) ?_)
      | (refine keeps_foldl_snd _ _ _ (fun s a h => ?_) ?_)
      | (extract_lets +onlyGivenNames x
         first
           | (have hx : Keeps r0 x := by (first | (simp (maxDischargeDepth := 30) [x, *]; done) | (simp +contextual (maxDischargeDepth := 30) [x, *]; done) | ((try unfold x); (try dsimp only); (repeat' split) <;> simp (maxDischargeDepth := 30) [*]; done))
              clear_value x)
           | (have hx : Keeps r0 x.2 := by (first | (simp (maxDischargeDepth := 30) [x, *]; done) | (simp +contextual (maxDischargeDepth := 30) [x, *]; done) | ((try unfold x); (try dsimp only); (repeat' split) <;> simp (maxDischargeDepth := 30) [*]; done))
              clear_value x)
           | (have hx : Keeps r0 x.1 := by (first | (simp (maxDischargeDepth := 30) [x, *]; done) | (simp +contextual (maxDischargeDepth := 30) [x, *]; done) | ((try unfold x); (try dsimp only); (repeat' split) <;> simp (maxDischargeDepth := 30) [*]; done))
              clear_value x)
           | clear_value x)
      | (split <;> (try (rename_i e
                         first
                           | have k := keeps_of_snd (r := r0) e (by clear e; simp (maxDischargeDepth := 30) [*]; done)
                           | have k := keeps_of_fst (r := r0) e (by clear e; simp (maxDischargeDepth := 30) [*]; done)
                           | have k := keeps_of_opt (r := r0) e (by clear e; simp (maxDischargeDepth := 30) [*]; done)))))

@[simp] theorem fenceHewer_keeps {r0 : State} (c h cause lossCause : Nat) {s : State} (hK : Keeps r0 s) :
    Keeps r0 (fenceHewer c h cause lossCause s) := by
  unfold fenceHewer
  dsimp only
  (repeat' split) <;> simp (maxDischargeDepth := 30) [*]

@[simp] theorem skqClear_keeps {r0 : State} (c : Nat) {s : State} (hK : Keeps r0 s) :
    Keeps r0 (skqClear c s) := by simp (maxDischargeDepth := 30) [skqClear, *]

@[simp] theorem dresserDead_keeps {r0 : State} (c : Nat) {s : State} (hK : Keeps r0 s) :
    Keeps r0 (dresserDead c s) := by
  unfold dresserDead
  repeat' (first
    | (simp (maxDischargeDepth := 30) [*]; done)
    | (simp +contextual (maxDischargeDepth := 30) [*]; done)
    | (refine keeps_foldl _ _ _ (fun s a h => ?_) ?_)
    | (refine keeps_foldl_fst _ _ _ (fun s a h => ?_) ?_)
    | (refine keeps_foldl_snd _ _ _ (fun s a h => ?_) ?_)
    | (extract_lets +onlyGivenNames x
       first
         | (have hx : Keeps r0 x := by (first | (simp (maxDischargeDepth := 30) [x, *]; done) | (simp +contextual (maxDischargeDepth := 30) [x, *]; done) | ((try unfold x); (try dsimp only); (repeat' split) <;> simp (maxDischargeDepth := 30) [*]; done))
            clear_value x)
         | (have hx : Keeps r0 x.2 := by (first | (simp (maxDischargeDepth := 30) [x, *]; done) | (simp +contextual (maxDischargeDepth := 30) [x, *]; done) | ((try unfold x); (try dsimp only); (repeat' split) <;> simp (maxDischargeDepth := 30) [*]; done))
            clear_value x)
         | (have hx : Keeps r0 x.1 := by (first | (simp (maxDischargeDepth := 30) [x, *]; done) | (simp +contextual (maxDischargeDepth := 30) [x, *]; done) | ((try unfold x); (try dsimp only); (repeat' split) <;> simp (maxDischargeDepth := 30) [*]; done))
            clear_value x)
         | clear_value x)
    | (split <;> (try (rename_i e
                       first
                         | have k := keeps_of_snd (r := r0) e (by clear e; simp (maxDischargeDepth := 30) [*]; done)
                         | have k := keeps_of_fst (r := r0) e (by clear e; simp (maxDischargeDepth := 30) [*]; done)
                         | have k := keeps_of_opt (r := r0) e (by clear e; simp (maxDischargeDepth := 30) [*]; done)))))

@[simp] theorem fenceCrew_keeps {r0 : State} (c cause : Nat) {s : State} (hK : Keeps r0 s) :
    Keeps r0 (fenceCrew c cause s) := by simp (maxDischargeDepth := 30) [fenceCrew, *]

end Sys2Proof.Machine
end

