-- ==== Sys2Proof/Laws/KeepsHostOps.lean ====
section
/-! SUPPORT. What the operations of Machine/HostOps.lean keep (Laws/Keeps.lean). -/

set_option Elab.async false
set_option linter.unusedTactic false
set_option linter.unreachableTactic false

namespace Sys2Proof.Machine

@[simp] theorem cqPut_keeps {r0 : State} (f : Nat) (rec : List Byte) {s : State} (hK : Keeps r0 s) :
    Keeps r0 (cqPut f rec s) := by
  unfold cqPut
  repeat' (first
    | (simp [*]; done)
    | (extract_lets +onlyGivenNames x
       first
         | (have hx : Keeps r0 x := by (first | (simp [x, *]; done) | ((try unfold x); (try dsimp only); (repeat' split) <;> simp [*]; done))
            clear_value x)
         | (have hx : Keeps r0 x.2 := by (first | (simp [x, *]; done) | ((try unfold x); (try dsimp only); (repeat' split) <;> simp [*]; done))
            clear_value x)
         | (have hx : Keeps r0 x.1 := by (first | (simp [x, *]; done) | ((try unfold x); (try dsimp only); (repeat' split) <;> simp [*]; done))
            clear_value x)
         | clear_value x)
    | (split <;> (try (rename_i e
                       first
                         | have k := keeps_of_snd (r := r0) e (by simp [*]; done)
                         | have k := keeps_of_fst (r := r0) e (by simp [*]; done)
                         | have k := keeps_of_opt (r := r0) e (by simp [*]; done)))))

@[simp] theorem cqWrite_keeps {r0 : State} (f : Nat) (rec : List Byte) {s : State} (hK : Keeps r0 s) :
    Keeps r0 (cqWrite f rec s) := by
  unfold cqWrite
  dsimp only
  (repeat' split) <;> simp [*]

@[simp] theorem completeReq_keeps {r0 : State} (id : Nat) (st : Status) (result : Nat) (detail : List Byte) {s : State} (hK : Keeps r0 s) :
    Keeps r0 (completeReq id st result detail s) := by
  unfold completeReq
  (repeat' split) <;> simp [*]

@[simp] theorem completeOpt_keeps {r0 : State} (id : Option Nat) (st : Status) (result : Nat) (detail : List Byte) {s : State} (hK : Keeps r0 s) :
    Keeps r0 (completeOpt id st result detail s) := by
  unfold completeOpt
  (repeat' split) <;> simp [*]

end Sys2Proof.Machine
end

