-- ==== Sys2Proof/Laws/KeepsBus.lean ====
section
/-! SUPPORT. What the operations of Machine/Bus.lean keep (Laws/Keeps.lean). -/

set_option Elab.async false
set_option linter.unusedTactic false
set_option linter.unreachableTactic false

namespace Sys2Proof.Machine

@[simp] theorem faceDone_keeps {r0 : State} (n : Nat) (l : FLaunch) (st : Status) {s : State} (hK : Keeps r0 s) :
    Keeps r0 (faceDone n l st s) := by simp (maxDischargeDepth := 30) [faceDone, *]

@[simp] theorem faceEnqueue_keeps {r0 : State} (n : Nat) (l : FLaunch) {s : State} (hK : Keeps r0 s) :
    Keeps r0 (faceEnqueue n l s) := by simp (maxDischargeDepth := 30) [faceEnqueue, *]

@[simp] theorem hostReadOut_keeps {r0 : State} (f : Nat) (st : Status) (bs : List Byte) {s : State} (hK : Keeps r0 s) :
    Keeps r0 (hostReadOut f st bs s) := by
  unfold hostReadOut
  (repeat' split) <;> simp (maxDischargeDepth := 30) [*]

@[simp] theorem hostGet_keeps {r0 : State} (f dpa len : Nat) {s : State} (hK : Keeps r0 s) :
    Keeps r0 (hostGet f dpa len s) := by simp (maxDischargeDepth := 30) [hostGet, *]

@[simp] theorem bar2Get_keeps {r0 : State} (f off len : Nat) {s : State} (hK : Keeps r0 s) :
    Keeps r0 (bar2Get f off len s) := by
  unfold bar2Get
  (repeat' split) <;> simp (maxDischargeDepth := 30) [*]

@[simp] theorem hostWriteLost_keeps {r0 : State} (f : Nat) (st : Status) {s : State} (hK : Keeps r0 s) :
    Keeps r0 (hostWriteLost f st s) := by
  unfold hostWriteLost
  (repeat' split) <;> simp (maxDischargeDepth := 30) [*]

@[simp] theorem hostPut_keeps {r0 : State} (f dpa : Nat) (data : List Byte) (relaxed : Bool) {s : State} (hK : Keeps r0 s) :
    Keeps r0 (hostPut f dpa data relaxed s) := by simp (maxDischargeDepth := 30) [hostPut, *]

@[simp] theorem bar2Put_keeps {r0 : State} (f off : Nat) (data : List Byte) (poisoned relaxed : Bool) {s : State} (hK : Keeps r0 s) :
    Keeps r0 (bar2Put f off data poisoned relaxed s) := by
  unfold bar2Put
  (repeat' split) <;> simp (maxDischargeDepth := 30) [*]

@[simp] theorem dpaAccess_keeps {r0 : State} (r : Requester) (store : Bool) (dpa len : Nat) (data : List Byte) {s : State} (hK : Keeps r0 s) :
    Keeps r0 (dpaAccess r store dpa len data s) := by simp (maxDischargeDepth := 30) [dpaAccess, *]

@[simp] theorem releaseLaunches_keeps {r0 : State} (y1 : Nat) {s : State} (hK : Keeps r0 s) :
    Keeps r0 (releaseLaunches y1 s) := by
  induction y1 generalizing s with
  | zero =>
    unfold releaseLaunches
    (repeat' split) <;> simp (maxDischargeDepth := 30) [*]
  | succ n ih =>
    unfold releaseLaunches
    repeat' (first
      | (simp (maxDischargeDepth := 30) [*]; done)
      | (simp +contextual (maxDischargeDepth := 30) [*]; done)
      | (refine keeps_foldl _ _ _ (fun s a h => ?_) ?_)
      | (refine keeps_foldl_fst _ _ _ (fun s a h => ?_) ?_)
      | (refine keeps_foldl_snd _ _ _ (fun s a h => ?_) ?_)
      | (extract_lets +onlyGivenNames x
         first
           | (have hx : Keeps r0 x := by (first | (simp (maxDischargeDepth := 30) [x, *]; done) | (simp +contextual (maxDischargeDepth := 30) [x, *]; done) | ((try unfold x); (try dsimp only); (repeat' split) <;> simp (maxDischargeDepth := 30) [*]; done))
              clear_value x)
           | (have hx : Keeps r0 x.2 := by (first | (simp (maxDischargeDepth := 30) [x, *]; done) | (simp +contextual (maxDischargeDepth := 30) [x, *]; done) | ((try unfold x); (try dsimp only); (repeat' split) <;> simp (maxDischargeDepth := 30) [*]; done))
              clear_value x)
           | (have hx : Keeps r0 x.1 := by (first | (simp (maxDischargeDepth := 30) [x, *]; done) | (simp +contextual (maxDischargeDepth := 30) [x, *]; done) | ((try unfold x); (try dsimp only); (repeat' split) <;> simp (maxDischargeDepth := 30) [*]; done))
              clear_value x)
           | clear_value x)
      | (split <;> (try (rename_i e
                         first
                           | have k := keeps_of_snd (r := r0) e (by clear e; simp (maxDischargeDepth := 30) [*]; done)
                           | have k := keeps_of_fst (r := r0) e (by clear e; simp (maxDischargeDepth := 30) [*]; done)
                           | have k := keeps_of_opt (r := r0) e (by clear e; simp (maxDischargeDepth := 30) [*]; done)
                           | have k := keeps_of_optFst (r := r0) e (by clear e; simp (maxDischargeDepth := 30) [*]; done)))))

@[simp] theorem serveOne_keeps {r0 : State} {s : State} (h : Nat × Held) (hK : Keeps r0 s) :
    Keeps r0 (serveOne s h) := by
  unfold serveOne
  (repeat' split) <;> simp (maxDischargeDepth := 30) [*]

@[simp] theorem serveHeld_keeps {r0 : State} {s : State} (hK : Keeps r0 s) :
    Keeps r0 (serveHeld s) := by
  unfold serveHeld
  repeat' (first
    | (simp (maxDischargeDepth := 30) [*]; done)
    | (simp +contextual (maxDischargeDepth := 30) [*]; done)
    | (refine keeps_foldl _ _ _ (fun s a h => ?_) ?_)
    | (refine keeps_foldl_fst _ _ _ (fun s a h => ?_) ?_)
    | (refine keeps_foldl_snd _ _ _ (fun s a h => ?_) ?_)
    | (extract_lets +onlyGivenNames x
       first
         | (have hx : Keeps r0 x := by (first | (simp (maxDischargeDepth := 30) [x, *]; done) | (simp +contextual (maxDischargeDepth := 30) [x, *]; done) | ((try unfold x); (try dsimp only); (repeat' split) <;> simp (maxDischargeDepth := 30) [*]; done))
            clear_value x)
         | (have hx : Keeps r0 x.2 := by (first | (simp (maxDischargeDepth := 30) [x, *]; done) | (simp +contextual (maxDischargeDepth := 30) [x, *]; done) | ((try unfold x); (try dsimp only); (repeat' split) <;> simp (maxDischargeDepth := 30) [*]; done))
            clear_value x)
         | (have hx : Keeps r0 x.1 := by (first | (simp (maxDischargeDepth := 30) [x, *]; done) | (simp +contextual (maxDischargeDepth := 30) [x, *]; done) | ((try unfold x); (try dsimp only); (repeat' split) <;> simp (maxDischargeDepth := 30) [*]; done))
            clear_value x)
         | clear_value x)
    | (split <;> (try (rename_i e
                       first
                         | have k := keeps_of_snd (r := r0) e (by clear e; simp (maxDischargeDepth := 30) [*]; done)
                         | have k := keeps_of_fst (r := r0) e (by clear e; simp (maxDischargeDepth := 30) [*]; done)
                         | have k := keeps_of_opt (r := r0) e (by clear e; simp (maxDischargeDepth := 30) [*]; done)
                         | have k := keeps_of_optFst (r := r0) e (by clear e; simp (maxDischargeDepth := 30) [*]; done)))))

end Sys2Proof.Machine
end

