-- ==== Sys2Proof/Laws/KeepsTally.lean ====
section
/-! SUPPORT. What the operations of Machine/Tally.lean keep (Laws/Keeps.lean). -/

set_option Elab.async false
set_option linter.unusedTactic false
set_option linter.unreachableTactic false

namespace Sys2Proof.Machine

@[simp] theorem tokRequest_keeps {r0 : State} (layer col : Nat) {s : State} (hK : Keeps r0 s) :
    Keeps r0 (tokRequest layer col s).1 := by simp (maxDischargeDepth := 30) [tokRequest, *]

@[simp] theorem execTokAcq_keeps {r0 : State} (c rd rs1 : Nat) {s : State} (hK : Keeps r0 s) :
    KeepsRes r0 (execTokAcq c rd rs1 s) := by
  unfold execTokAcq
  repeat' (first
    | (simp (maxDischargeDepth := 30) [*]; done)
    | (simp +contextual (maxDischargeDepth := 30) [*]; done)
    | (refine keeps_foldl _ _ _ (fun s a h => ?_) ?_)
    | (refine keeps_foldl_fst _ _ _ (fun s a h => ?_) ?_)
    | (refine keeps_foldl_snd _ _ _ (fun s a h => ?_) ?_)
    | (extract_lets +onlyGivenNames x
       first
         | (have hx : Keeps r0 x := by (first | (simp (maxDischargeDepth := 30) [x, *]; done) | (simp +contextual (maxDischargeDepth := 30) [x, *]; done) | ((try unfold x); (try dsimp only); (repeat' split) <;> simp (maxDischargeDepth := 30) [*]; done))
            clear_value x)
         | (have hx : Keeps r0 x.2 := by (first | (simp (maxDischargeDepth := 30) [x, *]; done) | (simp +contextual (maxDischargeDepth := 30) [x, *]; done) | ((try unfold x); (try dsimp only); (repeat' split) <;> simp (maxDischargeDepth := 30) [*]; done))
            clear_value x)
         | (have hx : Keeps r0 x.1 := by (first | (simp (maxDischargeDepth := 30) [x, *]; done) | (simp +contextual (maxDischargeDepth := 30) [x, *]; done) | ((try unfold x); (try dsimp only); (repeat' split) <;> simp (maxDischargeDepth := 30) [*]; done))
            clear_value x)
         | clear_value x)
    | (split <;> (try (rename_i e
                       first
                         | have k := keeps_of_snd (r := r0) e (by clear e; simp (maxDischargeDepth := 30) [*]; done)
                         | have k := keeps_of_fst (r := r0) e (by clear e; simp (maxDischargeDepth := 30) [*]; done)
                         | have k := keeps_of_opt (r := r0) e (by clear e; simp (maxDischargeDepth := 30) [*]; done)))))

@[simp] theorem execTokRel_keeps {r0 : State} (c rs1 : Nat) {s : State} (hK : Keeps r0 s) :
    KeepsRes r0 (execTokRel c rs1 s) := by
  unfold execTokRel
  repeat' (first
    | (simp (maxDischargeDepth := 30) [*]; done)
    | (simp +contextual (maxDischargeDepth := 30) [*]; done)
    | (refine keeps_foldl _ _ _ (fun s a h => ?_) ?_)
    | (refine keeps_foldl_fst _ _ _ (fun s a h => ?_) ?_)
    | (refine keeps_foldl_snd _ _ _ (fun s a h => ?_) ?_)
    | (extract_lets +onlyGivenNames x
       first
         | (have hx : Keeps r0 x := by (first | (simp (maxDischargeDepth := 30) [x, *]; done) | (simp +contextual (maxDischargeDepth := 30) [x, *]; done) | ((try unfold x); (try dsimp only); (repeat' split) <;> simp (maxDischargeDepth := 30) [*]; done))
            clear_value x)
         | (have hx : Keeps r0 x.2 := by (first | (simp (maxDischargeDepth := 30) [x, *]; done) | (simp +contextual (maxDischargeDepth := 30) [x, *]; done) | ((try unfold x); (try dsimp only); (repeat' split) <;> simp (maxDischargeDepth := 30) [*]; done))
            clear_value x)
         | (have hx : Keeps r0 x.1 := by (first | (simp (maxDischargeDepth := 30) [x, *]; done) | (simp +contextual (maxDischargeDepth := 30) [x, *]; done) | ((try unfold x); (try dsimp only); (repeat' split) <;> simp (maxDischargeDepth := 30) [*]; done))
            clear_value x)
         | clear_value x)
    | (split <;> (try (rename_i e
                       first
                         | have k := keeps_of_snd (r := r0) e (by clear e; simp (maxDischargeDepth := 30) [*]; done)
                         | have k := keeps_of_fst (r := r0) e (by clear e; simp (maxDischargeDepth := 30) [*]; done)
                         | have k := keeps_of_opt (r := r0) e (by clear e; simp (maxDischargeDepth := 30) [*]; done)))))

@[simp] theorem execTokStat_keeps {r0 : State} (c rd rs1 : Nat) {s : State} (hK : Keeps r0 s) :
    KeepsRes r0 (execTokStat c rd rs1 s) := by
  unfold execTokStat
  repeat' (first
    | (simp (maxDischargeDepth := 30) [*]; done)
    | (simp +contextual (maxDischargeDepth := 30) [*]; done)
    | (refine keeps_foldl _ _ _ (fun s a h => ?_) ?_)
    | (refine keeps_foldl_fst _ _ _ (fun s a h => ?_) ?_)
    | (refine keeps_foldl_snd _ _ _ (fun s a h => ?_) ?_)
    | (extract_lets +onlyGivenNames x
       first
         | (have hx : Keeps r0 x := by (first | (simp (maxDischargeDepth := 30) [x, *]; done) | (simp +contextual (maxDischargeDepth := 30) [x, *]; done) | ((try unfold x); (try dsimp only); (repeat' split) <;> simp (maxDischargeDepth := 30) [*]; done))
            clear_value x)
         | (have hx : Keeps r0 x.2 := by (first | (simp (maxDischargeDepth := 30) [x, *]; done) | (simp +contextual (maxDischargeDepth := 30) [x, *]; done) | ((try unfold x); (try dsimp only); (repeat' split) <;> simp (maxDischargeDepth := 30) [*]; done))
            clear_value x)
         | (have hx : Keeps r0 x.1 := by (first | (simp (maxDischargeDepth := 30) [x, *]; done) | (simp +contextual (maxDischargeDepth := 30) [x, *]; done) | ((try unfold x); (try dsimp only); (repeat' split) <;> simp (maxDischargeDepth := 30) [*]; done))
            clear_value x)
         | clear_value x)
    | (split <;> (try (rename_i e
                       first
                         | have k := keeps_of_snd (r := r0) e (by clear e; simp (maxDischargeDepth := 30) [*]; done)
                         | have k := keeps_of_fst (r := r0) e (by clear e; simp (maxDischargeDepth := 30) [*]; done)
                         | have k := keeps_of_opt (r := r0) e (by clear e; simp (maxDischargeDepth := 30) [*]; done)))))

@[simp] theorem revokeOver_keeps {r0 : State} (col : Nat) (y1 : Nat) {s : State} (hK : Keeps r0 s) :
    Keeps r0 (revokeOver col y1 s) := by
  induction y1 generalizing s with
  | zero => simp (maxDischargeDepth := 30) [revokeOver, *]
  | succ n ih => simp (maxDischargeDepth := 30) [revokeOver, *]

@[simp] theorem execTokenRevoke_keeps {r0 : State} (col : Nat) {s : State} (hK : Keeps r0 s) :
    KeepsRes r0 (execTokenRevoke col s) := by simp (maxDischargeDepth := 30) [execTokenRevoke, *]

@[simp] theorem pushCut_keeps {r0 : State} (c role : Nat) (ws : List Word) {s : State} (hK : Keeps r0 s) :
    Keeps r0 (pushCut c role ws s) := by simp (maxDischargeDepth := 30) [pushCut, *]

@[simp] theorem execCutPush_keeps {r0 : State} (c rd rs1 rs2 : Nat) {s : State} (hK : Keeps r0 s) :
    KeepsRes r0 (execCutPush c rd rs1 rs2 s) := by
  unfold execCutPush
  repeat' (first
    | (simp (maxDischargeDepth := 30) [*]; done)
    | (simp +contextual (maxDischargeDepth := 30) [*]; done)
    | (refine keeps_foldl _ _ _ (fun s a h => ?_) ?_)
    | (refine keeps_foldl_fst _ _ _ (fun s a h => ?_) ?_)
    | (refine keeps_foldl_snd _ _ _ (fun s a h => ?_) ?_)
    | (extract_lets +onlyGivenNames x
       first
         | (have hx : Keeps r0 x := by (first | (simp (maxDischargeDepth := 30) [x, *]; done) | (simp +contextual (maxDischargeDepth := 30) [x, *]; done) | ((try unfold x); (try dsimp only); (repeat' split) <;> simp (maxDischargeDepth := 30) [*]; done))
            clear_value x)
         | (have hx : Keeps r0 x.2 := by (first | (simp (maxDischargeDepth := 30) [x, *]; done) | (simp +contextual (maxDischargeDepth := 30) [x, *]; done) | ((try unfold x); (try dsimp only); (repeat' split) <;> simp (maxDischargeDepth := 30) [*]; done))
            clear_value x)
         | (have hx : Keeps r0 x.1 := by (first | (simp (maxDischargeDepth := 30) [x, *]; done) | (simp +contextual (maxDischargeDepth := 30) [x, *]; done) | ((try unfold x); (try dsimp only); (repeat' split) <;> simp (maxDischargeDepth := 30) [*]; done))
            clear_value x)
         | clear_value x)
    | (split <;> (try (rename_i e
                       first
                         | have k := keeps_of_snd (r := r0) e (by clear e; simp (maxDischargeDepth := 30) [*]; done)
                         | have k := keeps_of_fst (r := r0) e (by clear e; simp (maxDischargeDepth := 30) [*]; done)
                         | have k := keeps_of_opt (r := r0) e (by clear e; simp (maxDischargeDepth := 30) [*]; done)))))

@[simp] theorem startLoad_keeps {r0 : State} (c h : Nat) (q : TblReq) {s : State} (hK : Keeps r0 s) :
    Keeps r0 (startLoad c h q s) := by simp (maxDischargeDepth := 30) [startLoad, *]

@[simp] theorem execTblLoad_keeps {r0 : State} (c rd rs1 rs2 : Nat) {s : State} (hK : Keeps r0 s) :
    KeepsRes r0 (execTblLoad c rd rs1 rs2 s) := by
  unfold execTblLoad
  repeat' (first
    | (simp (maxDischargeDepth := 30) [*]; done)
    | (simp +contextual (maxDischargeDepth := 30) [*]; done)
    | (refine keeps_foldl _ _ _ (fun s a h => ?_) ?_)
    | (refine keeps_foldl_fst _ _ _ (fun s a h => ?_) ?_)
    | (refine keeps_foldl_snd _ _ _ (fun s a h => ?_) ?_)
    | (extract_lets +onlyGivenNames x
       first
         | (have hx : Keeps r0 x := by (first | (simp (maxDischargeDepth := 30) [x, *]; done) | (simp +contextual (maxDischargeDepth := 30) [x, *]; done) | ((try unfold x); (try dsimp only); (repeat' split) <;> simp (maxDischargeDepth := 30) [*]; done))
            clear_value x)
         | (have hx : Keeps r0 x.2 := by (first | (simp (maxDischargeDepth := 30) [x, *]; done) | (simp +contextual (maxDischargeDepth := 30) [x, *]; done) | ((try unfold x); (try dsimp only); (repeat' split) <;> simp (maxDischargeDepth := 30) [*]; done))
            clear_value x)
         | (have hx : Keeps r0 x.1 := by (first | (simp (maxDischargeDepth := 30) [x, *]; done) | (simp +contextual (maxDischargeDepth := 30) [x, *]; done) | ((try unfold x); (try dsimp only); (repeat' split) <;> simp (maxDischargeDepth := 30) [*]; done))
            clear_value x)
         | clear_value x)
    | (split <;> (try (rename_i e
                       first
                         | have k := keeps_of_snd (r := r0) e (by clear e; simp (maxDischargeDepth := 30) [*]; done)
                         | have k := keeps_of_fst (r := r0) e (by clear e; simp (maxDischargeDepth := 30) [*]; done)
                         | have k := keeps_of_opt (r := r0) e (by clear e; simp (maxDischargeDepth := 30) [*]; done)))))

@[simp] theorem execBlkRel_keeps {r0 : State} (c rs1 rs2 : Nat) {s : State} (hK : Keeps r0 s) :
    KeepsRes r0 (execBlkRel c rs1 rs2 s) := by
  unfold execBlkRel
  repeat' (first
    | (simp (maxDischargeDepth := 30) [*]; done)
    | (simp +contextual (maxDischargeDepth := 30) [*]; done)
    | (refine keeps_foldl _ _ _ (fun s a h => ?_) ?_)
    | (refine keeps_foldl_fst _ _ _ (fun s a h => ?_) ?_)
    | (refine keeps_foldl_snd _ _ _ (fun s a h => ?_) ?_)
    | (extract_lets +onlyGivenNames x
       first
         | (have hx : Keeps r0 x := by (first | (simp (maxDischargeDepth := 30) [x, *]; done) | (simp +contextual (maxDischargeDepth := 30) [x, *]; done) | ((try unfold x); (try dsimp only); (repeat' split) <;> simp (maxDischargeDepth := 30) [*]; done))
            clear_value x)
         | (have hx : Keeps r0 x.2 := by (first | (simp (maxDischargeDepth := 30) [x, *]; done) | (simp +contextual (maxDischargeDepth := 30) [x, *]; done) | ((try unfold x); (try dsimp only); (repeat' split) <;> simp (maxDischargeDepth := 30) [*]; done))
            clear_value x)
         | (have hx : Keeps r0 x.1 := by (first | (simp (maxDischargeDepth := 30) [x, *]; done) | (simp +contextual (maxDischargeDepth := 30) [x, *]; done) | ((try unfold x); (try dsimp only); (repeat' split) <;> simp (maxDischargeDepth := 30) [*]; done))
            clear_value x)
         | clear_value x)
    | (split <;> (try (rename_i e
                       first
                         | have k := keeps_of_snd (r := r0) e (by clear e; simp (maxDischargeDepth := 30) [*]; done)
                         | have k := keeps_of_fst (r := r0) e (by clear e; simp (maxDischargeDepth := 30) [*]; done)
                         | have k := keeps_of_opt (r := r0) e (by clear e; simp (maxDischargeDepth := 30) [*]; done)))))

@[simp] theorem execDrsLaunch_keeps {r0 : State} (c rs1 rs2 : Nat) {s : State} (hK : Keeps r0 s) :
    KeepsRes r0 (execDrsLaunch c rs1 rs2 s) := by
  unfold execDrsLaunch
  repeat' (first
    | (simp (maxDischargeDepth := 30) [*]; done)
    | (simp +contextual (maxDischargeDepth := 30) [*]; done)
    | (refine keeps_foldl _ _ _ (fun s a h => ?_) ?_)
    | (refine keeps_foldl_fst _ _ _ (fun s a h => ?_) ?_)
    | (refine keeps_foldl_snd _ _ _ (fun s a h => ?_) ?_)
    | (extract_lets +onlyGivenNames x
       first
         | (have hx : Keeps r0 x := by (first | (simp (maxDischargeDepth := 30) [x, *]; done) | (simp +contextual (maxDischargeDepth := 30) [x, *]; done) | ((try unfold x); (try dsimp only); (repeat' split) <;> simp (maxDischargeDepth := 30) [*]; done))
            clear_value x)
         | (have hx : Keeps r0 x.2 := by (first | (simp (maxDischargeDepth := 30) [x, *]; done) | (simp +contextual (maxDischargeDepth := 30) [x, *]; done) | ((try unfold x); (try dsimp only); (repeat' split) <;> simp (maxDischargeDepth := 30) [*]; done))
            clear_value x)
         | (have hx : Keeps r0 x.1 := by (first | (simp (maxDischargeDepth := 30) [x, *]; done) | (simp +contextual (maxDischargeDepth := 30) [x, *]; done) | ((try unfold x); (try dsimp only); (repeat' split) <;> simp (maxDischargeDepth := 30) [*]; done))
            clear_value x)
         | clear_value x)
    | (split <;> (try (rename_i e
                       first
                         | have k := keeps_of_snd (r := r0) e (by clear e; simp (maxDischargeDepth := 30) [*]; done)
                         | have k := keeps_of_fst (r := r0) e (by clear e; simp (maxDischargeDepth := 30) [*]; done)
                         | have k := keeps_of_opt (r := r0) e (by clear e; simp (maxDischargeDepth := 30) [*]; done)))))

@[simp] theorem dropTiles_keeps {r0 : State} (c role seq : Nat) {s : State} (hK : Keeps r0 s) :
    Keeps r0 (dropTiles c role seq s) := by simp (maxDischargeDepth := 30) [dropTiles, *]

@[simp] theorem execSqDrop_keeps {r0 : State} (c rd rs1 : Nat) {s : State} (hK : Keeps r0 s) :
    KeepsRes r0 (execSqDrop c rd rs1 s) := by
  unfold execSqDrop
  repeat' (first
    | (simp (maxDischargeDepth := 30) [*]; done)
    | (simp +contextual (maxDischargeDepth := 30) [*]; done)
    | (refine keeps_foldl _ _ _ (fun s a h => ?_) ?_)
    | (refine keeps_foldl_fst _ _ _ (fun s a h => ?_) ?_)
    | (refine keeps_foldl_snd _ _ _ (fun s a h => ?_) ?_)
    | (extract_lets +onlyGivenNames x
       first
         | (have hx : Keeps r0 x := by (first | (simp (maxDischargeDepth := 30) [x, *]; done) | (simp +contextual (maxDischargeDepth := 30) [x, *]; done) | ((try unfold x); (try dsimp only); (repeat' split) <;> simp (maxDischargeDepth := 30) [*]; done))
            clear_value x)
         | (have hx : Keeps r0 x.2 := by (first | (simp (maxDischargeDepth := 30) [x, *]; done) | (simp +contextual (maxDischargeDepth := 30) [x, *]; done) | ((try unfold x); (try dsimp only); (repeat' split) <;> simp (maxDischargeDepth := 30) [*]; done))
            clear_value x)
         | (have hx : Keeps r0 x.1 := by (first | (simp (maxDischargeDepth := 30) [x, *]; done) | (simp +contextual (maxDischargeDepth := 30) [x, *]; done) | ((try unfold x); (try dsimp only); (repeat' split) <;> simp (maxDischargeDepth := 30) [*]; done))
            clear_value x)
         | clear_value x)
    | (split <;> (try (rename_i e
                       first
                         | have k := keeps_of_snd (r := r0) e (by clear e; simp (maxDischargeDepth := 30) [*]; done)
                         | have k := keeps_of_fst (r := r0) e (by clear e; simp (maxDischargeDepth := 30) [*]; done)
                         | have k := keeps_of_opt (r := r0) e (by clear e; simp (maxDischargeDepth := 30) [*]; done)))))

@[simp] theorem execCplGet_keeps {r0 : State} (c rd : Nat) {s : State} (hK : Keeps r0 s) :
    KeepsRes r0 (execCplGet c rd s) := by
  unfold execCplGet
  repeat' (first
    | (simp (maxDischargeDepth := 30) [*]; done)
    | (simp +contextual (maxDischargeDepth := 30) [*]; done)
    | (refine keeps_foldl _ _ _ (fun s a h => ?_) ?_)
    | (refine keeps_foldl_fst _ _ _ (fun s a h => ?_) ?_)
    | (refine keeps_foldl_snd _ _ _ (fun s a h => ?_) ?_)
    | (extract_lets +onlyGivenNames x
       first
         | (have hx : Keeps r0 x := by (first | (simp (maxDischargeDepth := 30) [x, *]; done) | (simp +contextual (maxDischargeDepth := 30) [x, *]; done) | ((try unfold x); (try dsimp only); (repeat' split) <;> simp (maxDischargeDepth := 30) [*]; done))
            clear_value x)
         | (have hx : Keeps r0 x.2 := by (first | (simp (maxDischargeDepth := 30) [x, *]; done) | (simp +contextual (maxDischargeDepth := 30) [x, *]; done) | ((try unfold x); (try dsimp only); (repeat' split) <;> simp (maxDischargeDepth := 30) [*]; done))
            clear_value x)
         | (have hx : Keeps r0 x.1 := by (first | (simp (maxDischargeDepth := 30) [x, *]; done) | (simp +contextual (maxDischargeDepth := 30) [x, *]; done) | ((try unfold x); (try dsimp only); (repeat' split) <;> simp (maxDischargeDepth := 30) [*]; done))
            clear_value x)
         | clear_value x)
    | (split <;> (try (rename_i e
                       first
                         | have k := keeps_of_snd (r := r0) e (by clear e; simp (maxDischargeDepth := 30) [*]; done)
                         | have k := keeps_of_fst (r := r0) e (by clear e; simp (maxDischargeDepth := 30) [*]; done)
                         | have k := keeps_of_opt (r := r0) e (by clear e; simp (maxDischargeDepth := 30) [*]; done)))))

@[simp] theorem execCplWait_keeps {r0 : State} (c rd rs1 : Nat) {s : State} (hK : Keeps r0 s) :
    KeepsRes r0 (execCplWait c rd rs1 s) := by
  unfold execCplWait
  repeat' (first
    | (simp (maxDischargeDepth := 30) [*]; done)
    | (simp +contextual (maxDischargeDepth := 30) [*]; done)
    | (refine keeps_foldl _ _ _ (fun s a h => ?_) ?_)
    | (refine keeps_foldl_fst _ _ _ (fun s a h => ?_) ?_)
    | (refine keeps_foldl_snd _ _ _ (fun s a h => ?_) ?_)
    | (extract_lets +onlyGivenNames x
       first
         | (have hx : Keeps r0 x := by (first | (simp (maxDischargeDepth := 30) [x, *]; done) | (simp +contextual (maxDischargeDepth := 30) [x, *]; done) | ((try unfold x); (try dsimp only); (repeat' split) <;> simp (maxDischargeDepth := 30) [*]; done))
            clear_value x)
         | (have hx : Keeps r0 x.2 := by (first | (simp (maxDischargeDepth := 30) [x, *]; done) | (simp +contextual (maxDischargeDepth := 30) [x, *]; done) | ((try unfold x); (try dsimp only); (repeat' split) <;> simp (maxDischargeDepth := 30) [*]; done))
            clear_value x)
         | (have hx : Keeps r0 x.1 := by (first | (simp (maxDischargeDepth := 30) [x, *]; done) | (simp +contextual (maxDischargeDepth := 30) [x, *]; done) | ((try unfold x); (try dsimp only); (repeat' split) <;> simp (maxDischargeDepth := 30) [*]; done))
            clear_value x)
         | clear_value x)
    | (split <;> (try (rename_i e
                       first
                         | have k := keeps_of_snd (r := r0) e (by clear e; simp (maxDischargeDepth := 30) [*]; done)
                         | have k := keeps_of_fst (r := r0) e (by clear e; simp (maxDischargeDepth := 30) [*]; done)
                         | have k := keeps_of_opt (r := r0) e (by clear e; simp (maxDischargeDepth := 30) [*]; done)))))

@[simp] theorem waitEnds_keeps {r0 : State} (c rd : Nat) (v : Dword) {s : State} (hK : Keeps r0 s) :
    Keeps r0 (waitEnds c rd v s) := by simp (maxDischargeDepth := 30) [waitEnds, *]

@[simp] theorem execCplWaitTimeout_keeps {r0 : State} (c : Nat) {s : State} (hK : Keeps r0 s) :
    KeepsRes r0 (execCplWaitTimeout c s) := by
  unfold execCplWaitTimeout
  (repeat' split) <;> simp (maxDischargeDepth := 30) [*]

@[simp] theorem execXfer_keeps {r0 : State} (c rd rs1 : Nat) {s : State} (hK : Keeps r0 s) :
    KeepsRes r0 (execXfer c rd rs1 s) := by
  unfold execXfer
  repeat' (first
    | (simp (maxDischargeDepth := 30) [*]; done)
    | (simp +contextual (maxDischargeDepth := 30) [*]; done)
    | (refine keeps_foldl _ _ _ (fun s a h => ?_) ?_)
    | (refine keeps_foldl_fst _ _ _ (fun s a h => ?_) ?_)
    | (refine keeps_foldl_snd _ _ _ (fun s a h => ?_) ?_)
    | (extract_lets +onlyGivenNames x
       first
         | (have hx : Keeps r0 x := by (first | (simp (maxDischargeDepth := 30) [x, *]; done) | (simp +contextual (maxDischargeDepth := 30) [x, *]; done) | ((try unfold x); (try dsimp only); (repeat' split) <;> simp (maxDischargeDepth := 30) [*]; done))
            clear_value x)
         | (have hx : Keeps r0 x.2 := by (first | (simp (maxDischargeDepth := 30) [x, *]; done) | (simp +contextual (maxDischargeDepth := 30) [x, *]; done) | ((try unfold x); (try dsimp only); (repeat' split) <;> simp (maxDischargeDepth := 30) [*]; done))
            clear_value x)
         | (have hx : Keeps r0 x.1 := by (first | (simp (maxDischargeDepth := 30) [x, *]; done) | (simp +contextual (maxDischargeDepth := 30) [x, *]; done) | ((try unfold x); (try dsimp only); (repeat' split) <;> simp (maxDischargeDepth := 30) [*]; done))
            clear_value x)
         | clear_value x)
    | (split <;> (try (rename_i e
                       first
                         | have k := keeps_of_snd (r := r0) e (by clear e; simp (maxDischargeDepth := 30) [*]; done)
                         | have k := keeps_of_fst (r := r0) e (by clear e; simp (maxDischargeDepth := 30) [*]; done)
                         | have k := keeps_of_opt (r := r0) e (by clear e; simp (maxDischargeDepth := 30) [*]; done)))))

@[simp] theorem execNotice_keeps {r0 : State} (c rd rs1 rs2 : Nat) {s : State} (hK : Keeps r0 s) :
    KeepsRes r0 (execNotice c rd rs1 rs2 s) := by
  unfold execNotice
  repeat' (first
    | (simp (maxDischargeDepth := 30) [*]; done)
    | (simp +contextual (maxDischargeDepth := 30) [*]; done)
    | (refine keeps_foldl _ _ _ (fun s a h => ?_) ?_)
    | (refine keeps_foldl_fst _ _ _ (fun s a h => ?_) ?_)
    | (refine keeps_foldl_snd _ _ _ (fun s a h => ?_) ?_)
    | (extract_lets +onlyGivenNames x
       first
         | (have hx : Keeps r0 x := by (first | (simp (maxDischargeDepth := 30) [x, *]; done) | (simp +contextual (maxDischargeDepth := 30) [x, *]; done) | ((try unfold x); (try dsimp only); (repeat' split) <;> simp (maxDischargeDepth := 30) [*]; done))
            clear_value x)
         | (have hx : Keeps r0 x.2 := by (first | (simp (maxDischargeDepth := 30) [x, *]; done) | (simp +contextual (maxDischargeDepth := 30) [x, *]; done) | ((try unfold x); (try dsimp only); (repeat' split) <;> simp (maxDischargeDepth := 30) [*]; done))
            clear_value x)
         | (have hx : Keeps r0 x.1 := by (first | (simp (maxDischargeDepth := 30) [x, *]; done) | (simp +contextual (maxDischargeDepth := 30) [x, *]; done) | ((try unfold x); (try dsimp only); (repeat' split) <;> simp (maxDischargeDepth := 30) [*]; done))
            clear_value x)
         | clear_value x)
    | (split <;> (try (rename_i e
                       first
                         | have k := keeps_of_snd (r := r0) e (by clear e; simp (maxDischargeDepth := 30) [*]; done)
                         | have k := keeps_of_fst (r := r0) e (by clear e; simp (maxDischargeDepth := 30) [*]; done)
                         | have k := keeps_of_opt (r := r0) e (by clear e; simp (maxDischargeDepth := 30) [*]; done)))))

@[simp] theorem execHbeat_keeps {r0 : State} (c rs1 : Nat) {s : State} (hK : Keeps r0 s) :
    KeepsRes r0 (execHbeat c rs1 s) := by
  unfold execHbeat
  repeat' (first
    | (simp (maxDischargeDepth := 30) [*]; done)
    | (simp +contextual (maxDischargeDepth := 30) [*]; done)
    | (refine keeps_foldl _ _ _ (fun s a h => ?_) ?_)
    | (refine keeps_foldl_fst _ _ _ (fun s a h => ?_) ?_)
    | (refine keeps_foldl_snd _ _ _ (fun s a h => ?_) ?_)
    | (extract_lets +onlyGivenNames x
       first
         | (have hx : Keeps r0 x := by (first | (simp (maxDischargeDepth := 30) [x, *]; done) | (simp +contextual (maxDischargeDepth := 30) [x, *]; done) | ((try unfold x); (try dsimp only); (repeat' split) <;> simp (maxDischargeDepth := 30) [*]; done))
            clear_value x)
         | (have hx : Keeps r0 x.2 := by (first | (simp (maxDischargeDepth := 30) [x, *]; done) | (simp +contextual (maxDischargeDepth := 30) [x, *]; done) | ((try unfold x); (try dsimp only); (repeat' split) <;> simp (maxDischargeDepth := 30) [*]; done))
            clear_value x)
         | (have hx : Keeps r0 x.1 := by (first | (simp (maxDischargeDepth := 30) [x, *]; done) | (simp +contextual (maxDischargeDepth := 30) [x, *]; done) | ((try unfold x); (try dsimp only); (repeat' split) <;> simp (maxDischargeDepth := 30) [*]; done))
            clear_value x)
         | clear_value x)
    | (split <;> (try (rename_i e
                       first
                         | have k := keeps_of_snd (r := r0) e (by clear e; simp (maxDischargeDepth := 30) [*]; done)
                         | have k := keeps_of_fst (r := r0) e (by clear e; simp (maxDischargeDepth := 30) [*]; done)
                         | have k := keeps_of_opt (r := r0) e (by clear e; simp (maxDischargeDepth := 30) [*]; done)))))

@[simp] theorem execHeartbeatExpired_keeps {r0 : State} (c : Nat) {s : State} (hK : Keeps r0 s) :
    KeepsRes r0 (execHeartbeatExpired c s) := by simp (maxDischargeDepth := 30) [execHeartbeatExpired, *]

@[simp] theorem queueSend_keeps {r0 : State} (c rd : Nat) (addr : Dword) (poison : Bool) {s : State} (hK : Keeps r0 s) :
    Keeps r0 (queueSend c rd addr poison s) := by simp (maxDischargeDepth := 30) [queueSend, *]

@[simp] theorem execArrSend_keeps {r0 : State} (c rd rs1 : Nat) {s : State} (hK : Keeps r0 s) :
    KeepsRes r0 (execArrSend c rd rs1 s) := by
  unfold execArrSend
  repeat' (first
    | (simp (maxDischargeDepth := 30) [*]; done)
    | (simp +contextual (maxDischargeDepth := 30) [*]; done)
    | (refine keeps_foldl _ _ _ (fun s a h => ?_) ?_)
    | (refine keeps_foldl_fst _ _ _ (fun s a h => ?_) ?_)
    | (refine keeps_foldl_snd _ _ _ (fun s a h => ?_) ?_)
    | (extract_lets +onlyGivenNames x
       first
         | (have hx : Keeps r0 x := by (first | (simp (maxDischargeDepth := 30) [x, *]; done) | (simp +contextual (maxDischargeDepth := 30) [x, *]; done) | ((try unfold x); (try dsimp only); (repeat' split) <;> simp (maxDischargeDepth := 30) [*]; done))
            clear_value x)
         | (have hx : Keeps r0 x.2 := by (first | (simp (maxDischargeDepth := 30) [x, *]; done) | (simp +contextual (maxDischargeDepth := 30) [x, *]; done) | ((try unfold x); (try dsimp only); (repeat' split) <;> simp (maxDischargeDepth := 30) [*]; done))
            clear_value x)
         | (have hx : Keeps r0 x.1 := by (first | (simp (maxDischargeDepth := 30) [x, *]; done) | (simp +contextual (maxDischargeDepth := 30) [x, *]; done) | ((try unfold x); (try dsimp only); (repeat' split) <;> simp (maxDischargeDepth := 30) [*]; done))
            clear_value x)
         | clear_value x)
    | (split <;> (try (rename_i e
                       first
                         | have k := keeps_of_snd (r := r0) e (by clear e; simp (maxDischargeDepth := 30) [*]; done)
                         | have k := keeps_of_fst (r := r0) e (by clear e; simp (maxDischargeDepth := 30) [*]; done)
                         | have k := keeps_of_opt (r := r0) e (by clear e; simp (maxDischargeDepth := 30) [*]; done)))))

@[simp] theorem execArrPoison_keeps {r0 : State} (c rd rs1 : Nat) {s : State} (hK : Keeps r0 s) :
    KeepsRes r0 (execArrPoison c rd rs1 s) := by
  unfold execArrPoison
  repeat' (first
    | (simp (maxDischargeDepth := 30) [*]; done)
    | (simp +contextual (maxDischargeDepth := 30) [*]; done)
    | (refine keeps_foldl _ _ _ (fun s a h => ?_) ?_)
    | (refine keeps_foldl_fst _ _ _ (fun s a h => ?_) ?_)
    | (refine keeps_foldl_snd _ _ _ (fun s a h => ?_) ?_)
    | (extract_lets +onlyGivenNames x
       first
         | (have hx : Keeps r0 x := by (first | (simp (maxDischargeDepth := 30) [x, *]; done) | (simp +contextual (maxDischargeDepth := 30) [x, *]; done) | ((try unfold x); (try dsimp only); (repeat' split) <;> simp (maxDischargeDepth := 30) [*]; done))
            clear_value x)
         | (have hx : Keeps r0 x.2 := by (first | (simp (maxDischargeDepth := 30) [x, *]; done) | (simp +contextual (maxDischargeDepth := 30) [x, *]; done) | ((try unfold x); (try dsimp only); (repeat' split) <;> simp (maxDischargeDepth := 30) [*]; done))
            clear_value x)
         | (have hx : Keeps r0 x.1 := by (first | (simp (maxDischargeDepth := 30) [x, *]; done) | (simp +contextual (maxDischargeDepth := 30) [x, *]; done) | ((try unfold x); (try dsimp only); (repeat' split) <;> simp (maxDischargeDepth := 30) [*]; done))
            clear_value x)
         | clear_value x)
    | (split <;> (try (rename_i e
                       first
                         | have k := keeps_of_snd (r := r0) e (by clear e; simp (maxDischargeDepth := 30) [*]; done)
                         | have k := keeps_of_fst (r := r0) e (by clear e; simp (maxDischargeDepth := 30) [*]; done)
                         | have k := keeps_of_opt (r := r0) e (by clear e; simp (maxDischargeDepth := 30) [*]; done)))))

@[simp] theorem execArrRead_keeps {r0 : State} (c rd rs1 : Nat) {s : State} (hK : Keeps r0 s) :
    KeepsRes r0 (execArrRead c rd rs1 s) := by
  unfold execArrRead
  repeat' (first
    | (simp (maxDischargeDepth := 30) [*]; done)
    | (simp +contextual (maxDischargeDepth := 30) [*]; done)
    | (refine keeps_foldl _ _ _ (fun s a h => ?_) ?_)
    | (refine keeps_foldl_fst _ _ _ (fun s a h => ?_) ?_)
    | (refine keeps_foldl_snd _ _ _ (fun s a h => ?_) ?_)
    | (extract_lets +onlyGivenNames x
       first
         | (have hx : Keeps r0 x := by (first | (simp (maxDischargeDepth := 30) [x, *]; done) | (simp +contextual (maxDischargeDepth := 30) [x, *]; done) | ((try unfold x); (try dsimp only); (repeat' split) <;> simp (maxDischargeDepth := 30) [*]; done))
            clear_value x)
         | (have hx : Keeps r0 x.2 := by (first | (simp (maxDischargeDepth := 30) [x, *]; done) | (simp +contextual (maxDischargeDepth := 30) [x, *]; done) | ((try unfold x); (try dsimp only); (repeat' split) <;> simp (maxDischargeDepth := 30) [*]; done))
            clear_value x)
         | (have hx : Keeps r0 x.1 := by (first | (simp (maxDischargeDepth := 30) [x, *]; done) | (simp +contextual (maxDischargeDepth := 30) [x, *]; done) | ((try unfold x); (try dsimp only); (repeat' split) <;> simp (maxDischargeDepth := 30) [*]; done))
            clear_value x)
         | clear_value x)
    | (split <;> (try (rename_i e
                       first
                         | have k := keeps_of_snd (r := r0) e (by clear e; simp (maxDischargeDepth := 30) [*]; done)
                         | have k := keeps_of_fst (r := r0) e (by clear e; simp (maxDischargeDepth := 30) [*]; done)
                         | have k := keeps_of_opt (r := r0) e (by clear e; simp (maxDischargeDepth := 30) [*]; done)))))

@[simp] theorem execArrWait_keeps {r0 : State} (c rd rs1 rs2 : Nat) {s : State} (hK : Keeps r0 s) :
    KeepsRes r0 (execArrWait c rd rs1 rs2 s) := by
  unfold execArrWait
  repeat' (first
    | (simp (maxDischargeDepth := 30) [*]; done)
    | (simp +contextual (maxDischargeDepth := 30) [*]; done)
    | (refine keeps_foldl _ _ _ (fun s a h => ?_) ?_)
    | (refine keeps_foldl_fst _ _ _ (fun s a h => ?_) ?_)
    | (refine keeps_foldl_snd _ _ _ (fun s a h => ?_) ?_)
    | (extract_lets +onlyGivenNames x
       first
         | (have hx : Keeps r0 x := by (first | (simp (maxDischargeDepth := 30) [x, *]; done) | (simp +contextual (maxDischargeDepth := 30) [x, *]; done) | ((try unfold x); (try dsimp only); (repeat' split) <;> simp (maxDischargeDepth := 30) [*]; done))
            clear_value x)
         | (have hx : Keeps r0 x.2 := by (first | (simp (maxDischargeDepth := 30) [x, *]; done) | (simp +contextual (maxDischargeDepth := 30) [x, *]; done) | ((try unfold x); (try dsimp only); (repeat' split) <;> simp (maxDischargeDepth := 30) [*]; done))
            clear_value x)
         | (have hx : Keeps r0 x.1 := by (first | (simp (maxDischargeDepth := 30) [x, *]; done) | (simp +contextual (maxDischargeDepth := 30) [x, *]; done) | ((try unfold x); (try dsimp only); (repeat' split) <;> simp (maxDischargeDepth := 30) [*]; done))
            clear_value x)
         | clear_value x)
    | (split <;> (try (rename_i e
                       first
                         | have k := keeps_of_snd (r := r0) e (by clear e; simp (maxDischargeDepth := 30) [*]; done)
                         | have k := keeps_of_fst (r := r0) e (by clear e; simp (maxDischargeDepth := 30) [*]; done)
                         | have k := keeps_of_opt (r := r0) e (by clear e; simp (maxDischargeDepth := 30) [*]; done)))))

@[simp] theorem execArrWaitTimeout_keeps {r0 : State} (c : Nat) {s : State} (hK : Keeps r0 s) :
    KeepsRes r0 (execArrWaitTimeout c s) := by
  unfold execArrWaitTimeout
  (repeat' split) <;> simp (maxDischargeDepth := 30) [*]

@[simp] theorem counterSet_keeps {r0 : State} (c n : Nat) (v : Word) {s : State} (hK : Keeps r0 s) :
    Keeps r0 (counterSet c n v s) := by simp (maxDischargeDepth := 30) [counterSet, *]

@[simp] theorem execArrClr_keeps {r0 : State} (c rs1 : Nat) {s : State} (hK : Keeps r0 s) :
    KeepsRes r0 (execArrClr c rs1 s) := by
  unfold execArrClr
  repeat' (first
    | (simp (maxDischargeDepth := 30) [*]; done)
    | (simp +contextual (maxDischargeDepth := 30) [*]; done)
    | (refine keeps_foldl _ _ _ (fun s a h => ?_) ?_)
    | (refine keeps_foldl_fst _ _ _ (fun s a h => ?_) ?_)
    | (refine keeps_foldl_snd _ _ _ (fun s a h => ?_) ?_)
    | (extract_lets +onlyGivenNames x
       first
         | (have hx : Keeps r0 x := by (first | (simp (maxDischargeDepth := 30) [x, *]; done) | (simp +contextual (maxDischargeDepth := 30) [x, *]; done) | ((try unfold x); (try dsimp only); (repeat' split) <;> simp (maxDischargeDepth := 30) [*]; done))
            clear_value x)
         | (have hx : Keeps r0 x.2 := by (first | (simp (maxDischargeDepth := 30) [x, *]; done) | (simp +contextual (maxDischargeDepth := 30) [x, *]; done) | ((try unfold x); (try dsimp only); (repeat' split) <;> simp (maxDischargeDepth := 30) [*]; done))
            clear_value x)
         | (have hx : Keeps r0 x.1 := by (first | (simp (maxDischargeDepth := 30) [x, *]; done) | (simp +contextual (maxDischargeDepth := 30) [x, *]; done) | ((try unfold x); (try dsimp only); (repeat' split) <;> simp (maxDischargeDepth := 30) [*]; done))
            clear_value x)
         | clear_value x)
    | (split <;> (try (rename_i e
                       first
                         | have k := keeps_of_snd (r := r0) e (by clear e; simp (maxDischargeDepth := 30) [*]; done)
                         | have k := keeps_of_fst (r := r0) e (by clear e; simp (maxDischargeDepth := 30) [*]; done)
                         | have k := keeps_of_opt (r := r0) e (by clear e; simp (maxDischargeDepth := 30) [*]; done)))))

@[simp] theorem forgetSend_keeps {r0 : State} (c : Nat) (addr : Dword) {s : State} (hK : Keeps r0 s) :
    Keeps r0 (forgetSend c addr s) := by
  unfold forgetSend
  dsimp only
  (repeat' split) <;> simp (maxDischargeDepth := 30) [*]

@[simp] theorem execArrSendTimeout_keeps {r0 : State} (c i : Nat) {s : State} (hK : Keeps r0 s) :
    KeepsRes r0 (execArrSendTimeout c i s) := by
  unfold execArrSendTimeout
  (repeat' split) <;> simp (maxDischargeDepth := 30) [*]

@[simp] theorem execArrivalApply_keeps {r0 : State} (i : Nat) {s : State} (hK : Keeps r0 s) :
    KeepsRes r0 (execArrivalApply i s) := by
  unfold execArrivalApply
  (repeat' split) <;> simp (maxDischargeDepth := 30) [*]

@[simp] theorem execArrCountWrite_keeps {r0 : State} (r : Requester) (c n : Nat) (v : Word) {s : State} (hK : Keeps r0 s) :
    KeepsRes r0 (execArrCountWrite r c n v s) := by simp (maxDischargeDepth := 30) [execArrCountWrite, *]

@[simp] theorem slicePoison_keeps {r0 : State} (c : Nat) (a : Dword) {s : State} (hK : Keeps r0 s) :
    Keeps r0 (slicePoison c a s) := by simp (maxDischargeDepth := 30) [slicePoison, *]

@[simp] theorem execSendTablePoison_keeps {r0 : State} (c : Nat) {s : State} (hK : Keeps r0 s) :
    KeepsRes r0 (execSendTablePoison c s) := by
  unfold execSendTablePoison
  (repeat' split) <;> simp (maxDischargeDepth := 30) [*]

@[simp] theorem execCrewStat_keeps {r0 : State} (c rd : Nat) {s : State} (hK : Keeps r0 s) :
    KeepsRes r0 (execCrewStat c rd s) := by
  unfold execCrewStat
  repeat' (first
    | (simp (maxDischargeDepth := 30) [*]; done)
    | (simp +contextual (maxDischargeDepth := 30) [*]; done)
    | (refine keeps_foldl _ _ _ (fun s a h => ?_) ?_)
    | (refine keeps_foldl_fst _ _ _ (fun s a h => ?_) ?_)
    | (refine keeps_foldl_snd _ _ _ (fun s a h => ?_) ?_)
    | (extract_lets +onlyGivenNames x
       first
         | (have hx : Keeps r0 x := by (first | (simp (maxDischargeDepth := 30) [x, *]; done) | (simp +contextual (maxDischargeDepth := 30) [x, *]; done) | ((try unfold x); (try dsimp only); (repeat' split) <;> simp (maxDischargeDepth := 30) [*]; done))
            clear_value x)
         | (have hx : Keeps r0 x.2 := by (first | (simp (maxDischargeDepth := 30) [x, *]; done) | (simp +contextual (maxDischargeDepth := 30) [x, *]; done) | ((try unfold x); (try dsimp only); (repeat' split) <;> simp (maxDischargeDepth := 30) [*]; done))
            clear_value x)
         | (have hx : Keeps r0 x.1 := by (first | (simp (maxDischargeDepth := 30) [x, *]; done) | (simp +contextual (maxDischargeDepth := 30) [x, *]; done) | ((try unfold x); (try dsimp only); (repeat' split) <;> simp (maxDischargeDepth := 30) [*]; done))
            clear_value x)
         | clear_value x)
    | (split <;> (try (rename_i e
                       first
                         | have k := keeps_of_snd (r := r0) e (by clear e; simp (maxDischargeDepth := 30) [*]; done)
                         | have k := keeps_of_fst (r := r0) e (by clear e; simp (maxDischargeDepth := 30) [*]; done)
                         | have k := keeps_of_opt (r := r0) e (by clear e; simp (maxDischargeDepth := 30) [*]; done)))))

@[simp] theorem tallyLoad_keeps {r0 : State} (c reg size : Nat) (signed : Bool) (addr : Dword) (dpa : Nat) {s : State} (hK : Keeps r0 s) :
    Keeps r0 (tallyLoad c reg size signed addr dpa s) := by
  unfold tallyLoad
  repeat' (first
    | (simp (maxDischargeDepth := 30) [*]; done)
    | (simp +contextual (maxDischargeDepth := 30) [*]; done)
    | (refine keeps_foldl _ _ _ (fun s a h => ?_) ?_)
    | (refine keeps_foldl_fst _ _ _ (fun s a h => ?_) ?_)
    | (refine keeps_foldl_snd _ _ _ (fun s a h => ?_) ?_)
    | (extract_lets +onlyGivenNames x
       first
         | (have hx : Keeps r0 x := by (first | (simp (maxDischargeDepth := 30) [x, *]; done) | (simp +contextual (maxDischargeDepth := 30) [x, *]; done) | ((try unfold x); (try dsimp only); (repeat' split) <;> simp (maxDischargeDepth := 30) [*]; done))
            clear_value x)
         | (have hx : Keeps r0 x.2 := by (first | (simp (maxDischargeDepth := 30) [x, *]; done) | (simp +contextual (maxDischargeDepth := 30) [x, *]; done) | ((try unfold x); (try dsimp only); (repeat' split) <;> simp (maxDischargeDepth := 30) [*]; done))
            clear_value x)
         | (have hx : Keeps r0 x.1 := by (first | (simp (maxDischargeDepth := 30) [x, *]; done) | (simp +contextual (maxDischargeDepth := 30) [x, *]; done) | ((try unfold x); (try dsimp only); (repeat' split) <;> simp (maxDischargeDepth := 30) [*]; done))
            clear_value x)
         | clear_value x)
    | (split <;> (try (rename_i e
                       first
                         | have k := keeps_of_snd (r := r0) e (by clear e; simp (maxDischargeDepth := 30) [*]; done)
                         | have k := keeps_of_fst (r := r0) e (by clear e; simp (maxDischargeDepth := 30) [*]; done)
                         | have k := keeps_of_opt (r := r0) e (by clear e; simp (maxDischargeDepth := 30) [*]; done)))))

@[simp] theorem tallyStore_keeps {r0 : State} (c reg size : Nat) (addr : Dword) (dpa : Nat) {s : State} (hK : Keeps r0 s) :
    Keeps r0 (tallyStore c reg size addr dpa s) := by
  unfold tallyStore
  repeat' (first
    | (simp (maxDischargeDepth := 30) [*]; done)
    | (simp +contextual (maxDischargeDepth := 30) [*]; done)
    | (refine keeps_foldl _ _ _ (fun s a h => ?_) ?_)
    | (refine keeps_foldl_fst _ _ _ (fun s a h => ?_) ?_)
    | (refine keeps_foldl_snd _ _ _ (fun s a h => ?_) ?_)
    | (extract_lets +onlyGivenNames x
       first
         | (have hx : Keeps r0 x := by (first | (simp (maxDischargeDepth := 30) [x, *]; done) | (simp +contextual (maxDischargeDepth := 30) [x, *]; done) | ((try unfold x); (try dsimp only); (repeat' split) <;> simp (maxDischargeDepth := 30) [*]; done))
            clear_value x)
         | (have hx : Keeps r0 x.2 := by (first | (simp (maxDischargeDepth := 30) [x, *]; done) | (simp +contextual (maxDischargeDepth := 30) [x, *]; done) | ((try unfold x); (try dsimp only); (repeat' split) <;> simp (maxDischargeDepth := 30) [*]; done))
            clear_value x)
         | (have hx : Keeps r0 x.1 := by (first | (simp (maxDischargeDepth := 30) [x, *]; done) | (simp +contextual (maxDischargeDepth := 30) [x, *]; done) | ((try unfold x); (try dsimp only); (repeat' split) <;> simp (maxDischargeDepth := 30) [*]; done))
            clear_value x)
         | clear_value x)
    | (split <;> (try (rename_i e
                       first
                         | have k := keeps_of_snd (r := r0) e (by clear e; simp (maxDischargeDepth := 30) [*]; done)
                         | have k := keeps_of_fst (r := r0) e (by clear e; simp (maxDischargeDepth := 30) [*]; done)
                         | have k := keeps_of_opt (r := r0) e (by clear e; simp (maxDischargeDepth := 30) [*]; done)))))

@[simp] theorem tallyOwn_keeps {r0 : State} (c : Nat) (store : Bool) (addr : Dword) (size reg : Nat) (signed : Bool) {s : State} (hK : Keeps r0 s) :
    Keeps r0 (tallyOwn c store addr size reg signed s) := by
  unfold tallyOwn
  repeat' (first
    | (simp (maxDischargeDepth := 30) [*]; done)
    | (simp +contextual (maxDischargeDepth := 30) [*]; done)
    | (refine keeps_foldl _ _ _ (fun s a h => ?_) ?_)
    | (refine keeps_foldl_fst _ _ _ (fun s a h => ?_) ?_)
    | (refine keeps_foldl_snd _ _ _ (fun s a h => ?_) ?_)
    | (extract_lets +onlyGivenNames x
       first
         | (have hx : Keeps r0 x := by (first | (simp (maxDischargeDepth := 30) [x, *]; done) | (simp +contextual (maxDischargeDepth := 30) [x, *]; done) | ((try unfold x); (try dsimp only); (repeat' split) <;> simp (maxDischargeDepth := 30) [*]; done))
            clear_value x)
         | (have hx : Keeps r0 x.2 := by (first | (simp (maxDischargeDepth := 30) [x, *]; done) | (simp +contextual (maxDischargeDepth := 30) [x, *]; done) | ((try unfold x); (try dsimp only); (repeat' split) <;> simp (maxDischargeDepth := 30) [*]; done))
            clear_value x)
         | (have hx : Keeps r0 x.1 := by (first | (simp (maxDischargeDepth := 30) [x, *]; done) | (simp +contextual (maxDischargeDepth := 30) [x, *]; done) | ((try unfold x); (try dsimp only); (repeat' split) <;> simp (maxDischargeDepth := 30) [*]; done))
            clear_value x)
         | clear_value x)
    | (split <;> (try (rename_i e
                       first
                         | have k := keeps_of_snd (r := r0) e (by clear e; simp (maxDischargeDepth := 30) [*]; done)
                         | have k := keeps_of_fst (r := r0) e (by clear e; simp (maxDischargeDepth := 30) [*]; done)
                         | have k := keeps_of_opt (r := r0) e (by clear e; simp (maxDischargeDepth := 30) [*]; done)))))

@[simp] theorem execTallyDpaAccess_keeps {r0 : State} (c : Nat) (store : Bool) (addr : Dword) (size : Nat) (reg : Nat × Bool) {s : State} (hK : Keeps r0 s) :
    KeepsRes r0 (execTallyDpaAccess c store addr size reg s) := by
  unfold execTallyDpaAccess
  repeat' (first
    | (simp (maxDischargeDepth := 30) [*]; done)
    | (simp +contextual (maxDischargeDepth := 30) [*]; done)
    | (refine keeps_foldl _ _ _ (fun s a h => ?_) ?_)
    | (refine keeps_foldl_fst _ _ _ (fun s a h => ?_) ?_)
    | (refine keeps_foldl_snd _ _ _ (fun s a h => ?_) ?_)
    | (extract_lets +onlyGivenNames x
       first
         | (have hx : Keeps r0 x := by (first | (simp (maxDischargeDepth := 30) [x, *]; done) | (simp +contextual (maxDischargeDepth := 30) [x, *]; done) | ((try unfold x); (try dsimp only); (repeat' split) <;> simp (maxDischargeDepth := 30) [*]; done))
            clear_value x)
         | (have hx : Keeps r0 x.2 := by (first | (simp (maxDischargeDepth := 30) [x, *]; done) | (simp +contextual (maxDischargeDepth := 30) [x, *]; done) | ((try unfold x); (try dsimp only); (repeat' split) <;> simp (maxDischargeDepth := 30) [*]; done))
            clear_value x)
         | (have hx : Keeps r0 x.1 := by (first | (simp (maxDischargeDepth := 30) [x, *]; done) | (simp +contextual (maxDischargeDepth := 30) [x, *]; done) | ((try unfold x); (try dsimp only); (repeat' split) <;> simp (maxDischargeDepth := 30) [*]; done))
            clear_value x)
         | clear_value x)
    | (split <;> (try (rename_i e
                       first
                         | have k := keeps_of_snd (r := r0) e (by clear e; simp (maxDischargeDepth := 30) [*]; done)
                         | have k := keeps_of_fst (r := r0) e (by clear e; simp (maxDischargeDepth := 30) [*]; done)
                         | have k := keeps_of_opt (r := r0) e (by clear e; simp (maxDischargeDepth := 30) [*]; done)))))

end Sys2Proof.Machine
end

