-- ==== Sys2Proof/Laws/KeepsProgram.lean ====
section
/-! SUPPORT. What the operations of Machine/Program.lean keep (Laws/Keeps.lean). -/

set_option Elab.async false
set_option linter.unusedTactic false
set_option linter.unreachableTactic false

namespace Sys2Proof.Machine

@[simp] theorem placeFace_keeps {r0 : State} (c role dest : Nat) (bs : List Byte) {s : State} (hK : Keeps r0 s) :
    Keeps r0 (placeFace c role dest bs s) := by
  unfold placeFace
  repeat' (first
    | (simp (maxDischargeDepth := 30) [*]; done)
    | (simp +contextual (maxDischargeDepth := 30) [*]; done)
    | (refine keeps_foldl _ _ _ (fun s a h => ?_) ?_)
    | (refine keeps_foldl_fst _ _ _ (fun s a h => ?_) ?_)
    | (refine keeps_foldl_snd _ _ _ (fun s a h => ?_) ?_)
    | (extract_lets +onlyGivenNames x
       first
         | (have hx : Keeps r0 x := by (first | (simp (maxDischargeDepth := 30) [x, *]; done) | (simp +contextual (maxDischargeDepth := 30) [x, *]; done) | ((try unfold x); (try dsimp only); (repeat' split) <;> simp (maxDischargeDepth := 30) [*]; done))
            clear_value x)
         | (have hx : Keeps r0 x.2 := by (first | (simp (maxDischargeDepth := 30) [x, *]; done) | (simp +contextual (maxDischargeDepth := 30) [x, *]; done) | ((try unfold x); (try dsimp only); (repeat' split) <;> simp (maxDischargeDepth := 30) [*]; done))
            clear_value x)
         | (have hx : Keeps r0 x.1 := by (first | (simp (maxDischargeDepth := 30) [x, *]; done) | (simp +contextual (maxDischargeDepth := 30) [x, *]; done) | ((try unfold x); (try dsimp only); (repeat' split) <;> simp (maxDischargeDepth := 30) [*]; done))
            clear_value x)
         | clear_value x)
    | (split <;> (try (rename_i e
                       first
                         | have k := keeps_of_snd (r := r0) e (by clear e; simp (maxDischargeDepth := 30) [*]; done)
                         | have k := keeps_of_fst (r := r0) e (by clear e; simp (maxDischargeDepth := 30) [*]; done)
                         | have k := keeps_of_opt (r := r0) e (by clear e; simp (maxDischargeDepth := 30) [*]; done)
                         | have k := keeps_of_optFst (r := r0) e (by clear e; simp (maxDischargeDepth := 30) [*]; done)))))

@[simp] theorem placeSect_keeps {r0 : State} (c : Nat) (img : List Byte) (x : Sect) {s : State} (hK : Keeps r0 s) :
    Keeps r0 (placeSect c img x s) := by
  unfold placeSect
  (repeat' split) <;> simp (maxDischargeDepth := 30) [*]

@[simp] theorem placeImage_keeps {r0 : State} (c : Nat) (img : List Byte) {s : State} (hK : Keeps r0 s) :
    Keeps r0 (placeImage c img s) := by
  unfold placeImage
  repeat' (first
    | (simp (maxDischargeDepth := 30) [*]; done)
    | (simp +contextual (maxDischargeDepth := 30) [*]; done)
    | (refine keeps_foldl _ _ _ (fun s a h => ?_) ?_)
    | (refine keeps_foldl_fst _ _ _ (fun s a h => ?_) ?_)
    | (refine keeps_foldl_snd _ _ _ (fun s a h => ?_) ?_)
    | (extract_lets +onlyGivenNames x
       first
         | (have hx : Keeps r0 x := by (first | (simp (maxDischargeDepth := 30) [x, *]; done) | (simp +contextual (maxDischargeDepth := 30) [x, *]; done) | ((try unfold x); (try dsimp only); (repeat' split) <;> simp (maxDischargeDepth := 30) [*]; done))
            clear_value x)
         | (have hx : Keeps r0 x.2 := by (first | (simp (maxDischargeDepth := 30) [x, *]; done) | (simp +contextual (maxDischargeDepth := 30) [x, *]; done) | ((try unfold x); (try dsimp only); (repeat' split) <;> simp (maxDischargeDepth := 30) [*]; done))
            clear_value x)
         | (have hx : Keeps r0 x.1 := by (first | (simp (maxDischargeDepth := 30) [x, *]; done) | (simp +contextual (maxDischargeDepth := 30) [x, *]; done) | ((try unfold x); (try dsimp only); (repeat' split) <;> simp (maxDischargeDepth := 30) [*]; done))
            clear_value x)
         | clear_value x)
    | (split <;> (try (rename_i e
                       first
                         | have k := keeps_of_snd (r := r0) e (by clear e; simp (maxDischargeDepth := 30) [*]; done)
                         | have k := keeps_of_fst (r := r0) e (by clear e; simp (maxDischargeDepth := 30) [*]; done)
                         | have k := keeps_of_opt (r := r0) e (by clear e; simp (maxDischargeDepth := 30) [*]; done)
                         | have k := keeps_of_optFst (r := r0) e (by clear e; simp (maxDischargeDepth := 30) [*]; done)))))

@[simp] theorem refuseImage_keeps {r0 : State} (c : Nat) (st : Status) {s : State} (hK : Keeps r0 s) :
    Keeps r0 (refuseImage c st s) := by simp (maxDischargeDepth := 30) [refuseImage, *]

@[simp] theorem loadImage_keeps {r0 : State} (c : Nat) {s : State} (hK : Keeps r0 s) :
    Keeps r0 (loadImage c s) := by simp (maxDischargeDepth := 30) [loadImage, *]

@[simp] theorem execImageLoaded_keeps {r0 : State} (c : Nat) {s : State} (hK : Keeps r0 s) :
    KeepsRes r0 (execImageLoaded c s) := by
  unfold execImageLoaded
  repeat' (first
    | (simp (maxDischargeDepth := 30) [*]; done)
    | (simp +contextual (maxDischargeDepth := 30) [*]; done)
    | (refine keeps_foldl _ _ _ (fun s a h => ?_) ?_)
    | (refine keeps_foldl_fst _ _ _ (fun s a h => ?_) ?_)
    | (refine keeps_foldl_snd _ _ _ (fun s a h => ?_) ?_)
    | (extract_lets +onlyGivenNames x
       first
         | (have hx : Keeps r0 x := by (first | (simp (maxDischargeDepth := 30) [x, *]; done) | (simp +contextual (maxDischargeDepth := 30) [x, *]; done) | ((try unfold x); (try dsimp only); (repeat' split) <;> simp (maxDischargeDepth := 30) [*]; done))
            clear_value x)
         | (have hx : Keeps r0 x.2 := by (first | (simp (maxDischargeDepth := 30) [x, *]; done) | (simp +contextual (maxDischargeDepth := 30) [x, *]; done) | ((try unfold x); (try dsimp only); (repeat' split) <;> simp (maxDischargeDepth := 30) [*]; done))
            clear_value x)
         | (have hx : Keeps r0 x.1 := by (first | (simp (maxDischargeDepth := 30) [x, *]; done) | (simp +contextual (maxDischargeDepth := 30) [x, *]; done) | ((try unfold x); (try dsimp only); (repeat' split) <;> simp (maxDischargeDepth := 30) [*]; done))
            clear_value x)
         | clear_value x)
    | (split <;> (try (rename_i e
                       first
                         | have k := keeps_of_snd (r := r0) e (by clear e; simp (maxDischargeDepth := 30) [*]; done)
                         | have k := keeps_of_fst (r := r0) e (by clear e; simp (maxDischargeDepth := 30) [*]; done)
                         | have k := keeps_of_opt (r := r0) e (by clear e; simp (maxDischargeDepth := 30) [*]; done)
                         | have k := keeps_of_optFst (r := r0) e (by clear e; simp (maxDischargeDepth := 30) [*]; done)))))

@[simp] theorem loadTally_keeps {r0 : State} (c : Nat) {s : State} (hK : Keeps r0 s) :
    Keeps r0 (loadTally c s) := by simp (maxDischargeDepth := 30) [loadTally, *]

@[simp] theorem execTlyLoad_keeps {r0 : State} (r : Requester) (c : Nat) {s : State} (hK : Keeps r0 s) :
    KeepsRes r0 (execTlyLoad r c s) := by simp (maxDischargeDepth := 30) [execTlyLoad, *]

@[simp] theorem startTally_keeps {r0 : State} (c : Nat) {s : State} (hK : Keeps r0 s) :
    Keeps r0 (startTally c s) := by simp (maxDischargeDepth := 30) [startTally, *]

@[simp] theorem execTlyStart_keeps {r0 : State} (r : Requester) (c : Nat) {s : State} (hK : Keeps r0 s) :
    KeepsRes r0 (execTlyStart r c s) := by simp (maxDischargeDepth := 30) [execTlyStart, *]

@[simp] theorem stopTally_keeps {r0 : State} (c : Nat) {s : State} (hK : Keeps r0 s) :
    Keeps r0 (stopTally c s) := by simp (maxDischargeDepth := 30) [stopTally, *]

@[simp] theorem execTlyStop_keeps {r0 : State} (r : Requester) (c : Nat) {s : State} (hK : Keeps r0 s) :
    KeepsRes r0 (execTlyStop r c s) := by simp (maxDischargeDepth := 30) [execTlyStop, *]

@[simp] theorem execTlyEcall_keeps {r0 : State} (c : Nat) {s : State} (hK : Keeps r0 s) :
    KeepsRes r0 (execTlyEcall c s) := by
  unfold execTlyEcall
  repeat' (first
    | (simp (maxDischargeDepth := 30) [*]; done)
    | (simp +contextual (maxDischargeDepth := 30) [*]; done)
    | (refine keeps_foldl _ _ _ (fun s a h => ?_) ?_)
    | (refine keeps_foldl_fst _ _ _ (fun s a h => ?_) ?_)
    | (refine keeps_foldl_snd _ _ _ (fun s a h => ?_) ?_)
    | (extract_lets +onlyGivenNames x
       first
         | (have hx : Keeps r0 x := by (first | (simp (maxDischargeDepth := 30) [x, *]; done) | (simp +contextual (maxDischargeDepth := 30) [x, *]; done) | ((try unfold x); (try dsimp only); (repeat' split) <;> simp (maxDischargeDepth := 30) [*]; done))
            clear_value x)
         | (have hx : Keeps r0 x.2 := by (first | (simp (maxDischargeDepth := 30) [x, *]; done) | (simp +contextual (maxDischargeDepth := 30) [x, *]; done) | ((try unfold x); (try dsimp only); (repeat' split) <;> simp (maxDischargeDepth := 30) [*]; done))
            clear_value x)
         | (have hx : Keeps r0 x.1 := by (first | (simp (maxDischargeDepth := 30) [x, *]; done) | (simp +contextual (maxDischargeDepth := 30) [x, *]; done) | ((try unfold x); (try dsimp only); (repeat' split) <;> simp (maxDischargeDepth := 30) [*]; done))
            clear_value x)
         | clear_value x)
    | (split <;> (try (rename_i e
                       first
                         | have k := keeps_of_snd (r := r0) e (by clear e; simp (maxDischargeDepth := 30) [*]; done)
                         | have k := keeps_of_fst (r := r0) e (by clear e; simp (maxDischargeDepth := 30) [*]; done)
                         | have k := keeps_of_opt (r := r0) e (by clear e; simp (maxDischargeDepth := 30) [*]; done)
                         | have k := keeps_of_optFst (r := r0) e (by clear e; simp (maxDischargeDepth := 30) [*]; done)))))

@[simp] theorem execTlyTrap_keeps {r0 : State} (c cause : Nat) (tval : Dword) {s : State} (hK : Keeps r0 s) :
    KeepsRes r0 (execTlyTrap c cause tval s) := by
  unfold execTlyTrap
  repeat' (first
    | (simp (maxDischargeDepth := 30) [*]; done)
    | (simp +contextual (maxDischargeDepth := 30) [*]; done)
    | (refine keeps_foldl _ _ _ (fun s a h => ?_) ?_)
    | (refine keeps_foldl_fst _ _ _ (fun s a h => ?_) ?_)
    | (refine keeps_foldl_snd _ _ _ (fun s a h => ?_) ?_)
    | (extract_lets +onlyGivenNames x
       first
         | (have hx : Keeps r0 x := by (first | (simp (maxDischargeDepth := 30) [x, *]; done) | (simp +contextual (maxDischargeDepth := 30) [x, *]; done) | ((try unfold x); (try dsimp only); (repeat' split) <;> simp (maxDischargeDepth := 30) [*]; done))
            clear_value x)
         | (have hx : Keeps r0 x.2 := by (first | (simp (maxDischargeDepth := 30) [x, *]; done) | (simp +contextual (maxDischargeDepth := 30) [x, *]; done) | ((try unfold x); (try dsimp only); (repeat' split) <;> simp (maxDischargeDepth := 30) [*]; done))
            clear_value x)
         | (have hx : Keeps r0 x.1 := by (first | (simp (maxDischargeDepth := 30) [x, *]; done) | (simp +contextual (maxDischargeDepth := 30) [x, *]; done) | ((try unfold x); (try dsimp only); (repeat' split) <;> simp (maxDischargeDepth := 30) [*]; done))
            clear_value x)
         | clear_value x)
    | (split <;> (try (rename_i e
                       first
                         | have k := keeps_of_snd (r := r0) e (by clear e; simp (maxDischargeDepth := 30) [*]; done)
                         | have k := keeps_of_fst (r := r0) e (by clear e; simp (maxDischargeDepth := 30) [*]; done)
                         | have k := keeps_of_opt (r := r0) e (by clear e; simp (maxDischargeDepth := 30) [*]; done)
                         | have k := keeps_of_optFst (r := r0) e (by clear e; simp (maxDischargeDepth := 30) [*]; done)))))

@[simp] theorem deliverAbsorbed_keeps {r0 : State} (c : Nat) {s : State} (hK : Keeps r0 s) :
    Keeps r0 (deliverAbsorbed c s) := by
  unfold deliverAbsorbed
  repeat' (first
    | (simp (maxDischargeDepth := 30) [*]; done)
    | (simp +contextual (maxDischargeDepth := 30) [*]; done)
    | (refine keeps_foldl _ _ _ (fun s a h => ?_) ?_)
    | (refine keeps_foldl_fst _ _ _ (fun s a h => ?_) ?_)
    | (refine keeps_foldl_snd _ _ _ (fun s a h => ?_) ?_)
    | (extract_lets +onlyGivenNames x
       first
         | (have hx : Keeps r0 x := by (first | (simp (maxDischargeDepth := 30) [x, *]; done) | (simp +contextual (maxDischargeDepth := 30) [x, *]; done) | ((try unfold x); (try dsimp only); (repeat' split) <;> simp (maxDischargeDepth := 30) [*]; done))
            clear_value x)
         | (have hx : Keeps r0 x.2 := by (first | (simp (maxDischargeDepth := 30) [x, *]; done) | (simp +contextual (maxDischargeDepth := 30) [x, *]; done) | ((try unfold x); (try dsimp only); (repeat' split) <;> simp (maxDischargeDepth := 30) [*]; done))
            clear_value x)
         | (have hx : Keeps r0 x.1 := by (first | (simp (maxDischargeDepth := 30) [x, *]; done) | (simp +contextual (maxDischargeDepth := 30) [x, *]; done) | ((try unfold x); (try dsimp only); (repeat' split) <;> simp (maxDischargeDepth := 30) [*]; done))
            clear_value x)
         | clear_value x)
    | (split <;> (try (rename_i e
                       first
                         | have k := keeps_of_snd (r := r0) e (by clear e; simp (maxDischargeDepth := 30) [*]; done)
                         | have k := keeps_of_fst (r := r0) e (by clear e; simp (maxDischargeDepth := 30) [*]; done)
                         | have k := keeps_of_opt (r := r0) e (by clear e; simp (maxDischargeDepth := 30) [*]; done)
                         | have k := keeps_of_optFst (r := r0) e (by clear e; simp (maxDischargeDepth := 30) [*]; done)))))

@[simp] theorem logTakeover_keeps {r0 : State} (c dead outcome : Nat) {s : State} (hK : Keeps r0 s) :
    Keeps r0 (logTakeover c dead outcome s) := by simp (maxDischargeDepth := 30) [logTakeover, *]

@[simp] theorem refuseTakeover_keeps {r0 : State} (c dead outcome : Nat) {s : State} (hK : Keeps r0 s) :
    Keeps r0 (refuseTakeover c dead outcome s) := by simp (maxDischargeDepth := 30) [refuseTakeover, *]

@[simp] theorem copyLines_keeps {r0 : State} (c dead b : Nat) (y1 : Nat) {s : State} (hK : Keeps r0 s) :
    Keeps r0 (copyLines c dead b y1 s).1 := by
  induction y1 generalizing s with
  | zero =>
    unfold copyLines
    (repeat' split) <;> simp (maxDischargeDepth := 30) [*]
  | succ n ih =>
    unfold copyLines
    repeat' (first
      | (simp (maxDischargeDepth := 30) [*]; done)
      | (simp +contextual (maxDischargeDepth := 30) [*]; done)
      | (refine keeps_foldl _ _ _ (fun s a h => ?_) ?_)
      | (refine keeps_foldl_fst _ _ _ (fun s a h => ?_) ?_)
      | (refine keeps_foldl_snd _ _ _ (fun s a h => ?_) ?_)
      | (extract_lets +onlyGivenNames x
         first
           | (have hx : Keeps r0 x := by (first | (simp (maxDischargeDepth := 30) [x, *]; done) | (simp +contextual (maxDischargeDepth := 30) [x, *]; done) | ((try unfold x); (try dsimp only); (repeat' split) <;> simp (maxDischargeDepth := 30) [*]; done))
              clear_value x)
           | (have hx : Keeps r0 x.2 := by (first | (simp (maxDischargeDepth := 30) [x, *]; done) | (simp +contextual (maxDischargeDepth := 30) [x, *]; done) | ((try unfold x); (try dsimp only); (repeat' split) <;> simp (maxDischargeDepth := 30) [*]; done))
              clear_value x)
           | (have hx : Keeps r0 x.1 := by (first | (simp (maxDischargeDepth := 30) [x, *]; done) | (simp +contextual (maxDischargeDepth := 30) [x, *]; done) | ((try unfold x); (try dsimp only); (repeat' split) <;> simp (maxDischargeDepth := 30) [*]; done))
              clear_value x)
           | clear_value x)
      | (split <;> (try (rename_i e
                         first
                           | have k := keeps_of_snd (r := r0) e (by clear e; simp (maxDischargeDepth := 30) [*]; done)
                           | have k := keeps_of_fst (r := r0) e (by clear e; simp (maxDischargeDepth := 30) [*]; done)
                           | have k := keeps_of_opt (r := r0) e (by clear e; simp (maxDischargeDepth := 30) [*]; done)
                           | have k := keeps_of_optFst (r := r0) e (by clear e; simp (maxDischargeDepth := 30) [*]; done)))))

@[simp] theorem copyBlock_keeps {r0 : State} (c dead b : Nat) {s : State} (hK : Keeps r0 s) :
    Keeps r0 (copyBlock c dead b s).1 := by
  unfold copyBlock
  (repeat' split) <;> simp (maxDischargeDepth := 30) [*]

@[simp] theorem copyBlocks_keeps {r0 : State} (c dead : Nat) (y1 : List Nat) {s : State} (hK : Keeps r0 s) :
    Keeps r0 (copyBlocks c dead y1 s).1 := by
  induction y1 generalizing s with
  | nil => exact hK
  | cons b l ih =>
    rw [copyBlocks]
    split
    · split
      · rename_i e
        exact keeps_of_fst e (copyBlock_keeps _ _ _ hK)
      · rename_i e
        exact ih (setBlocks_keeps _ _ _ _ (keeps_of_fst e (copyBlock_keeps _ _ _ hK)))
    · exact ih hK

@[simp] theorem pushAgain_keeps {r0 : State} (c dead : Nat) (k : Cut) {s : State} (hK : Keeps r0 s) :
    Keeps r0 (pushAgain c dead k s) := by simp (maxDischargeDepth := 30) [pushAgain, *]

@[simp] theorem takeOver_keeps {r0 : State} (c dead : Nat) {s : State} (hK : Keeps r0 s) :
    Keeps r0 (takeOver c dead s) := by
  unfold takeOver
  extract_lets x cuts
  clear_value x cuts
  split
  · simp (maxDischargeDepth := 30) [*]
  split
  · simp (maxDischargeDepth := 30) [*]
  split
  · simp (maxDischargeDepth := 30) [*]
  split
  · simp (maxDischargeDepth := 30) [*]
  split
  · rename_i e
    have k := keeps_of_fst (r := r0) e (copyBlocks_keeps _ _ _ hK)
    clear e
    simp (maxDischargeDepth := 30) [*]
  · rename_i e
    have k := keeps_of_fst (r := r0) e (copyBlocks_keeps _ _ _ hK)
    clear e
    simp +contextual (maxDischargeDepth := 30) [*]

@[simp] theorem execBuddyTakeover_keeps {r0 : State} (c : Nat) {s : State} (hK : Keeps r0 s) :
    KeepsRes r0 (execBuddyTakeover c s) := by
  unfold execBuddyTakeover
  (repeat' split) <;> simp (maxDischargeDepth := 30) [*]

@[simp] theorem crewMapPut_keeps {r0 : State} (r : Requester) (n : Nat) (v : Word) {s : State} (hK : Keeps r0 s) :
    Keeps r0 (crewMapPut r n v s) := by simp (maxDischargeDepth := 30) [crewMapPut, *]

@[simp] theorem execCrewMapWrite_keeps {r0 : State} (r : Requester) (n : Nat) (v : Word) {s : State} (hK : Keeps r0 s) :
    KeepsRes r0 (execCrewMapWrite r n v s) := by simp (maxDischargeDepth := 30) [execCrewMapWrite, *]

end Sys2Proof.Machine
end

