-- ==== Sys2Proof/Laws/KeepsHewer.lean ====
section
/-! SUPPORT. What the operations of Machine/Hewer.lean keep (Laws/Keeps.lean). -/

set_option Elab.async false
set_option linter.unusedTactic false
set_option linter.unreachableTactic false

namespace Sys2Proof.Machine

@[simp] theorem execBusyWindow_keeps {r0 : State} (c role hclk : Nat) {s : State} (hK : Keeps r0 s) :
    KeepsRes r0 (execBusyWindow c role hclk s) := by simp (maxDischargeDepth := 30) [execBusyWindow, *]

@[simp] theorem refuseHead_keeps {r0 : State} (c h : Nat) (k : Cut) (rest : List Cut) {s : State} (hK : Keeps r0 s) :
    Keeps r0 (refuseHead c h k rest s) := by simp (maxDischargeDepth := 30) [refuseHead, *]

@[simp] theorem execCutHeadCheck_keeps {r0 : State} (c role : Nat) {s : State} (hK : Keeps r0 s) :
    KeepsRes r0 (execCutHeadCheck c role s) := by
  unfold execCutHeadCheck
  dsimp only
  (repeat' split) <;> simp (maxDischargeDepth := 30) [*]

@[simp] theorem issueCut_keeps {r0 : State} (c h : Nat) (k : Cut) (rest : List Cut) {s : State} (hK : Keeps r0 s) :
    Keeps r0 (issueCut c h k rest s) := by
  unfold issueCut
  repeat' (first
    | (simp (maxDischargeDepth := 30) [*]; done)
    | (simp +contextual (maxDischargeDepth := 30) [*]; done)
    | (refine keeps_foldl _ _ _ (fun s a h => ?_) ?_)
    | (refine keeps_foldl_fst _ _ _ (fun s a h => ?_) ?_)
    | (refine keeps_foldl_snd _ _ _ (fun s a h => ?_) ?_)
    | (extract_lets +onlyGivenNames x
       first
         | (have hx : Keeps r0 x := by (first | (simp (maxDischargeDepth := 30) [x, *]; done) | (simp +contextual (maxDischargeDepth := 30) [x, *]; done) | ((try unfold x); (try dsimp only); (repeat' split) <;> simp (maxDischargeDepth := 30) [*]; done))
            clear_value x)
         | (have hx : Keeps r0 x.2 := by (first | (simp (maxDischargeDepth := 30) [x, *]; done) | (simp +contextual (maxDischargeDepth := 30) [x, *]; done) | ((try unfold x); (try dsimp only); (repeat' split) <;> simp (maxDischargeDepth := 30) [*]; done))
            clear_value x)
         | (have hx : Keeps r0 x.1 := by (first | (simp (maxDischargeDepth := 30) [x, *]; done) | (simp +contextual (maxDischargeDepth := 30) [x, *]; done) | ((try unfold x); (try dsimp only); (repeat' split) <;> simp (maxDischargeDepth := 30) [*]; done))
            clear_value x)
         | clear_value x)
    | (split <;> (try (rename_i e
                       first
                         | have k := keeps_of_snd (r := r0) e (by clear e; simp (maxDischargeDepth := 30) [*]; done)
                         | have k := keeps_of_fst (r := r0) e (by clear e; simp (maxDischargeDepth := 30) [*]; done)
                         | have k := keeps_of_opt (r := r0) e (by clear e; simp (maxDischargeDepth := 30) [*]; done)
                         | have k := keeps_of_optFst (r := r0) e (by clear e; simp (maxDischargeDepth := 30) [*]; done)))))

@[simp] theorem execCutIssue_keeps {r0 : State} (c role : Nat) {s : State} (hK : Keeps r0 s) :
    KeepsRes r0 (execCutIssue c role s) := by
  unfold execCutIssue
  dsimp only
  (repeat' split) <;> simp (maxDischargeDepth := 30) [*]

@[simp] theorem stopCut_keeps {r0 : State} (c h i : Nat) (st : Status) {s : State} (hK : Keeps r0 s) :
    Keeps r0 (stopCut c h i st s) := by simp (maxDischargeDepth := 30) [stopCut, *]

@[simp] theorem execCutRetry_keeps {r0 : State} (c role : Nat) {s : State} (hK : Keeps r0 s) :
    KeepsRes r0 (execCutRetry c role s) := by
  unfold execCutRetry
  dsimp only
  (repeat' split) <;> simp (maxDischargeDepth := 30) [*]

@[simp] theorem execFaceStoreUe_keeps {r0 : State} (c role : Nat) {s : State} (hK : Keeps r0 s) :
    KeepsRes r0 (execFaceStoreUe c role s) := by
  unfold execFaceStoreUe
  (repeat' split) <;> simp (maxDischargeDepth := 30) [*]

@[simp] theorem execTblParityError_keeps {r0 : State} (c role array : Nat) {s : State} (hK : Keeps r0 s) :
    KeepsRes r0 (execTblParityError c role array s) := by
  unfold execTblParityError
  dsimp only
  (repeat' split) <;> simp (maxDischargeDepth := 30) [*]

@[simp] theorem passCut_keeps {r0 : State} (c h i : Nat) (k : CutRun) {s : State} (hK : Keeps r0 s) :
    Keeps r0 (passCut c h i k s) := by
  unfold passCut
  repeat' (first
    | (simp (maxDischargeDepth := 30) [*]; done)
    | (simp +contextual (maxDischargeDepth := 30) [*]; done)
    | (refine keeps_foldl _ _ _ (fun s a h => ?_) ?_)
    | (refine keeps_foldl_fst _ _ _ (fun s a h => ?_) ?_)
    | (refine keeps_foldl_snd _ _ _ (fun s a h => ?_) ?_)
    | (extract_lets +onlyGivenNames x
       first
         | (have hx : Keeps r0 x := by (first | (simp (maxDischargeDepth := 30) [x, *]; done) | (simp +contextual (maxDischargeDepth := 30) [x, *]; done) | ((try unfold x); (try dsimp only); (repeat' split) <;> simp (maxDischargeDepth := 30) [*]; done))
            clear_value x)
         | (have hx : Keeps r0 x.2 := by (first | (simp (maxDischargeDepth := 30) [x, *]; done) | (simp +contextual (maxDischargeDepth := 30) [x, *]; done) | ((try unfold x); (try dsimp only); (repeat' split) <;> simp (maxDischargeDepth := 30) [*]; done))
            clear_value x)
         | (have hx : Keeps r0 x.1 := by (first | (simp (maxDischargeDepth := 30) [x, *]; done) | (simp +contextual (maxDischargeDepth := 30) [x, *]; done) | ((try unfold x); (try dsimp only); (repeat' split) <;> simp (maxDischargeDepth := 30) [*]; done))
            clear_value x)
         | clear_value x)
    | (split <;> (try (rename_i e
                       first
                         | have k := keeps_of_snd (r := r0) e (by clear e; simp (maxDischargeDepth := 30) [*]; done)
                         | have k := keeps_of_fst (r := r0) e (by clear e; simp (maxDischargeDepth := 30) [*]; done)
                         | have k := keeps_of_opt (r := r0) e (by clear e; simp (maxDischargeDepth := 30) [*]; done)
                         | have k := keeps_of_optFst (r := r0) e (by clear e; simp (maxDischargeDepth := 30) [*]; done)))))

@[simp] theorem execCutVerdict_keeps {r0 : State} (c role : Nat) {s : State} (hK : Keeps r0 s) :
    KeepsRes r0 (execCutVerdict c role s) := by
  unfold execCutVerdict
  dsimp only
  (repeat' split) <;> simp (maxDischargeDepth := 30) [*]

@[simp] theorem drainResult_keeps {r0 : State} (k : CutRun) {s : State} (hK : Keeps r0 s) :
    Keeps r0 (drainResult k s).1 := by simp (maxDischargeDepth := 30) [drainResult, *]

@[simp] theorem execCutDrainTile_keeps {r0 : State} (c role : Nat) {s : State} (hK : Keeps r0 s) :
    KeepsRes r0 (execCutDrainTile c role s) := by
  unfold execCutDrainTile
  (repeat' split) <;> simp (maxDischargeDepth := 30) [*]

@[simp] theorem writeRows_keeps {r0 : State} (c h : Nat) (k : Cut) (rows : List (List Word)) {s : State} (hK : Keeps r0 s) :
    Keeps r0 (writeRows c h k rows s) := by
  unfold writeRows
  repeat' (first
    | (simp (maxDischargeDepth := 30) [*]; done)
    | (simp +contextual (maxDischargeDepth := 30) [*]; done)
    | (refine keeps_foldl _ _ _ (fun s a h => ?_) ?_)
    | (refine keeps_foldl_fst _ _ _ (fun s a h => ?_) ?_)
    | (refine keeps_foldl_snd _ _ _ (fun s a h => ?_) ?_)
    | (extract_lets +onlyGivenNames x
       first
         | (have hx : Keeps r0 x := by (first | (simp (maxDischargeDepth := 30) [x, *]; done) | (simp +contextual (maxDischargeDepth := 30) [x, *]; done) | ((try unfold x); (try dsimp only); (repeat' split) <;> simp (maxDischargeDepth := 30) [*]; done))
            clear_value x)
         | (have hx : Keeps r0 x.2 := by (first | (simp (maxDischargeDepth := 30) [x, *]; done) | (simp +contextual (maxDischargeDepth := 30) [x, *]; done) | ((try unfold x); (try dsimp only); (repeat' split) <;> simp (maxDischargeDepth := 30) [*]; done))
            clear_value x)
         | (have hx : Keeps r0 x.1 := by (first | (simp (maxDischargeDepth := 30) [x, *]; done) | (simp +contextual (maxDischargeDepth := 30) [x, *]; done) | ((try unfold x); (try dsimp only); (repeat' split) <;> simp (maxDischargeDepth := 30) [*]; done))
            clear_value x)
         | clear_value x)
    | (split <;> (try (rename_i e
                       first
                         | have k := keeps_of_snd (r := r0) e (by clear e; simp (maxDischargeDepth := 30) [*]; done)
                         | have k := keeps_of_fst (r := r0) e (by clear e; simp (maxDischargeDepth := 30) [*]; done)
                         | have k := keeps_of_opt (r := r0) e (by clear e; simp (maxDischargeDepth := 30) [*]; done)
                         | have k := keeps_of_optFst (r := r0) e (by clear e; simp (maxDischargeDepth := 30) [*]; done)))))

@[simp] theorem completeCut_keeps {r0 : State} (c h i : Nat) (k : CutRun) {s : State} (hK : Keeps r0 s) :
    Keeps r0 (completeCut c h i k s) := by simp (maxDischargeDepth := 30) [completeCut, *]

@[simp] theorem execCutComplete_keeps {r0 : State} (c role : Nat) {s : State} (hK : Keeps r0 s) :
    KeepsRes r0 (execCutComplete c role s) := by
  unfold execCutComplete
  (repeat' split) <;> simp (maxDischargeDepth := 30) [*]

@[simp] theorem nextLoad_keeps {r0 : State} (c h a : Nat) {s : State} (hK : Keeps r0 s) :
    Keeps r0 (nextLoad c h a s) := by
  unfold nextLoad
  dsimp only
  (repeat' split) <;> simp (maxDischargeDepth := 30) [*]

@[simp] theorem endLoad_keeps {r0 : State} (c h : Nat) (q : TblReq) (st : Status) (bs : List Byte) {s : State} (hK : Keeps r0 s) :
    Keeps r0 (endLoad c h q st bs s) := by simp (maxDischargeDepth := 30) [endLoad, *]

@[simp] theorem execTblLoadDone_keeps {r0 : State} (c role array : Nat) {s : State} (hK : Keeps r0 s) :
    KeepsRes r0 (execTblLoadDone c role array s) := by
  unfold execTblLoadDone
  repeat' (first
    | (simp (maxDischargeDepth := 30) [*]; done)
    | (simp +contextual (maxDischargeDepth := 30) [*]; done)
    | (refine keeps_foldl _ _ _ (fun s a h => ?_) ?_)
    | (refine keeps_foldl_fst _ _ _ (fun s a h => ?_) ?_)
    | (refine keeps_foldl_snd _ _ _ (fun s a h => ?_) ?_)
    | (extract_lets +onlyGivenNames x
       first
         | (have hx : Keeps r0 x := by (first | (simp (maxDischargeDepth := 30) [x, *]; done) | (simp +contextual (maxDischargeDepth := 30) [x, *]; done) | ((try unfold x); (try dsimp only); (repeat' split) <;> simp (maxDischargeDepth := 30) [*]; done))
            clear_value x)
         | (have hx : Keeps r0 x.2 := by (first | (simp (maxDischargeDepth := 30) [x, *]; done) | (simp +contextual (maxDischargeDepth := 30) [x, *]; done) | ((try unfold x); (try dsimp only); (repeat' split) <;> simp (maxDischargeDepth := 30) [*]; done))
            clear_value x)
         | (have hx : Keeps r0 x.1 := by (first | (simp (maxDischargeDepth := 30) [x, *]; done) | (simp +contextual (maxDischargeDepth := 30) [x, *]; done) | ((try unfold x); (try dsimp only); (repeat' split) <;> simp (maxDischargeDepth := 30) [*]; done))
            clear_value x)
         | clear_value x)
    | (split <;> (try (rename_i e
                       first
                         | have k := keeps_of_snd (r := r0) e (by clear e; simp (maxDischargeDepth := 30) [*]; done)
                         | have k := keeps_of_fst (r := r0) e (by clear e; simp (maxDischargeDepth := 30) [*]; done)
                         | have k := keeps_of_opt (r := r0) e (by clear e; simp (maxDischargeDepth := 30) [*]; done)
                         | have k := keeps_of_optFst (r := r0) e (by clear e; simp (maxDischargeDepth := 30) [*]; done)))))

end Sys2Proof.Machine
end

