-- ==== Sys2Proof/Laws/KeepsTransfer.lean ====
section
/-! SUPPORT. What the operations of Machine/Transfer.lean keep (Laws/Keeps.lean). -/

set_option Elab.async false
set_option linter.unusedTactic false
set_option linter.unreachableTactic false

namespace Sys2Proof.Machine

@[simp] theorem fillNext_keeps {r0 : State} (c : Nat) (x : Xfer) {s : State} (hK : Keeps r0 s) :
    Keeps r0 (fillNext c x s) := by
  unfold fillNext
  (repeat' split) <;> simp (maxDischargeDepth := 30) [*]

@[simp] theorem localAcc_keeps {r0 : State} (r : State × Option (List Byte)) (hPr : Keeps r0 r.1) :
    Keeps r0 (localAcc r).1 := by simp (maxDischargeDepth := 30) [localAcc, *]

@[simp] theorem spaceGet_keeps {r0 : State} (c sp a : Nat) (first : Bool) {s : State} (hK : Keeps r0 s) :
    Keeps r0 (spaceGet c sp a first s).1 := by
  unfold spaceGet
  (repeat' split) <;> simp (maxDischargeDepth := 30) [*]

@[simp] theorem spacePut_keeps {r0 : State} (c sp a : Nat) (bs : List Byte) (first : Bool) {s : State} (hK : Keeps r0 s) :
    Keeps r0 (spacePut c sp a bs first s).1 := by
  unfold spacePut
  (repeat' split) <;> simp (maxDischargeDepth := 30) [*]

@[simp] theorem transitTake_keeps {r0 : State} (src dst : Option LineId) (errs : List (Nat × Byte)) (bs : List Byte) {s : State} (hK : Keeps r0 s) :
    Keeps r0 (transitTake src dst errs bs s).1 := by
  unfold transitTake
  dsimp only
  (repeat' split) <;> simp (maxDischargeDepth := 30) [*]

@[simp] theorem moveLine_keeps {r0 : State} (c : Nat) (x : Xfer) (errs : List (Nat × Byte)) (off : Nat) {s : State} (hK : Keeps r0 s) :
    Keeps r0 (moveLine c x errs off s).1 := by
  unfold moveLine
  repeat' (first
    | (simp (maxDischargeDepth := 30) [*]; done)
    | (simp +contextual (maxDischargeDepth := 30) [*]; done)
    | (refine keeps_foldl _ _ _ (fun s a h => ?_) ?_)
    | (refine keeps_foldl_fst _ _ _ (fun s a h => ?_) ?_)
    | (refine keeps_foldl_snd _ _ _ (fun s a h => ?_) ?_)
    | (extract_lets +onlyGivenNames x
       first
         | (have hx : Keeps r0 x := by (first | (simp (maxDischargeDepth := 30) [x, *]; done) | (simp +contextual (maxDischargeDepth := 30) [x, *]; done) | ((try unfold x); (try dsimp only); (repeat' split) <;> simp (maxDischargeDepth := 30) [*]; done))
            clear_value x)
         | (have hx : Keeps r0 x.2 := by (first | (simp (maxDischargeDepth := 30) [x, *]; done) | (simp +contextual (maxDischargeDepth := 30) [x, *]; done) | ((try unfold x); (try dsimp only); (repeat' split) <;> simp (maxDischargeDepth := 30) [*]; done))
            clear_value x)
         | (have hx : Keeps r0 x.1 := by (first | (simp (maxDischargeDepth := 30) [x, *]; done) | (simp +contextual (maxDischargeDepth := 30) [x, *]; done) | ((try unfold x); (try dsimp only); (repeat' split) <;> simp (maxDischargeDepth := 30) [*]; done))
            clear_value x)
         | clear_value x)
    | (split <;> (try (rename_i e
                       first
                         | have k := keeps_of_snd (r := r0) e (by clear e; simp (maxDischargeDepth := 30) [*]; done)
                         | have k := keeps_of_fst (r := r0) e (by clear e; simp (maxDischargeDepth := 30) [*]; done)
                         | have k := keeps_of_opt (r := r0) e (by clear e; simp (maxDischargeDepth := 30) [*]; done)
                         | have k := keeps_of_optFst (r := r0) e (by clear e; simp (maxDischargeDepth := 30) [*]; done)))))

@[simp] theorem moveLines_keeps {r0 : State} (c : Nat) (tr : List (Nat × List (Nat × Byte))) (y1 : Nat) (y2 : Nat) (y3 : Nat) (y4 : Xfer) {s : State} (hK : Keeps r0 s) :
    Keeps r0 (moveLines c tr y1 y2 y3 y4 s).1 := by
  induction y1 generalizing y2 y3 y4 s with
  | zero => simp (maxDischargeDepth := 30) [moveLines, *]
  | succ n ih => simp (maxDischargeDepth := 30) [moveLines, *]

@[simp] theorem gatherLines_keeps {r0 : State} (c : Nat) (x : Xfer) (y1 : Nat) (y2 : Nat) {s : State} (hK : Keeps r0 s) :
    Keeps r0 (gatherLines c x y1 y2 s).1 := by
  induction y1 generalizing y2 s with
  | zero =>
    unfold gatherLines
    (repeat' split) <;> simp (maxDischargeDepth := 30) [*]
  | succ n ih =>
    unfold gatherLines
    repeat' (first
      | (simp (maxDischargeDepth := 30) [*]; done)
      | (simp +contextual (maxDischargeDepth := 30) [*]; done)
      | (refine keeps_foldl _ _ _ (fun s a h => ?_) ?_)
      | (refine keeps_foldl_fst _ _ _ (fun s a h => ?_) ?_)
      | (refine keeps_foldl_snd _ _ _ (fun s a h => ?_) ?_)
      | (extract_lets +onlyGivenNames x
         first
           | (have hx : Keeps r0 x := by (first | (simp (maxDischargeDepth := 30) [x, *]; done) | (simp +contextual (maxDischargeDepth := 30) [x, *]; done) | ((try unfold x); (try dsimp only); (repeat' split) <;> simp (maxDischargeDepth := 30) [*]; done))
              clear_value x)
           | (have hx : Keeps r0 x.2 := by (first | (simp (maxDischargeDepth := 30) [x, *]; done) | (simp +contextual (maxDischargeDepth := 30) [x, *]; done) | ((try unfold x); (try dsimp only); (repeat' split) <;> simp (maxDischargeDepth := 30) [*]; done))
              clear_value x)
           | (have hx : Keeps r0 x.1 := by (first | (simp (maxDischargeDepth := 30) [x, *]; done) | (simp +contextual (maxDischargeDepth := 30) [x, *]; done) | ((try unfold x); (try dsimp only); (repeat' split) <;> simp (maxDischargeDepth := 30) [*]; done))
              clear_value x)
           | clear_value x)
      | (split <;> (try (rename_i e
                         first
                           | have k := keeps_of_snd (r := r0) e (by clear e; simp (maxDischargeDepth := 30) [*]; done)
                           | have k := keeps_of_fst (r := r0) e (by clear e; simp (maxDischargeDepth := 30) [*]; done)
                           | have k := keeps_of_opt (r := r0) e (by clear e; simp (maxDischargeDepth := 30) [*]; done)
                           | have k := keeps_of_optFst (r := r0) e (by clear e; simp (maxDischargeDepth := 30) [*]; done)))))

@[simp] theorem sendPieces_keeps {r0 : State} (c : Nat) (y1 : List (Nat × Nat)) (y2 : Xfer) {s : State} (hK : Keeps r0 s) :
    Keeps r0 (sendPieces c y1 y2 s).1 := by
  induction y1 generalizing y2 s with
  | nil =>
    unfold sendPieces
    (repeat' split) <;> simp (maxDischargeDepth := 30) [*]
  | cons a l ih =>
    unfold sendPieces
    repeat' (first
      | (simp (maxDischargeDepth := 30) [*]; done)
      | (simp +contextual (maxDischargeDepth := 30) [*]; done)
      | (refine keeps_foldl _ _ _ (fun s a h => ?_) ?_)
      | (refine keeps_foldl_fst _ _ _ (fun s a h => ?_) ?_)
      | (refine keeps_foldl_snd _ _ _ (fun s a h => ?_) ?_)
      | (extract_lets +onlyGivenNames x
         first
           | (have hx : Keeps r0 x := by (first | (simp (maxDischargeDepth := 30) [x, *]; done) | (simp +contextual (maxDischargeDepth := 30) [x, *]; done) | ((try unfold x); (try dsimp only); (repeat' split) <;> simp (maxDischargeDepth := 30) [*]; done))
              clear_value x)
           | (have hx : Keeps r0 x.2 := by (first | (simp (maxDischargeDepth := 30) [x, *]; done) | (simp +contextual (maxDischargeDepth := 30) [x, *]; done) | ((try unfold x); (try dsimp only); (repeat' split) <;> simp (maxDischargeDepth := 30) [*]; done))
              clear_value x)
           | (have hx : Keeps r0 x.1 := by (first | (simp (maxDischargeDepth := 30) [x, *]; done) | (simp +contextual (maxDischargeDepth := 30) [x, *]; done) | ((try unfold x); (try dsimp only); (repeat' split) <;> simp (maxDischargeDepth := 30) [*]; done))
              clear_value x)
           | clear_value x)
      | (split <;> (try (rename_i e
                         first
                           | have k := keeps_of_snd (r := r0) e (by clear e; simp (maxDischargeDepth := 30) [*]; done)
                           | have k := keeps_of_fst (r := r0) e (by clear e; simp (maxDischargeDepth := 30) [*]; done)
                           | have k := keeps_of_opt (r := r0) e (by clear e; simp (maxDischargeDepth := 30) [*]; done)
                           | have k := keeps_of_optFst (r := r0) e (by clear e; simp (maxDischargeDepth := 30) [*]; done)))))

@[simp] theorem shaftAsk_keeps {r0 : State} (c : Nat) (y1 : Nat) (y2 : Xfer) {s : State} (hK : Keeps r0 s) :
    Keeps r0 (shaftAsk c y1 y2 s).1 := by
  induction y1 generalizing y2 s with
  | zero =>
    unfold shaftAsk
    (repeat' split) <;> simp (maxDischargeDepth := 30) [*]
  | succ n ih =>
    unfold shaftAsk
    repeat' (first
      | (simp (maxDischargeDepth := 30) [*]; done)
      | (simp +contextual (maxDischargeDepth := 30) [*]; done)
      | (refine keeps_foldl _ _ _ (fun s a h => ?_) ?_)
      | (refine keeps_foldl_fst _ _ _ (fun s a h => ?_) ?_)
      | (refine keeps_foldl_snd _ _ _ (fun s a h => ?_) ?_)
      | (extract_lets +onlyGivenNames x
         first
           | (have hx : Keeps r0 x := by (first | (simp (maxDischargeDepth := 30) [x, *]; done) | (simp +contextual (maxDischargeDepth := 30) [x, *]; done) | ((try unfold x); (try dsimp only); (repeat' split) <;> simp (maxDischargeDepth := 30) [*]; done))
              clear_value x)
           | (have hx : Keeps r0 x.2 := by (first | (simp (maxDischargeDepth := 30) [x, *]; done) | (simp +contextual (maxDischargeDepth := 30) [x, *]; done) | ((try unfold x); (try dsimp only); (repeat' split) <;> simp (maxDischargeDepth := 30) [*]; done))
              clear_value x)
           | (have hx : Keeps r0 x.1 := by (first | (simp (maxDischargeDepth := 30) [x, *]; done) | (simp +contextual (maxDischargeDepth := 30) [x, *]; done) | ((try unfold x); (try dsimp only); (repeat' split) <;> simp (maxDischargeDepth := 30) [*]; done))
              clear_value x)
           | clear_value x)
      | (split <;> (try (rename_i e
                         first
                           | have k := keeps_of_snd (r := r0) e (by clear e; simp (maxDischargeDepth := 30) [*]; done)
                           | have k := keeps_of_fst (r := r0) e (by clear e; simp (maxDischargeDepth := 30) [*]; done)
                           | have k := keeps_of_opt (r := r0) e (by clear e; simp (maxDischargeDepth := 30) [*]; done)
                           | have k := keeps_of_optFst (r := r0) e (by clear e; simp (maxDischargeDepth := 30) [*]; done)))))

@[simp] theorem setXfer_keeps {r0 : State} (c i : Nat) (x : Xfer) {s : State} (hK : Keeps r0 s) :
    Keeps r0 (setXfer c i x s) := by simp (maxDischargeDepth := 30) [setXfer, *]

@[simp] theorem xferTurn_keeps {r0 : State} (c : Nat) (x : Xfer) (off n : Nat) {s : State} (hK : Keeps r0 s) :
    Keeps r0 (xferTurn c x off n s) := by
  unfold xferTurn
  repeat' (first
    | (simp (maxDischargeDepth := 30) [*]; done)
    | (simp +contextual (maxDischargeDepth := 30) [*]; done)
    | (refine keeps_foldl _ _ _ (fun s a h => ?_) ?_)
    | (refine keeps_foldl_fst _ _ _ (fun s a h => ?_) ?_)
    | (refine keeps_foldl_snd _ _ _ (fun s a h => ?_) ?_)
    | (extract_lets +onlyGivenNames x
       first
         | (have hx : Keeps r0 x := by (first | (simp (maxDischargeDepth := 30) [x, *]; done) | (simp +contextual (maxDischargeDepth := 30) [x, *]; done) | ((try unfold x); (try dsimp only); (repeat' split) <;> simp (maxDischargeDepth := 30) [*]; done))
            clear_value x)
         | (have hx : Keeps r0 x.2 := by (first | (simp (maxDischargeDepth := 30) [x, *]; done) | (simp +contextual (maxDischargeDepth := 30) [x, *]; done) | ((try unfold x); (try dsimp only); (repeat' split) <;> simp (maxDischargeDepth := 30) [*]; done))
            clear_value x)
         | (have hx : Keeps r0 x.1 := by (first | (simp (maxDischargeDepth := 30) [x, *]; done) | (simp +contextual (maxDischargeDepth := 30) [x, *]; done) | ((try unfold x); (try dsimp only); (repeat' split) <;> simp (maxDischargeDepth := 30) [*]; done))
            clear_value x)
         | clear_value x)
    | (split <;> (try (rename_i e
                       first
                         | have k := keeps_of_snd (r := r0) e (by clear e; simp (maxDischargeDepth := 30) [*]; done)
                         | have k := keeps_of_fst (r := r0) e (by clear e; simp (maxDischargeDepth := 30) [*]; done)
                         | have k := keeps_of_opt (r := r0) e (by clear e; simp (maxDischargeDepth := 30) [*]; done)
                         | have k := keeps_of_optFst (r := r0) e (by clear e; simp (maxDischargeDepth := 30) [*]; done)))))

@[simp] theorem launchXfer_keeps {r0 : State} (c : Nat) (x : Xfer) {s : State} (hK : Keeps r0 s) :
    Keeps r0 (launchXfer c x s) := by simp (maxDischargeDepth := 30) [launchXfer, *]

@[simp] theorem execXferStart_keeps {r0 : State} (c : Nat) {s : State} (hK : Keeps r0 s) :
    KeepsRes r0 (execXferStart c s) := by
  unfold execXferStart
  (repeat' split) <;> simp (maxDischargeDepth := 30) [*]

@[simp] theorem execXferBlockDone_keeps {r0 : State} (c : Nat) (ix : Nat × List (Nat × List (Nat × Byte))) {s : State} (hK : Keeps r0 s) :
    KeepsRes r0 (execXferBlockDone c ix s) := by
  unfold execXferBlockDone
  repeat' (first
    | (simp (maxDischargeDepth := 30) [*]; done)
    | (simp +contextual (maxDischargeDepth := 30) [*]; done)
    | (refine keeps_foldl _ _ _ (fun s a h => ?_) ?_)
    | (refine keeps_foldl_fst _ _ _ (fun s a h => ?_) ?_)
    | (refine keeps_foldl_snd _ _ _ (fun s a h => ?_) ?_)
    | (extract_lets +onlyGivenNames x
       first
         | (have hx : Keeps r0 x := by (first | (simp (maxDischargeDepth := 30) [x, *]; done) | (simp +contextual (maxDischargeDepth := 30) [x, *]; done) | ((try unfold x); (try dsimp only); (repeat' split) <;> simp (maxDischargeDepth := 30) [*]; done))
            clear_value x)
         | (have hx : Keeps r0 x.2 := by (first | (simp (maxDischargeDepth := 30) [x, *]; done) | (simp +contextual (maxDischargeDepth := 30) [x, *]; done) | ((try unfold x); (try dsimp only); (repeat' split) <;> simp (maxDischargeDepth := 30) [*]; done))
            clear_value x)
         | (have hx : Keeps r0 x.1 := by (first | (simp (maxDischargeDepth := 30) [x, *]; done) | (simp +contextual (maxDischargeDepth := 30) [x, *]; done) | ((try unfold x); (try dsimp only); (repeat' split) <;> simp (maxDischargeDepth := 30) [*]; done))
            clear_value x)
         | clear_value x)
    | (split <;> (try (rename_i e
                       first
                         | have k := keeps_of_snd (r := r0) e (by clear e; simp (maxDischargeDepth := 30) [*]; done)
                         | have k := keeps_of_fst (r := r0) e (by clear e; simp (maxDischargeDepth := 30) [*]; done)
                         | have k := keeps_of_opt (r := r0) e (by clear e; simp (maxDischargeDepth := 30) [*]; done)
                         | have k := keeps_of_optFst (r := r0) e (by clear e; simp (maxDischargeDepth := 30) [*]; done)))))

@[simp] theorem endXfer_keeps {r0 : State} (c i : Nat) (x : Xfer) {s : State} (hK : Keeps r0 s) :
    Keeps r0 (endXfer c i x s) := by
  unfold endXfer
  repeat' (first
    | (simp (maxDischargeDepth := 30) [*]; done)
    | (simp +contextual (maxDischargeDepth := 30) [*]; done)
    | (refine keeps_foldl _ _ _ (fun s a h => ?_) ?_)
    | (refine keeps_foldl_fst _ _ _ (fun s a h => ?_) ?_)
    | (refine keeps_foldl_snd _ _ _ (fun s a h => ?_) ?_)
    | (extract_lets +onlyGivenNames x
       first
         | (have hx : Keeps r0 x := by (first | (simp (maxDischargeDepth := 30) [x, *]; done) | (simp +contextual (maxDischargeDepth := 30) [x, *]; done) | ((try unfold x); (try dsimp only); (repeat' split) <;> simp (maxDischargeDepth := 30) [*]; done))
            clear_value x)
         | (have hx : Keeps r0 x.2 := by (first | (simp (maxDischargeDepth := 30) [x, *]; done) | (simp +contextual (maxDischargeDepth := 30) [x, *]; done) | ((try unfold x); (try dsimp only); (repeat' split) <;> simp (maxDischargeDepth := 30) [*]; done))
            clear_value x)
         | (have hx : Keeps r0 x.1 := by (first | (simp (maxDischargeDepth := 30) [x, *]; done) | (simp +contextual (maxDischargeDepth := 30) [x, *]; done) | ((try unfold x); (try dsimp only); (repeat' split) <;> simp (maxDischargeDepth := 30) [*]; done))
            clear_value x)
         | clear_value x)
    | (split <;> (try (rename_i e
                       first
                         | have k := keeps_of_snd (r := r0) e (by clear e; simp (maxDischargeDepth := 30) [*]; done)
                         | have k := keeps_of_fst (r := r0) e (by clear e; simp (maxDischargeDepth := 30) [*]; done)
                         | have k := keeps_of_opt (r := r0) e (by clear e; simp (maxDischargeDepth := 30) [*]; done)
                         | have k := keeps_of_optFst (r := r0) e (by clear e; simp (maxDischargeDepth := 30) [*]; done)))))

@[simp] theorem execXferComplete_keeps {r0 : State} (c : Nat) (ix : Nat × List (Nat × List (Nat × Byte))) {s : State} (hK : Keeps r0 s) :
    KeepsRes r0 (execXferComplete c ix s) := by
  unfold execXferComplete
  (repeat' split) <;> simp (maxDischargeDepth := 30) [*]

end Sys2Proof.Machine
end

