-- ==== Sys2Proof/Laws/KeepsDresserOps.lean ====
section
/-! SUPPORT. What the operations of Machine/DresserOps.lean keep (Laws/Keeps.lean). -/

set_option Elab.async false
set_option linter.unusedTactic false
set_option linter.unreachableTactic false

namespace Sys2Proof.Machine

@[simp] theorem endRoutine_keeps {r0 : State} (c : Nat) (st : Status) {s : State} (hK : Keeps r0 s) :
    Keeps r0 (endRoutine c st s) := by
  unfold endRoutine
  dsimp only
  (repeat' split) <;> simp (maxDischargeDepth := 30) [*]

@[simp] theorem drsNext_keeps {r0 : State} (c : Nat) {s : State} (hK : Keeps r0 s) :
    Keeps r0 (drsNext c s) := by simp (maxDischargeDepth := 30) [drsNext, *]

@[simp] theorem drsStep_keeps {r0 : State} (c op : Nat) (w : InstrWord) (f : Routine → State → State) {s : State} (hFf : ∀ a0 a1, Keeps r0 a1 → Keeps r0 (f a0 a1)) (hK : Keeps r0 s) :
    KeepsRes r0 (drsStep c op w f s) := by
  unfold drsStep
  dsimp only
  (repeat' split) <;> simp (maxDischargeDepth := 30) [*]

@[simp] theorem freeRows_keeps {r0 : State} (n : Nat) {s : State} (hK : Keeps r0 s) :
    Keeps r0 (freeRows n s).1 := by simp (maxDischargeDepth := 30) [freeRows, *]

@[simp] theorem drsFault_keeps {r0 : State} (c op : Nat) {s : State} (hK : Keeps r0 s) :
    Keeps r0 (drsFault c op s) := by simp (maxDischargeDepth := 30) [drsFault, *]

@[simp] theorem drsWrite_keeps {r0 : State} (c : Nat) (w : InstrWord) (rs : List RowRes) {s : State} (hK : Keeps r0 s) :
    Keeps r0 (drsWrite c w rs s) := by simp (maxDischargeDepth := 30) [drsWrite, *]

@[simp] theorem drsChecked_keeps {r0 : State} (c : Nat) (w : InstrWord) (mm : Nat) (rs : List RowRes) {s : State} (hK : Keeps r0 s) :
    Keeps r0 (drsChecked c w mm rs s) := by
  unfold drsChecked
  (repeat' split) <;> simp (maxDischargeDepth := 30) [*]

@[simp] theorem drsArith_keeps {r0 : State} (c op : Nat) (w : InstrWord) (mm : Nat) (g : Dresser → List RowRes) {s : State} (hK : Keeps r0 s) :
    KeepsRes r0 (drsArith c op w mm g s) := by
  unfold drsArith
  repeat' (first
    | (simp (maxDischargeDepth := 30) [*]; done)
    | (simp +contextual (maxDischargeDepth := 30) [*]; done)
    | (refine keeps_foldl _ _ _ (fun s a h => ?_) ?_)
    | (refine keeps_foldl_fst _ _ _ (fun s a h => ?_) ?_)
    | (refine keeps_foldl_snd _ _ _ (fun s a h => ?_) ?_)
    | (extract_lets +onlyGivenNames x
       first
         | (have hx : Keeps r0 x := by (first | (simp (maxDischargeDepth := 30) [x, *]; done) | (simp +contextual (maxDischargeDepth := 30) [x, *]; done) | ((try unfold x); (try dsimp only); (repeat' split) <;> simp (maxDischargeDepth := 30) [*]; done))
            clear_value x)
         | (have hx : Keeps r0 x.2 := by (first | (simp (maxDischargeDepth := 30) [x, *]; done) | (simp +contextual (maxDischargeDepth := 30) [x, *]; done) | ((try unfold x); (try dsimp only); (repeat' split) <;> simp (maxDischargeDepth := 30) [*]; done))
            clear_value x)
         | (have hx : Keeps r0 x.1 := by (first | (simp (maxDischargeDepth := 30) [x, *]; done) | (simp +contextual (maxDischargeDepth := 30) [x, *]; done) | ((try unfold x); (try dsimp only); (repeat' split) <;> simp (maxDischargeDepth := 30) [*]; done))
            clear_value x)
         | clear_value x)
    | (split <;> (try (rename_i e
                       first
                         | have k := keeps_of_snd (r := r0) e (by clear e; simp (maxDischargeDepth := 30) [*]; done)
                         | have k := keeps_of_fst (r := r0) e (by clear e; simp (maxDischargeDepth := 30) [*]; done)
                         | have k := keeps_of_opt (r := r0) e (by clear e; simp (maxDischargeDepth := 30) [*]; done)
                         | have k := keeps_of_optFst (r := r0) e (by clear e; simp (maxDischargeDepth := 30) [*]; done)))))

@[simp] theorem drsLoad_keeps {r0 : State} (c op n : Nat) (w : InstrWord) (k : List Byte → State → State) {s : State} (hFk : ∀ a0 a1, Keeps r0 a1 → Keeps r0 (k a0 a1)) (hK : Keeps r0 s) :
    KeepsRes r0 (drsLoad c op n w k s) := by
  unfold drsLoad
  repeat' (first
    | (simp (maxDischargeDepth := 30) [*]; done)
    | (simp +contextual (maxDischargeDepth := 30) [*]; done)
    | (refine keeps_foldl _ _ _ (fun s a h => ?_) ?_)
    | (refine keeps_foldl_fst _ _ _ (fun s a h => ?_) ?_)
    | (refine keeps_foldl_snd _ _ _ (fun s a h => ?_) ?_)
    | (refine drsStep_keeps _ _ _ _ (fun _ _ hK => ?_) ?_)
    | (extract_lets +onlyGivenNames x
       first
         | (have hx : Keeps r0 x := by (first | (simp (maxDischargeDepth := 30) [x, *]; done) | (simp +contextual (maxDischargeDepth := 30) [x, *]; done) | ((try unfold x); (try dsimp only); (repeat' split) <;> simp (maxDischargeDepth := 30) [*]; done))
            clear_value x)
         | (have hx : Keeps r0 x.2 := by (first | (simp (maxDischargeDepth := 30) [x, *]; done) | (simp +contextual (maxDischargeDepth := 30) [x, *]; done) | ((try unfold x); (try dsimp only); (repeat' split) <;> simp (maxDischargeDepth := 30) [*]; done))
            clear_value x)
         | (have hx : Keeps r0 x.1 := by (first | (simp (maxDischargeDepth := 30) [x, *]; done) | (simp +contextual (maxDischargeDepth := 30) [x, *]; done) | ((try unfold x); (try dsimp only); (repeat' split) <;> simp (maxDischargeDepth := 30) [*]; done))
            clear_value x)
         | clear_value x)
    | (split <;> (try (rename_i e
                       first
                         | have k := keeps_of_snd (r := r0) e (by clear e; simp (maxDischargeDepth := 30) [*]; done)
                         | have k := keeps_of_fst (r := r0) e (by clear e; simp (maxDischargeDepth := 30) [*]; done)
                         | have k := keeps_of_opt (r := r0) e (by clear e; simp (maxDischargeDepth := 30) [*]; done)
                         | have k := keeps_of_optFst (r := r0) e (by clear e; simp (maxDischargeDepth := 30) [*]; done)))))

@[simp] theorem drsStore_keeps {r0 : State} (c : Nat) (parts : List (Nat × List Byte)) {s : State} (hK : Keeps r0 s) :
    Keeps r0 (drsStore c parts s) := by
  unfold drsStore
  extract_lets r
  have hr : Keeps r0 r.1 := by
    refine keeps_foldl_fst _ _ _ (fun p a h => ?_) hK
    simp (maxDischargeDepth := 30) [*]
  clear_value r
  split
  · simp (maxDischargeDepth := 30) [*]
  · refine endRoutine_keeps _ _ ?_
    obtain ⟨h1, h2, h3, h4, h5, h6, h7, h8, h9, h10, h11, h12⟩ := hr
    exact ⟨h1, h2, h3, h4, h5, h6, h7, h8, hK.2.2.2.2.2.2.2.2.1, h10, h11, h12⟩

@[simp] theorem drsSave_keeps {r0 : State} (c op : Nat) (w : InstrWord) (g : Dresser → List Byte) {s : State} (hK : Keeps r0 s) :
    KeepsRes r0 (drsSave c op w g s) := by
  unfold drsSave
  repeat' (first
    | (simp (maxDischargeDepth := 30) [*]; done)
    | (simp +contextual (maxDischargeDepth := 30) [*]; done)
    | (refine keeps_foldl _ _ _ (fun s a h => ?_) ?_)
    | (refine keeps_foldl_fst _ _ _ (fun s a h => ?_) ?_)
    | (refine keeps_foldl_snd _ _ _ (fun s a h => ?_) ?_)
    | (refine drsStep_keeps _ _ _ _ (fun _ _ hK => ?_) ?_)
    | (extract_lets +onlyGivenNames x
       first
         | (have hx : Keeps r0 x := by (first | (simp (maxDischargeDepth := 30) [x, *]; done) | (simp +contextual (maxDischargeDepth := 30) [x, *]; done) | ((try unfold x); (try dsimp only); (repeat' split) <;> simp (maxDischargeDepth := 30) [*]; done))
            clear_value x)
         | (have hx : Keeps r0 x.2 := by (first | (simp (maxDischargeDepth := 30) [x, *]; done) | (simp +contextual (maxDischargeDepth := 30) [x, *]; done) | ((try unfold x); (try dsimp only); (repeat' split) <;> simp (maxDischargeDepth := 30) [*]; done))
            clear_value x)
         | (have hx : Keeps r0 x.1 := by (first | (simp (maxDischargeDepth := 30) [x, *]; done) | (simp +contextual (maxDischargeDepth := 30) [x, *]; done) | ((try unfold x); (try dsimp only); (repeat' split) <;> simp (maxDischargeDepth := 30) [*]; done))
            clear_value x)
         | clear_value x)
    | (split <;> (try (rename_i e
                       first
                         | have k := keeps_of_snd (r := r0) e (by clear e; simp (maxDischargeDepth := 30) [*]; done)
                         | have k := keeps_of_fst (r := r0) e (by clear e; simp (maxDischargeDepth := 30) [*]; done)
                         | have k := keeps_of_opt (r := r0) e (by clear e; simp (maxDischargeDepth := 30) [*]; done)
                         | have k := keeps_of_optFst (r := r0) e (by clear e; simp (maxDischargeDepth := 30) [*]; done)))))

end Sys2Proof.Machine
end

