-- ==== Sys2Proof/Laws/KeepsDresser.lean ====
section
/-! SUPPORT. What the operations of Machine/Dresser.lean keep (Laws/Keeps.lean). -/

set_option Elab.async false
set_option linter.unusedTactic false
set_option linter.unreachableTactic false

namespace Sys2Proof.Machine

@[simp] theorem wakeLaunch_keeps {r0 : State} (c : Nat) {s : State} (hK : Keeps r0 s) :
    Keeps r0 (wakeLaunch c s) := by
  unfold wakeLaunch
  (repeat' split) <;> simp (maxDischargeDepth := 30) [*]

@[simp] theorem execRoutineStart_keeps {r0 : State} (c : Nat) {s : State} (hK : Keeps r0 s) :
    KeepsRes r0 (execRoutineStart c s) := by
  unfold execRoutineStart
  dsimp only
  (repeat' split) <;> simp (maxDischargeDepth := 30) [*]

@[simp] theorem execRoutineComplete_keeps {r0 : State} (c : Nat) {s : State} (hK : Keeps r0 s) :
    KeepsRes r0 (execRoutineComplete c s) := by
  unfold execRoutineComplete
  dsimp only
  (repeat' split) <;> simp (maxDischargeDepth := 30) [*]

@[simp] theorem execDrsEnd_keeps {r0 : State} (c : Nat) (w : InstrWord) {s : State} (hK : Keeps r0 s) :
    KeepsRes r0 (execDrsEnd c w s) := by
  unfold execDrsEnd
  repeat' (first
    | (simp (maxDischargeDepth := 30) [*]; done)
    | (simp +contextual (maxDischargeDepth := 30) [*]; done)
    | (refine keeps_foldl _ _ _ (fun s a h => ?_) ?_)
    | (refine keeps_foldl_fst _ _ _ (fun s a h => ?_) ?_)
    | (refine keeps_foldl_snd _ _ _ (fun s a h => ?_) ?_)
    | (extract_lets +onlyGivenNames x
       first
         | (have hx : Keeps r0 x := by (first | (simp (maxDischargeDepth := 30) [x, *]; done) | (simp +contextual (maxDischargeDepth := 30) [x, *]; done) | ((try unfold x); (try dsimp only); (repeat' split) <;> simp (maxDischargeDepth := 30) [*]; done))
            clear_value x)
         | (have hx : Keeps r0 x.2 := by (first | (simp (maxDischargeDepth := 30) [x, *]; done) | (simp +contextual (maxDischargeDepth := 30) [x, *]; done) | ((try unfold x); (try dsimp only); (repeat' split) <;> simp (maxDischargeDepth := 30) [*]; done))
            clear_value x)
         | (have hx : Keeps r0 x.1 := by (first | (simp (maxDischargeDepth := 30) [x, *]; done) | (simp +contextual (maxDischargeDepth := 30) [x, *]; done) | ((try unfold x); (try dsimp only); (repeat' split) <;> simp (maxDischargeDepth := 30) [*]; done))
            clear_value x)
         | clear_value x)
    | (split <;> (try (rename_i e
                       first
                         | have k := keeps_of_snd (r := r0) e (by clear e; simp (maxDischargeDepth := 30) [*]; done)
                         | have k := keeps_of_fst (r := r0) e (by clear e; simp (maxDischargeDepth := 30) [*]; done)
                         | have k := keeps_of_opt (r := r0) e (by clear e; simp (maxDischargeDepth := 30) [*]; done)
                         | have k := keeps_of_optFst (r := r0) e (by clear e; simp (maxDischargeDepth := 30) [*]; done)))))

@[simp] theorem execDrsLdt_keeps {r0 : State} (c : Nat) (w : InstrWord) {s : State} (hK : Keeps r0 s) :
    KeepsRes r0 (execDrsLdt c w s) := by
  unfold execDrsLdt
  repeat' (first
    | (simp (maxDischargeDepth := 30) [*]; done)
    | (simp +contextual (maxDischargeDepth := 30) [*]; done)
    | (refine keeps_foldl _ _ _ (fun s a h => ?_) ?_)
    | (refine keeps_foldl_fst _ _ _ (fun s a h => ?_) ?_)
    | (refine keeps_foldl_snd _ _ _ (fun s a h => ?_) ?_)
    | (extract_lets +onlyGivenNames x
       first
         | (have hx : Keeps r0 x := by (first | (simp (maxDischargeDepth := 30) [x, *]; done) | (simp +contextual (maxDischargeDepth := 30) [x, *]; done) | ((try unfold x); (try dsimp only); (repeat' split) <;> simp (maxDischargeDepth := 30) [*]; done))
            clear_value x)
         | (have hx : Keeps r0 x.2 := by (first | (simp (maxDischargeDepth := 30) [x, *]; done) | (simp +contextual (maxDischargeDepth := 30) [x, *]; done) | ((try unfold x); (try dsimp only); (repeat' split) <;> simp (maxDischargeDepth := 30) [*]; done))
            clear_value x)
         | (have hx : Keeps r0 x.1 := by (first | (simp (maxDischargeDepth := 30) [x, *]; done) | (simp +contextual (maxDischargeDepth := 30) [x, *]; done) | ((try unfold x); (try dsimp only); (repeat' split) <;> simp (maxDischargeDepth := 30) [*]; done))
            clear_value x)
         | clear_value x)
    | (split <;> (try (rename_i e
                       first
                         | have k := keeps_of_snd (r := r0) e (by clear e; simp (maxDischargeDepth := 30) [*]; done)
                         | have k := keeps_of_fst (r := r0) e (by clear e; simp (maxDischargeDepth := 30) [*]; done)
                         | have k := keeps_of_opt (r := r0) e (by clear e; simp (maxDischargeDepth := 30) [*]; done)
                         | have k := keeps_of_optFst (r := r0) e (by clear e; simp (maxDischargeDepth := 30) [*]; done)))))

@[simp] theorem execDrsStt_keeps {r0 : State} (c : Nat) (w : InstrWord) {s : State} (hK : Keeps r0 s) :
    KeepsRes r0 (execDrsStt c w s) := by simp (maxDischargeDepth := 30) [execDrsStt, *]

@[simp] theorem execDrsLdf_keeps {r0 : State} (c : Nat) (w : InstrWord) (mm : Nat) {s : State} (hK : Keeps r0 s) :
    KeepsRes r0 (execDrsLdf c w mm s) := by
  unfold execDrsLdf
  repeat' (first
    | (simp (maxDischargeDepth := 30) [*]; done)
    | (simp +contextual (maxDischargeDepth := 30) [*]; done)
    | (refine keeps_foldl _ _ _ (fun s a h => ?_) ?_)
    | (refine keeps_foldl_fst _ _ _ (fun s a h => ?_) ?_)
    | (refine keeps_foldl_snd _ _ _ (fun s a h => ?_) ?_)
    | (extract_lets +onlyGivenNames x
       first
         | (have hx : Keeps r0 x := by (first | (simp (maxDischargeDepth := 30) [x, *]; done) | (simp +contextual (maxDischargeDepth := 30) [x, *]; done) | ((try unfold x); (try dsimp only); (repeat' split) <;> simp (maxDischargeDepth := 30) [*]; done))
            clear_value x)
         | (have hx : Keeps r0 x.2 := by (first | (simp (maxDischargeDepth := 30) [x, *]; done) | (simp +contextual (maxDischargeDepth := 30) [x, *]; done) | ((try unfold x); (try dsimp only); (repeat' split) <;> simp (maxDischargeDepth := 30) [*]; done))
            clear_value x)
         | (have hx : Keeps r0 x.1 := by (first | (simp (maxDischargeDepth := 30) [x, *]; done) | (simp +contextual (maxDischargeDepth := 30) [x, *]; done) | ((try unfold x); (try dsimp only); (repeat' split) <;> simp (maxDischargeDepth := 30) [*]; done))
            clear_value x)
         | clear_value x)
    | (split <;> (try (rename_i e
                       first
                         | have k := keeps_of_snd (r := r0) e (by clear e; simp (maxDischargeDepth := 30) [*]; done)
                         | have k := keeps_of_fst (r := r0) e (by clear e; simp (maxDischargeDepth := 30) [*]; done)
                         | have k := keeps_of_opt (r := r0) e (by clear e; simp (maxDischargeDepth := 30) [*]; done)
                         | have k := keeps_of_optFst (r := r0) e (by clear e; simp (maxDischargeDepth := 30) [*]; done)))))

@[simp] theorem execDrsStf_keeps {r0 : State} (c : Nat) (w : InstrWord) {s : State} (hK : Keeps r0 s) :
    KeepsRes r0 (execDrsStf c w s) := by simp (maxDischargeDepth := 30) [execDrsStf, *]

@[simp] theorem rowBlocks_keeps {r0 : State} (c bb : Nat) (y1 : List (Nat × Nat)) {s : State} (hK : Keeps r0 s) :
    Keeps r0 (rowBlocks c bb y1 s).1 := by
  induction y1 generalizing s with
  | nil =>
    unfold rowBlocks
    (repeat' split) <;> simp (maxDischargeDepth := 30) [*]
  | cons a l ih =>
    unfold rowBlocks
    repeat' (first
      | (simp (maxDischargeDepth := 30) [*]; done)
      | (simp +contextual (maxDischargeDepth := 30) [*]; done)
      | (refine keeps_foldl _ _ _ (fun s a h => ?_) ?_)
      | (refine keeps_foldl_fst _ _ _ (fun s a h => ?_) ?_)
      | (refine keeps_foldl_snd _ _ _ (fun s a h => ?_) ?_)
      | (extract_lets +onlyGivenNames x
         first
           | (have hx : Keeps r0 x := by (first | (simp (maxDischargeDepth := 30) [x, *]; done) | (simp +contextual (maxDischargeDepth := 30) [x, *]; done) | ((try unfold x); (try dsimp only); (repeat' split) <;> simp (maxDischargeDepth := 30) [*]; done))
              clear_value x)
           | (have hx : Keeps r0 x.2 := by (first | (simp (maxDischargeDepth := 30) [x, *]; done) | (simp +contextual (maxDischargeDepth := 30) [x, *]; done) | ((try unfold x); (try dsimp only); (repeat' split) <;> simp (maxDischargeDepth := 30) [*]; done))
              clear_value x)
           | (have hx : Keeps r0 x.1 := by (first | (simp (maxDischargeDepth := 30) [x, *]; done) | (simp +contextual (maxDischargeDepth := 30) [x, *]; done) | ((try unfold x); (try dsimp only); (repeat' split) <;> simp (maxDischargeDepth := 30) [*]; done))
              clear_value x)
           | clear_value x)
      | (split <;> (try (rename_i e
                         first
                           | have k := keeps_of_snd (r := r0) e (by clear e; simp (maxDischargeDepth := 30) [*]; done)
                           | have k := keeps_of_fst (r := r0) e (by clear e; simp (maxDischargeDepth := 30) [*]; done)
                           | have k := keeps_of_opt (r := r0) e (by clear e; simp (maxDischargeDepth := 30) [*]; done)
                           | have k := keeps_of_optFst (r := r0) e (by clear e; simp (maxDischargeDepth := 30) [*]; done)))))

@[simp] theorem slabTable_keeps {r0 : State} (c : Nat) (w : InstrWord) {s : State} (hK : Keeps r0 s) :
    Keeps r0 (slabTable c w s).1 := by
  unfold slabTable
  repeat' (first
    | (simp (maxDischargeDepth := 30) [*]; done)
    | (simp +contextual (maxDischargeDepth := 30) [*]; done)
    | (refine keeps_foldl _ _ _ (fun s a h => ?_) ?_)
    | (refine keeps_foldl_fst _ _ _ (fun s a h => ?_) ?_)
    | (refine keeps_foldl_snd _ _ _ (fun s a h => ?_) ?_)
    | (extract_lets +onlyGivenNames x
       first
         | (have hx : Keeps r0 x := by (first | (simp (maxDischargeDepth := 30) [x, *]; done) | (simp +contextual (maxDischargeDepth := 30) [x, *]; done) | ((try unfold x); (try dsimp only); (repeat' split) <;> simp (maxDischargeDepth := 30) [*]; done))
            clear_value x)
         | (have hx : Keeps r0 x.2 := by (first | (simp (maxDischargeDepth := 30) [x, *]; done) | (simp +contextual (maxDischargeDepth := 30) [x, *]; done) | ((try unfold x); (try dsimp only); (repeat' split) <;> simp (maxDischargeDepth := 30) [*]; done))
            clear_value x)
         | (have hx : Keeps r0 x.1 := by (first | (simp (maxDischargeDepth := 30) [x, *]; done) | (simp +contextual (maxDischargeDepth := 30) [x, *]; done) | ((try unfold x); (try dsimp only); (repeat' split) <;> simp (maxDischargeDepth := 30) [*]; done))
            clear_value x)
         | clear_value x)
    | (split <;> (try (rename_i e
                       first
                         | have k := keeps_of_snd (r := r0) e (by clear e; simp (maxDischargeDepth := 30) [*]; done)
                         | have k := keeps_of_fst (r := r0) e (by clear e; simp (maxDischargeDepth := 30) [*]; done)
                         | have k := keeps_of_opt (r := r0) e (by clear e; simp (maxDischargeDepth := 30) [*]; done)
                         | have k := keeps_of_optFst (r := r0) e (by clear e; simp (maxDischargeDepth := 30) [*]; done)))))

@[simp] theorem execDrsLdmx_keeps {r0 : State} (c : Nat) (w : InstrWord) (mm : Nat) {s : State} (hK : Keeps r0 s) :
    KeepsRes r0 (execDrsLdmx c w mm s) := by
  unfold execDrsLdmx
  repeat' (first
    | (simp (maxDischargeDepth := 30) [*]; done)
    | (simp +contextual (maxDischargeDepth := 30) [*]; done)
    | (refine keeps_foldl _ _ _ (fun s a h => ?_) ?_)
    | (refine keeps_foldl_fst _ _ _ (fun s a h => ?_) ?_)
    | (refine keeps_foldl_snd _ _ _ (fun s a h => ?_) ?_)
    | (refine drsStep_keeps _ _ _ _ (fun _ _ hK => ?_) ?_)
    | (extract_lets +onlyGivenNames x
       first
         | (have hx : Keeps r0 x := by (first | (simp (maxDischargeDepth := 30) [x, *]; done) | (simp +contextual (maxDischargeDepth := 30) [x, *]; done) | ((try unfold x); (try dsimp only); (repeat' split) <;> simp (maxDischargeDepth := 30) [*]; done))
            clear_value x)
         | (have hx : Keeps r0 x.2 := by (first | (simp (maxDischargeDepth := 30) [x, *]; done) | (simp +contextual (maxDischargeDepth := 30) [x, *]; done) | ((try unfold x); (try dsimp only); (repeat' split) <;> simp (maxDischargeDepth := 30) [*]; done))
            clear_value x)
         | (have hx : Keeps r0 x.1 := by (first | (simp (maxDischargeDepth := 30) [x, *]; done) | (simp +contextual (maxDischargeDepth := 30) [x, *]; done) | ((try unfold x); (try dsimp only); (repeat' split) <;> simp (maxDischargeDepth := 30) [*]; done))
            clear_value x)
         | clear_value x)
    | (split <;> (try (rename_i e
                       first
                         | have k := keeps_of_snd (r := r0) e (by clear e; simp (maxDischargeDepth := 30) [*]; done)
                         | have k := keeps_of_fst (r := r0) e (by clear e; simp (maxDischargeDepth := 30) [*]; done)
                         | have k := keeps_of_opt (r := r0) e (by clear e; simp (maxDischargeDepth := 30) [*]; done)
                         | have k := keeps_of_optFst (r := r0) e (by clear e; simp (maxDischargeDepth := 30) [*]; done)))))

@[simp] theorem execDrsStmx_keeps {r0 : State} (c : Nat) (w : InstrWord) {s : State} (hK : Keeps r0 s) :
    KeepsRes r0 (execDrsStmx c w s) := by
  unfold execDrsStmx
  repeat' (first
    | (simp (maxDischargeDepth := 30) [*]; done)
    | (simp +contextual (maxDischargeDepth := 30) [*]; done)
    | (refine keeps_foldl _ _ _ (fun s a h => ?_) ?_)
    | (refine keeps_foldl_fst _ _ _ (fun s a h => ?_) ?_)
    | (refine keeps_foldl_snd _ _ _ (fun s a h => ?_) ?_)
    | (refine drsStep_keeps _ _ _ _ (fun _ _ hK => ?_) ?_)
    | (extract_lets +onlyGivenNames x
       first
         | (have hx : Keeps r0 x := by (first | (simp (maxDischargeDepth := 30) [x, *]; done) | (simp +contextual (maxDischargeDepth := 30) [x, *]; done) | ((try unfold x); (try dsimp only); (repeat' split) <;> simp (maxDischargeDepth := 30) [*]; done))
            clear_value x)
         | (have hx : Keeps r0 x.2 := by (first | (simp (maxDischargeDepth := 30) [x, *]; done) | (simp +contextual (maxDischargeDepth := 30) [x, *]; done) | ((try unfold x); (try dsimp only); (repeat' split) <;> simp (maxDischargeDepth := 30) [*]; done))
            clear_value x)
         | (have hx : Keeps r0 x.1 := by (first | (simp (maxDischargeDepth := 30) [x, *]; done) | (simp +contextual (maxDischargeDepth := 30) [x, *]; done) | ((try unfold x); (try dsimp only); (repeat' split) <;> simp (maxDischargeDepth := 30) [*]; done))
            clear_value x)
         | clear_value x)
    | (split <;> (try (rename_i e
                       first
                         | have k := keeps_of_snd (r := r0) e (by clear e; simp (maxDischargeDepth := 30) [*]; done)
                         | have k := keeps_of_fst (r := r0) e (by clear e; simp (maxDischargeDepth := 30) [*]; done)
                         | have k := keeps_of_opt (r := r0) e (by clear e; simp (maxDischargeDepth := 30) [*]; done)
                         | have k := keeps_of_optFst (r := r0) e (by clear e; simp (maxDischargeDepth := 30) [*]; done)))))

@[simp] theorem execDrsLds_keeps {r0 : State} (c : Nat) (w : InstrWord) {s : State} (hK : Keeps r0 s) :
    KeepsRes r0 (execDrsLds c w s) := by
  unfold execDrsLds
  repeat' (first
    | (simp (maxDischargeDepth := 30) [*]; done)
    | (simp +contextual (maxDischargeDepth := 30) [*]; done)
    | (refine keeps_foldl _ _ _ (fun s a h => ?_) ?_)
    | (refine keeps_foldl_fst _ _ _ (fun s a h => ?_) ?_)
    | (refine keeps_foldl_snd _ _ _ (fun s a h => ?_) ?_)
    | (refine drsStep_keeps _ _ _ _ (fun _ _ hK => ?_) ?_)
    | (extract_lets +onlyGivenNames x
       first
         | (have hx : Keeps r0 x := by (first | (simp (maxDischargeDepth := 30) [x, *]; done) | (simp +contextual (maxDischargeDepth := 30) [x, *]; done) | ((try unfold x); (try dsimp only); (repeat' split) <;> simp (maxDischargeDepth := 30) [*]; done))
            clear_value x)
         | (have hx : Keeps r0 x.2 := by (first | (simp (maxDischargeDepth := 30) [x, *]; done) | (simp +contextual (maxDischargeDepth := 30) [x, *]; done) | ((try unfold x); (try dsimp only); (repeat' split) <;> simp (maxDischargeDepth := 30) [*]; done))
            clear_value x)
         | (have hx : Keeps r0 x.1 := by (first | (simp (maxDischargeDepth := 30) [x, *]; done) | (simp +contextual (maxDischargeDepth := 30) [x, *]; done) | ((try unfold x); (try dsimp only); (repeat' split) <;> simp (maxDischargeDepth := 30) [*]; done))
            clear_value x)
         | clear_value x)
    | (split <;> (try (rename_i e
                       first
                         | have k := keeps_of_snd (r := r0) e (by clear e; simp (maxDischargeDepth := 30) [*]; done)
                         | have k := keeps_of_fst (r := r0) e (by clear e; simp (maxDischargeDepth := 30) [*]; done)
                         | have k := keeps_of_opt (r := r0) e (by clear e; simp (maxDischargeDepth := 30) [*]; done)
                         | have k := keeps_of_optFst (r := r0) e (by clear e; simp (maxDischargeDepth := 30) [*]; done)))))

@[simp] theorem execDrsMov_keeps {r0 : State} (c : Nat) (w : InstrWord) {s : State} (hK : Keeps r0 s) :
    KeepsRes r0 (execDrsMov c w s) := by
  unfold execDrsMov
  repeat' (first
    | (simp (maxDischargeDepth := 30) [*]; done)
    | (simp +contextual (maxDischargeDepth := 30) [*]; done)
    | (refine keeps_foldl _ _ _ (fun s a h => ?_) ?_)
    | (refine keeps_foldl_fst _ _ _ (fun s a h => ?_) ?_)
    | (refine keeps_foldl_snd _ _ _ (fun s a h => ?_) ?_)
    | (extract_lets +onlyGivenNames x
       first
         | (have hx : Keeps r0 x := by (first | (simp (maxDischargeDepth := 30) [x, *]; done) | (simp +contextual (maxDischargeDepth := 30) [x, *]; done) | ((try unfold x); (try dsimp only); (repeat' split) <;> simp (maxDischargeDepth := 30) [*]; done))
            clear_value x)
         | (have hx : Keeps r0 x.2 := by (first | (simp (maxDischargeDepth := 30) [x, *]; done) | (simp +contextual (maxDischargeDepth := 30) [x, *]; done) | ((try unfold x); (try dsimp only); (repeat' split) <;> simp (maxDischargeDepth := 30) [*]; done))
            clear_value x)
         | (have hx : Keeps r0 x.1 := by (first | (simp (maxDischargeDepth := 30) [x, *]; done) | (simp +contextual (maxDischargeDepth := 30) [x, *]; done) | ((try unfold x); (try dsimp only); (repeat' split) <;> simp (maxDischargeDepth := 30) [*]; done))
            clear_value x)
         | clear_value x)
    | (split <;> (try (rename_i e
                       first
                         | have k := keeps_of_snd (r := r0) e (by clear e; simp (maxDischargeDepth := 30) [*]; done)
                         | have k := keeps_of_fst (r := r0) e (by clear e; simp (maxDischargeDepth := 30) [*]; done)
                         | have k := keeps_of_opt (r := r0) e (by clear e; simp (maxDischargeDepth := 30) [*]; done)
                         | have k := keeps_of_optFst (r := r0) e (by clear e; simp (maxDischargeDepth := 30) [*]; done)))))

@[simp] theorem execDrsSqpop_keeps {r0 : State} (c : Nat) (w : InstrWord) (chk : Nat × Bool) {s : State} (hK : Keeps r0 s) :
    KeepsRes r0 (execDrsSqpop c w chk s) := by
  unfold execDrsSqpop
  repeat' (first
    | (simp (maxDischargeDepth := 30) [*]; done)
    | (simp +contextual (maxDischargeDepth := 30) [*]; done)
    | (refine keeps_foldl _ _ _ (fun s a h => ?_) ?_)
    | (refine keeps_foldl_fst _ _ _ (fun s a h => ?_) ?_)
    | (refine keeps_foldl_snd _ _ _ (fun s a h => ?_) ?_)
    | (refine drsStep_keeps _ _ _ _ (fun _ _ hK => ?_) ?_)
    | (extract_lets +onlyGivenNames x
       first
         | (have hx : Keeps r0 x := by (first | (simp (maxDischargeDepth := 30) [x, *]; done) | (simp +contextual (maxDischargeDepth := 30) [x, *]; done) | ((try unfold x); (try dsimp only); (repeat' split) <;> simp (maxDischargeDepth := 30) [*]; done))
            clear_value x)
         | (have hx : Keeps r0 x.2 := by (first | (simp (maxDischargeDepth := 30) [x, *]; done) | (simp +contextual (maxDischargeDepth := 30) [x, *]; done) | ((try unfold x); (try dsimp only); (repeat' split) <;> simp (maxDischargeDepth := 30) [*]; done))
            clear_value x)
         | (have hx : Keeps r0 x.1 := by (first | (simp (maxDischargeDepth := 30) [x, *]; done) | (simp +contextual (maxDischargeDepth := 30) [x, *]; done) | ((try unfold x); (try dsimp only); (repeat' split) <;> simp (maxDischargeDepth := 30) [*]; done))
            clear_value x)
         | clear_value x)
    | (split <;> (try (rename_i e
                       first
                         | have k := keeps_of_snd (r := r0) e (by clear e; simp (maxDischargeDepth := 30) [*]; done)
                         | have k := keeps_of_fst (r := r0) e (by clear e; simp (maxDischargeDepth := 30) [*]; done)
                         | have k := keeps_of_opt (r := r0) e (by clear e; simp (maxDischargeDepth := 30) [*]; done)
                         | have k := keeps_of_optFst (r := r0) e (by clear e; simp (maxDischargeDepth := 30) [*]; done)))))

@[simp] theorem execSqpopTimeout_keeps {r0 : State} (c : Nat) {s : State} (hK : Keeps r0 s) :
    KeepsRes r0 (execSqpopTimeout c s) := by
  unfold execSqpopTimeout
  dsimp only
  (repeat' split) <;> simp (maxDischargeDepth := 30) [*]

@[simp] theorem execDrsAdd_keeps {r0 : State} (c : Nat) (w : InstrWord) (mm : Nat) {s : State} (hK : Keeps r0 s) :
    KeepsRes r0 (execDrsAdd c w mm s) := by simp (maxDischargeDepth := 30) [execDrsAdd, *]

@[simp] theorem execDrsSub_keeps {r0 : State} (c : Nat) (w : InstrWord) (mm : Nat) {s : State} (hK : Keeps r0 s) :
    KeepsRes r0 (execDrsSub c w mm s) := by simp (maxDischargeDepth := 30) [execDrsSub, *]

@[simp] theorem execDrsMul_keeps {r0 : State} (c : Nat) (w : InstrWord) (mm : Nat) {s : State} (hK : Keeps r0 s) :
    KeepsRes r0 (execDrsMul c w mm s) := by simp (maxDischargeDepth := 30) [execDrsMul, *]

@[simp] theorem execDrsMad_keeps {r0 : State} (c : Nat) (w : InstrWord) (mm : Nat) {s : State} (hK : Keeps r0 s) :
    KeepsRes r0 (execDrsMad c w mm s) := by simp (maxDischargeDepth := 30) [execDrsMad, *]

@[simp] theorem execDrsMax_keeps {r0 : State} (c : Nat) (w : InstrWord) (mm : Nat) {s : State} (hK : Keeps r0 s) :
    KeepsRes r0 (execDrsMax c w mm s) := by simp (maxDischargeDepth := 30) [execDrsMax, *]

@[simp] theorem execDrsMin_keeps {r0 : State} (c : Nat) (w : InstrWord) (mm : Nat) {s : State} (hK : Keeps r0 s) :
    KeepsRes r0 (execDrsMin c w mm s) := by simp (maxDischargeDepth := 30) [execDrsMin, *]

@[simp] theorem execDrsCmp_keeps {r0 : State} (c : Nat) (w : InstrWord) (mm : Nat) {s : State} (hK : Keeps r0 s) :
    KeepsRes r0 (execDrsCmp c w mm s) := by simp (maxDischargeDepth := 30) [execDrsCmp, *]

@[simp] theorem execDrsSel_keeps {r0 : State} (c : Nat) (w : InstrWord) (mm : Nat) {s : State} (hK : Keeps r0 s) :
    KeepsRes r0 (execDrsSel c w mm s) := by simp (maxDischargeDepth := 30) [execDrsSel, *]

@[simp] theorem execDrsShl_keeps {r0 : State} (c : Nat) (w : InstrWord) (mm : Nat) {s : State} (hK : Keeps r0 s) :
    KeepsRes r0 (execDrsShl c w mm s) := by simp (maxDischargeDepth := 30) [execDrsShl, *]

@[simp] theorem execDrsShr_keeps {r0 : State} (c : Nat) (w : InstrWord) (mm : Nat) {s : State} (hK : Keeps r0 s) :
    KeepsRes r0 (execDrsShr c w mm s) := by simp (maxDischargeDepth := 30) [execDrsShr, *]

@[simp] theorem execDrsAnd_keeps {r0 : State} (c : Nat) (w : InstrWord) (mm : Nat) {s : State} (hK : Keeps r0 s) :
    KeepsRes r0 (execDrsAnd c w mm s) := by simp (maxDischargeDepth := 30) [execDrsAnd, *]

@[simp] theorem execDrsOr_keeps {r0 : State} (c : Nat) (w : InstrWord) (mm : Nat) {s : State} (hK : Keeps r0 s) :
    KeepsRes r0 (execDrsOr c w mm s) := by simp (maxDischargeDepth := 30) [execDrsOr, *]

@[simp] theorem execDrsXor_keeps {r0 : State} (c : Nat) (w : InstrWord) (mm : Nat) {s : State} (hK : Keeps r0 s) :
    KeepsRes r0 (execDrsXor c w mm s) := by simp (maxDischargeDepth := 30) [execDrsXor, *]

@[simp] theorem execDrsAlgn_keeps {r0 : State} (c : Nat) (w : InstrWord) (mm : Nat) {s : State} (hK : Keeps r0 s) :
    KeepsRes r0 (execDrsAlgn c w mm s) := by simp (maxDischargeDepth := 30) [execDrsAlgn, *]

@[simp] theorem execDrsEadd_keeps {r0 : State} (c : Nat) (w : InstrWord) (mm : Nat) {s : State} (hK : Keeps r0 s) :
    KeepsRes r0 (execDrsEadd c w mm s) := by simp (maxDischargeDepth := 30) [execDrsEadd, *]

@[simp] theorem execDrsNorm_keeps {r0 : State} (c : Nat) (w : InstrWord) (mm : Nat) {s : State} (hK : Keeps r0 s) :
    KeepsRes r0 (execDrsNorm c w mm s) := by simp (maxDischargeDepth := 30) [execDrsNorm, *]

@[simp] theorem execDrsTrn_keeps {r0 : State} (c : Nat) (w : InstrWord) (mm : Nat) {s : State} (hK : Keeps r0 s) :
    KeepsRes r0 (execDrsTrn c w mm s) := by simp (maxDischargeDepth := 30) [execDrsTrn, *]

@[simp] theorem execDrsRmax_keeps {r0 : State} (c : Nat) (w : InstrWord) (mm : Nat) {s : State} (hK : Keeps r0 s) :
    KeepsRes r0 (execDrsRmax c w mm s) := by simp (maxDischargeDepth := 30) [execDrsRmax, *]

@[simp] theorem execDrsRsum_keeps {r0 : State} (c : Nat) (w : InstrWord) (mm : Nat) {s : State} (hK : Keeps r0 s) :
    KeepsRes r0 (execDrsRsum c w mm s) := by simp (maxDischargeDepth := 30) [execDrsRsum, *]

@[simp] theorem execDrsFn_keeps {r0 : State} (c : Nat) (w : InstrWord) (mm : Nat) {s : State} (hK : Keeps r0 s) :
    KeepsRes r0 (execDrsFn c w mm s) := by simp (maxDischargeDepth := 30) [execDrsFn, *]

end Sys2Proof.Machine
end

