-- ==== Sys2Proof/Laws/KeepsSeamMem.lean ====
section
/-! SUPPORT. What the operations of Machine/SeamMem.lean keep (Laws/Keeps.lean). -/

set_option Elab.async false
set_option linter.unusedTactic false
set_option linter.unreachableTactic false

namespace Sys2Proof.Machine

@[simp] theorem faceDrop_keeps {r0 : State} (n : Nat) {s : State} (hK : Keeps r0 s) :
    Keeps r0 (faceDrop n s) := by simp (maxDischargeDepth := 30) [faceDrop, *]

@[simp] theorem faceStop_keeps {r0 : State} (n : Nat) (st : Status) {s : State} (hK : Keeps r0 s) :
    Keeps r0 (faceStop n st s) := by simp (maxDischargeDepth := 30) [faceStop, *]

@[simp] theorem strokeFail_keeps {r0 : State} (n : Nat) {s : State} (hK : Keeps r0 s) :
    Keeps r0 (strokeFail n s) := by simp (maxDischargeDepth := 30) [strokeFail, *]

@[simp] theorem grantShaft_keeps {r0 : State} (q : SeamReq) {s : State} (hK : Keeps r0 s) :
    Keeps r0 (grantShaft q s) := by
  unfold grantShaft
  (repeat' split) <;> simp (maxDischargeDepth := 30) [*]

@[simp] theorem strokeReach_keeps {r0 : State} (n : Nat) (k : Stroke) {s : State} (hK : Keeps r0 s) :
    Keeps r0 (strokeReach n k s) := by
  unfold strokeReach
  repeat' (first
    | (simp (maxDischargeDepth := 30) [*]; done)
    | (simp +contextual (maxDischargeDepth := 30) [*]; done)
    | (refine keeps_foldl _ _ _ (fun s a h => ?_) ?_)
    | (refine keeps_foldl_fst _ _ _ (fun s a h => ?_) ?_)
    | (refine keeps_foldl_snd _ _ _ (fun s a h => ?_) ?_)
    | (extract_lets +onlyGivenNames x
       first
         | (have hx : Keeps r0 x := by (first | (simp (maxDischargeDepth := 30) [x, *]; done) | (simp +contextual (maxDischargeDepth := 30) [x, *]; done) | ((try unfold x); (try dsimp only); (repeat' split) <;> simp (maxDischargeDepth := 30) [*]; done))
            clear_value x)
         | (have hx : Keeps r0 x.2 := by (first | (simp (maxDischargeDepth := 30) [x, *]; done) | (simp +contextual (maxDischargeDepth := 30) [x, *]; done) | ((try unfold x); (try dsimp only); (repeat' split) <;> simp (maxDischargeDepth := 30) [*]; done))
            clear_value x)
         | (have hx : Keeps r0 x.1 := by (first | (simp (maxDischargeDepth := 30) [x, *]; done) | (simp +contextual (maxDischargeDepth := 30) [x, *]; done) | ((try unfold x); (try dsimp only); (repeat' split) <;> simp (maxDischargeDepth := 30) [*]; done))
            clear_value x)
         | clear_value x)
    | (split <;> (try (rename_i e
                       first
                         | have k := keeps_of_snd (r := r0) e (by clear e; simp (maxDischargeDepth := 30) [*]; done)
                         | have k := keeps_of_fst (r := r0) e (by clear e; simp (maxDischargeDepth := 30) [*]; done)
                         | have k := keeps_of_opt (r := r0) e (by clear e; simp (maxDischargeDepth := 30) [*]; done)
                         | have k := keeps_of_optFst (r := r0) e (by clear e; simp (maxDischargeDepth := 30) [*]; done)))))

@[simp] theorem strokeData_keeps {r0 : State} (n : Nat) (bs : List Byte) {s : State} (hK : Keeps r0 s) :
    Keeps r0 (strokeData n bs s).1 := by simp (maxDischargeDepth := 30) [strokeData, *]

@[simp] theorem grantSnw_keeps {r0 : State} (n : Nat) (k : Stroke) {s : State} (hK : Keeps r0 s) :
    Keeps r0 (grantSnw n k s) := by
  unfold grantSnw
  repeat' (first
    | (simp (maxDischargeDepth := 30) [*]; done)
    | (simp +contextual (maxDischargeDepth := 30) [*]; done)
    | (refine keeps_foldl _ _ _ (fun s a h => ?_) ?_)
    | (refine keeps_foldl_fst _ _ _ (fun s a h => ?_) ?_)
    | (refine keeps_foldl_snd _ _ _ (fun s a h => ?_) ?_)
    | (extract_lets +onlyGivenNames x
       first
         | (have hx : Keeps r0 x := by (first | (simp (maxDischargeDepth := 30) [x, *]; done) | (simp +contextual (maxDischargeDepth := 30) [x, *]; done) | ((try unfold x); (try dsimp only); (repeat' split) <;> simp (maxDischargeDepth := 30) [*]; done))
            clear_value x)
         | (have hx : Keeps r0 x.2 := by (first | (simp (maxDischargeDepth := 30) [x, *]; done) | (simp +contextual (maxDischargeDepth := 30) [x, *]; done) | ((try unfold x); (try dsimp only); (repeat' split) <;> simp (maxDischargeDepth := 30) [*]; done))
            clear_value x)
         | (have hx : Keeps r0 x.1 := by (first | (simp (maxDischargeDepth := 30) [x, *]; done) | (simp +contextual (maxDischargeDepth := 30) [x, *]; done) | ((try unfold x); (try dsimp only); (repeat' split) <;> simp (maxDischargeDepth := 30) [*]; done))
            clear_value x)
         | clear_value x)
    | (split <;> (try (rename_i e
                       first
                         | have k := keeps_of_snd (r := r0) e (by clear e; simp (maxDischargeDepth := 30) [*]; done)
                         | have k := keeps_of_fst (r := r0) e (by clear e; simp (maxDischargeDepth := 30) [*]; done)
                         | have k := keeps_of_opt (r := r0) e (by clear e; simp (maxDischargeDepth := 30) [*]; done)
                         | have k := keeps_of_optFst (r := r0) e (by clear e; simp (maxDischargeDepth := 30) [*]; done)))))

@[simp] theorem grantStroke_keeps {r0 : State} (n : Nat) {s : State} (hK : Keeps r0 s) :
    Keeps r0 (grantStroke n s) := by
  unfold grantStroke
  dsimp only
  (repeat' split) <;> simp (maxDischargeDepth := 30) [*]

@[simp] theorem grantReq_keeps {r0 : State} (n i : Nat) (q : SeamReq) (guard : Bool) {s : State} (hK : Keeps r0 s) :
    Keeps r0 (grantReq n i q guard s) := by simp (maxDischargeDepth := 30) [grantReq, *]

@[simp] theorem seamGrant_keeps {r0 : State} (n : Nat) {s : State} (hK : Keeps r0 s) :
    Keeps r0 (seamGrant n s) := by
  unfold seamGrant
  (repeat' split) <;> simp (maxDischargeDepth := 30) [*]

@[simp] theorem execSeamGrant_keeps {r0 : State} (n : Nat) {s : State} (hK : Keeps r0 s) :
    KeepsRes r0 (execSeamGrant n s) := by
  unfold execSeamGrant
  (repeat' split) <;> simp (maxDischargeDepth := 30) [*]

@[simp] theorem guardGrant_keeps {r0 : State} (n : Nat) (shaft : Bool) {s : State} (hK : Keeps r0 s) :
    Keeps r0 (guardGrant n shaft s) := by
  unfold guardGrant
  (repeat' split) <;> simp (maxDischargeDepth := 30) [*]

@[simp] theorem execSeamGuardExpiry_keeps {r0 : State} (n : Nat) (shaft : Bool) {s : State} (hK : Keeps r0 s) :
    KeepsRes r0 (execSeamGuardExpiry n shaft s) := by
  unfold execSeamGuardExpiry
  (repeat' split) <;> simp (maxDischargeDepth := 30) [*]

@[simp] theorem faceRefill_keeps {r0 : State} (col : Nat) {s : State} (hK : Keeps r0 s) :
    Keeps r0 (faceRefill col s) := by
  unfold faceRefill
  dsimp only
  (repeat' split) <;> simp (maxDischargeDepth := 30) [*]

@[simp] theorem faceMerge_keeps {r0 : State} (m : Merge) {s : State} (hK : Keeps r0 s) :
    Keeps r0 (faceMerge m s) := by simp (maxDischargeDepth := 30) [faceMerge, *]

@[simp] theorem mergeDone_keeps {r0 : State} (col : Nat) (face : Bool) {s : State} (hK : Keeps r0 s) :
    Keeps r0 (mergeDone col face s) := by
  unfold mergeDone
  dsimp only
  (repeat' split) <;> simp (maxDischargeDepth := 30) [*]

@[simp] theorem execMergeDone_keeps {r0 : State} (col : Nat) (face : Bool) {s : State} (hK : Keeps r0 s) :
    KeepsRes r0 (execMergeDone col face s) := by simp (maxDischargeDepth := 30) [execMergeDone, *]

@[simp] theorem seamSleep_keeps {r0 : State} (n : Nat) {s : State} (hK : Keeps r0 s) :
    Keeps r0 (seamSleep n s) := by simp (maxDischargeDepth := 30) [seamSleep, *]

@[simp] theorem seamExit_keeps {r0 : State} (n : Nat) {s : State} (hK : Keeps r0 s) :
    Keeps r0 (seamExit n s) := by simp (maxDischargeDepth := 30) [seamExit, *]

end Sys2Proof.Machine
end

