-- ==== Sys2Proof/Laws/KeepsIntegrity.lean ====
section
/-! SUPPORT. What the operations of Machine/Integrity.lean keep (Laws/Keeps.lean). -/

set_option Elab.async false
set_option linter.unusedTactic false
set_option linter.unreachableTactic false

namespace Sys2Proof.Machine

@[simp] theorem idWrite_keeps {r0 : State} (l : LineId) (bs : List Byte) {s : State} (hK : Keeps r0 s) :
    Keeps r0 (idWrite l bs s) := by
  unfold idWrite
  (repeat' split) <;> simp (maxDischargeDepth := 30) [*]

@[simp] theorem execEccWriteback_keeps {r0 : State} (kind inst line : Nat) {s : State} (hK : Keeps r0 s) :
    KeepsRes r0 (execEccWriteback kind inst line s) := by
  unfold execEccWriteback
  dsimp only
  (repeat' split) <;> simp (maxDischargeDepth := 30) [*]

@[simp] theorem execEccLeak_keeps {r0 : State} {s : State} (hK : Keeps r0 s) :
    KeepsRes r0 (execEccLeak s) := by simp (maxDischargeDepth := 30) [execEccLeak, *]

@[simp] theorem seamInj_keeps {r0 : State} (n w : Nat) {s : State} (hK : Keeps r0 s) :
    Keeps r0 (seamInj n w s) := by simp (maxDischargeDepth := 30) [seamInj, *]

@[simp] theorem execSeamInjArm_keeps {r0 : State} (r : Requester) (n : Nat) (v : Word) {s : State} (hK : Keeps r0 s) :
    KeepsRes r0 (execSeamInjArm r n v s) := by simp (maxDischargeDepth := 30) [execSeamInjArm, *]

@[simp] theorem scrubLine_keeps {r0 : State} (kind inst part : Nat) {s : State} (hK : Keeps r0 s) :
    Keeps r0 (scrubLine kind inst part s) := by simp (maxDischargeDepth := 30) [scrubLine, *]

@[simp] theorem execScrubRead_keeps {r0 : State} (kind : Nat) (store : Nat × Nat) {s : State} (hK : Keeps r0 s) :
    KeepsRes r0 (execScrubRead kind store s) := by simp (maxDischargeDepth := 30) [execScrubRead, *]

@[simp] theorem dropShaft_keeps {r0 : State} (c col : Nat) {s : State} (hK : Keeps r0 s) :
    Keeps r0 (dropShaft c col s) := by simp (maxDischargeDepth := 30) [dropShaft, *]

@[simp] theorem failShaft_keeps {r0 : State} (c role : Nat) {s : State} (hK : Keeps r0 s) :
    Keeps r0 (failShaft c role s) := by
  unfold failShaft
  (repeat' split) <;> simp (maxDischargeDepth := 30) [*]

@[simp] theorem exhaustShaft_keeps {r0 : State} (c role group : Nat) {s : State} (hK : Keeps r0 s) :
    Keeps r0 (exhaustShaft c role group s) := by simp (maxDischargeDepth := 30) [exhaustShaft, *]

@[simp] theorem nameLane_keeps {r0 : State} (c role group lane : Nat) {s : State} (hK : Keeps r0 s) :
    Keeps r0 (nameLane c role group lane s) := by
  unfold nameLane
  dsimp only
  (repeat' split) <;> simp (maxDischargeDepth := 30) [*]

@[simp] theorem execShaftResend_keeps {r0 : State} (c role : Nat) (command : Bool) (fails group : Nat) (lanes : List Nat) {s : State} (hK : Keeps r0 s) :
    KeepsRes r0 (execShaftResend c role command fails group lanes s) := by
  unfold execShaftResend
  repeat' (first
    | (simp (maxDischargeDepth := 30) [*]; done)
    | (simp +contextual (maxDischargeDepth := 30) [*]; done)
    | (refine keeps_foldl _ _ _ (fun s a h => ?_) ?_)
    | (refine keeps_foldl_fst _ _ _ (fun s a h => ?_) ?_)
    | (refine keeps_foldl_snd _ _ _ (fun s a h => ?_) ?_)
    | (extract_lets +onlyGivenNames x
       first
         | (have hx : Keeps r0 x := by (first | (simp (maxDischargeDepth := 30) [x, *]; done) | (simp +contextual (maxDischargeDepth := 30) [x, *]; done) | ((try unfold x); (try dsimp only); (repeat' split) <;> simp (maxDischargeDepth := 30) [*]; done))
            clear_value x)
         | (have hx : Keeps r0 x.2 := by (first | (simp (maxDischargeDepth := 30) [x, *]; done) | (simp +contextual (maxDischargeDepth := 30) [x, *]; done) | ((try unfold x); (try dsimp only); (repeat' split) <;> simp (maxDischargeDepth := 30) [*]; done))
            clear_value x)
         | (have hx : Keeps r0 x.1 := by (first | (simp (maxDischargeDepth := 30) [x, *]; done) | (simp +contextual (maxDischargeDepth := 30) [x, *]; done) | ((try unfold x); (try dsimp only); (repeat' split) <;> simp (maxDischargeDepth := 30) [*]; done))
            clear_value x)
         | clear_value x)
    | (split <;> (try (rename_i e
                       first
                         | have k := keeps_of_snd (r := r0) e (by clear e; simp (maxDischargeDepth := 30) [*]; done)
                         | have k := keeps_of_fst (r := r0) e (by clear e; simp (maxDischargeDepth := 30) [*]; done)
                         | have k := keeps_of_opt (r := r0) e (by clear e; simp (maxDischargeDepth := 30) [*]; done)
                         | have k := keeps_of_optFst (r := r0) e (by clear e; simp (maxDischargeDepth := 30) [*]; done)))))

@[simp] theorem chkTake_keeps {r0 : State} (u dpa : Nat) (data : List Byte) {s : State} (hK : Keeps r0 s) :
    Keeps r0 (chkTake u dpa data s) := by simp (maxDischargeDepth := 30) [chkTake, *]

@[simp] theorem execChkLine_keeps {r0 : State} (src index dpa : Nat) (data : List Byte) {s : State} (hK : Keeps r0 s) :
    KeepsRes r0 (execChkLine src index dpa data s) := by
  unfold execChkLine
  repeat' (first
    | (simp (maxDischargeDepth := 30) [*]; done)
    | (simp +contextual (maxDischargeDepth := 30) [*]; done)
    | (refine keeps_foldl _ _ _ (fun s a h => ?_) ?_)
    | (refine keeps_foldl_fst _ _ _ (fun s a h => ?_) ?_)
    | (refine keeps_foldl_snd _ _ _ (fun s a h => ?_) ?_)
    | (extract_lets +onlyGivenNames x
       first
         | (have hx : Keeps r0 x := by (first | (simp (maxDischargeDepth := 30) [x, *]; done) | (simp +contextual (maxDischargeDepth := 30) [x, *]; done) | ((try unfold x); (try dsimp only); (repeat' split) <;> simp (maxDischargeDepth := 30) [*]; done))
            clear_value x)
         | (have hx : Keeps r0 x.2 := by (first | (simp (maxDischargeDepth := 30) [x, *]; done) | (simp +contextual (maxDischargeDepth := 30) [x, *]; done) | ((try unfold x); (try dsimp only); (repeat' split) <;> simp (maxDischargeDepth := 30) [*]; done))
            clear_value x)
         | (have hx : Keeps r0 x.1 := by (first | (simp (maxDischargeDepth := 30) [x, *]; done) | (simp +contextual (maxDischargeDepth := 30) [x, *]; done) | ((try unfold x); (try dsimp only); (repeat' split) <;> simp (maxDischargeDepth := 30) [*]; done))
            clear_value x)
         | clear_value x)
    | (split <;> (try (rename_i e
                       first
                         | have k := keeps_of_snd (r := r0) e (by clear e; simp (maxDischargeDepth := 30) [*]; done)
                         | have k := keeps_of_fst (r := r0) e (by clear e; simp (maxDischargeDepth := 30) [*]; done)
                         | have k := keeps_of_opt (r := r0) e (by clear e; simp (maxDischargeDepth := 30) [*]; done)
                         | have k := keeps_of_optFst (r := r0) e (by clear e; simp (maxDischargeDepth := 30) [*]; done)))))

@[simp] theorem chkPut_keeps {r0 : State} (r : Requester) (u off : Nat) (f : Chk → Chk) {s : State} (hK : Keeps r0 s) :
    Keeps r0 (chkPut r u off f s) := by simp (maxDischargeDepth := 30) [chkPut, *]

@[simp] theorem execChkCtrlWrite_keeps {r0 : State} (r : Requester) (u : Nat) (v : Word) {s : State} (hK : Keeps r0 s) :
    KeepsRes r0 (execChkCtrlWrite r u v s) := by simp (maxDischargeDepth := 30) [execChkCtrlWrite, *]

end Sys2Proof.Machine
end

