-- ==== Sys2Proof/Laws/KeepsFace.lean ====
section
/-! SUPPORT. What the operations of Machine/Face.lean keep (Laws/Keeps.lean). -/

set_option Elab.async false
set_option linter.unusedTactic false
set_option linter.unreachableTactic false

namespace Sys2Proof.Machine

@[simp] theorem faceWord_keeps {r0 : State} (r : Requester) (n i : Nat) (v : Word) {s : State} (hK : Keeps r0 s) :
    Keeps r0 (faceWord r n i v s) := by
  unfold faceWord
  (repeat' split) <;> simp (maxDischargeDepth := 30) [*]

@[simp] theorem execFaceLaunchEnqueue_keeps {r0 : State} (r : Requester) (n : Nat) (v : Word) {s : State} (hK : Keeps r0 s) :
    KeepsRes r0 (execFaceLaunchEnqueue r n v s) := by simp (maxDischargeDepth := 30) [execFaceLaunchEnqueue, *]

@[simp] theorem faceFence_keeps {r0 : State} (n : Nat) (st : Status) {s : State} (hK : Keeps r0 s) :
    Keeps r0 (faceFence n st s) := by
  unfold faceFence
  repeat' (first
    | (simp (maxDischargeDepth := 30) [*]; done)
    | (simp +contextual (maxDischargeDepth := 30) [*]; done)
    | (refine keeps_foldl _ _ _ (fun s a h => ?_) ?_)
    | (refine keeps_foldl_fst _ _ _ (fun s a h => ?_) ?_)
    | (refine keeps_foldl_snd _ _ _ (fun s a h => ?_) ?_)
    | (extract_lets +onlyGivenNames x
       first
         | (have hx : Keeps r0 x := by (first | (simp (maxDischargeDepth := 30) [x, *]; done) | (simp +contextual (maxDischargeDepth := 30) [x, *]; done) | ((try unfold x); (try dsimp only); (repeat' split) <;> simp (maxDischargeDepth := 30) [*]; done))
            clear_value x)
         | (have hx : Keeps r0 x.2 := by (first | (simp (maxDischargeDepth := 30) [x, *]; done) | (simp +contextual (maxDischargeDepth := 30) [x, *]; done) | ((try unfold x); (try dsimp only); (repeat' split) <;> simp (maxDischargeDepth := 30) [*]; done))
            clear_value x)
         | (have hx : Keeps r0 x.1 := by (first | (simp (maxDischargeDepth := 30) [x, *]; done) | (simp +contextual (maxDischargeDepth := 30) [x, *]; done) | ((try unfold x); (try dsimp only); (repeat' split) <;> simp (maxDischargeDepth := 30) [*]; done))
            clear_value x)
         | clear_value x)
    | (split <;> (try (rename_i e
                       first
                         | have k := keeps_of_snd (r := r0) e (by clear e; simp (maxDischargeDepth := 30) [*]; done)
                         | have k := keeps_of_fst (r := r0) e (by clear e; simp (maxDischargeDepth := 30) [*]; done)
                         | have k := keeps_of_opt (r := r0) e (by clear e; simp (maxDischargeDepth := 30) [*]; done)
                         | have k := keeps_of_optFst (r := r0) e (by clear e; simp (maxDischargeDepth := 30) [*]; done)))))

@[simp] theorem faceIssue_keeps {r0 : State} (n : Nat) (k : Stroke) {s : State} (hK : Keeps r0 s) :
    Keeps r0 (faceIssue n k s) := by simp (maxDischargeDepth := 30) [faceIssue, *]

@[simp] theorem faceTake_keeps {r0 : State} (n : Nat) (l : FLaunch) (rest : List FLaunch) {s : State} (hK : Keeps r0 s) :
    Keeps r0 (faceTake n l rest s) := by
  unfold faceTake
  repeat' (first
    | (simp (maxDischargeDepth := 30) [*]; done)
    | (simp +contextual (maxDischargeDepth := 30) [*]; done)
    | (refine keeps_foldl _ _ _ (fun s a h => ?_) ?_)
    | (refine keeps_foldl_fst _ _ _ (fun s a h => ?_) ?_)
    | (refine keeps_foldl_snd _ _ _ (fun s a h => ?_) ?_)
    | (extract_lets +onlyGivenNames x
       first
         | (have hx : Keeps r0 x := by (first | (simp (maxDischargeDepth := 30) [x, *]; done) | (simp +contextual (maxDischargeDepth := 30) [x, *]; done) | ((try unfold x); (try dsimp only); (repeat' split) <;> simp (maxDischargeDepth := 30) [*]; done))
            clear_value x)
         | (have hx : Keeps r0 x.2 := by (first | (simp (maxDischargeDepth := 30) [x, *]; done) | (simp +contextual (maxDischargeDepth := 30) [x, *]; done) | ((try unfold x); (try dsimp only); (repeat' split) <;> simp (maxDischargeDepth := 30) [*]; done))
            clear_value x)
         | (have hx : Keeps r0 x.1 := by (first | (simp (maxDischargeDepth := 30) [x, *]; done) | (simp +contextual (maxDischargeDepth := 30) [x, *]; done) | ((try unfold x); (try dsimp only); (repeat' split) <;> simp (maxDischargeDepth := 30) [*]; done))
            clear_value x)
         | clear_value x)
    | (split <;> (try (rename_i e
                       first
                         | have k := keeps_of_snd (r := r0) e (by clear e; simp (maxDischargeDepth := 30) [*]; done)
                         | have k := keeps_of_fst (r := r0) e (by clear e; simp (maxDischargeDepth := 30) [*]; done)
                         | have k := keeps_of_opt (r := r0) e (by clear e; simp (maxDischargeDepth := 30) [*]; done)
                         | have k := keeps_of_optFst (r := r0) e (by clear e; simp (maxDischargeDepth := 30) [*]; done)))))

@[simp] theorem execFaceFetch_keeps {r0 : State} (n : Nat) {s : State} (hK : Keeps r0 s) :
    KeepsRes r0 (execFaceFetch n s) := by
  unfold execFaceFetch
  (repeat' split) <;> simp (maxDischargeDepth := 30) [*]

@[simp] theorem execFaceFetchDone_keeps {r0 : State} (n : Nat) {s : State} (hK : Keeps r0 s) :
    KeepsRes r0 (execFaceFetchDone n s) := by simp (maxDischargeDepth := 30) [execFaceFetchDone, *]

@[simp] theorem seamLines_keeps {r0 : State} (n first : Nat) (y1 : Nat) {s : State} (hK : Keeps r0 s) :
    Keeps r0 (seamLines n first y1 s).1 := by
  induction y1 generalizing s with
  | zero => simp (maxDischargeDepth := 30) [seamLines, *]
  | succ n ih => simp (maxDischargeDepth := 30) [seamLines, *]

@[simp] theorem putLines_keeps {r0 : State} (n first : Nat) (bs : List Byte) (k : Nat) {s : State} (hK : Keeps r0 s) :
    Keeps r0 (putLines n first bs k s) := by
  unfold putLines
  repeat' (first
    | (simp (maxDischargeDepth := 30) [*]; done)
    | (simp +contextual (maxDischargeDepth := 30) [*]; done)
    | (refine keeps_foldl _ _ _ (fun s a h => ?_) ?_)
    | (refine keeps_foldl_fst _ _ _ (fun s a h => ?_) ?_)
    | (refine keeps_foldl_snd _ _ _ (fun s a h => ?_) ?_)
    | (extract_lets +onlyGivenNames x
       first
         | (have hx : Keeps r0 x := by (first | (simp (maxDischargeDepth := 30) [x, *]; done) | (simp +contextual (maxDischargeDepth := 30) [x, *]; done) | ((try unfold x); (try dsimp only); (repeat' split) <;> simp (maxDischargeDepth := 30) [*]; done))
            clear_value x)
         | (have hx : Keeps r0 x.2 := by (first | (simp (maxDischargeDepth := 30) [x, *]; done) | (simp +contextual (maxDischargeDepth := 30) [x, *]; done) | ((try unfold x); (try dsimp only); (repeat' split) <;> simp (maxDischargeDepth := 30) [*]; done))
            clear_value x)
         | (have hx : Keeps r0 x.1 := by (first | (simp (maxDischargeDepth := 30) [x, *]; done) | (simp +contextual (maxDischargeDepth := 30) [x, *]; done) | ((try unfold x); (try dsimp only); (repeat' split) <;> simp (maxDischargeDepth := 30) [*]; done))
            clear_value x)
         | clear_value x)
    | (split <;> (try (rename_i e
                       first
                         | have k := keeps_of_snd (r := r0) e (by clear e; simp (maxDischargeDepth := 30) [*]; done)
                         | have k := keeps_of_fst (r := r0) e (by clear e; simp (maxDischargeDepth := 30) [*]; done)
                         | have k := keeps_of_opt (r := r0) e (by clear e; simp (maxDischargeDepth := 30) [*]; done)
                         | have k := keeps_of_optFst (r := r0) e (by clear e; simp (maxDischargeDepth := 30) [*]; done)))))

@[simp] theorem popStroke_keeps {r0 : State} (n : Nat) {s : State} (hK : Keeps r0 s) :
    Keeps r0 (popStroke n s) := by simp (maxDischargeDepth := 30) [popStroke, *]

@[simp] theorem strokeOver_keeps {r0 : State} (n : Nat) (k : Stroke) {s : State} (hK : Keeps r0 s) :
    Keeps r0 (strokeOver n k s) := by
  unfold strokeOver
  repeat' (first
    | (simp (maxDischargeDepth := 30) [*]; done)
    | (simp +contextual (maxDischargeDepth := 30) [*]; done)
    | (refine keeps_foldl _ _ _ (fun s a h => ?_) ?_)
    | (refine keeps_foldl_fst _ _ _ (fun s a h => ?_) ?_)
    | (refine keeps_foldl_snd _ _ _ (fun s a h => ?_) ?_)
    | (extract_lets +onlyGivenNames x
       first
         | (have hx : Keeps r0 x := by (first | (simp (maxDischargeDepth := 30) [x, *]; done) | (simp +contextual (maxDischargeDepth := 30) [x, *]; done) | ((try unfold x); (try dsimp only); (repeat' split) <;> simp (maxDischargeDepth := 30) [*]; done))
            clear_value x)
         | (have hx : Keeps r0 x.2 := by (first | (simp (maxDischargeDepth := 30) [x, *]; done) | (simp +contextual (maxDischargeDepth := 30) [x, *]; done) | ((try unfold x); (try dsimp only); (repeat' split) <;> simp (maxDischargeDepth := 30) [*]; done))
            clear_value x)
         | (have hx : Keeps r0 x.1 := by (first | (simp (maxDischargeDepth := 30) [x, *]; done) | (simp +contextual (maxDischargeDepth := 30) [x, *]; done) | ((try unfold x); (try dsimp only); (repeat' split) <;> simp (maxDischargeDepth := 30) [*]; done))
            clear_value x)
         | clear_value x)
    | (split <;> (try (rename_i e
                       first
                         | have k := keeps_of_snd (r := r0) e (by clear e; simp (maxDischargeDepth := 30) [*]; done)
                         | have k := keeps_of_fst (r := r0) e (by clear e; simp (maxDischargeDepth := 30) [*]; done)
                         | have k := keeps_of_opt (r := r0) e (by clear e; simp (maxDischargeDepth := 30) [*]; done)
                         | have k := keeps_of_optFst (r := r0) e (by clear e; simp (maxDischargeDepth := 30) [*]; done)))))

@[simp] theorem execStrokeEnd_keeps {r0 : State} (n : Nat) {s : State} (hK : Keeps r0 s) :
    KeepsRes r0 (execStrokeEnd n s) := by
  unfold execStrokeEnd
  (repeat' split) <;> simp (maxDischargeDepth := 30) [*]

@[simp] theorem execFaceProgramComplete_keeps {r0 : State} (n : Nat) {s : State} (hK : Keeps r0 s) :
    KeepsRes r0 (execFaceProgramComplete n s) := by
  unfold execFaceProgramComplete
  dsimp only
  (repeat' split) <;> simp (maxDischargeDepth := 30) [*]

@[simp] theorem execFaceTimeLimit_keeps {r0 : State} (n : Nat) {s : State} (hK : Keeps r0 s) :
    KeepsRes r0 (execFaceTimeLimit n s) := by simp (maxDischargeDepth := 30) [execFaceTimeLimit, *]

@[simp] theorem faceNext_keeps {r0 : State} (n : Nat) {s : State} (hK : Keeps r0 s) :
    Keeps r0 (faceNext n s) := by simp (maxDischargeDepth := 30) [faceNext, *]

@[simp] theorem progRead_keeps {r0 : State} (n pc : Nat) {s : State} (hK : Keeps r0 s) :
    Keeps r0 (progRead n pc s) := by simp (maxDischargeDepth := 30) [progRead, *]

@[simp] theorem faceStep_keeps {r0 : State} (n op : Nat) (stroke : Bool) (w : InstrWord) (f : State → State) {s : State} (hFf : ∀ a0, Keeps r0 a0 → Keeps r0 (f a0)) (hK : Keeps r0 s) :
    KeepsRes r0 (faceStep n op stroke w f s) := by simp (maxDischargeDepth := 30) [faceStep, *]

@[simp] theorem faceStroke_keeps {r0 : State} (n op lines p q : Nat) (w : InstrWord) {s : State} (hK : Keeps r0 s) :
    Keeps r0 (faceStroke n op lines p q w s) := by
  unfold faceStroke
  (repeat' split) <;> simp (maxDischargeDepth := 30) [*]

@[simp] theorem execFaceSld_keeps {r0 : State} (n : Nat) (w : InstrWord) {s : State} (hK : Keeps r0 s) :
    KeepsRes r0 (execFaceSld n w s) := by
  unfold execFaceSld
  repeat' (first
    | (simp (maxDischargeDepth := 30) [*]; done)
    | (simp +contextual (maxDischargeDepth := 30) [*]; done)
    | (refine keeps_foldl _ _ _ (fun s a h => ?_) ?_)
    | (refine keeps_foldl_fst _ _ _ (fun s a h => ?_) ?_)
    | (refine keeps_foldl_snd _ _ _ (fun s a h => ?_) ?_)
    | (extract_lets +onlyGivenNames x
       first
         | (have hx : Keeps r0 x := by (first | (simp (maxDischargeDepth := 30) [x, *]; done) | (simp +contextual (maxDischargeDepth := 30) [x, *]; done) | ((try unfold x); (try dsimp only); (repeat' split) <;> simp (maxDischargeDepth := 30) [*]; done))
            clear_value x)
         | (have hx : Keeps r0 x.2 := by (first | (simp (maxDischargeDepth := 30) [x, *]; done) | (simp +contextual (maxDischargeDepth := 30) [x, *]; done) | ((try unfold x); (try dsimp only); (repeat' split) <;> simp (maxDischargeDepth := 30) [*]; done))
            clear_value x)
         | (have hx : Keeps r0 x.1 := by (first | (simp (maxDischargeDepth := 30) [x, *]; done) | (simp +contextual (maxDischargeDepth := 30) [x, *]; done) | ((try unfold x); (try dsimp only); (repeat' split) <;> simp (maxDischargeDepth := 30) [*]; done))
            clear_value x)
         | clear_value x)
    | (split <;> (try (rename_i e
                       first
                         | have k := keeps_of_snd (r := r0) e (by clear e; simp (maxDischargeDepth := 30) [*]; done)
                         | have k := keeps_of_fst (r := r0) e (by clear e; simp (maxDischargeDepth := 30) [*]; done)
                         | have k := keeps_of_opt (r := r0) e (by clear e; simp (maxDischargeDepth := 30) [*]; done)
                         | have k := keeps_of_optFst (r := r0) e (by clear e; simp (maxDischargeDepth := 30) [*]; done)))))

@[simp] theorem execFaceSst_keeps {r0 : State} (n : Nat) (w : InstrWord) {s : State} (hK : Keeps r0 s) :
    KeepsRes r0 (execFaceSst n w s) := by
  unfold execFaceSst
  repeat' (first
    | (simp (maxDischargeDepth := 30) [*]; done)
    | (simp +contextual (maxDischargeDepth := 30) [*]; done)
    | (refine keeps_foldl _ _ _ (fun s a h => ?_) ?_)
    | (refine keeps_foldl_fst _ _ _ (fun s a h => ?_) ?_)
    | (refine keeps_foldl_snd _ _ _ (fun s a h => ?_) ?_)
    | (extract_lets +onlyGivenNames x
       first
         | (have hx : Keeps r0 x := by (first | (simp (maxDischargeDepth := 30) [x, *]; done) | (simp +contextual (maxDischargeDepth := 30) [x, *]; done) | ((try unfold x); (try dsimp only); (repeat' split) <;> simp (maxDischargeDepth := 30) [*]; done))
            clear_value x)
         | (have hx : Keeps r0 x.2 := by (first | (simp (maxDischargeDepth := 30) [x, *]; done) | (simp +contextual (maxDischargeDepth := 30) [x, *]; done) | ((try unfold x); (try dsimp only); (repeat' split) <;> simp (maxDischargeDepth := 30) [*]; done))
            clear_value x)
         | (have hx : Keeps r0 x.1 := by (first | (simp (maxDischargeDepth := 30) [x, *]; done) | (simp +contextual (maxDischargeDepth := 30) [x, *]; done) | ((try unfold x); (try dsimp only); (repeat' split) <;> simp (maxDischargeDepth := 30) [*]; done))
            clear_value x)
         | clear_value x)
    | (split <;> (try (rename_i e
                       first
                         | have k := keeps_of_snd (r := r0) e (by clear e; simp (maxDischargeDepth := 30) [*]; done)
                         | have k := keeps_of_fst (r := r0) e (by clear e; simp (maxDischargeDepth := 30) [*]; done)
                         | have k := keeps_of_opt (r := r0) e (by clear e; simp (maxDischargeDepth := 30) [*]; done)
                         | have k := keeps_of_optFst (r := r0) e (by clear e; simp (maxDischargeDepth := 30) [*]; done)))))

@[simp] theorem execFaceSnw_keeps {r0 : State} (n : Nat) (w : InstrWord) {s : State} (hK : Keeps r0 s) :
    KeepsRes r0 (execFaceSnw n w s) := by
  unfold execFaceSnw
  repeat' (first
    | (simp (maxDischargeDepth := 30) [*]; done)
    | (simp +contextual (maxDischargeDepth := 30) [*]; done)
    | (refine keeps_foldl _ _ _ (fun s a h => ?_) ?_)
    | (refine keeps_foldl_fst _ _ _ (fun s a h => ?_) ?_)
    | (refine keeps_foldl_snd _ _ _ (fun s a h => ?_) ?_)
    | (extract_lets +onlyGivenNames x
       first
         | (have hx : Keeps r0 x := by (first | (simp (maxDischargeDepth := 30) [x, *]; done) | (simp +contextual (maxDischargeDepth := 30) [x, *]; done) | ((try unfold x); (try dsimp only); (repeat' split) <;> simp (maxDischargeDepth := 30) [*]; done))
            clear_value x)
         | (have hx : Keeps r0 x.2 := by (first | (simp (maxDischargeDepth := 30) [x, *]; done) | (simp +contextual (maxDischargeDepth := 30) [x, *]; done) | ((try unfold x); (try dsimp only); (repeat' split) <;> simp (maxDischargeDepth := 30) [*]; done))
            clear_value x)
         | (have hx : Keeps r0 x.1 := by (first | (simp (maxDischargeDepth := 30) [x, *]; done) | (simp +contextual (maxDischargeDepth := 30) [x, *]; done) | ((try unfold x); (try dsimp only); (repeat' split) <;> simp (maxDischargeDepth := 30) [*]; done))
            clear_value x)
         | clear_value x)
    | (split <;> (try (rename_i e
                       first
                         | have k := keeps_of_snd (r := r0) e (by clear e; simp (maxDischargeDepth := 30) [*]; done)
                         | have k := keeps_of_fst (r := r0) e (by clear e; simp (maxDischargeDepth := 30) [*]; done)
                         | have k := keeps_of_opt (r := r0) e (by clear e; simp (maxDischargeDepth := 30) [*]; done)
                         | have k := keeps_of_optFst (r := r0) e (by clear e; simp (maxDischargeDepth := 30) [*]; done)))))

@[simp] theorem faceWrite_keeps {r0 : State} (n : Nat) (w : InstrWord) (r : RowRes) {s : State} (hK : Keeps r0 s) :
    Keeps r0 (faceWrite n w r s) := by simp (maxDischargeDepth := 30) [faceWrite, *]

@[simp] theorem faceChecked_keeps {r0 : State} (n : Nat) (w : InstrWord) (mm : Nat) (r : RowRes) {s : State} (hK : Keeps r0 s) :
    Keeps r0 (faceChecked n w mm r s) := by
  unfold faceChecked
  (repeat' split) <;> simp (maxDischargeDepth := 30) [*]

@[simp] theorem faceArith_keeps {r0 : State} (n op : Nat) (w : InstrWord) (mm : Nat) (g : Face → RowRes) {s : State} (hK : Keeps r0 s) :
    KeepsRes r0 (faceArith n op w mm g s) := by
  unfold faceArith
  repeat' (first
    | (simp (maxDischargeDepth := 30) [*]; done)
    | (simp +contextual (maxDischargeDepth := 30) [*]; done)
    | (refine keeps_foldl _ _ _ (fun s a h => ?_) ?_)
    | (refine keeps_foldl_fst _ _ _ (fun s a h => ?_) ?_)
    | (refine keeps_foldl_snd _ _ _ (fun s a h => ?_) ?_)
    | (extract_lets +onlyGivenNames x
       first
         | (have hx : Keeps r0 x := by (first | (simp (maxDischargeDepth := 30) [x, *]; done) | (simp +contextual (maxDischargeDepth := 30) [x, *]; done) | ((try unfold x); (try dsimp only); (repeat' split) <;> simp (maxDischargeDepth := 30) [*]; done))
            clear_value x)
         | (have hx : Keeps r0 x.2 := by (first | (simp (maxDischargeDepth := 30) [x, *]; done) | (simp +contextual (maxDischargeDepth := 30) [x, *]; done) | ((try unfold x); (try dsimp only); (repeat' split) <;> simp (maxDischargeDepth := 30) [*]; done))
            clear_value x)
         | (have hx : Keeps r0 x.1 := by (first | (simp (maxDischargeDepth := 30) [x, *]; done) | (simp +contextual (maxDischargeDepth := 30) [x, *]; done) | ((try unfold x); (try dsimp only); (repeat' split) <;> simp (maxDischargeDepth := 30) [*]; done))
            clear_value x)
         | clear_value x)
    | (split <;> (try (rename_i e
                       first
                         | have k := keeps_of_snd (r := r0) e (by clear e; simp (maxDischargeDepth := 30) [*]; done)
                         | have k := keeps_of_fst (r := r0) e (by clear e; simp (maxDischargeDepth := 30) [*]; done)
                         | have k := keeps_of_opt (r := r0) e (by clear e; simp (maxDischargeDepth := 30) [*]; done)
                         | have k := keeps_of_optFst (r := r0) e (by clear e; simp (maxDischargeDepth := 30) [*]; done)))))

@[simp] theorem bufReads_keeps {r0 : State} (n : Nat) (y1 : List (Nat × Nat)) {s : State} (hK : Keeps r0 s) :
    Keeps r0 (bufReads n y1 s).1 := by
  induction y1 generalizing s with
  | nil =>
    unfold bufReads
    (repeat' split) <;> simp (maxDischargeDepth := 30) [*]
  | cons a l ih =>
    unfold bufReads
    repeat' (first
      | (simp (maxDischargeDepth := 30) [*]; done)
      | (simp +contextual (maxDischargeDepth := 30) [*]; done)
      | (refine keeps_foldl _ _ _ (fun s a h => ?_) ?_)
      | (refine keeps_foldl_fst _ _ _ (fun s a h => ?_) ?_)
      | (refine keeps_foldl_snd _ _ _ (fun s a h => ?_) ?_)
      | (extract_lets +onlyGivenNames x
         first
           | (have hx : Keeps r0 x := by (first | (simp (maxDischargeDepth := 30) [x, *]; done) | (simp +contextual (maxDischargeDepth := 30) [x, *]; done) | ((try unfold x); (try dsimp only); (repeat' split) <;> simp (maxDischargeDepth := 30) [*]; done))
              clear_value x)
           | (have hx : Keeps r0 x.2 := by (first | (simp (maxDischargeDepth := 30) [x, *]; done) | (simp +contextual (maxDischargeDepth := 30) [x, *]; done) | ((try unfold x); (try dsimp only); (repeat' split) <;> simp (maxDischargeDepth := 30) [*]; done))
              clear_value x)
           | (have hx : Keeps r0 x.1 := by (first | (simp (maxDischargeDepth := 30) [x, *]; done) | (simp +contextual (maxDischargeDepth := 30) [x, *]; done) | ((try unfold x); (try dsimp only); (repeat' split) <;> simp (maxDischargeDepth := 30) [*]; done))
              clear_value x)
           | clear_value x)
      | (split <;> (try (rename_i e
                         first
                           | have k := keeps_of_snd (r := r0) e (by clear e; simp (maxDischargeDepth := 30) [*]; done)
                           | have k := keeps_of_fst (r := r0) e (by clear e; simp (maxDischargeDepth := 30) [*]; done)
                           | have k := keeps_of_opt (r := r0) e (by clear e; simp (maxDischargeDepth := 30) [*]; done)
                           | have k := keeps_of_optFst (r := r0) e (by clear e; simp (maxDischargeDepth := 30) [*]; done)))))

@[simp] theorem execFaceLdr_keeps {r0 : State} (n : Nat) (w : InstrWord) (mm : Nat) {s : State} (hK : Keeps r0 s) :
    KeepsRes r0 (execFaceLdr n w mm s) := by
  unfold execFaceLdr
  repeat' (first
    | (simp (maxDischargeDepth := 30) [*]; done)
    | (simp +contextual (maxDischargeDepth := 30) [*]; done)
    | (refine keeps_foldl _ _ _ (fun s a h => ?_) ?_)
    | (refine keeps_foldl_fst _ _ _ (fun s a h => ?_) ?_)
    | (refine keeps_foldl_snd _ _ _ (fun s a h => ?_) ?_)
    | (refine faceStep_keeps _ _ _ _ _ (fun _ hK => ?_) ?_)
    | (extract_lets +onlyGivenNames x
       first
         | (have hx : Keeps r0 x := by (first | (simp (maxDischargeDepth := 30) [x, *]; done) | (simp +contextual (maxDischargeDepth := 30) [x, *]; done) | ((try unfold x); (try dsimp only); (repeat' split) <;> simp (maxDischargeDepth := 30) [*]; done))
            clear_value x)
         | (have hx : Keeps r0 x.2 := by (first | (simp (maxDischargeDepth := 30) [x, *]; done) | (simp +contextual (maxDischargeDepth := 30) [x, *]; done) | ((try unfold x); (try dsimp only); (repeat' split) <;> simp (maxDischargeDepth := 30) [*]; done))
            clear_value x)
         | (have hx : Keeps r0 x.1 := by (first | (simp (maxDischargeDepth := 30) [x, *]; done) | (simp +contextual (maxDischargeDepth := 30) [x, *]; done) | ((try unfold x); (try dsimp only); (repeat' split) <;> simp (maxDischargeDepth := 30) [*]; done))
            clear_value x)
         | clear_value x)
    | (split <;> (try (rename_i e
                       first
                         | have k := keeps_of_snd (r := r0) e (by clear e; simp (maxDischargeDepth := 30) [*]; done)
                         | have k := keeps_of_fst (r := r0) e (by clear e; simp (maxDischargeDepth := 30) [*]; done)
                         | have k := keeps_of_opt (r := r0) e (by clear e; simp (maxDischargeDepth := 30) [*]; done)
                         | have k := keeps_of_optFst (r := r0) e (by clear e; simp (maxDischargeDepth := 30) [*]; done)))))

@[simp] theorem bufWrites_keeps {r0 : State} (n : Nat) (parts : List (Nat × List Byte)) {s : State} (hK : Keeps r0 s) :
    Keeps r0 (bufWrites n parts s).1 := by
  unfold bufWrites
  extract_lets r
  have hr : Keeps r0 r.1 := by
    refine keeps_foldl_fst _ _ _ (fun p a h => ?_) hK
    simp (maxDischargeDepth := 30) [*]
  clear_value r
  split
  · exact hr
  · obtain ⟨h1, h2, h3, h4, h5, h6, h7, h8, h9, h10, h11, h12⟩ := hr
    exact ⟨h1, h2, h3, h4, h5, h6, h7, h8, h9, h10, hK.2.2.2.2.2.2.2.2.2.2.1, h12⟩

@[simp] theorem execFaceStr_keeps {r0 : State} (n : Nat) (w : InstrWord) {s : State} (hK : Keeps r0 s) :
    KeepsRes r0 (execFaceStr n w s) := by
  unfold execFaceStr
  repeat' (first
    | (simp (maxDischargeDepth := 30) [*]; done)
    | (simp +contextual (maxDischargeDepth := 30) [*]; done)
    | (refine keeps_foldl _ _ _ (fun s a h => ?_) ?_)
    | (refine keeps_foldl_fst _ _ _ (fun s a h => ?_) ?_)
    | (refine keeps_foldl_snd _ _ _ (fun s a h => ?_) ?_)
    | (refine faceStep_keeps _ _ _ _ _ (fun _ hK => ?_) ?_)
    | (extract_lets +onlyGivenNames x
       first
         | (have hx : Keeps r0 x := by (first | (simp (maxDischargeDepth := 30) [x, *]; done) | (simp +contextual (maxDischargeDepth := 30) [x, *]; done) | ((try unfold x); (try dsimp only); (repeat' split) <;> simp (maxDischargeDepth := 30) [*]; done))
            clear_value x)
         | (have hx : Keeps r0 x.2 := by (first | (simp (maxDischargeDepth := 30) [x, *]; done) | (simp +contextual (maxDischargeDepth := 30) [x, *]; done) | ((try unfold x); (try dsimp only); (repeat' split) <;> simp (maxDischargeDepth := 30) [*]; done))
            clear_value x)
         | (have hx : Keeps r0 x.1 := by (first | (simp (maxDischargeDepth := 30) [x, *]; done) | (simp +contextual (maxDischargeDepth := 30) [x, *]; done) | ((try unfold x); (try dsimp only); (repeat' split) <;> simp (maxDischargeDepth := 30) [*]; done))
            clear_value x)
         | clear_value x)
    | (split <;> (try (rename_i e
                       first
                         | have k := keeps_of_snd (r := r0) e (by clear e; simp (maxDischargeDepth := 30) [*]; done)
                         | have k := keeps_of_fst (r := r0) e (by clear e; simp (maxDischargeDepth := 30) [*]; done)
                         | have k := keeps_of_opt (r := r0) e (by clear e; simp (maxDischargeDepth := 30) [*]; done)
                         | have k := keeps_of_optFst (r := r0) e (by clear e; simp (maxDischargeDepth := 30) [*]; done)))))

@[simp] theorem biasLanes_keeps {r0 : State} (n line : Nat) (y1 : List (Option Nat)) {s : State} (hK : Keeps r0 s) :
    Keeps r0 (biasLanes n line y1 s).1 := by
  induction y1 generalizing s with
  | nil => exact hK
  | cons a l ih =>
    unfold biasLanes
    extract_lets x
    have hx : Keeps r0 x.1 := by
      unfold x
      split
      · exact hK
      · split
        · rename_i e
          exact keeps_of_fst e (localRead_keeps _ _ _ hK)
        · rename_i e
          exact keeps_of_fst e (localRead_keeps _ _ _ hK)
    clear_value x
    split
    · exact hx
    · exact ih hx

@[simp] theorem execFaceLdb_keeps {r0 : State} (n : Nat) (w : InstrWord) (mm : Nat) {s : State} (hK : Keeps r0 s) :
    KeepsRes r0 (execFaceLdb n w mm s) := by
  unfold execFaceLdb
  repeat' (first
    | (simp (maxDischargeDepth := 30) [*]; done)
    | (simp +contextual (maxDischargeDepth := 30) [*]; done)
    | (refine keeps_foldl _ _ _ (fun s a h => ?_) ?_)
    | (refine keeps_foldl_fst _ _ _ (fun s a h => ?_) ?_)
    | (refine keeps_foldl_snd _ _ _ (fun s a h => ?_) ?_)
    | (refine faceStep_keeps _ _ _ _ _ (fun _ hK => ?_) ?_)
    | (extract_lets +onlyGivenNames x
       first
         | (have hx : Keeps r0 x := by (first | (simp (maxDischargeDepth := 30) [x, *]; done) | (simp +contextual (maxDischargeDepth := 30) [x, *]; done) | ((try unfold x); (try dsimp only); (repeat' split) <;> simp (maxDischargeDepth := 30) [*]; done))
            clear_value x)
         | (have hx : Keeps r0 x.2 := by (first | (simp (maxDischargeDepth := 30) [x, *]; done) | (simp +contextual (maxDischargeDepth := 30) [x, *]; done) | ((try unfold x); (try dsimp only); (repeat' split) <;> simp (maxDischargeDepth := 30) [*]; done))
            clear_value x)
         | (have hx : Keeps r0 x.1 := by (first | (simp (maxDischargeDepth := 30) [x, *]; done) | (simp +contextual (maxDischargeDepth := 30) [x, *]; done) | ((try unfold x); (try dsimp only); (repeat' split) <;> simp (maxDischargeDepth := 30) [*]; done))
            clear_value x)
         | clear_value x)
    | (split <;> (try (rename_i e
                       first
                         | have k := keeps_of_snd (r := r0) e (by clear e; simp (maxDischargeDepth := 30) [*]; done)
                         | have k := keeps_of_fst (r := r0) e (by clear e; simp (maxDischargeDepth := 30) [*]; done)
                         | have k := keeps_of_opt (r := r0) e (by clear e; simp (maxDischargeDepth := 30) [*]; done)
                         | have k := keeps_of_optFst (r := r0) e (by clear e; simp (maxDischargeDepth := 30) [*]; done)))))

@[simp] theorem execFaceAdd_keeps {r0 : State} (n : Nat) (w : InstrWord) (mm : Nat) {s : State} (hK : Keeps r0 s) :
    KeepsRes r0 (execFaceAdd n w mm s) := by simp (maxDischargeDepth := 30) [execFaceAdd, *]

@[simp] theorem execFaceSub_keeps {r0 : State} (n : Nat) (w : InstrWord) (mm : Nat) {s : State} (hK : Keeps r0 s) :
    KeepsRes r0 (execFaceSub n w mm s) := by simp (maxDischargeDepth := 30) [execFaceSub, *]

@[simp] theorem execFaceMul_keeps {r0 : State} (n : Nat) (w : InstrWord) (mm : Nat) {s : State} (hK : Keeps r0 s) :
    KeepsRes r0 (execFaceMul n w mm s) := by simp (maxDischargeDepth := 30) [execFaceMul, *]

@[simp] theorem execFaceMad_keeps {r0 : State} (n : Nat) (w : InstrWord) (mm : Nat) {s : State} (hK : Keeps r0 s) :
    KeepsRes r0 (execFaceMad n w mm s) := by simp (maxDischargeDepth := 30) [execFaceMad, *]

@[simp] theorem execFaceMax_keeps {r0 : State} (n : Nat) (w : InstrWord) (mm : Nat) {s : State} (hK : Keeps r0 s) :
    KeepsRes r0 (execFaceMax n w mm s) := by simp (maxDischargeDepth := 30) [execFaceMax, *]

@[simp] theorem execFaceMin_keeps {r0 : State} (n : Nat) (w : InstrWord) (mm : Nat) {s : State} (hK : Keeps r0 s) :
    KeepsRes r0 (execFaceMin n w mm s) := by simp (maxDischargeDepth := 30) [execFaceMin, *]

@[simp] theorem execFaceIns_keeps {r0 : State} (n : Nat) (w : InstrWord) (mm : Nat) {s : State} (hK : Keeps r0 s) :
    KeepsRes r0 (execFaceIns n w mm s) := by simp (maxDischargeDepth := 30) [execFaceIns, *]

@[simp] theorem execFaceEadd_keeps {r0 : State} (n : Nat) (w : InstrWord) (mm : Nat) {s : State} (hK : Keeps r0 s) :
    KeepsRes r0 (execFaceEadd n w mm s) := by simp (maxDischargeDepth := 30) [execFaceEadd, *]

@[simp] theorem execFaceNorm_keeps {r0 : State} (n : Nat) (w : InstrWord) (mm : Nat) {s : State} (hK : Keeps r0 s) :
    KeepsRes r0 (execFaceNorm n w mm s) := by simp (maxDischargeDepth := 30) [execFaceNorm, *]

@[simp] theorem execFaceRmax_keeps {r0 : State} (n : Nat) (w : InstrWord) (mm : Nat) {s : State} (hK : Keeps r0 s) :
    KeepsRes r0 (execFaceRmax n w mm s) := by simp (maxDischargeDepth := 30) [execFaceRmax, *]

@[simp] theorem execFaceRsum_keeps {r0 : State} (n : Nat) (w : InstrWord) (mm : Nat) {s : State} (hK : Keeps r0 s) :
    KeepsRes r0 (execFaceRsum n w mm s) := by simp (maxDischargeDepth := 30) [execFaceRsum, *]

@[simp] theorem execFaceDot_keeps {r0 : State} (n : Nat) (w : InstrWord) (mm : Nat) {s : State} (hK : Keeps r0 s) :
    KeepsRes r0 (execFaceDot n w mm s) := by simp (maxDischargeDepth := 30) [execFaceDot, *]

@[simp] theorem execFaceFn_keeps {r0 : State} (n : Nat) (w : InstrWord) (mm : Nat) {s : State} (hK : Keeps r0 s) :
    KeepsRes r0 (execFaceFn n w mm s) := by simp (maxDischargeDepth := 30) [execFaceFn, *]

@[simp] theorem execFaceXadd_keeps {r0 : State} (n : Nat) (w : InstrWord) {s : State} (hK : Keeps r0 s) :
    KeepsRes r0 (execFaceXadd n w s) := by
  unfold execFaceXadd
  repeat' (first
    | (simp (maxDischargeDepth := 30) [*]; done)
    | (simp +contextual (maxDischargeDepth := 30) [*]; done)
    | (refine keeps_foldl _ _ _ (fun s a h => ?_) ?_)
    | (refine keeps_foldl_fst _ _ _ (fun s a h => ?_) ?_)
    | (refine keeps_foldl_snd _ _ _ (fun s a h => ?_) ?_)
    | (extract_lets +onlyGivenNames x
       first
         | (have hx : Keeps r0 x := by (first | (simp (maxDischargeDepth := 30) [x, *]; done) | (simp +contextual (maxDischargeDepth := 30) [x, *]; done) | ((try unfold x); (try dsimp only); (repeat' split) <;> simp (maxDischargeDepth := 30) [*]; done))
            clear_value x)
         | (have hx : Keeps r0 x.2 := by (first | (simp (maxDischargeDepth := 30) [x, *]; done) | (simp +contextual (maxDischargeDepth := 30) [x, *]; done) | ((try unfold x); (try dsimp only); (repeat' split) <;> simp (maxDischargeDepth := 30) [*]; done))
            clear_value x)
         | (have hx : Keeps r0 x.1 := by (first | (simp (maxDischargeDepth := 30) [x, *]; done) | (simp +contextual (maxDischargeDepth := 30) [x, *]; done) | ((try unfold x); (try dsimp only); (repeat' split) <;> simp (maxDischargeDepth := 30) [*]; done))
            clear_value x)
         | clear_value x)
    | (split <;> (try (rename_i e
                       first
                         | have k := keeps_of_snd (r := r0) e (by clear e; simp (maxDischargeDepth := 30) [*]; done)
                         | have k := keeps_of_fst (r := r0) e (by clear e; simp (maxDischargeDepth := 30) [*]; done)
                         | have k := keeps_of_opt (r := r0) e (by clear e; simp (maxDischargeDepth := 30) [*]; done)
                         | have k := keeps_of_optFst (r := r0) e (by clear e; simp (maxDischargeDepth := 30) [*]; done)))))

@[simp] theorem execFaceLoop_keeps {r0 : State} (n : Nat) (w : InstrWord) {s : State} (hK : Keeps r0 s) :
    KeepsRes r0 (execFaceLoop n w s) := by
  unfold execFaceLoop
  repeat' (first
    | (simp (maxDischargeDepth := 30) [*]; done)
    | (simp +contextual (maxDischargeDepth := 30) [*]; done)
    | (refine keeps_foldl _ _ _ (fun s a h => ?_) ?_)
    | (refine keeps_foldl_fst _ _ _ (fun s a h => ?_) ?_)
    | (refine keeps_foldl_snd _ _ _ (fun s a h => ?_) ?_)
    | (extract_lets +onlyGivenNames x
       first
         | (have hx : Keeps r0 x := by (first | (simp (maxDischargeDepth := 30) [x, *]; done) | (simp +contextual (maxDischargeDepth := 30) [x, *]; done) | ((try unfold x); (try dsimp only); (repeat' split) <;> simp (maxDischargeDepth := 30) [*]; done))
            clear_value x)
         | (have hx : Keeps r0 x.2 := by (first | (simp (maxDischargeDepth := 30) [x, *]; done) | (simp +contextual (maxDischargeDepth := 30) [x, *]; done) | ((try unfold x); (try dsimp only); (repeat' split) <;> simp (maxDischargeDepth := 30) [*]; done))
            clear_value x)
         | (have hx : Keeps r0 x.1 := by (first | (simp (maxDischargeDepth := 30) [x, *]; done) | (simp +contextual (maxDischargeDepth := 30) [x, *]; done) | ((try unfold x); (try dsimp only); (repeat' split) <;> simp (maxDischargeDepth := 30) [*]; done))
            clear_value x)
         | clear_value x)
    | (split <;> (try (rename_i e
                       first
                         | have k := keeps_of_snd (r := r0) e (by clear e; simp (maxDischargeDepth := 30) [*]; done)
                         | have k := keeps_of_fst (r := r0) e (by clear e; simp (maxDischargeDepth := 30) [*]; done)
                         | have k := keeps_of_opt (r := r0) e (by clear e; simp (maxDischargeDepth := 30) [*]; done)
                         | have k := keeps_of_optFst (r := r0) e (by clear e; simp (maxDischargeDepth := 30) [*]; done)))))

@[simp] theorem execFaceEnd_keeps {r0 : State} (n : Nat) (w : InstrWord) {s : State} (hK : Keeps r0 s) :
    KeepsRes r0 (execFaceEnd n w s) := by
  unfold execFaceEnd
  repeat' (first
    | (simp (maxDischargeDepth := 30) [*]; done)
    | (simp +contextual (maxDischargeDepth := 30) [*]; done)
    | (refine keeps_foldl _ _ _ (fun s a h => ?_) ?_)
    | (refine keeps_foldl_fst _ _ _ (fun s a h => ?_) ?_)
    | (refine keeps_foldl_snd _ _ _ (fun s a h => ?_) ?_)
    | (extract_lets +onlyGivenNames x
       first
         | (have hx : Keeps r0 x := by (first | (simp (maxDischargeDepth := 30) [x, *]; done) | (simp +contextual (maxDischargeDepth := 30) [x, *]; done) | ((try unfold x); (try dsimp only); (repeat' split) <;> simp (maxDischargeDepth := 30) [*]; done))
            clear_value x)
         | (have hx : Keeps r0 x.2 := by (first | (simp (maxDischargeDepth := 30) [x, *]; done) | (simp +contextual (maxDischargeDepth := 30) [x, *]; done) | ((try unfold x); (try dsimp only); (repeat' split) <;> simp (maxDischargeDepth := 30) [*]; done))
            clear_value x)
         | (have hx : Keeps r0 x.1 := by (first | (simp (maxDischargeDepth := 30) [x, *]; done) | (simp +contextual (maxDischargeDepth := 30) [x, *]; done) | ((try unfold x); (try dsimp only); (repeat' split) <;> simp (maxDischargeDepth := 30) [*]; done))
            clear_value x)
         | clear_value x)
    | (split <;> (try (rename_i e
                       first
                         | have k := keeps_of_snd (r := r0) e (by clear e; simp (maxDischargeDepth := 30) [*]; done)
                         | have k := keeps_of_fst (r := r0) e (by clear e; simp (maxDischargeDepth := 30) [*]; done)
                         | have k := keeps_of_opt (r := r0) e (by clear e; simp (maxDischargeDepth := 30) [*]; done)
                         | have k := keeps_of_optFst (r := r0) e (by clear e; simp (maxDischargeDepth := 30) [*]; done)))))

end Sys2Proof.Machine
end

