-- ==== Sys2Proof/Laws/KeepsMill.lean ====
section
/-! SUPPORT. What the operations of Machine/Mill.lean keep (Laws/Keeps.lean). -/

set_option Elab.async false
set_option linter.unusedTactic false
set_option linter.unreachableTactic false

namespace Sys2Proof.Machine

@[simp] theorem shardEnd_keeps {r0 : State} (e : Nat) (sh : Shard) (st : Status) {s : State} (hK : Keeps r0 s) :
    Keeps r0 (shardEnd e sh st s) := by simp (maxDischargeDepth := 30) [shardEnd, *]

@[simp] theorem shardStop_keeps {r0 : State} (e : Nat) (st : Status) {s : State} (hK : Keeps r0 s) :
    Keeps r0 (shardStop e st s) := by simp (maxDischargeDepth := 30) [shardStop, *]

@[simp] theorem millFence_keeps {r0 : State} (e : Nat) {s : State} (hK : Keeps r0 s) :
    Keeps r0 (millFence e s) := by
  unfold millFence
  repeat' (first
    | (simp (maxDischargeDepth := 30) [*]; done)
    | (simp +contextual (maxDischargeDepth := 30) [*]; done)
    | (refine keeps_foldl _ _ _ (fun s a h => ?_) ?_)
    | (refine keeps_foldl_fst _ _ _ (fun s a h => ?_) ?_)
    | (refine keeps_foldl_snd _ _ _ (fun s a h => ?_) ?_)
    | (extract_lets +onlyGivenNames x
       first
         | (have hx : Keeps r0 x := by (first | (simp (maxDischargeDepth := 30) [x, *]; done) | (simp +contextual (maxDischargeDepth := 30) [x, *]; done) | ((try unfold x); (try dsimp only); (repeat' split) <;> simp (maxDischargeDepth := 30) [*]; done))
            clear_value x)
         | (have hx : Keeps r0 x.2 := by (first | (simp (maxDischargeDepth := 30) [x, *]; done) | (simp +contextual (maxDischargeDepth := 30) [x, *]; done) | ((try unfold x); (try dsimp only); (repeat' split) <;> simp (maxDischargeDepth := 30) [*]; done))
            clear_value x)
         | (have hx : Keeps r0 x.1 := by (first | (simp (maxDischargeDepth := 30) [x, *]; done) | (simp +contextual (maxDischargeDepth := 30) [x, *]; done) | ((try unfold x); (try dsimp only); (repeat' split) <;> simp (maxDischargeDepth := 30) [*]; done))
            clear_value x)
         | clear_value x)
    | (split <;> (try (rename_i e
                       first
                         | have k := keeps_of_snd (r := r0) e (by clear e; simp (maxDischargeDepth := 30) [*]; done)
                         | have k := keeps_of_fst (r := r0) e (by clear e; simp (maxDischargeDepth := 30) [*]; done)
                         | have k := keeps_of_opt (r := r0) e (by clear e; simp (maxDischargeDepth := 30) [*]; done)
                         | have k := keeps_of_optFst (r := r0) e (by clear e; simp (maxDischargeDepth := 30) [*]; done)))))

@[simp] theorem armRange_keeps {r0 : State} (e : Nat) (sh : Shard) {s : State} (hK : Keeps r0 s) :
    Keeps r0 (armRange e sh s) := by simp (maxDischargeDepth := 30) [armRange, *]

@[simp] theorem shardSubmit_keeps {r0 : State} (e : Nat) (ws : List Word) (req : Option Nat) {s : State} (hK : Keeps r0 s) :
    Keeps r0 (shardSubmit e ws req s) := by simp (maxDischargeDepth := 30) [shardSubmit, *]

@[simp] theorem millWord_keeps {r0 : State} (r : Requester) (e i : Nat) (v : Word) {s : State} (hK : Keeps r0 s) :
    Keeps r0 (millWord r e i v s) := by simp (maxDischargeDepth := 30) [millWord, *]

@[simp] theorem execShardUpdate_keeps {r0 : State} (r : Requester) (e : Nat) (v : Word) {s : State} (hK : Keeps r0 s) :
    KeepsRes r0 (execShardUpdate r e v s) := by simp (maxDischargeDepth := 30) [execShardUpdate, *]

@[simp] theorem execShardResume_keeps {r0 : State} (r : Requester) (e : Nat) (v : Word) {s : State} (hK : Keeps r0 s) :
    KeepsRes r0 (execShardResume r e v s) := by simp (maxDischargeDepth := 30) [execShardResume, *]

@[simp] theorem mRead_keeps {r0 : State} (e a n : Nat) {s : State} (hK : Keeps r0 s) :
    Keeps r0 (mRead e a n s).1 := by simp (maxDischargeDepth := 30) [mRead, *]

@[simp] theorem mWrite_keeps {r0 : State} (e a : Nat) (bs : List Byte) {s : State} (hK : Keeps r0 s) :
    Keeps r0 (mWrite e a bs s).1 := by simp (maxDischargeDepth := 30) [mWrite, *]

@[simp] theorem orStop_keeps {r0 : State} (e : Nat) (r : State × List Byte × Status) (f : List Byte → State → State) (hPr : Keeps r0 r.1) (hFf : ∀ a0 a1, Keeps r0 a1 → Keeps r0 (f a0 a1)) :
    Keeps r0 (orStop e r f) := by simp (maxDischargeDepth := 30) [orStop, *]

@[simp] theorem millDecode_keeps {r0 : State} (e lo n : Nat) {s : State} (hK : Keeps r0 s) :
    Keeps r0 (millDecode e lo n s).1 := by
  unfold millDecode
  repeat' (first
    | (simp (maxDischargeDepth := 30) [*]; done)
    | (simp +contextual (maxDischargeDepth := 30) [*]; done)
    | (refine keeps_foldl _ _ _ (fun s a h => ?_) ?_)
    | (refine keeps_foldl_fst _ _ _ (fun s a h => ?_) ?_)
    | (refine keeps_foldl_snd _ _ _ (fun s a h => ?_) ?_)
    | (extract_lets +onlyGivenNames x
       first
         | (have hx : Keeps r0 x := by (first | (simp (maxDischargeDepth := 30) [x, *]; done) | (simp +contextual (maxDischargeDepth := 30) [x, *]; done) | ((try unfold x); (try dsimp only); (repeat' split) <;> simp (maxDischargeDepth := 30) [*]; done))
            clear_value x)
         | (have hx : Keeps r0 x.2 := by (first | (simp (maxDischargeDepth := 30) [x, *]; done) | (simp +contextual (maxDischargeDepth := 30) [x, *]; done) | ((try unfold x); (try dsimp only); (repeat' split) <;> simp (maxDischargeDepth := 30) [*]; done))
            clear_value x)
         | (have hx : Keeps r0 x.1 := by (first | (simp (maxDischargeDepth := 30) [x, *]; done) | (simp +contextual (maxDischargeDepth := 30) [x, *]; done) | ((try unfold x); (try dsimp only); (repeat' split) <;> simp (maxDischargeDepth := 30) [*]; done))
            clear_value x)
         | clear_value x)
    | (split <;> (try (rename_i e
                       first
                         | have k := keeps_of_snd (r := r0) e (by clear e; simp (maxDischargeDepth := 30) [*]; done)
                         | have k := keeps_of_fst (r := r0) e (by clear e; simp (maxDischargeDepth := 30) [*]; done)
                         | have k := keeps_of_opt (r := r0) e (by clear e; simp (maxDischargeDepth := 30) [*]; done)
                         | have k := keeps_of_optFst (r := r0) e (by clear e; simp (maxDischargeDepth := 30) [*]; done)))))

@[simp] theorem decoded_keeps {r0 : State} (e lo n : Nat) (f : State → State) {s : State} (hFf : ∀ a0, Keeps r0 a0 → Keeps r0 (f a0)) (hK : Keeps r0 s) :
    Keeps r0 (decoded e lo n f s) := by simp (maxDischargeDepth := 30) [decoded, *]

@[simp] theorem freshLines_keeps {r0 : State} (e lo n : Nat) {s : State} (hK : Keeps r0 s) :
    Keeps r0 (freshLines e lo n s) := by simp (maxDischargeDepth := 30) [freshLines, *]

@[simp] theorem execShardStart_keeps {r0 : State} (e : Nat) {s : State} (hK : Keeps r0 s) :
    KeepsRes r0 (execShardStart e s) := by
  unfold execShardStart
  rw [keepsRes_next]
  refine unlessHeld_keeps _ (fun s hK => ?_) hK
  dsimp only
  split
  · split
    · refine orStop_keeps _ _ _ ?_ (fun ks s h => ?_)
      · exact mRead_keeps _ _ _ (State.setEng_keeps _ _ hK)
      refine orStop_keeps _ _ _ (mRead_keeps _ _ _ h) (fun hd s h => ?_)
      split
      · simp (maxDischargeDepth := 30) [*]
      · refine orStop_keeps _ _ _ (mRead_keeps _ _ _ h) (fun bs s h => ?_)
        have k := freshLines_keeps e 81920 3 (State.setEng_keeps e { s.eng e with prog := wordsOf bs, kregs := (wordsOf ks).mapIdx (fun i k => (i, k)) } h)
        split
        · exact k
        · exact shardStop_keeps _ _ k
    · exact hK
  · exact hK

@[simp] theorem dropLanded_keeps {r0 : State} (e id b : Nat) {s : State} (hK : Keeps r0 s) :
    Keeps r0 (dropLanded e id b s) := by simp (maxDischargeDepth := 30) [dropLanded, *]

@[simp] theorem setShard_keeps {r0 : State} (e : Nat) (sh : Shard) {s : State} (hK : Keeps r0 s) :
    Keeps r0 (setShard e sh s) := by simp (maxDischargeDepth := 30) [setShard, *]

@[simp] theorem showPos_keeps {r0 : State} (e : Nat) {s : State} (hK : Keeps r0 s) :
    Keeps r0 (showPos e s) := by simp (maxDischargeDepth := 30) [showPos, *]

@[simp] theorem startReplay_keeps {r0 : State} (e : Nat) (b : Block) {s : State} (hK : Keeps r0 s) :
    Keeps r0 (startReplay e b s) := by
  unfold startReplay
  repeat' (first
    | (simp (maxDischargeDepth := 30) [*]; done)
    | (simp +contextual (maxDischargeDepth := 30) [*]; done)
    | (refine keeps_foldl _ _ _ (fun s a h => ?_) ?_)
    | (refine keeps_foldl_fst _ _ _ (fun s a h => ?_) ?_)
    | (refine keeps_foldl_snd _ _ _ (fun s a h => ?_) ?_)
    | (extract_lets +onlyGivenNames x
       first
         | (have hx : Keeps r0 x := by (first | (simp (maxDischargeDepth := 30) [x, *]; done) | (simp +contextual (maxDischargeDepth := 30) [x, *]; done) | ((try unfold x); (try dsimp only); (repeat' split) <;> simp (maxDischargeDepth := 30) [*]; done))
            clear_value x)
         | (have hx : Keeps r0 x.2 := by (first | (simp (maxDischargeDepth := 30) [x, *]; done) | (simp +contextual (maxDischargeDepth := 30) [x, *]; done) | ((try unfold x); (try dsimp only); (repeat' split) <;> simp (maxDischargeDepth := 30) [*]; done))
            clear_value x)
         | (have hx : Keeps r0 x.1 := by (first | (simp (maxDischargeDepth := 30) [x, *]; done) | (simp +contextual (maxDischargeDepth := 30) [x, *]; done) | ((try unfold x); (try dsimp only); (repeat' split) <;> simp (maxDischargeDepth := 30) [*]; done))
            clear_value x)
         | clear_value x)
    | (split <;> (try (rename_i e
                       first
                         | have k := keeps_of_snd (r := r0) e (by clear e; simp (maxDischargeDepth := 30) [*]; done)
                         | have k := keeps_of_fst (r := r0) e (by clear e; simp (maxDischargeDepth := 30) [*]; done)
                         | have k := keeps_of_opt (r := r0) e (by clear e; simp (maxDischargeDepth := 30) [*]; done)
                         | have k := keeps_of_optFst (r := r0) e (by clear e; simp (maxDischargeDepth := 30) [*]; done)))))

@[simp] theorem advance_keeps {r0 : State} (e : Nat) {s : State} (hK : Keeps r0 s) :
    Keeps r0 (advance e s) := by
  unfold advance
  dsimp only
  (repeat' split) <;> simp (maxDischargeDepth := 30) [*]

@[simp] theorem readAhead_keeps {r0 : State} (e : Nat) (sh : Shard) (b : Block) {s : State} (hK : Keeps r0 s) :
    Keeps r0 (readAhead e sh b s) := by
  unfold readAhead
  repeat' (first
    | (simp (maxDischargeDepth := 30) [*]; done)
    | (simp +contextual (maxDischargeDepth := 30) [*]; done)
    | (refine keeps_foldl _ _ _ (fun s a h => ?_) ?_)
    | (refine keeps_foldl_fst _ _ _ (fun s a h => ?_) ?_)
    | (refine keeps_foldl_snd _ _ _ (fun s a h => ?_) ?_)
    | (extract_lets +onlyGivenNames x
       first
         | (have hx : Keeps r0 x := by (first | (simp (maxDischargeDepth := 30) [x, *]; done) | (simp +contextual (maxDischargeDepth := 30) [x, *]; done) | ((try unfold x); (try dsimp only); (repeat' split) <;> simp (maxDischargeDepth := 30) [*]; done))
            clear_value x)
         | (have hx : Keeps r0 x.2 := by (first | (simp (maxDischargeDepth := 30) [x, *]; done) | (simp +contextual (maxDischargeDepth := 30) [x, *]; done) | ((try unfold x); (try dsimp only); (repeat' split) <;> simp (maxDischargeDepth := 30) [*]; done))
            clear_value x)
         | (have hx : Keeps r0 x.1 := by (first | (simp (maxDischargeDepth := 30) [x, *]; done) | (simp +contextual (maxDischargeDepth := 30) [x, *]; done) | ((try unfold x); (try dsimp only); (repeat' split) <;> simp (maxDischargeDepth := 30) [*]; done))
            clear_value x)
         | clear_value x)
    | (split <;> (try (rename_i e
                       first
                         | have k := keeps_of_snd (r := r0) e (by clear e; simp (maxDischargeDepth := 30) [*]; done)
                         | have k := keeps_of_fst (r := r0) e (by clear e; simp (maxDischargeDepth := 30) [*]; done)
                         | have k := keeps_of_opt (r := r0) e (by clear e; simp (maxDischargeDepth := 30) [*]; done)
                         | have k := keeps_of_optFst (r := r0) e (by clear e; simp (maxDischargeDepth := 30) [*]; done)))))

@[simp] theorem classify_keeps {r0 : State} (e : Nat) (sh : Shard) (b : Nat) (j : List Byte) {s : State} (hK : Keeps r0 s) :
    Keeps r0 (classify e sh b j s) := by simp (maxDischargeDepth := 30) [classify, *]

@[simp] theorem orderRead_keeps {r0 : State} (e : Nat) (sh : Shard) {s : State} (hK : Keeps r0 s) :
    Keeps r0 (orderRead e sh s).1 := by simp (maxDischargeDepth := 30) [orderRead, *]

@[simp] theorem execBlockClassify_keeps {r0 : State} (e : Nat) {s : State} (hK : Keeps r0 s) :
    KeepsRes r0 (execBlockClassify e s) := by
  unfold execBlockClassify
  rw [keepsRes_next]
  refine unlessHeld_keeps _ (fun s hK => ?_) hK
  dsimp only
  split
  · split
    · split
      · simp (maxDischargeDepth := 30) [*]
      · split
        · simp (maxDischargeDepth := 30) [*]
        · refine orStop_keeps _ _ _ (mRead_keeps _ _ _ (orderRead_keeps _ _ hK)) (fun j s h => ?_)
          simp (maxDischargeDepth := 30) [*]
    · exact hK
  · exact hK

@[simp] theorem toWriteback_keeps {r0 : State} (e : Nat) (b : Block) {s : State} (hK : Keeps r0 s) :
    Keeps r0 (toWriteback e b s) := by simp (maxDischargeDepth := 30) [toWriteback, *]

@[simp] theorem failBlock_keeps {r0 : State} (e : Nat) (sh : Shard) (b : Block) {s : State} (hK : Keeps r0 s) :
    Keeps r0 (failBlock e sh b s) := by simp (maxDischargeDepth := 30) [failBlock, *]

@[simp] theorem startMoment_keeps {r0 : State} (e : Nat) (b : Block) (g : List Word) {s : State} (hK : Keeps r0 s) :
    Keeps r0 (startMoment e b g s) := by
  unfold startMoment
  repeat' (first
    | (simp (maxDischargeDepth := 30) [*]; done)
    | (simp +contextual (maxDischargeDepth := 30) [*]; done)
    | (refine keeps_foldl _ _ _ (fun s a h => ?_) ?_)
    | (refine keeps_foldl_fst _ _ _ (fun s a h => ?_) ?_)
    | (refine keeps_foldl_snd _ _ _ (fun s a h => ?_) ?_)
    | (extract_lets +onlyGivenNames x
       first
         | (have hx : Keeps r0 x := by (first | (simp (maxDischargeDepth := 30) [x, *]; done) | (simp +contextual (maxDischargeDepth := 30) [x, *]; done) | ((try unfold x); (try dsimp only); (repeat' split) <;> simp (maxDischargeDepth := 30) [*]; done))
            clear_value x)
         | (have hx : Keeps r0 x.2 := by (first | (simp (maxDischargeDepth := 30) [x, *]; done) | (simp +contextual (maxDischargeDepth := 30) [x, *]; done) | ((try unfold x); (try dsimp only); (repeat' split) <;> simp (maxDischargeDepth := 30) [*]; done))
            clear_value x)
         | (have hx : Keeps r0 x.1 := by (first | (simp (maxDischargeDepth := 30) [x, *]; done) | (simp +contextual (maxDischargeDepth := 30) [x, *]; done) | ((try unfold x); (try dsimp only); (repeat' split) <;> simp (maxDischargeDepth := 30) [*]; done))
            clear_value x)
         | clear_value x)
    | (split <;> (try (rename_i e
                       first
                         | have k := keeps_of_snd (r := r0) e (by clear e; simp (maxDischargeDepth := 30) [*]; done)
                         | have k := keeps_of_fst (r := r0) e (by clear e; simp (maxDischargeDepth := 30) [*]; done)
                         | have k := keeps_of_opt (r := r0) e (by clear e; simp (maxDischargeDepth := 30) [*]; done)
                         | have k := keeps_of_optFst (r := r0) e (by clear e; simp (maxDischargeDepth := 30) [*]; done)))))

@[simp] theorem execBlockCompute_keeps {r0 : State} (e : Nat) {s : State} (hK : Keeps r0 s) :
    KeepsRes r0 (execBlockCompute e s) := by
  unfold execBlockCompute
  repeat' (first
    | (simp (maxDischargeDepth := 30) [*]; done)
    | (simp +contextual (maxDischargeDepth := 30) [*]; done)
    | (refine keeps_foldl _ _ _ (fun s a h => ?_) ?_)
    | (refine keeps_foldl_fst _ _ _ (fun s a h => ?_) ?_)
    | (refine keeps_foldl_snd _ _ _ (fun s a h => ?_) ?_)
    | (extract_lets +onlyGivenNames x
       first
         | (have hx : Keeps r0 x := by (first | (simp (maxDischargeDepth := 30) [x, *]; done) | (simp +contextual (maxDischargeDepth := 30) [x, *]; done) | ((try unfold x); (try dsimp only); (repeat' split) <;> simp (maxDischargeDepth := 30) [*]; done))
            clear_value x)
         | (have hx : Keeps r0 x.2 := by (first | (simp (maxDischargeDepth := 30) [x, *]; done) | (simp +contextual (maxDischargeDepth := 30) [x, *]; done) | ((try unfold x); (try dsimp only); (repeat' split) <;> simp (maxDischargeDepth := 30) [*]; done))
            clear_value x)
         | (have hx : Keeps r0 x.1 := by (first | (simp (maxDischargeDepth := 30) [x, *]; done) | (simp +contextual (maxDischargeDepth := 30) [x, *]; done) | ((try unfold x); (try dsimp only); (repeat' split) <;> simp (maxDischargeDepth := 30) [*]; done))
            clear_value x)
         | clear_value x)
    | (split <;> (try (rename_i e
                       first
                         | have k := keeps_of_snd (r := r0) e (by clear e; simp (maxDischargeDepth := 30) [*]; done)
                         | have k := keeps_of_fst (r := r0) e (by clear e; simp (maxDischargeDepth := 30) [*]; done)
                         | have k := keeps_of_opt (r := r0) e (by clear e; simp (maxDischargeDepth := 30) [*]; done)
                         | have k := keeps_of_optFst (r := r0) e (by clear e; simp (maxDischargeDepth := 30) [*]; done)))))

@[simp] theorem afterWrite_keeps {r0 : State} (e : Nat) (r : State × Status) (b : Block) (stage : Nat) (hPr : Keeps r0 r.1) :
    Keeps r0 (afterWrite e r b stage) := by simp (maxDischargeDepth := 30) [afterWrite, *]

@[simp] theorem finishBlock_keeps {r0 : State} (e : Nat) (r : State × Status) (sh : Shard) (hPr : Keeps r0 r.1) :
    Keeps r0 (finishBlock e r sh) := by simp (maxDischargeDepth := 30) [finishBlock, *]

@[simp] theorem thenWrite_keeps {r0 : State} (e : Nat) (r : State × Status) (a : Nat) (bs : List Byte) (hPr : Keeps r0 r.1) :
    Keeps r0 (thenWrite e r a bs).1 := by simp (maxDischargeDepth := 30) [thenWrite, *]

@[simp] theorem execBlockWritebackDone_keeps {r0 : State} (e : Nat) {s : State} (hK : Keeps r0 s) :
    KeepsRes r0 (execBlockWritebackDone e s) := by
  unfold execBlockWritebackDone
  rw [keepsRes_next]
  refine unlessHeld_keeps _ (fun s hK => ?_) hK
  dsimp only
  (repeat' split) <;> simp (maxDischargeDepth := 30) [*]

@[simp] theorem execGradientWrite_keeps {r0 : State} (r : Requester) (addr : Nat) (data : List Byte) {s : State} (hK : Keeps r0 s) :
    KeepsRes r0 (execGradientWrite r addr data s) := by
  unfold execGradientWrite
  rw [keepsRes_next]
  refine unlessHeld_keeps _ (fun s hK => ?_) hK
  (repeat' split) <;> simp (maxDischargeDepth := 30) [*]

@[simp] theorem execLandingAdmit_keeps {r0 : State} (e : Nat) {s : State} (hK : Keeps r0 s) :
    KeepsRes r0 (execLandingAdmit e s) := by
  unfold execLandingAdmit
  dsimp only
  (repeat' split) <;> simp (maxDischargeDepth := 30) [*]

@[simp] theorem freeWords_keeps {r0 : State} {s : State} (hK : Keeps r0 s) :
    Keeps r0 (freeWords s).1 := by simp (maxDischargeDepth := 30) [freeWords, *]

@[simp] theorem millStep_keeps {r0 : State} (e op : Nat) (w : Word) (f : Shard → Block → State → State) {s : State} (hFf : ∀ a0 a1 a2, Keeps r0 a2 → Keeps r0 (f a0 a1 a2)) (hK : Keeps r0 s) :
    KeepsRes r0 (millStep e op w f s) := by
  unfold millStep
  repeat' (first
    | (simp (maxDischargeDepth := 30) [*]; done)
    | (simp +contextual (maxDischargeDepth := 30) [*]; done)
    | (refine keeps_foldl _ _ _ (fun s a h => ?_) ?_)
    | (refine keeps_foldl_fst _ _ _ (fun s a h => ?_) ?_)
    | (refine keeps_foldl_snd _ _ _ (fun s a h => ?_) ?_)
    | (extract_lets +onlyGivenNames x
       first
         | (have hx : Keeps r0 x := by (first | (simp (maxDischargeDepth := 30) [x, *]; done) | (simp +contextual (maxDischargeDepth := 30) [x, *]; done) | ((try unfold x); (try dsimp only); (repeat' split) <;> simp (maxDischargeDepth := 30) [*]; done))
            clear_value x)
         | (have hx : Keeps r0 x.2 := by (first | (simp (maxDischargeDepth := 30) [x, *]; done) | (simp +contextual (maxDischargeDepth := 30) [x, *]; done) | ((try unfold x); (try dsimp only); (repeat' split) <;> simp (maxDischargeDepth := 30) [*]; done))
            clear_value x)
         | (have hx : Keeps r0 x.1 := by (first | (simp (maxDischargeDepth := 30) [x, *]; done) | (simp +contextual (maxDischargeDepth := 30) [x, *]; done) | ((try unfold x); (try dsimp only); (repeat' split) <;> simp (maxDischargeDepth := 30) [*]; done))
            clear_value x)
         | clear_value x)
    | (split <;> (try (rename_i e
                       first
                         | have k := keeps_of_snd (r := r0) e (by clear e; simp (maxDischargeDepth := 30) [*]; done)
                         | have k := keeps_of_fst (r := r0) e (by clear e; simp (maxDischargeDepth := 30) [*]; done)
                         | have k := keeps_of_opt (r := r0) e (by clear e; simp (maxDischargeDepth := 30) [*]; done)
                         | have k := keeps_of_optFst (r := r0) e (by clear e; simp (maxDischargeDepth := 30) [*]; done)))))

@[simp] theorem millWrite_keeps {r0 : State} (e : Nat) (w : Word) (v : List Word) {s : State} (hK : Keeps r0 s) :
    Keeps r0 (millWrite e w v s) := by simp (maxDischargeDepth := 30) [millWrite, *]

@[simp] theorem millBump_keeps {r0 : State} (e : Nat) {s : State} (hK : Keeps r0 s) :
    Keeps r0 (millBump e s) := by simp (maxDischargeDepth := 30) [millBump, *]

@[simp] theorem millChecked_keeps {r0 : State} (e : Nat) (w : Word) (mm : Nat) (good free : State → State) {s : State} (hFgood : ∀ a0, Keeps r0 a0 → Keeps r0 (good a0)) (hFfree : ∀ a0, Keeps r0 a0 → Keeps r0 (free a0)) (hK : Keeps r0 s) :
    Keeps r0 (millChecked e w mm good free s) := by
  unfold millChecked
  (repeat' split) <;> simp (maxDischargeDepth := 30) [*]

@[simp] theorem millArith_keeps {r0 : State} (e op : Nat) (w : Word) (mm : Nat) (g : Eng → List Word) {s : State} (hK : Keeps r0 s) :
    KeepsRes r0 (millArith e op w mm g s) := by
  unfold millArith
  repeat' (first
    | (simp (maxDischargeDepth := 30) [*]; done)
    | (simp +contextual (maxDischargeDepth := 30) [*]; done)
    | (refine keeps_foldl _ _ _ (fun s a h => ?_) ?_)
    | (refine keeps_foldl_fst _ _ _ (fun s a h => ?_) ?_)
    | (refine keeps_foldl_snd _ _ _ (fun s a h => ?_) ?_)
    | (extract_lets +onlyGivenNames x
       first
         | (have hx : Keeps r0 x := by (first | (simp (maxDischargeDepth := 30) [x, *]; done) | (simp +contextual (maxDischargeDepth := 30) [x, *]; done) | ((try unfold x); (try dsimp only); (repeat' split) <;> simp (maxDischargeDepth := 30) [*]; done))
            clear_value x)
         | (have hx : Keeps r0 x.2 := by (first | (simp (maxDischargeDepth := 30) [x, *]; done) | (simp +contextual (maxDischargeDepth := 30) [x, *]; done) | ((try unfold x); (try dsimp only); (repeat' split) <;> simp (maxDischargeDepth := 30) [*]; done))
            clear_value x)
         | (have hx : Keeps r0 x.1 := by (first | (simp (maxDischargeDepth := 30) [x, *]; done) | (simp +contextual (maxDischargeDepth := 30) [x, *]; done) | ((try unfold x); (try dsimp only); (repeat' split) <;> simp (maxDischargeDepth := 30) [*]; done))
            clear_value x)
         | clear_value x)
    | (split <;> (try (rename_i e
                       first
                         | have k := keeps_of_snd (r := r0) e (by clear e; simp (maxDischargeDepth := 30) [*]; done)
                         | have k := keeps_of_fst (r := r0) e (by clear e; simp (maxDischargeDepth := 30) [*]; done)
                         | have k := keeps_of_opt (r := r0) e (by clear e; simp (maxDischargeDepth := 30) [*]; done)
                         | have k := keeps_of_optFst (r := r0) e (by clear e; simp (maxDischargeDepth := 30) [*]; done)))))

@[simp] theorem execMillAdd_keeps {r0 : State} (e : Nat) (w : Word) (mm : Nat) {s : State} (hK : Keeps r0 s) :
    KeepsRes r0 (execMillAdd e w mm s) := by simp (maxDischargeDepth := 30) [execMillAdd, *]

@[simp] theorem execMillSub_keeps {r0 : State} (e : Nat) (w : Word) (mm : Nat) {s : State} (hK : Keeps r0 s) :
    KeepsRes r0 (execMillSub e w mm s) := by simp (maxDischargeDepth := 30) [execMillSub, *]

@[simp] theorem execMillMul_keeps {r0 : State} (e : Nat) (w : Word) (mm : Nat) {s : State} (hK : Keeps r0 s) :
    KeepsRes r0 (execMillMul e w mm s) := by simp (maxDischargeDepth := 30) [execMillMul, *]

@[simp] theorem execMillFma_keeps {r0 : State} (e : Nat) (w : Word) (mm : Nat) {s : State} (hK : Keeps r0 s) :
    KeepsRes r0 (execMillFma e w mm s) := by simp (maxDischargeDepth := 30) [execMillFma, *]

@[simp] theorem execMillMin_keeps {r0 : State} (e : Nat) (w : Word) (mm : Nat) {s : State} (hK : Keeps r0 s) :
    KeepsRes r0 (execMillMin e w mm s) := by simp (maxDischargeDepth := 30) [execMillMin, *]

@[simp] theorem execMillMax_keeps {r0 : State} (e : Nat) (w : Word) (mm : Nat) {s : State} (hK : Keeps r0 s) :
    KeepsRes r0 (execMillMax e w mm s) := by simp (maxDischargeDepth := 30) [execMillMax, *]

@[simp] theorem execMillCmp_keeps {r0 : State} (e : Nat) (w : Word) (mm : Nat) {s : State} (hK : Keeps r0 s) :
    KeepsRes r0 (execMillCmp e w mm s) := by simp (maxDischargeDepth := 30) [execMillCmp, *]

@[simp] theorem execMillSel_keeps {r0 : State} (e : Nat) (w : Word) (mm : Nat) {s : State} (hK : Keeps r0 s) :
    KeepsRes r0 (execMillSel e w mm s) := by simp (maxDischargeDepth := 30) [execMillSel, *]

@[simp] theorem execMillRsqrt_keeps {r0 : State} (e : Nat) (w : Word) (mm : Nat) {s : State} (hK : Keeps r0 s) :
    KeepsRes r0 (execMillRsqrt e w mm s) := by simp (maxDischargeDepth := 30) [execMillRsqrt, *]

@[simp] theorem execMillRecip_keeps {r0 : State} (e : Nat) (w : Word) (mm : Nat) {s : State} (hK : Keeps r0 s) :
    KeepsRes r0 (execMillRecip e w mm s) := by simp (maxDischargeDepth := 30) [execMillRecip, *]

@[simp] theorem execMillMend_keeps {r0 : State} (e : Nat) (w : Word) {s : State} (hK : Keeps r0 s) :
    KeepsRes r0 (execMillMend e w s) := by
  unfold execMillMend
  repeat' (first
    | (simp (maxDischargeDepth := 30) [*]; done)
    | (simp +contextual (maxDischargeDepth := 30) [*]; done)
    | (refine keeps_foldl _ _ _ (fun s a h => ?_) ?_)
    | (refine keeps_foldl_fst _ _ _ (fun s a h => ?_) ?_)
    | (refine keeps_foldl_snd _ _ _ (fun s a h => ?_) ?_)
    | (extract_lets +onlyGivenNames x
       first
         | (have hx : Keeps r0 x := by (first | (simp (maxDischargeDepth := 30) [x, *]; done) | (simp +contextual (maxDischargeDepth := 30) [x, *]; done) | ((try unfold x); (try dsimp only); (repeat' split) <;> simp (maxDischargeDepth := 30) [*]; done))
            clear_value x)
         | (have hx : Keeps r0 x.2 := by (first | (simp (maxDischargeDepth := 30) [x, *]; done) | (simp +contextual (maxDischargeDepth := 30) [x, *]; done) | ((try unfold x); (try dsimp only); (repeat' split) <;> simp (maxDischargeDepth := 30) [*]; done))
            clear_value x)
         | (have hx : Keeps r0 x.1 := by (first | (simp (maxDischargeDepth := 30) [x, *]; done) | (simp +contextual (maxDischargeDepth := 30) [x, *]; done) | ((try unfold x); (try dsimp only); (repeat' split) <;> simp (maxDischargeDepth := 30) [*]; done))
            clear_value x)
         | clear_value x)
    | (split <;> (try (rename_i e
                       first
                         | have k := keeps_of_snd (r := r0) e (by clear e; simp (maxDischargeDepth := 30) [*]; done)
                         | have k := keeps_of_fst (r := r0) e (by clear e; simp (maxDischargeDepth := 30) [*]; done)
                         | have k := keeps_of_opt (r := r0) e (by clear e; simp (maxDischargeDepth := 30) [*]; done)
                         | have k := keeps_of_optFst (r := r0) e (by clear e; simp (maxDischargeDepth := 30) [*]; done)))))

@[simp] theorem millCopy_keeps {r0 : State} (e : Nat) (b : Block) (gs : List (List Byte × Byte)) {s : State} (hK : Keeps r0 s) :
    Keeps r0 (millCopy e b gs s) := by simp (maxDischargeDepth := 30) [millCopy, *]

@[simp] theorem execMillQmx_keeps {r0 : State} (e : Nat) (w : Word) (mm : Nat) {s : State} (hK : Keeps r0 s) :
    KeepsRes r0 (execMillQmx e w mm s) := by
  unfold execMillQmx
  repeat' (first
    | (simp (maxDischargeDepth := 30) [*]; done)
    | (simp +contextual (maxDischargeDepth := 30) [*]; done)
    | (refine keeps_foldl _ _ _ (fun s a h => ?_) ?_)
    | (refine keeps_foldl_fst _ _ _ (fun s a h => ?_) ?_)
    | (refine keeps_foldl_snd _ _ _ (fun s a h => ?_) ?_)
    | (extract_lets +onlyGivenNames x
       first
         | (have hx : Keeps r0 x := by (first | (simp (maxDischargeDepth := 30) [x, *]; done) | (simp +contextual (maxDischargeDepth := 30) [x, *]; done) | ((try unfold x); (try dsimp only); (repeat' split) <;> simp (maxDischargeDepth := 30) [*]; done))
            clear_value x)
         | (have hx : Keeps r0 x.2 := by (first | (simp (maxDischargeDepth := 30) [x, *]; done) | (simp +contextual (maxDischargeDepth := 30) [x, *]; done) | ((try unfold x); (try dsimp only); (repeat' split) <;> simp (maxDischargeDepth := 30) [*]; done))
            clear_value x)
         | (have hx : Keeps r0 x.1 := by (first | (simp (maxDischargeDepth := 30) [x, *]; done) | (simp +contextual (maxDischargeDepth := 30) [x, *]; done) | ((try unfold x); (try dsimp only); (repeat' split) <;> simp (maxDischargeDepth := 30) [*]; done))
            clear_value x)
         | clear_value x)
    | (split <;> (try (rename_i e
                       first
                         | have k := keeps_of_snd (r := r0) e (by clear e; simp (maxDischargeDepth := 30) [*]; done)
                         | have k := keeps_of_fst (r := r0) e (by clear e; simp (maxDischargeDepth := 30) [*]; done)
                         | have k := keeps_of_opt (r := r0) e (by clear e; simp (maxDischargeDepth := 30) [*]; done)
                         | have k := keeps_of_optFst (r := r0) e (by clear e; simp (maxDischargeDepth := 30) [*]; done)))))

@[simp] theorem execMillEnd_keeps {r0 : State} (e : Nat) (w : Word) {s : State} (hK : Keeps r0 s) :
    KeepsRes r0 (execMillEnd e w s) := by
  unfold execMillEnd
  repeat' (first
    | (simp (maxDischargeDepth := 30) [*]; done)
    | (simp +contextual (maxDischargeDepth := 30) [*]; done)
    | (refine keeps_foldl _ _ _ (fun s a h => ?_) ?_)
    | (refine keeps_foldl_fst _ _ _ (fun s a h => ?_) ?_)
    | (refine keeps_foldl_snd _ _ _ (fun s a h => ?_) ?_)
    | (extract_lets +onlyGivenNames x
       first
         | (have hx : Keeps r0 x := by (first | (simp (maxDischargeDepth := 30) [x, *]; done) | (simp +contextual (maxDischargeDepth := 30) [x, *]; done) | ((try unfold x); (try dsimp only); (repeat' split) <;> simp (maxDischargeDepth := 30) [*]; done))
            clear_value x)
         | (have hx : Keeps r0 x.2 := by (first | (simp (maxDischargeDepth := 30) [x, *]; done) | (simp +contextual (maxDischargeDepth := 30) [x, *]; done) | ((try unfold x); (try dsimp only); (repeat' split) <;> simp (maxDischargeDepth := 30) [*]; done))
            clear_value x)
         | (have hx : Keeps r0 x.1 := by (first | (simp (maxDischargeDepth := 30) [x, *]; done) | (simp +contextual (maxDischargeDepth := 30) [x, *]; done) | ((try unfold x); (try dsimp only); (repeat' split) <;> simp (maxDischargeDepth := 30) [*]; done))
            clear_value x)
         | clear_value x)
    | (split <;> (try (rename_i e
                       first
                         | have k := keeps_of_snd (r := r0) e (by clear e; simp (maxDischargeDepth := 30) [*]; done)
                         | have k := keeps_of_fst (r := r0) e (by clear e; simp (maxDischargeDepth := 30) [*]; done)
                         | have k := keeps_of_opt (r := r0) e (by clear e; simp (maxDischargeDepth := 30) [*]; done)
                         | have k := keeps_of_optFst (r := r0) e (by clear e; simp (maxDischargeDepth := 30) [*]; done)))))

@[simp] theorem execMillStall_keeps {r0 : State} (e : Nat) {s : State} (hK : Keeps r0 s) :
    KeepsRes r0 (execMillStall e s) := by simp (maxDischargeDepth := 30) [execMillStall, *]

@[simp] theorem execShardComplete_keeps {r0 : State} (e : Nat) {s : State} (hK : Keeps r0 s) :
    KeepsRes r0 (execShardComplete e s) := by
  unfold execShardComplete
  dsimp only
  (repeat' split) <;> simp (maxDischargeDepth := 30) [*]

@[simp] theorem millDisarm_keeps {r0 : State} (e : Nat) {s : State} (hK : Keeps r0 s) :
    Keeps r0 (millDisarm e s) := by simp (maxDischargeDepth := 30) [millDisarm, *]

@[simp] theorem execMillDisarm_keeps {r0 : State} (r : Requester) (e : Nat) {s : State} (hK : Keeps r0 s) :
    KeepsRes r0 (execMillDisarm r e s) := by simp (maxDischargeDepth := 30) [execMillDisarm, *]

@[simp] theorem millAbort_keeps {r0 : State} {s : State} (hK : Keeps r0 s) :
    Keeps r0 (millAbort s) := by
  unfold millAbort
  repeat' (first
    | (simp (maxDischargeDepth := 30) [*]; done)
    | (simp +contextual (maxDischargeDepth := 30) [*]; done)
    | (refine keeps_foldl _ _ _ (fun s a h => ?_) ?_)
    | (refine keeps_foldl_fst _ _ _ (fun s a h => ?_) ?_)
    | (refine keeps_foldl_snd _ _ _ (fun s a h => ?_) ?_)
    | (extract_lets +onlyGivenNames x
       first
         | (have hx : Keeps r0 x := by (first | (simp (maxDischargeDepth := 30) [x, *]; done) | (simp +contextual (maxDischargeDepth := 30) [x, *]; done) | ((try unfold x); (try dsimp only); (repeat' split) <;> simp (maxDischargeDepth := 30) [*]; done))
            clear_value x)
         | (have hx : Keeps r0 x.2 := by (first | (simp (maxDischargeDepth := 30) [x, *]; done) | (simp +contextual (maxDischargeDepth := 30) [x, *]; done) | ((try unfold x); (try dsimp only); (repeat' split) <;> simp (maxDischargeDepth := 30) [*]; done))
            clear_value x)
         | (have hx : Keeps r0 x.1 := by (first | (simp (maxDischargeDepth := 30) [x, *]; done) | (simp +contextual (maxDischargeDepth := 30) [x, *]; done) | ((try unfold x); (try dsimp only); (repeat' split) <;> simp (maxDischargeDepth := 30) [*]; done))
            clear_value x)
         | clear_value x)
    | (split <;> (try (rename_i e
                       first
                         | have k := keeps_of_snd (r := r0) e (by clear e; simp (maxDischargeDepth := 30) [*]; done)
                         | have k := keeps_of_fst (r := r0) e (by clear e; simp (maxDischargeDepth := 30) [*]; done)
                         | have k := keeps_of_opt (r := r0) e (by clear e; simp (maxDischargeDepth := 30) [*]; done)
                         | have k := keeps_of_optFst (r := r0) e (by clear e; simp (maxDischargeDepth := 30) [*]; done)))))

@[simp] theorem millResume_keeps {r0 : State} (since : Nat) {s : State} (hK : Keeps r0 s) :
    Keeps r0 (millResume since s) := by
  unfold millResume
  repeat' (first
    | (simp (maxDischargeDepth := 30) [*]; done)
    | (simp +contextual (maxDischargeDepth := 30) [*]; done)
    | (refine keeps_foldl _ _ _ (fun s a h => ?_) ?_)
    | (refine keeps_foldl_fst _ _ _ (fun s a h => ?_) ?_)
    | (refine keeps_foldl_snd _ _ _ (fun s a h => ?_) ?_)
    | (extract_lets +onlyGivenNames x
       first
         | (have hx : Keeps r0 x := by (first | (simp (maxDischargeDepth := 30) [x, *]; done) | (simp +contextual (maxDischargeDepth := 30) [x, *]; done) | ((try unfold x); (try dsimp only); (repeat' split) <;> simp (maxDischargeDepth := 30) [*]; done))
            clear_value x)
         | (have hx : Keeps r0 x.2 := by (first | (simp (maxDischargeDepth := 30) [x, *]; done) | (simp +contextual (maxDischargeDepth := 30) [x, *]; done) | ((try unfold x); (try dsimp only); (repeat' split) <;> simp (maxDischargeDepth := 30) [*]; done))
            clear_value x)
         | (have hx : Keeps r0 x.1 := by (first | (simp (maxDischargeDepth := 30) [x, *]; done) | (simp +contextual (maxDischargeDepth := 30) [x, *]; done) | ((try unfold x); (try dsimp only); (repeat' split) <;> simp (maxDischargeDepth := 30) [*]; done))
            clear_value x)
         | clear_value x)
    | (split <;> (try (rename_i e
                       first
                         | have k := keeps_of_snd (r := r0) e (by clear e; simp (maxDischargeDepth := 30) [*]; done)
                         | have k := keeps_of_fst (r := r0) e (by clear e; simp (maxDischargeDepth := 30) [*]; done)
                         | have k := keeps_of_opt (r := r0) e (by clear e; simp (maxDischargeDepth := 30) [*]; done)
                         | have k := keeps_of_optFst (r := r0) e (by clear e; simp (maxDischargeDepth := 30) [*]; done)))))

end Sys2Proof.Machine
end

