-- ==== Sys2Proof/Laws/KeepsLinkOps.lean ====
section
/-! SUPPORT. What the operations of Machine/LinkOps.lean keep (Laws/Keeps.lean). -/

set_option Elab.async false
set_option linter.unusedTactic false
set_option linter.unreachableTactic false

namespace Sys2Proof.Machine

@[simp] theorem fieldDone_keeps {r0 : State} (q : FieldReq) (st : Status) {s : State} (hK : Keeps r0 s) :
    Keeps r0 (fieldDone q st s) := by
  unfold fieldDone
  (repeat' split) <;> simp (maxDischargeDepth := 30) [*]

@[simp] theorem fieldAnswer_keeps {r0 : State} (tag : Nat) (st : Status) {s : State} (hK : Keeps r0 s) :
    Keeps r0 (fieldAnswer tag st s) := by
  unfold fieldAnswer
  (repeat' split) <;> simp (maxDischargeDepth := 30) [*]

@[simp] theorem endMessage_keeps {r0 : State} (f : MsgFlit) (local_ : Bool) (tag op : Nat) (st : Status) {s : State} (hK : Keeps r0 s) :
    Keeps r0 (endMessage f local_ tag op st s).1 := by simp (maxDischargeDepth := 30) [endMessage, *]

@[simp] theorem giveUp_keeps {r0 : State} (a : Nat) (st : Status) (e : Flit) {s : State} (hK : Keeps r0 s) :
    Keeps r0 (giveUp a st e s) := by simp (maxDischargeDepth := 30) [giveUp, *]

@[simp] theorem writeSurvey_keeps {r0 : State} (es : List SurveyEnt) {s : State} (hK : Keeps r0 s) :
    Keeps r0 (writeSurvey es s) := by
  unfold writeSurvey
  (repeat' split) <;> simp (maxDischargeDepth := 30) [*]

@[simp] theorem newIncarnation_keeps {r0 : State} {s : State} (hK : Keeps r0 s) :
    Keeps r0 (newIncarnation s) := by simp (maxDischargeDepth := 30) [newIncarnation, *]

@[simp] theorem sendNeighbour_keeps {r0 : State} (a : Nat) (data : List Byte) {s : State} (hK : Keeps r0 s) :
    Keeps r0 (sendNeighbour a data s) := by simp (maxDischargeDepth := 30) [sendNeighbour, *]

@[simp] theorem sendPeers_keeps {r0 : State} (but : Option Nat) (data : List Byte) {s : State} (hK : Keeps r0 s) :
    Keeps r0 (sendPeers but data s) := by
  unfold sendPeers
  repeat' (first
    | (simp (maxDischargeDepth := 30) [*]; done)
    | (simp +contextual (maxDischargeDepth := 30) [*]; done)
    | (refine keeps_foldl _ _ _ (fun s a h => ?_) ?_)
    | (refine keeps_foldl_fst _ _ _ (fun s a h => ?_) ?_)
    | (refine keeps_foldl_snd _ _ _ (fun s a h => ?_) ?_)
    | (extract_lets +onlyGivenNames x
       first
         | (have hx : Keeps r0 x := by (first | (simp (maxDischargeDepth := 30) [x, *]; done) | (simp +contextual (maxDischargeDepth := 30) [x, *]; done) | ((try unfold x); (try dsimp only); (repeat' split) <;> simp (maxDischargeDepth := 30) [*]; done))
            clear_value x)
         | (have hx : Keeps r0 x.2 := by (first | (simp (maxDischargeDepth := 30) [x, *]; done) | (simp +contextual (maxDischargeDepth := 30) [x, *]; done) | ((try unfold x); (try dsimp only); (repeat' split) <;> simp (maxDischargeDepth := 30) [*]; done))
            clear_value x)
         | (have hx : Keeps r0 x.1 := by (first | (simp (maxDischargeDepth := 30) [x, *]; done) | (simp +contextual (maxDischargeDepth := 30) [x, *]; done) | ((try unfold x); (try dsimp only); (repeat' split) <;> simp (maxDischargeDepth := 30) [*]; done))
            clear_value x)
         | clear_value x)
    | (split <;> (try (rename_i e
                       first
                         | have k := keeps_of_snd (r := r0) e (by clear e; simp (maxDischargeDepth := 30) [*]; done)
                         | have k := keeps_of_fst (r := r0) e (by clear e; simp (maxDischargeDepth := 30) [*]; done)
                         | have k := keeps_of_opt (r := r0) e (by clear e; simp (maxDischargeDepth := 30) [*]; done)
                         | have k := keeps_of_optFst (r := r0) e (by clear e; simp (maxDischargeDepth := 30) [*]; done)))))

@[simp] theorem sendLinkmaps_keeps {r0 : State} {s : State} (hK : Keeps r0 s) :
    Keeps r0 (sendLinkmaps s) := by
  unfold sendLinkmaps
  repeat' (first
    | (simp (maxDischargeDepth := 30) [*]; done)
    | (simp +contextual (maxDischargeDepth := 30) [*]; done)
    | (refine keeps_foldl _ _ _ (fun s a h => ?_) ?_)
    | (refine keeps_foldl_fst _ _ _ (fun s a h => ?_) ?_)
    | (refine keeps_foldl_snd _ _ _ (fun s a h => ?_) ?_)
    | (extract_lets +onlyGivenNames x
       first
         | (have hx : Keeps r0 x := by (first | (simp (maxDischargeDepth := 30) [x, *]; done) | (simp +contextual (maxDischargeDepth := 30) [x, *]; done) | ((try unfold x); (try dsimp only); (repeat' split) <;> simp (maxDischargeDepth := 30) [*]; done))
            clear_value x)
         | (have hx : Keeps r0 x.2 := by (first | (simp (maxDischargeDepth := 30) [x, *]; done) | (simp +contextual (maxDischargeDepth := 30) [x, *]; done) | ((try unfold x); (try dsimp only); (repeat' split) <;> simp (maxDischargeDepth := 30) [*]; done))
            clear_value x)
         | (have hx : Keeps r0 x.1 := by (first | (simp (maxDischargeDepth := 30) [x, *]; done) | (simp +contextual (maxDischargeDepth := 30) [x, *]; done) | ((try unfold x); (try dsimp only); (repeat' split) <;> simp (maxDischargeDepth := 30) [*]; done))
            clear_value x)
         | clear_value x)
    | (split <;> (try (rename_i e
                       first
                         | have k := keeps_of_snd (r := r0) e (by clear e; simp (maxDischargeDepth := 30) [*]; done)
                         | have k := keeps_of_fst (r := r0) e (by clear e; simp (maxDischargeDepth := 30) [*]; done)
                         | have k := keeps_of_opt (r := r0) e (by clear e; simp (maxDischargeDepth := 30) [*]; done)
                         | have k := keeps_of_optFst (r := r0) e (by clear e; simp (maxDischargeDepth := 30) [*]; done)))))

@[simp] theorem sendSnapshot_keeps {r0 : State} (a : Nat) {s : State} (hK : Keeps r0 s) :
    Keeps r0 (sendSnapshot a s) := by
  unfold sendSnapshot
  repeat' (first
    | (simp (maxDischargeDepth := 30) [*]; done)
    | (simp +contextual (maxDischargeDepth := 30) [*]; done)
    | (refine keeps_foldl _ _ _ (fun s a h => ?_) ?_)
    | (refine keeps_foldl_fst _ _ _ (fun s a h => ?_) ?_)
    | (refine keeps_foldl_snd _ _ _ (fun s a h => ?_) ?_)
    | (extract_lets +onlyGivenNames x
       first
         | (have hx : Keeps r0 x := by (first | (simp (maxDischargeDepth := 30) [x, *]; done) | (simp +contextual (maxDischargeDepth := 30) [x, *]; done) | ((try unfold x); (try dsimp only); (repeat' split) <;> simp (maxDischargeDepth := 30) [*]; done))
            clear_value x)
         | (have hx : Keeps r0 x.2 := by (first | (simp (maxDischargeDepth := 30) [x, *]; done) | (simp +contextual (maxDischargeDepth := 30) [x, *]; done) | ((try unfold x); (try dsimp only); (repeat' split) <;> simp (maxDischargeDepth := 30) [*]; done))
            clear_value x)
         | (have hx : Keeps r0 x.1 := by (first | (simp (maxDischargeDepth := 30) [x, *]; done) | (simp +contextual (maxDischargeDepth := 30) [x, *]; done) | ((try unfold x); (try dsimp only); (repeat' split) <;> simp (maxDischargeDepth := 30) [*]; done))
            clear_value x)
         | clear_value x)
    | (split <;> (try (rename_i e
                       first
                         | have k := keeps_of_snd (r := r0) e (by clear e; simp (maxDischargeDepth := 30) [*]; done)
                         | have k := keeps_of_fst (r := r0) e (by clear e; simp (maxDischargeDepth := 30) [*]; done)
                         | have k := keeps_of_opt (r := r0) e (by clear e; simp (maxDischargeDepth := 30) [*]; done)
                         | have k := keeps_of_optFst (r := r0) e (by clear e; simp (maxDischargeDepth := 30) [*]; done)))))

@[simp] theorem sendJoin_keeps {r0 : State} {s : State} (hK : Keeps r0 s) :
    Keeps r0 (sendJoin s) := by simp (maxDischargeDepth := 30) [sendJoin, *]

@[simp] theorem applyLeave_keeps {r0 : State} (src : Option Nat) (x inc : Nat) {s : State} (hK : Keeps r0 s) :
    Keeps r0 (applyLeave src x inc s) := by simp (maxDischargeDepth := 30) [applyLeave, *]

@[simp] theorem applyJoin_keeps {r0 : State} (src : Option Nat) (x inc serial : Nat) {s : State} (hK : Keeps r0 s) :
    Keeps r0 (applyJoin src x inc serial s) := by simp (maxDischargeDepth := 30) [applyJoin, *]

@[simp] theorem logRetrain_keeps {r0 : State} (a : Nat) {s : State} (hK : Keeps r0 s) :
    Keeps r0 (logRetrain a s) := by simp (maxDischargeDepth := 30) [logRetrain, *]

@[simp] theorem portUse_keeps {r0 : State} (a : Nat) {s : State} (hK : Keeps r0 s) :
    Keeps r0 (portUse a s) := by simp (maxDischargeDepth := 30) [portUse, *]

@[simp] theorem goActive_keeps {r0 : State} (a : Nat) {s : State} (hK : Keeps r0 s) :
    Keeps r0 (goActive a s) := by simp (maxDischargeDepth := 30) [goActive, *]

@[simp] theorem retarget_keeps {r0 : State} (id : Nat) (out : Option Nat) {s : State} (hK : Keeps r0 s) :
    Keeps r0 (retarget id out s) := by simp (maxDischargeDepth := 30) [retarget, *]

@[simp] theorem rerouteMsg_keeps {r0 : State} (es : List Flit) {s : State} (hK : Keeps r0 s) :
    Keeps r0 (rerouteMsg es s) := by
  unfold rerouteMsg
  (repeat' split) <;> simp (maxDischargeDepth := 30) [*]

@[simp] theorem rerouteHeld_keeps {r0 : State} (a : Nat) (p : Flit → Bool) {s : State} (hK : Keeps r0 s) :
    Keeps r0 (rerouteHeld a p s) := by
  unfold rerouteHeld
  repeat' (first
    | (simp (maxDischargeDepth := 30) [*]; done)
    | (simp +contextual (maxDischargeDepth := 30) [*]; done)
    | (refine keeps_foldl _ _ _ (fun s a h => ?_) ?_)
    | (refine keeps_foldl_fst _ _ _ (fun s a h => ?_) ?_)
    | (refine keeps_foldl_snd _ _ _ (fun s a h => ?_) ?_)
    | (extract_lets +onlyGivenNames x
       first
         | (have hx : Keeps r0 x := by (first | (simp (maxDischargeDepth := 30) [x, *]; done) | (simp +contextual (maxDischargeDepth := 30) [x, *]; done) | ((try unfold x); (try dsimp only); (repeat' split) <;> simp (maxDischargeDepth := 30) [*]; done))
            clear_value x)
         | (have hx : Keeps r0 x.2 := by (first | (simp (maxDischargeDepth := 30) [x, *]; done) | (simp +contextual (maxDischargeDepth := 30) [x, *]; done) | ((try unfold x); (try dsimp only); (repeat' split) <;> simp (maxDischargeDepth := 30) [*]; done))
            clear_value x)
         | (have hx : Keeps r0 x.1 := by (first | (simp (maxDischargeDepth := 30) [x, *]; done) | (simp +contextual (maxDischargeDepth := 30) [x, *]; done) | ((try unfold x); (try dsimp only); (repeat' split) <;> simp (maxDischargeDepth := 30) [*]; done))
            clear_value x)
         | clear_value x)
    | (split <;> (try (rename_i e
                       first
                         | have k := keeps_of_snd (r := r0) e (by clear e; simp (maxDischargeDepth := 30) [*]; done)
                         | have k := keeps_of_fst (r := r0) e (by clear e; simp (maxDischargeDepth := 30) [*]; done)
                         | have k := keeps_of_opt (r := r0) e (by clear e; simp (maxDischargeDepth := 30) [*]; done)
                         | have k := keeps_of_optFst (r := r0) e (by clear e; simp (maxDischargeDepth := 30) [*]; done)))))

@[simp] theorem flushPort_keeps {r0 : State} (a : Nat) (st : Status) {s : State} (hK : Keeps r0 s) :
    Keeps r0 (flushPort a st s) := by
  unfold flushPort
  repeat' (first
    | (simp (maxDischargeDepth := 30) [*]; done)
    | (simp +contextual (maxDischargeDepth := 30) [*]; done)
    | (refine keeps_foldl _ _ _ (fun s a h => ?_) ?_)
    | (refine keeps_foldl_fst _ _ _ (fun s a h => ?_) ?_)
    | (refine keeps_foldl_snd _ _ _ (fun s a h => ?_) ?_)
    | (extract_lets +onlyGivenNames x
       first
         | (have hx : Keeps r0 x := by (first | (simp (maxDischargeDepth := 30) [x, *]; done) | (simp +contextual (maxDischargeDepth := 30) [x, *]; done) | ((try unfold x); (try dsimp only); (repeat' split) <;> simp (maxDischargeDepth := 30) [*]; done))
            clear_value x)
         | (have hx : Keeps r0 x.2 := by (first | (simp (maxDischargeDepth := 30) [x, *]; done) | (simp +contextual (maxDischargeDepth := 30) [x, *]; done) | ((try unfold x); (try dsimp only); (repeat' split) <;> simp (maxDischargeDepth := 30) [*]; done))
            clear_value x)
         | (have hx : Keeps r0 x.1 := by (first | (simp (maxDischargeDepth := 30) [x, *]; done) | (simp +contextual (maxDischargeDepth := 30) [x, *]; done) | ((try unfold x); (try dsimp only); (repeat' split) <;> simp (maxDischargeDepth := 30) [*]; done))
            clear_value x)
         | clear_value x)
    | (split <;> (try (rename_i e
                       first
                         | have k := keeps_of_snd (r := r0) e (by clear e; simp (maxDischargeDepth := 30) [*]; done)
                         | have k := keeps_of_fst (r := r0) e (by clear e; simp (maxDischargeDepth := 30) [*]; done)
                         | have k := keeps_of_opt (r := r0) e (by clear e; simp (maxDischargeDepth := 30) [*]; done)
                         | have k := keeps_of_optFst (r := r0) e (by clear e; simp (maxDischargeDepth := 30) [*]; done)))))

@[simp] theorem spareOff_keeps {r0 : State} {s : State} (hK : Keeps r0 s) :
    Keeps r0 (spareOff s) := by simp (maxDischargeDepth := 30) [spareOff, *]

@[simp] theorem spareDrop_keeps {r0 : State} (a : Nat) {s : State} (hK : Keeps r0 s) :
    Keeps r0 (spareDrop a s) := by simp (maxDischargeDepth := 30) [spareDrop, *]

@[simp] theorem aditFail_keeps {r0 : State} (a cause : Nat) {s : State} (hK : Keeps r0 s) :
    Keeps r0 (aditFail a cause s) := by simp (maxDischargeDepth := 30) [aditFail, *]

@[simp] theorem aditTrain_keeps {r0 : State} (a cause : Nat) (keep : Bool) {s : State} (hK : Keeps r0 s) :
    Keeps r0 (aditTrain a cause keep s) := by simp (maxDischargeDepth := 30) [aditTrain, *]

@[simp] theorem aditStart_keeps {r0 : State} (a : Nat) {s : State} (hK : Keeps r0 s) :
    Keeps r0 (aditStart a s) := by simp (maxDischargeDepth := 30) [aditStart, *]

@[simp] theorem holdQueue_keeps {r0 : State} (a : Nat) {s : State} (hK : Keeps r0 s) :
    Keeps r0 (holdQueue a s) := by simp (maxDischargeDepth := 30) [holdQueue, *]

@[simp] theorem enterRetrain_keeps {r0 : State} (a cause : Nat) {s : State} (hK : Keeps r0 s) :
    Keeps r0 (enterRetrain a cause s) := by simp (maxDischargeDepth := 30) [enterRetrain, *]

@[simp] theorem stopAdit_keeps {r0 : State} (a : Nat) {s : State} (hK : Keeps r0 s) :
    Keeps r0 (stopAdit a s) := by simp (maxDischargeDepth := 30) [stopAdit, *]

end Sys2Proof.Machine
end

