-- ==== Sys2Proof/Laws/KeepsFieldTime.lean ====
section
/-! SUPPORT. What the operations of Machine/FieldTime.lean keep (Laws/Keeps.lean). -/

set_option Elab.async false
set_option linter.unusedTactic false
set_option linter.unreachableTactic false

namespace Sys2Proof.Machine

@[simp] theorem becomeGm_keeps {r0 : State} {s : State} (hK : Keeps r0 s) :
    Keeps r0 (becomeGm s) := by simp (maxDischargeDepth := 30) [becomeGm, *]

@[simp] theorem adoptGm_keeps {r0 : State} (x : Nat × Nat × Nat × Nat) {s : State} (hK : Keeps r0 s) :
    Keeps r0 (adoptGm x s) := by simp (maxDischargeDepth := 30) [adoptGm, *]

@[simp] theorem selectGm_keeps {r0 : State} {s : State} (hK : Keeps r0 s) :
    Keeps r0 (selectGm s) := by
  unfold selectGm
  (repeat' split) <;> simp (maxDischargeDepth := 30) [*]

@[simp] theorem stepTclk_keeps {r0 : State} (ofs : Int) {s : State} (hK : Keeps r0 s) :
    Keeps r0 (stepTclk ofs s) := by simp (maxDischargeDepth := 30) [stepTclk, *]

@[simp] theorem useOffset_keeps {r0 : State} (ofs : Int) {s : State} (hK : Keeps r0 s) :
    Keeps r0 (useOffset ofs s) := by
  unfold useOffset
  dsimp only
  (repeat' split) <;> simp (maxDischargeDepth := 30) [*]

@[simp] theorem timeTake_keeps {r0 : State} (a : Nat) (t : TimePayload) (rxStamp : Nat) {s : State} (hK : Keeps r0 s) :
    Keeps r0 (timeTake a t rxStamp s) := by simp (maxDischargeDepth := 30) [timeTake, *]

@[simp] theorem execTimeFlit_keeps {r0 : State} (a : Nat) (t : TimePayload) (rxStamp : Nat) {s : State} (hK : Keeps r0 s) :
    KeepsRes r0 (execTimeFlit a t rxStamp s) := by simp (maxDischargeDepth := 30) [execTimeFlit, *]

@[simp] theorem execTimeFlitTimer_keeps {r0 : State} (a : Nat) {s : State} (hK : Keeps r0 s) :
    KeepsRes r0 (execTimeFlitTimer a s) := by simp (maxDischargeDepth := 30) [execTimeFlitTimer, *]

@[simp] theorem execTimeLocked_keeps {r0 : State} {s : State} (hK : Keeps r0 s) :
    KeepsRes r0 (execTimeLocked s) := by
  unfold execTimeLocked
  (repeat' split) <;> simp (maxDischargeDepth := 30) [*]

@[simp] theorem execParentTimeout_keeps {r0 : State} {s : State} (hK : Keeps r0 s) :
    KeepsRes r0 (execParentTimeout s) := by simp (maxDischargeDepth := 30) [execParentTimeout, *]

@[simp] theorem execGmAdvertStale_keeps {r0 : State} (a : Nat) {s : State} (hK : Keeps r0 s) :
    KeepsRes r0 (execGmAdvertStale a s) := by simp (maxDischargeDepth := 30) [execGmAdvertStale, *]

@[simp] theorem execPpsInEdge_keeps {r0 : State} {s : State} (hK : Keeps r0 s) :
    KeepsRes r0 (execPpsInEdge s) := by simp (maxDischargeDepth := 30) [execPpsInEdge, *]

@[simp] theorem execPpsOutEdge_keeps {r0 : State} {s : State} (hK : Keeps r0 s) :
    KeepsRes r0 (execPpsOutEdge s) := by simp (maxDischargeDepth := 30) [execPpsOutEdge, *]

end Sys2Proof.Machine
end

