-- ==== Sys2Proof/Laws/KeepsLink.lean ====
section
/-! SUPPORT. What the operations of Machine/Link.lean keep (Laws/Keeps.lean). -/

set_option Elab.async false
set_option linter.unusedTactic false
set_option linter.unreachableTactic false

namespace Sys2Proof.Machine

@[simp] theorem leaveBuffer_keeps {r0 : State} (a i : Nat) {s : State} (hK : Keeps r0 s) :
    Keeps r0 (leaveBuffer a i s) := by
  unfold leaveBuffer
  dsimp only
  (repeat' split) <;> simp (maxDischargeDepth := 30) [*]

@[simp] theorem dropTail_keeps {r0 : State} (a vc : Nat) (y1 : Nat) {s : State} (hK : Keeps r0 s) :
    Keeps r0 (dropTail a vc y1 s).1 := by
  induction y1 generalizing s with
  | zero =>
    unfold dropTail
    (repeat' split) <;> simp (maxDischargeDepth := 30) [*]
  | succ n ih =>
    unfold dropTail
    repeat' (first
      | (simp (maxDischargeDepth := 30) [*]; done)
      | (simp +contextual (maxDischargeDepth := 30) [*]; done)
      | (refine keeps_foldl _ _ _ (fun s a h => ?_) ?_)
      | (refine keeps_foldl_fst _ _ _ (fun s a h => ?_) ?_)
      | (refine keeps_foldl_snd _ _ _ (fun s a h => ?_) ?_)
      | (extract_lets +onlyGivenNames x
         first
           | (have hx : Keeps r0 x := by (first | (simp (maxDischargeDepth := 30) [x, *]; done) | (simp +contextual (maxDischargeDepth := 30) [x, *]; done) | ((try unfold x); (try dsimp only); (repeat' split) <;> simp (maxDischargeDepth := 30) [*]; done))
              clear_value x)
           | (have hx : Keeps r0 x.2 := by (first | (simp (maxDischargeDepth := 30) [x, *]; done) | (simp +contextual (maxDischargeDepth := 30) [x, *]; done) | ((try unfold x); (try dsimp only); (repeat' split) <;> simp (maxDischargeDepth := 30) [*]; done))
              clear_value x)
           | (have hx : Keeps r0 x.1 := by (first | (simp (maxDischargeDepth := 30) [x, *]; done) | (simp +contextual (maxDischargeDepth := 30) [x, *]; done) | ((try unfold x); (try dsimp only); (repeat' split) <;> simp (maxDischargeDepth := 30) [*]; done))
              clear_value x)
           | clear_value x)
      | (split <;> (try (rename_i e
                         first
                           | have k := keeps_of_snd (r := r0) e (by clear e; simp (maxDischargeDepth := 30) [*]; done)
                           | have k := keeps_of_fst (r := r0) e (by clear e; simp (maxDischargeDepth := 30) [*]; done)
                           | have k := keeps_of_opt (r := r0) e (by clear e; simp (maxDischargeDepth := 30) [*]; done)
                           | have k := keeps_of_optFst (r := r0) e (by clear e; simp (maxDischargeDepth := 30) [*]; done)))))

@[simp] theorem dropTransit_keeps {r0 : State} (a vc : Nat) {s : State} (hK : Keeps r0 s) :
    Keeps r0 (dropTransit a vc s) := by
  unfold dropTransit
  dsimp only
  (repeat' split) <;> simp (maxDischargeDepth := 30) [*]

@[simp] theorem dropMessage_keeps {r0 : State} (a : Nat) (f : MsgFlit) {s : State} (hK : Keeps r0 s) :
    Keeps r0 (dropMessage a f s) := by simp (maxDischargeDepth := 30) [dropMessage, *]

@[simp] theorem headerError_keeps {r0 : State} (a h : Nat) {s : State} (hK : Keeps r0 s) :
    Keeps r0 (headerError a h s) := by simp (maxDischargeDepth := 30) [headerError, *]

@[simp] theorem acceptFlit_keeps {r0 : State} (a h : Nat) (f : MsgFlit) (sh : Bool) {s : State} (hK : Keeps r0 s) :
    Keeps r0 (acceptFlit a h f sh s) := by simp (maxDischargeDepth := 30) [acceptFlit, *]

@[simp] theorem refuseFlit_keeps {r0 : State} (a : Nat) {s : State} (hK : Keeps r0 s) :
    Keeps r0 (refuseFlit a s) := by simp (maxDischargeDepth := 30) [refuseFlit, *]

@[simp] theorem linkReplay_keeps {r0 : State} (a : Nat) {s : State} (hK : Keeps r0 s) :
    Keeps r0 (linkReplay a s) := by simp (maxDischargeDepth := 30) [linkReplay, *]

@[simp] theorem applyAck_keeps {r0 : State} (a ack : Nat) {s : State} (hK : Keeps r0 s) :
    Keeps r0 (applyAck a ack s) := by
  unfold applyAck
  dsimp only
  (repeat' split) <;> simp (maxDischargeDepth := 30) [*]

@[simp] theorem applyCredit_keeps {r0 : State} (a h : Nat) {s : State} (hK : Keeps r0 s) :
    Keeps r0 (applyCredit a h s) := by simp (maxDischargeDepth := 30) [applyCredit, *]

@[simp] theorem failOpen_keeps {r0 : State} (a : Nat) {s : State} (hK : Keeps r0 s) :
    Keeps r0 (failOpen a s) := by simp (maxDischargeDepth := 30) [failOpen, *]

@[simp] theorem capsAgreed_keeps {r0 : State} (a : Nat) {s : State} (hK : Keeps r0 s) :
    Keeps r0 (capsAgreed a s) := by simp (maxDischargeDepth := 30) [capsAgreed, *]

@[simp] theorem capsTake_keeps {r0 : State} (a : Nat) (p : CapsPayload) {s : State} (hK : Keeps r0 s) :
    Keeps r0 (capsTake a p s) := by simp (maxDischargeDepth := 30) [capsTake, *]

@[simp] theorem qualTake_keeps {r0 : State} (a : Nat) {s : State} (hK : Keeps r0 s) :
    Keeps r0 (qualTake a s) := by simp (maxDischargeDepth := 30) [qualTake, *]

@[simp] theorem resultTake_keeps {r0 : State} (a : Nat) (pass : Bool) {s : State} (hK : Keeps r0 s) :
    Keeps r0 (resultTake a pass s) := by simp (maxDischargeDepth := 30) [resultTake, *]

@[simp] theorem retrainTake_keeps {r0 : State} (a : Nat) {s : State} (hK : Keeps r0 s) :
    Keeps r0 (retrainTake a s) := by simp (maxDischargeDepth := 30) [retrainTake, *]

@[simp] theorem stopTake_keeps {r0 : State} (a : Nat) {s : State} (hK : Keeps r0 s) :
    Keeps r0 (stopTake a s) := by simp (maxDischargeDepth := 30) [stopTake, *]

@[simp] theorem takeUnsequenced_keeps {r0 : State} (a kind : Nat) (p : List Byte) {s : State} (hK : Keeps r0 s) :
    Keeps r0 (takeUnsequenced a kind p s) := by
  unfold takeUnsequenced
  (repeat' split) <;> simp (maxDischargeDepth := 30) [*]

@[simp] theorem takeReturns_keeps {r0 : State} (a h sw : Nat) {s : State} (hK : Keeps r0 s) :
    Keeps r0 (takeReturns a h sw s) := by simp (maxDischargeDepth := 30) [takeReturns, *]

@[simp] theorem fecTake_keeps {r0 : State} (a : Nat) (errs : List (Nat × Nat × Nat)) {s : State} (hK : Keeps r0 s) :
    Keeps r0 (fecTake a errs s) := by simp (maxDischargeDepth := 30) [fecTake, *]

@[simp] theorem execFlitReceive_keeps {r0 : State} (a : Nat) (flit : List Byte) (fec : Bool × List (Nat × Nat × Nat)) {s : State} (hK : Keeps r0 s) :
    KeepsRes r0 (execFlitReceive a flit fec s) := by simp (maxDischargeDepth := 30) [execFlitReceive, *]

@[simp] theorem sendIdle_keeps {r0 : State} (a : Nat) {s : State} (hK : Keeps r0 s) :
    Keeps r0 (sendIdle a s) := by
  unfold sendIdle
  repeat' (first
    | (simp (maxDischargeDepth := 30) [*]; done)
    | (simp +contextual (maxDischargeDepth := 30) [*]; done)
    | (refine keeps_foldl _ _ _ (fun s a h => ?_) ?_)
    | (refine keeps_foldl_fst _ _ _ (fun s a h => ?_) ?_)
    | (refine keeps_foldl_snd _ _ _ (fun s a h => ?_) ?_)
    | (extract_lets +onlyGivenNames x
       first
         | (have hx : Keeps r0 x := by (first | (simp (maxDischargeDepth := 30) [x, *]; done) | (simp +contextual (maxDischargeDepth := 30) [x, *]; done) | ((try unfold x); (try dsimp only); (repeat' split) <;> simp (maxDischargeDepth := 30) [*]; done))
            clear_value x)
         | (have hx : Keeps r0 x.2 := by (first | (simp (maxDischargeDepth := 30) [x, *]; done) | (simp +contextual (maxDischargeDepth := 30) [x, *]; done) | ((try unfold x); (try dsimp only); (repeat' split) <;> simp (maxDischargeDepth := 30) [*]; done))
            clear_value x)
         | (have hx : Keeps r0 x.1 := by (first | (simp (maxDischargeDepth := 30) [x, *]; done) | (simp +contextual (maxDischargeDepth := 30) [x, *]; done) | ((try unfold x); (try dsimp only); (repeat' split) <;> simp (maxDischargeDepth := 30) [*]; done))
            clear_value x)
         | clear_value x)
    | (split <;> (try (rename_i e
                       first
                         | have k := keeps_of_snd (r := r0) e (by clear e; simp (maxDischargeDepth := 30) [*]; done)
                         | have k := keeps_of_fst (r := r0) e (by clear e; simp (maxDischargeDepth := 30) [*]; done)
                         | have k := keeps_of_opt (r := r0) e (by clear e; simp (maxDischargeDepth := 30) [*]; done)
                         | have k := keeps_of_optFst (r := r0) e (by clear e; simp (maxDischargeDepth := 30) [*]; done)))))

@[simp] theorem sendAgain_keeps {r0 : State} (a : Nat) (e : Flit) (rest : List Flit) {s : State} (hK : Keeps r0 s) :
    Keeps r0 (sendAgain a e rest s) := by
  unfold sendAgain
  repeat' (first
    | (simp (maxDischargeDepth := 30) [*]; done)
    | (simp +contextual (maxDischargeDepth := 30) [*]; done)
    | (refine keeps_foldl _ _ _ (fun s a h => ?_) ?_)
    | (refine keeps_foldl_fst _ _ _ (fun s a h => ?_) ?_)
    | (refine keeps_foldl_snd _ _ _ (fun s a h => ?_) ?_)
    | (extract_lets +onlyGivenNames x
       first
         | (have hx : Keeps r0 x := by (first | (simp (maxDischargeDepth := 30) [x, *]; done) | (simp +contextual (maxDischargeDepth := 30) [x, *]; done) | ((try unfold x); (try dsimp only); (repeat' split) <;> simp (maxDischargeDepth := 30) [*]; done))
            clear_value x)
         | (have hx : Keeps r0 x.2 := by (first | (simp (maxDischargeDepth := 30) [x, *]; done) | (simp +contextual (maxDischargeDepth := 30) [x, *]; done) | ((try unfold x); (try dsimp only); (repeat' split) <;> simp (maxDischargeDepth := 30) [*]; done))
            clear_value x)
         | (have hx : Keeps r0 x.1 := by (first | (simp (maxDischargeDepth := 30) [x, *]; done) | (simp +contextual (maxDischargeDepth := 30) [x, *]; done) | ((try unfold x); (try dsimp only); (repeat' split) <;> simp (maxDischargeDepth := 30) [*]; done))
            clear_value x)
         | clear_value x)
    | (split <;> (try (rename_i e
                       first
                         | have k := keeps_of_snd (r := r0) e (by clear e; simp (maxDischargeDepth := 30) [*]; done)
                         | have k := keeps_of_fst (r := r0) e (by clear e; simp (maxDischargeDepth := 30) [*]; done)
                         | have k := keeps_of_opt (r := r0) e (by clear e; simp (maxDischargeDepth := 30) [*]; done)
                         | have k := keeps_of_optFst (r := r0) e (by clear e; simp (maxDischargeDepth := 30) [*]; done)))))

@[simp] theorem sendNew_keeps {r0 : State} (a i : Nat) (e : Flit) (sh : Bool) (deficit : List Nat) {s : State} (hK : Keeps r0 s) :
    Keeps r0 (sendNew a i e sh deficit s) := by
  unfold sendNew
  repeat' (first
    | (simp (maxDischargeDepth := 30) [*]; done)
    | (simp +contextual (maxDischargeDepth := 30) [*]; done)
    | (refine keeps_foldl _ _ _ (fun s a h => ?_) ?_)
    | (refine keeps_foldl_fst _ _ _ (fun s a h => ?_) ?_)
    | (refine keeps_foldl_snd _ _ _ (fun s a h => ?_) ?_)
    | (extract_lets +onlyGivenNames x
       first
         | (have hx : Keeps r0 x := by (first | (simp (maxDischargeDepth := 30) [x, *]; done) | (simp +contextual (maxDischargeDepth := 30) [x, *]; done) | ((try unfold x); (try dsimp only); (repeat' split) <;> simp (maxDischargeDepth := 30) [*]; done))
            clear_value x)
         | (have hx : Keeps r0 x.2 := by (first | (simp (maxDischargeDepth := 30) [x, *]; done) | (simp +contextual (maxDischargeDepth := 30) [x, *]; done) | ((try unfold x); (try dsimp only); (repeat' split) <;> simp (maxDischargeDepth := 30) [*]; done))
            clear_value x)
         | (have hx : Keeps r0 x.1 := by (first | (simp (maxDischargeDepth := 30) [x, *]; done) | (simp +contextual (maxDischargeDepth := 30) [x, *]; done) | ((try unfold x); (try dsimp only); (repeat' split) <;> simp (maxDischargeDepth := 30) [*]; done))
            clear_value x)
         | clear_value x)
    | (split <;> (try (rename_i e
                       first
                         | have k := keeps_of_snd (r := r0) e (by clear e; simp (maxDischargeDepth := 30) [*]; done)
                         | have k := keeps_of_fst (r := r0) e (by clear e; simp (maxDischargeDepth := 30) [*]; done)
                         | have k := keeps_of_opt (r := r0) e (by clear e; simp (maxDischargeDepth := 30) [*]; done)
                         | have k := keeps_of_optFst (r := r0) e (by clear e; simp (maxDischargeDepth := 30) [*]; done)))))

@[simp] theorem execFlitSlot_keeps {r0 : State} (a : Nat) {s : State} (hK : Keeps r0 s) :
    KeepsRes r0 (execFlitSlot a s) := by
  unfold execFlitSlot
  dsimp only
  (repeat' split) <;> simp (maxDischargeDepth := 30) [*]

@[simp] theorem execReplayTimeout_keeps {r0 : State} (a : Nat) {s : State} (hK : Keeps r0 s) :
    KeepsRes r0 (execReplayTimeout a s) := by simp (maxDischargeDepth := 30) [execReplayTimeout, *]

@[simp] theorem execCapsFlit_keeps {r0 : State} (a : Nat) (p : CapsPayload) {s : State} (hK : Keeps r0 s) :
    KeepsRes r0 (execCapsFlit a p s) := by simp (maxDischargeDepth := 30) [execCapsFlit, *]

@[simp] theorem execCapsResendTimer_keeps {r0 : State} (a : Nat) {s : State} (hK : Keeps r0 s) :
    KeepsRes r0 (execCapsResendTimer a s) := by simp (maxDischargeDepth := 30) [execCapsResendTimer, *]

@[simp] theorem execCapsTimeout_keeps {r0 : State} (a : Nat) {s : State} (hK : Keeps r0 s) :
    KeepsRes r0 (execCapsTimeout a s) := by simp (maxDischargeDepth := 30) [execCapsTimeout, *]

@[simp] theorem execQualReq_keeps {r0 : State} (a : Nat) {s : State} (hK : Keeps r0 s) :
    KeepsRes r0 (execQualReq a s) := by simp (maxDischargeDepth := 30) [execQualReq, *]

@[simp] theorem execQualReqTimer_keeps {r0 : State} (a : Nat) {s : State} (hK : Keeps r0 s) :
    KeepsRes r0 (execQualReqTimer a s) := by simp (maxDischargeDepth := 30) [execQualReqTimer, *]

@[simp] theorem execQualResult_keeps {r0 : State} (a : Nat) (pass : Bool) {s : State} (hK : Keeps r0 s) :
    KeepsRes r0 (execQualResult a pass s) := by simp (maxDischargeDepth := 30) [execQualResult, *]

@[simp] theorem execQualifyDone_keeps {r0 : State} (a : Nat) (lanes : List (Nat × Nat × Nat)) {s : State} (hK : Keeps r0 s) :
    KeepsRes r0 (execQualifyDone a lanes s) := by simp (maxDischargeDepth := 30) [execQualifyDone, *]

@[simp] theorem execQualifyTimeout_keeps {r0 : State} (a : Nat) {s : State} (hK : Keeps r0 s) :
    KeepsRes r0 (execQualifyTimeout a s) := by simp (maxDischargeDepth := 30) [execQualifyTimeout, *]

@[simp] theorem execRetrainReq_keeps {r0 : State} (a : Nat) {s : State} (hK : Keeps r0 s) :
    KeepsRes r0 (execRetrainReq a s) := by simp (maxDischargeDepth := 30) [execRetrainReq, *]

@[simp] theorem execLinkStop_keeps {r0 : State} (a : Nat) {s : State} (hK : Keeps r0 s) :
    KeepsRes r0 (execLinkStop a s) := by simp (maxDischargeDepth := 30) [execLinkStop, *]

@[simp] theorem execTrainDone_keeps {r0 : State} (a rate lanes : Nat) {s : State} (hK : Keeps r0 s) :
    KeepsRes r0 (execTrainDone a rate lanes s) := by simp (maxDischargeDepth := 30) [execTrainDone, *]

@[simp] theorem execTrainTimeout_keeps {r0 : State} (a : Nat) (signal : Bool) {s : State} (hK : Keeps r0 s) :
    KeepsRes r0 (execTrainTimeout a signal s) := by simp (maxDischargeDepth := 30) [execTrainTimeout, *]

@[simp] theorem execLinkFaultTrip_keeps {r0 : State} (a cause : Nat) {s : State} (hK : Keeps r0 s) :
    KeepsRes r0 (execLinkFaultTrip a cause s) := by simp (maxDischargeDepth := 30) [execLinkFaultTrip, *]

@[simp] theorem execFastRetrainDone_keeps {r0 : State} (a : Nat) (pass : Bool) (badLanes : Nat) {s : State} (hK : Keeps r0 s) :
    KeepsRes r0 (execFastRetrainDone a pass badLanes s) := by simp (maxDischargeDepth := 30) [execFastRetrainDone, *]

@[simp] theorem execSignalDetect_keeps {r0 : State} (a : Nat) {s : State} (hK : Keeps r0 s) :
    KeepsRes r0 (execSignalDetect a s) := by simp (maxDischargeDepth := 30) [execSignalDetect, *]

@[simp] theorem aditRetrain_keeps {r0 : State} (a : Nat) {s : State} (hK : Keeps r0 s) :
    Keeps r0 (aditRetrain a s) := by simp (maxDischargeDepth := 30) [aditRetrain, *]

@[simp] theorem execAdtRetrain_keeps {r0 : State} (r : Requester) (a : Nat) {s : State} (hK : Keeps r0 s) :
    KeepsRes r0 (execAdtRetrain r a s) := by simp (maxDischargeDepth := 30) [execAdtRetrain, *]

@[simp] theorem aditReset_keeps {r0 : State} (a : Nat) {s : State} (hK : Keeps r0 s) :
    Keeps r0 (aditReset a s) := by simp (maxDischargeDepth := 30) [aditReset, *]

@[simp] theorem execAdtReset_keeps {r0 : State} (r : Requester) (a : Nat) {s : State} (hK : Keeps r0 s) :
    KeepsRes r0 (execAdtReset r a s) := by simp (maxDischargeDepth := 30) [execAdtReset, *]

@[simp] theorem execSpareTakeover_keeps {r0 : State} {s : State} (hK : Keeps r0 s) :
    KeepsRes r0 (execSpareTakeover s) := by simp (maxDischargeDepth := 30) [execSpareTakeover, *]

@[simp] theorem execAditRefclkLoss_keeps {r0 : State} (edge : Nat) {s : State} (hK : Keeps r0 s) :
    KeepsRes r0 (execAditRefclkLoss edge s) := by
  unfold execAditRefclkLoss
  repeat' (first
    | (simp (maxDischargeDepth := 30) [*]; done)
    | (simp +contextual (maxDischargeDepth := 30) [*]; done)
    | (refine keeps_foldl _ _ _ (fun s a h => ?_) ?_)
    | (refine keeps_foldl_fst _ _ _ (fun s a h => ?_) ?_)
    | (refine keeps_foldl_snd _ _ _ (fun s a h => ?_) ?_)
    | (extract_lets +onlyGivenNames x
       first
         | (have hx : Keeps r0 x := by (first | (simp (maxDischargeDepth := 30) [x, *]; done) | (simp +contextual (maxDischargeDepth := 30) [x, *]; done) | ((try unfold x); (try dsimp only); (repeat' split) <;> simp (maxDischargeDepth := 30) [*]; done))
            clear_value x)
         | (have hx : Keeps r0 x.2 := by (first | (simp (maxDischargeDepth := 30) [x, *]; done) | (simp +contextual (maxDischargeDepth := 30) [x, *]; done) | ((try unfold x); (try dsimp only); (repeat' split) <;> simp (maxDischargeDepth := 30) [*]; done))
            clear_value x)
         | (have hx : Keeps r0 x.1 := by (first | (simp (maxDischargeDepth := 30) [x, *]; done) | (simp +contextual (maxDischargeDepth := 30) [x, *]; done) | ((try unfold x); (try dsimp only); (repeat' split) <;> simp (maxDischargeDepth := 30) [*]; done))
            clear_value x)
         | clear_value x)
    | (split <;> (try (rename_i e
                       first
                         | have k := keeps_of_snd (r := r0) e (by clear e; simp (maxDischargeDepth := 30) [*]; done)
                         | have k := keeps_of_fst (r := r0) e (by clear e; simp (maxDischargeDepth := 30) [*]; done)
                         | have k := keeps_of_opt (r := r0) e (by clear e; simp (maxDischargeDepth := 30) [*]; done)
                         | have k := keeps_of_optFst (r := r0) e (by clear e; simp (maxDischargeDepth := 30) [*]; done)))))

@[simp] theorem execAditRefclkReturn_keeps {r0 : State} (edge : Nat) {s : State} (hK : Keeps r0 s) :
    KeepsRes r0 (execAditRefclkReturn edge s) := by
  unfold execAditRefclkReturn
  repeat' (first
    | (simp (maxDischargeDepth := 30) [*]; done)
    | (simp +contextual (maxDischargeDepth := 30) [*]; done)
    | (refine keeps_foldl _ _ _ (fun s a h => ?_) ?_)
    | (refine keeps_foldl_fst _ _ _ (fun s a h => ?_) ?_)
    | (refine keeps_foldl_snd _ _ _ (fun s a h => ?_) ?_)
    | (extract_lets +onlyGivenNames x
       first
         | (have hx : Keeps r0 x := by (first | (simp (maxDischargeDepth := 30) [x, *]; done) | (simp +contextual (maxDischargeDepth := 30) [x, *]; done) | ((try unfold x); (try dsimp only); (repeat' split) <;> simp (maxDischargeDepth := 30) [*]; done))
            clear_value x)
         | (have hx : Keeps r0 x.2 := by (first | (simp (maxDischargeDepth := 30) [x, *]; done) | (simp +contextual (maxDischargeDepth := 30) [x, *]; done) | ((try unfold x); (try dsimp only); (repeat' split) <;> simp (maxDischargeDepth := 30) [*]; done))
            clear_value x)
         | (have hx : Keeps r0 x.1 := by (first | (simp (maxDischargeDepth := 30) [x, *]; done) | (simp +contextual (maxDischargeDepth := 30) [x, *]; done) | ((try unfold x); (try dsimp only); (repeat' split) <;> simp (maxDischargeDepth := 30) [*]; done))
            clear_value x)
         | clear_value x)
    | (split <;> (try (rename_i e
                       first
                         | have k := keeps_of_snd (r := r0) e (by clear e; simp (maxDischargeDepth := 30) [*]; done)
                         | have k := keeps_of_fst (r := r0) e (by clear e; simp (maxDischargeDepth := 30) [*]; done)
                         | have k := keeps_of_opt (r := r0) e (by clear e; simp (maxDischargeDepth := 30) [*]; done)
                         | have k := keeps_of_optFst (r := r0) e (by clear e; simp (maxDischargeDepth := 30) [*]; done)))))

end Sys2Proof.Machine
end

