-- ==== Sys2Proof/Laws/KeepsField.lean ====
section
/-! SUPPORT. What the operations of Machine/Field.lean keep (Laws/Keeps.lean). -/

set_option Elab.async false
set_option linter.unusedTactic false
set_option linter.unreachableTactic false

namespace Sys2Proof.Machine

@[simp] theorem deliverMsg_keeps {r0 : State} (a : Nat) (fs : List MsgFlit) {s : State} (hK : Keeps r0 s) :
    Keeps r0 (deliverMsg a fs s) := by simp (maxDischargeDepth := 30) [deliverMsg, *]

@[simp] theorem forward_keeps {r0 : State} (b : Nat) (f : MsgFlit) (local_ : Bool) (t : Transit) {s : State} (hK : Keeps r0 s) :
    Keeps r0 (forward b f local_ t s) := by simp (maxDischargeDepth := 30) [forward, *]

@[simp] theorem endLost_keeps {r0 : State} (f : MsgFlit) (local_ : Bool) (st : Status) (b : Nat) {s : State} (hK : Keeps r0 s) :
    Keeps r0 (endLost f local_ st b s) := by simp (maxDischargeDepth := 30) [endLost, *]

@[simp] theorem endNoRoute_keeps {r0 : State} (f : MsgFlit) (local_ : Bool) {s : State} (hK : Keeps r0 s) :
    Keeps r0 (endNoRoute f local_ s) := by simp (maxDischargeDepth := 30) [endNoRoute, *]

@[simp] theorem routeFirst_keeps {r0 : State} (f : MsgFlit) (fromGlobal local_ : Bool) (hops : Nat) {s : State} (hK : Keeps r0 s) :
    Keeps r0 (routeFirst f fromGlobal local_ hops s).1 := by
  unfold routeFirst
  (repeat' split) <;> simp (maxDischargeDepth := 30) [*]

@[simp] theorem takeFirst_keeps {r0 : State} (a i : Nat) (f : MsgFlit) {s : State} (hK : Keeps r0 s) :
    Keeps r0 (takeFirst a i f s) := by simp (maxDischargeDepth := 30) [takeFirst, *]

@[simp] theorem takeNext_keeps {r0 : State} (a i : Nat) (f : MsgFlit) {s : State} (hK : Keeps r0 s) :
    Keeps r0 (takeNext a i f s) := by
  unfold takeNext
  dsimp only
  (repeat' split) <;> simp (maxDischargeDepth := 30) [*]

@[simp] theorem routeLocal_keeps {r0 : State} (f : MsgFlit) {s : State} (hK : Keeps r0 s) :
    Keeps r0 (routeLocal f s) := by
  unfold routeLocal
  dsimp only
  (repeat' split) <;> simp (maxDischargeDepth := 30) [*]

@[simp] theorem execRouteFlit_keeps {r0 : State} (port : Option Nat) (f : MsgFlit) {s : State} (hK : Keeps r0 s) :
    KeepsRes r0 (execRouteFlit port f s) := by
  unfold execRouteFlit
  dsimp only
  (repeat' split) <;> simp (maxDischargeDepth := 30) [*]

@[simp] theorem execOrdWaitExpiry_keeps {r0 : State} (a : Nat) {s : State} (hK : Keeps r0 s) :
    KeepsRes r0 (execOrdWaitExpiry a s) := by simp (maxDischargeDepth := 30) [execOrdWaitExpiry, *]

@[simp] theorem takeMsg_keeps {r0 : State} (p : Nat × Msg → Bool) {s : State} (hK : Keeps r0 s) :
    KeepsOptFst r0 (takeMsg p s) := by
  unfold takeMsg
  (repeat' split) <;> simp (maxDischargeDepth := 30) [*]

@[simp] theorem fieldServe_keeps {r0 : State} (a op : Nat) (m : Msg) (f : State → State) {s : State} (hFf : ∀ a0, Keeps r0 a0 → Keeps r0 (f a0)) (hK : Keeps r0 s) :
    Keeps r0 (fieldServe a op m f s) := by
  unfold fieldServe
  split
  · exact hK
  split
  · exact hK
  · rename_i e
    have k := keeps_of_optFst (r := r0) e (takeMsg_keeps _ hK)
    clear e
    split
    · simp (maxDischargeDepth := 30) [*]
    · split
      · simp (maxDischargeDepth := 30) [*]
      · exact hFf _ k

@[simp] theorem execMsgWrite_keeps {r0 : State} (a : Nat) (m : Msg) {s : State} (hK : Keeps r0 s) :
    KeepsRes r0 (execMsgWrite a m s) := by
  unfold execMsgWrite
  repeat' (first
    | (simp (maxDischargeDepth := 30) [*]; done)
    | (simp +contextual (maxDischargeDepth := 30) [*]; done)
    | (refine keeps_foldl _ _ _ (fun s a h => ?_) ?_)
    | (refine keeps_foldl_fst _ _ _ (fun s a h => ?_) ?_)
    | (refine keeps_foldl_snd _ _ _ (fun s a h => ?_) ?_)
    | (extract_lets +onlyGivenNames x
       first
         | (have hx : Keeps r0 x := by (first | (simp (maxDischargeDepth := 30) [x, *]; done) | (simp +contextual (maxDischargeDepth := 30) [x, *]; done) | ((try unfold x); (try dsimp only); (repeat' split) <;> simp (maxDischargeDepth := 30) [*]; done))
            clear_value x)
         | (have hx : Keeps r0 x.2 := by (first | (simp (maxDischargeDepth := 30) [x, *]; done) | (simp +contextual (maxDischargeDepth := 30) [x, *]; done) | ((try unfold x); (try dsimp only); (repeat' split) <;> simp (maxDischargeDepth := 30) [*]; done))
            clear_value x)
         | (have hx : Keeps r0 x.1 := by (first | (simp (maxDischargeDepth := 30) [x, *]; done) | (simp +contextual (maxDischargeDepth := 30) [x, *]; done) | ((try unfold x); (try dsimp only); (repeat' split) <;> simp (maxDischargeDepth := 30) [*]; done))
            clear_value x)
         | clear_value x)
    | (split <;> (try (rename_i e
                       first
                         | have k := keeps_of_snd (r := r0) e (by clear e; simp (maxDischargeDepth := 30) [*]; done)
                         | have k := keeps_of_fst (r := r0) e (by clear e; simp (maxDischargeDepth := 30) [*]; done)
                         | have k := keeps_of_opt (r := r0) e (by clear e; simp (maxDischargeDepth := 30) [*]; done)
                         | have k := keeps_of_optFst (r := r0) e (by clear e; simp (maxDischargeDepth := 30) [*]; done)))))

@[simp] theorem execMsgRead_keeps {r0 : State} (a : Nat) (m : Msg) {s : State} (hK : Keeps r0 s) :
    KeepsRes r0 (execMsgRead a m s) := by
  unfold execMsgRead
  repeat' (first
    | (simp (maxDischargeDepth := 30) [*]; done)
    | (simp +contextual (maxDischargeDepth := 30) [*]; done)
    | (refine keeps_foldl _ _ _ (fun s a h => ?_) ?_)
    | (refine keeps_foldl_fst _ _ _ (fun s a h => ?_) ?_)
    | (refine keeps_foldl_snd _ _ _ (fun s a h => ?_) ?_)
    | (extract_lets +onlyGivenNames x
       first
         | (have hx : Keeps r0 x := by (first | (simp (maxDischargeDepth := 30) [x, *]; done) | (simp +contextual (maxDischargeDepth := 30) [x, *]; done) | ((try unfold x); (try dsimp only); (repeat' split) <;> simp (maxDischargeDepth := 30) [*]; done))
            clear_value x)
         | (have hx : Keeps r0 x.2 := by (first | (simp (maxDischargeDepth := 30) [x, *]; done) | (simp +contextual (maxDischargeDepth := 30) [x, *]; done) | ((try unfold x); (try dsimp only); (repeat' split) <;> simp (maxDischargeDepth := 30) [*]; done))
            clear_value x)
         | (have hx : Keeps r0 x.1 := by (first | (simp (maxDischargeDepth := 30) [x, *]; done) | (simp +contextual (maxDischargeDepth := 30) [x, *]; done) | ((try unfold x); (try dsimp only); (repeat' split) <;> simp (maxDischargeDepth := 30) [*]; done))
            clear_value x)
         | clear_value x)
    | (split <;> (try (rename_i e
                       first
                         | have k := keeps_of_snd (r := r0) e (by clear e; simp (maxDischargeDepth := 30) [*]; done)
                         | have k := keeps_of_fst (r := r0) e (by clear e; simp (maxDischargeDepth := 30) [*]; done)
                         | have k := keeps_of_opt (r := r0) e (by clear e; simp (maxDischargeDepth := 30) [*]; done)
                         | have k := keeps_of_optFst (r := r0) e (by clear e; simp (maxDischargeDepth := 30) [*]; done)))))

@[simp] theorem arriveTake_keeps {r0 : State} (m : Msg) (poison : Bool) {s : State} (hK : Keeps r0 s) :
    Keeps r0 (arriveTake m poison s) := by simp (maxDischargeDepth := 30) [arriveTake, *]

@[simp] theorem execMsgArrive_keeps {r0 : State} (a : Nat) (m : Msg) {s : State} (hK : Keeps r0 s) :
    KeepsRes r0 (execMsgArrive a m s) := by
  unfold execMsgArrive
  repeat' (first
    | (simp (maxDischargeDepth := 30) [*]; done)
    | (simp +contextual (maxDischargeDepth := 30) [*]; done)
    | (refine keeps_foldl _ _ _ (fun s a h => ?_) ?_)
    | (refine keeps_foldl_fst _ _ _ (fun s a h => ?_) ?_)
    | (refine keeps_foldl_snd _ _ _ (fun s a h => ?_) ?_)
    | (extract_lets +onlyGivenNames x
       first
         | (have hx : Keeps r0 x := by (first | (simp (maxDischargeDepth := 30) [x, *]; done) | (simp +contextual (maxDischargeDepth := 30) [x, *]; done) | ((try unfold x); (try dsimp only); (repeat' split) <;> simp (maxDischargeDepth := 30) [*]; done))
            clear_value x)
         | (have hx : Keeps r0 x.2 := by (first | (simp (maxDischargeDepth := 30) [x, *]; done) | (simp +contextual (maxDischargeDepth := 30) [x, *]; done) | ((try unfold x); (try dsimp only); (repeat' split) <;> simp (maxDischargeDepth := 30) [*]; done))
            clear_value x)
         | (have hx : Keeps r0 x.1 := by (first | (simp (maxDischargeDepth := 30) [x, *]; done) | (simp +contextual (maxDischargeDepth := 30) [x, *]; done) | ((try unfold x); (try dsimp only); (repeat' split) <;> simp (maxDischargeDepth := 30) [*]; done))
            clear_value x)
         | clear_value x)
    | (split <;> (try (rename_i e
                       first
                         | have k := keeps_of_snd (r := r0) e (by clear e; simp (maxDischargeDepth := 30) [*]; done)
                         | have k := keeps_of_fst (r := r0) e (by clear e; simp (maxDischargeDepth := 30) [*]; done)
                         | have k := keeps_of_opt (r := r0) e (by clear e; simp (maxDischargeDepth := 30) [*]; done)
                         | have k := keeps_of_optFst (r := r0) e (by clear e; simp (maxDischargeDepth := 30) [*]; done)))))

@[simp] theorem execMsgPoison_keeps {r0 : State} (a : Nat) (m : Msg) {s : State} (hK : Keeps r0 s) :
    KeepsRes r0 (execMsgPoison a m s) := by
  unfold execMsgPoison
  repeat' (first
    | (simp (maxDischargeDepth := 30) [*]; done)
    | (simp +contextual (maxDischargeDepth := 30) [*]; done)
    | (refine keeps_foldl _ _ _ (fun s a h => ?_) ?_)
    | (refine keeps_foldl_fst _ _ _ (fun s a h => ?_) ?_)
    | (refine keeps_foldl_snd _ _ _ (fun s a h => ?_) ?_)
    | (extract_lets +onlyGivenNames x
       first
         | (have hx : Keeps r0 x := by (first | (simp (maxDischargeDepth := 30) [x, *]; done) | (simp +contextual (maxDischargeDepth := 30) [x, *]; done) | ((try unfold x); (try dsimp only); (repeat' split) <;> simp (maxDischargeDepth := 30) [*]; done))
            clear_value x)
         | (have hx : Keeps r0 x.2 := by (first | (simp (maxDischargeDepth := 30) [x, *]; done) | (simp +contextual (maxDischargeDepth := 30) [x, *]; done) | ((try unfold x); (try dsimp only); (repeat' split) <;> simp (maxDischargeDepth := 30) [*]; done))
            clear_value x)
         | (have hx : Keeps r0 x.1 := by (first | (simp (maxDischargeDepth := 30) [x, *]; done) | (simp +contextual (maxDischargeDepth := 30) [x, *]; done) | ((try unfold x); (try dsimp only); (repeat' split) <;> simp (maxDischargeDepth := 30) [*]; done))
            clear_value x)
         | clear_value x)
    | (split <;> (try (rename_i e
                       first
                         | have k := keeps_of_snd (r := r0) e (by clear e; simp (maxDischargeDepth := 30) [*]; done)
                         | have k := keeps_of_fst (r := r0) e (by clear e; simp (maxDischargeDepth := 30) [*]; done)
                         | have k := keeps_of_opt (r := r0) e (by clear e; simp (maxDischargeDepth := 30) [*]; done)
                         | have k := keeps_of_optFst (r := r0) e (by clear e; simp (maxDischargeDepth := 30) [*]; done)))))

@[simp] theorem responseTake_keeps {r0 : State} (a op : Nat) (m : Msg) {s : State} (hK : Keeps r0 s) :
    Keeps r0 (responseTake a op m s) := by
  unfold responseTake
  split
  · exact hK
  split
  · exact hK
  · rename_i e
    exact fieldAnswer_keeps _ _ (keeps_of_optFst (r := r0) e (takeMsg_keeps _ hK))

@[simp] theorem execMsgReadData_keeps {r0 : State} (a : Nat) (m : Msg) {s : State} (hK : Keeps r0 s) :
    KeepsRes r0 (execMsgReadData a m s) := by simp (maxDischargeDepth := 30) [execMsgReadData, *]

@[simp] theorem execMsgWriteAck_keeps {r0 : State} (a : Nat) (m : Msg) {s : State} (hK : Keeps r0 s) :
    KeepsRes r0 (execMsgWriteAck a m s) := by simp (maxDischargeDepth := 30) [execMsgWriteAck, *]

@[simp] theorem execMsgArriveAck_keeps {r0 : State} (a : Nat) (m : Msg) {s : State} (hK : Keeps r0 s) :
    KeepsRes r0 (execMsgArriveAck a m s) := by simp (maxDischargeDepth := 30) [execMsgArriveAck, *]

@[simp] theorem execLinkmapMsg_keeps {r0 : State} (a member localMap globalMap : Nat) {s : State} (hK : Keeps r0 s) :
    KeepsRes r0 (execLinkmapMsg a member localMap globalMap s) := by
  unfold execLinkmapMsg
  repeat' (first
    | (simp (maxDischargeDepth := 30) [*]; done)
    | (simp +contextual (maxDischargeDepth := 30) [*]; done)
    | (refine keeps_foldl _ _ _ (fun s a h => ?_) ?_)
    | (refine keeps_foldl_fst _ _ _ (fun s a h => ?_) ?_)
    | (refine keeps_foldl_snd _ _ _ (fun s a h => ?_) ?_)
    | (extract_lets +onlyGivenNames x
       first
         | (have hx : Keeps r0 x := by (first | (simp (maxDischargeDepth := 30) [x, *]; done) | (simp +contextual (maxDischargeDepth := 30) [x, *]; done) | ((try unfold x); (try dsimp only); (repeat' split) <;> simp (maxDischargeDepth := 30) [*]; done))
            clear_value x)
         | (have hx : Keeps r0 x.2 := by (first | (simp (maxDischargeDepth := 30) [x, *]; done) | (simp +contextual (maxDischargeDepth := 30) [x, *]; done) | ((try unfold x); (try dsimp only); (repeat' split) <;> simp (maxDischargeDepth := 30) [*]; done))
            clear_value x)
         | (have hx : Keeps r0 x.1 := by (first | (simp (maxDischargeDepth := 30) [x, *]; done) | (simp +contextual (maxDischargeDepth := 30) [x, *]; done) | ((try unfold x); (try dsimp only); (repeat' split) <;> simp (maxDischargeDepth := 30) [*]; done))
            clear_value x)
         | clear_value x)
    | (split <;> (try (rename_i e
                       first
                         | have k := keeps_of_snd (r := r0) e (by clear e; simp (maxDischargeDepth := 30) [*]; done)
                         | have k := keeps_of_fst (r := r0) e (by clear e; simp (maxDischargeDepth := 30) [*]; done)
                         | have k := keeps_of_opt (r := r0) e (by clear e; simp (maxDischargeDepth := 30) [*]; done)
                         | have k := keeps_of_optFst (r := r0) e (by clear e; simp (maxDischargeDepth := 30) [*]; done)))))

@[simp] theorem execLinkmapTimer_keeps {r0 : State} {s : State} (hK : Keeps r0 s) :
    KeepsRes r0 (execLinkmapTimer s) := by simp (maxDischargeDepth := 30) [execLinkmapTimer, *]

@[simp] theorem execLinkmapStale_keeps {r0 : State} (member : Nat) {s : State} (hK : Keeps r0 s) :
    KeepsRes r0 (execLinkmapStale member s) := by simp (maxDischargeDepth := 30) [execLinkmapStale, *]

@[simp] theorem execJoinMsg_keeps {r0 : State} (a : Nat) (m : MemberEntry) {s : State} (hK : Keeps r0 s) :
    KeepsRes r0 (execJoinMsg a m s) := by
  unfold execJoinMsg
  repeat' (first
    | (simp (maxDischargeDepth := 30) [*]; done)
    | (simp +contextual (maxDischargeDepth := 30) [*]; done)
    | (refine keeps_foldl _ _ _ (fun s a h => ?_) ?_)
    | (refine keeps_foldl_fst _ _ _ (fun s a h => ?_) ?_)
    | (refine keeps_foldl_snd _ _ _ (fun s a h => ?_) ?_)
    | (extract_lets +onlyGivenNames x
       first
         | (have hx : Keeps r0 x := by (first | (simp (maxDischargeDepth := 30) [x, *]; done) | (simp +contextual (maxDischargeDepth := 30) [x, *]; done) | ((try unfold x); (try dsimp only); (repeat' split) <;> simp (maxDischargeDepth := 30) [*]; done))
            clear_value x)
         | (have hx : Keeps r0 x.2 := by (first | (simp (maxDischargeDepth := 30) [x, *]; done) | (simp +contextual (maxDischargeDepth := 30) [x, *]; done) | ((try unfold x); (try dsimp only); (repeat' split) <;> simp (maxDischargeDepth := 30) [*]; done))
            clear_value x)
         | (have hx : Keeps r0 x.1 := by (first | (simp (maxDischargeDepth := 30) [x, *]; done) | (simp +contextual (maxDischargeDepth := 30) [x, *]; done) | ((try unfold x); (try dsimp only); (repeat' split) <;> simp (maxDischargeDepth := 30) [*]; done))
            clear_value x)
         | clear_value x)
    | (split <;> (try (rename_i e
                       first
                         | have k := keeps_of_snd (r := r0) e (by clear e; simp (maxDischargeDepth := 30) [*]; done)
                         | have k := keeps_of_fst (r := r0) e (by clear e; simp (maxDischargeDepth := 30) [*]; done)
                         | have k := keeps_of_opt (r := r0) e (by clear e; simp (maxDischargeDepth := 30) [*]; done)
                         | have k := keeps_of_optFst (r := r0) e (by clear e; simp (maxDischargeDepth := 30) [*]; done)))))

@[simp] theorem execLeaveMsg_keeps {r0 : State} (a : Nat) (m : MemberEntry) {s : State} (hK : Keeps r0 s) :
    KeepsRes r0 (execLeaveMsg a m s) := by
  unfold execLeaveMsg
  repeat' (first
    | (simp (maxDischargeDepth := 30) [*]; done)
    | (simp +contextual (maxDischargeDepth := 30) [*]; done)
    | (refine keeps_foldl _ _ _ (fun s a h => ?_) ?_)
    | (refine keeps_foldl_fst _ _ _ (fun s a h => ?_) ?_)
    | (refine keeps_foldl_snd _ _ _ (fun s a h => ?_) ?_)
    | (extract_lets +onlyGivenNames x
       first
         | (have hx : Keeps r0 x := by (first | (simp (maxDischargeDepth := 30) [x, *]; done) | (simp +contextual (maxDischargeDepth := 30) [x, *]; done) | ((try unfold x); (try dsimp only); (repeat' split) <;> simp (maxDischargeDepth := 30) [*]; done))
            clear_value x)
         | (have hx : Keeps r0 x.2 := by (first | (simp (maxDischargeDepth := 30) [x, *]; done) | (simp +contextual (maxDischargeDepth := 30) [x, *]; done) | ((try unfold x); (try dsimp only); (repeat' split) <;> simp (maxDischargeDepth := 30) [*]; done))
            clear_value x)
         | (have hx : Keeps r0 x.1 := by (first | (simp (maxDischargeDepth := 30) [x, *]; done) | (simp +contextual (maxDischargeDepth := 30) [x, *]; done) | ((try unfold x); (try dsimp only); (repeat' split) <;> simp (maxDischargeDepth := 30) [*]; done))
            clear_value x)
         | clear_value x)
    | (split <;> (try (rename_i e
                       first
                         | have k := keeps_of_snd (r := r0) e (by clear e; simp (maxDischargeDepth := 30) [*]; done)
                         | have k := keeps_of_fst (r := r0) e (by clear e; simp (maxDischargeDepth := 30) [*]; done)
                         | have k := keeps_of_opt (r := r0) e (by clear e; simp (maxDischargeDepth := 30) [*]; done)
                         | have k := keeps_of_optFst (r := r0) e (by clear e; simp (maxDischargeDepth := 30) [*]; done)))))

@[simp] theorem execSnapshotMsg_keeps {r0 : State} (a : Nat) (es : List MemberEntry) {s : State} (hK : Keeps r0 s) :
    KeepsRes r0 (execSnapshotMsg a es s) := by
  unfold execSnapshotMsg
  repeat' (first
    | (simp (maxDischargeDepth := 30) [*]; done)
    | (simp +contextual (maxDischargeDepth := 30) [*]; done)
    | (refine keeps_foldl _ _ _ (fun s a h => ?_) ?_)
    | (refine keeps_foldl_fst _ _ _ (fun s a h => ?_) ?_)
    | (refine keeps_foldl_snd _ _ _ (fun s a h => ?_) ?_)
    | (extract_lets +onlyGivenNames x
       first
         | (have hx : Keeps r0 x := by (first | (simp (maxDischargeDepth := 30) [x, *]; done) | (simp +contextual (maxDischargeDepth := 30) [x, *]; done) | ((try unfold x); (try dsimp only); (repeat' split) <;> simp (maxDischargeDepth := 30) [*]; done))
            clear_value x)
         | (have hx : Keeps r0 x.2 := by (first | (simp (maxDischargeDepth := 30) [x, *]; done) | (simp +contextual (maxDischargeDepth := 30) [x, *]; done) | ((try unfold x); (try dsimp only); (repeat' split) <;> simp (maxDischargeDepth := 30) [*]; done))
            clear_value x)
         | (have hx : Keeps r0 x.1 := by (first | (simp (maxDischargeDepth := 30) [x, *]; done) | (simp +contextual (maxDischargeDepth := 30) [x, *]; done) | ((try unfold x); (try dsimp only); (repeat' split) <;> simp (maxDischargeDepth := 30) [*]; done))
            clear_value x)
         | clear_value x)
    | (split <;> (try (rename_i e
                       first
                         | have k := keeps_of_snd (r := r0) e (by clear e; simp (maxDischargeDepth := 30) [*]; done)
                         | have k := keeps_of_fst (r := r0) e (by clear e; simp (maxDischargeDepth := 30) [*]; done)
                         | have k := keeps_of_opt (r := r0) e (by clear e; simp (maxDischargeDepth := 30) [*]; done)
                         | have k := keeps_of_optFst (r := r0) e (by clear e; simp (maxDischargeDepth := 30) [*]; done)))))

@[simp] theorem execJoinSettle_keeps {r0 : State} {s : State} (hK : Keeps r0 s) :
    KeepsRes r0 (execJoinSettle s) := by simp (maxDischargeDepth := 30) [execJoinSettle, *]

@[simp] theorem fldIdWrite_keeps {r0 : State} (r : Requester) (v : Word) {s : State} (hK : Keeps r0 s) :
    Keeps r0 (fldIdWrite r v s) := by simp (maxDischargeDepth := 30) [fldIdWrite, *]

@[simp] theorem execFldIdWrite_keeps {r0 : State} (r : Requester) (v : Word) {s : State} (hK : Keeps r0 s) :
    KeepsRes r0 (execFldIdWrite r v s) := by simp (maxDischargeDepth := 30) [execFldIdWrite, *]

@[simp] theorem memberCmd_keeps {r0 : State} (op stack : Nat) {s : State} (hK : Keeps r0 s) :
    Keeps r0 (memberCmd op stack s) := by simp (maxDischargeDepth := 30) [memberCmd, *]

@[simp] theorem execMemberLeave_keeps {r0 : State} (r : Requester) (stack : Nat) {s : State} (hK : Keeps r0 s) :
    KeepsRes r0 (execMemberLeave r stack s) := by simp (maxDischargeDepth := 30) [execMemberLeave, *]

@[simp] theorem execMemberRejoin_keeps {r0 : State} (r : Requester) (stack : Nat) {s : State} (hK : Keeps r0 s) :
    KeepsRes r0 (execMemberRejoin r stack s) := by simp (maxDischargeDepth := 30) [execMemberRejoin, *]

end Sys2Proof.Machine
end

