-- ==== Sys2Proof/Laws/KeepsHost.lean ====
section
/-! SUPPORT. What the operations of Machine/Host.lean keep (Laws/Keeps.lean). -/

set_option Elab.async false
set_option linter.unusedTactic false
set_option linter.unreachableTactic false

namespace Sys2Proof.Machine

@[simp] theorem execBar2Read_keeps {r0 : State} (fn off len : Nat) {s : State} (hK : Keeps r0 s) :
    KeepsRes r0 (execBar2Read fn off len s) := by simp (maxDischargeDepth := 30) [execBar2Read, *]

@[simp] theorem execBar2Write_keeps {r0 : State} (fn off : Nat) (data : List Byte) (poisoned relaxed : Bool) {s : State} (hK : Keeps r0 s) :
    KeepsRes r0 (execBar2Write fn off data poisoned relaxed s) := by simp (maxDischargeDepth := 30) [execBar2Write, *]

@[simp] theorem execAtomicopRequest_keeps {r0 : State} (fn _addr : Nat) {s : State} (hK : Keeps r0 s) :
    KeepsRes r0 (execAtomicopRequest fn _addr s) := by simp (maxDischargeDepth := 30) [execAtomicopRequest, *]

@[simp] theorem execPerstDeassert_keeps {r0 : State} {s : State} (hK : Keeps r0 s) :
    KeepsRes r0 (execPerstDeassert s) := by simp (maxDischargeDepth := 30) [execPerstDeassert, *]

@[simp] theorem execPcieLinkUp_keeps {r0 : State} (speed width : Nat) (flitMode : Bool) {s : State} (hK : Keeps r0 s) :
    KeepsRes r0 (execPcieLinkUp speed width flitMode s) := by simp (maxDischargeDepth := 30) [execPcieLinkUp, *]

@[simp] theorem dropReqs_keeps {r0 : State} (p : HostReq → Bool) {s : State} (hK : Keeps r0 s) :
    Keeps r0 (dropReqs p s) := by simp (maxDischargeDepth := 30) [dropReqs, *]

@[simp] theorem pcieReset_keeps {r0 : State} (down perst : Bool) {s : State} (hK : Keeps r0 s) :
    Keeps r0 (pcieReset down perst s) := by
  unfold pcieReset
  have k := dropReqs_keeps (fun _ => true) hK
  generalize dropReqs (fun _ => true) s = s at k ⊢
  simp_all [Keeps, KeepsFields, Memory.wf]

@[simp] theorem execPciePartitionReset_keeps {r0 : State} (cause : PcieReset) {s : State} (hK : Keeps r0 s) :
    KeepsRes r0 (execPciePartitionReset cause s) := by
  unfold execPciePartitionReset
  (repeat' split) <;> simp (maxDischargeDepth := 30) [*]

@[simp] theorem execPclkReturn_keeps {r0 : State} {s : State} (hK : Keeps r0 s) :
    KeepsRes r0 (execPclkReturn s) := by simp (maxDischargeDepth := 30) [execPclkReturn, *]

@[simp] theorem clearGo_keeps {r0 : State} (k : Nat) {s : State} (hK : Keeps r0 s) :
    Keeps r0 (clearGo k s) := by simp (maxDischargeDepth := 30) [clearGo, *]

@[simp] theorem vfReset_keeps {r0 : State} (f : Nat) {s : State} (hK : Keeps r0 s) :
    Keeps r0 (vfReset f s) := by
  unfold vfReset
  repeat' (first
    | (simp (maxDischargeDepth := 30) [*]; done)
    | (simp +contextual (maxDischargeDepth := 30) [*]; done)
    | (refine keeps_foldl _ _ _ (fun s a h => ?_) ?_)
    | (refine keeps_foldl_fst _ _ _ (fun s a h => ?_) ?_)
    | (refine keeps_foldl_snd _ _ _ (fun s a h => ?_) ?_)
    | (extract_lets +onlyGivenNames x
       first
         | (have hx : Keeps r0 x := by (first | (simp (maxDischargeDepth := 30) [x, *]; done) | (simp +contextual (maxDischargeDepth := 30) [x, *]; done) | ((try unfold x); (try dsimp only); (repeat' split) <;> simp (maxDischargeDepth := 30) [*]; done))
            clear_value x)
         | (have hx : Keeps r0 x.2 := by (first | (simp (maxDischargeDepth := 30) [x, *]; done) | (simp +contextual (maxDischargeDepth := 30) [x, *]; done) | ((try unfold x); (try dsimp only); (repeat' split) <;> simp (maxDischargeDepth := 30) [*]; done))
            clear_value x)
         | (have hx : Keeps r0 x.1 := by (first | (simp (maxDischargeDepth := 30) [x, *]; done) | (simp +contextual (maxDischargeDepth := 30) [x, *]; done) | ((try unfold x); (try dsimp only); (repeat' split) <;> simp (maxDischargeDepth := 30) [*]; done))
            clear_value x)
         | clear_value x)
    | (split <;> (try (rename_i e
                       first
                         | have k := keeps_of_snd (r := r0) e (by clear e; simp (maxDischargeDepth := 30) [*]; done)
                         | have k := keeps_of_fst (r := r0) e (by clear e; simp (maxDischargeDepth := 30) [*]; done)
                         | have k := keeps_of_opt (r := r0) e (by clear e; simp (maxDischargeDepth := 30) [*]; done)
                         | have k := keeps_of_optFst (r := r0) e (by clear e; simp (maxDischargeDepth := 30) [*]; done)))))

@[simp] theorem execVfFlr_keeps {r0 : State} (f : Nat) {s : State} (hK : Keeps r0 s) :
    KeepsRes r0 (execVfFlr f s) := by simp (maxDischargeDepth := 30) [execVfFlr, *]

@[simp] theorem execVfEnableWrite_keeps {r0 : State} (numVfs : Nat) (en : Bool) {s : State} (hK : Keeps r0 s) :
    KeepsRes r0 (execVfEnableWrite numVfs en s) := by
  unfold execVfEnableWrite
  repeat' (first
    | (simp (maxDischargeDepth := 30) [*]; done)
    | (simp +contextual (maxDischargeDepth := 30) [*]; done)
    | (refine keeps_foldl _ _ _ (fun s a h => ?_) ?_)
    | (refine keeps_foldl_fst _ _ _ (fun s a h => ?_) ?_)
    | (refine keeps_foldl_snd _ _ _ (fun s a h => ?_) ?_)
    | (extract_lets +onlyGivenNames x
       first
         | (have hx : Keeps r0 x := by (first | (simp (maxDischargeDepth := 30) [x, *]; done) | (simp +contextual (maxDischargeDepth := 30) [x, *]; done) | ((try unfold x); (try dsimp only); (repeat' split) <;> simp (maxDischargeDepth := 30) [*]; done))
            clear_value x)
         | (have hx : Keeps r0 x.2 := by (first | (simp (maxDischargeDepth := 30) [x, *]; done) | (simp +contextual (maxDischargeDepth := 30) [x, *]; done) | ((try unfold x); (try dsimp only); (repeat' split) <;> simp (maxDischargeDepth := 30) [*]; done))
            clear_value x)
         | (have hx : Keeps r0 x.1 := by (first | (simp (maxDischargeDepth := 30) [x, *]; done) | (simp +contextual (maxDischargeDepth := 30) [x, *]; done) | ((try unfold x); (try dsimp only); (repeat' split) <;> simp (maxDischargeDepth := 30) [*]; done))
            clear_value x)
         | clear_value x)
    | (split <;> (try (rename_i e
                       first
                         | have k := keeps_of_snd (r := r0) e (by clear e; simp (maxDischargeDepth := 30) [*]; done)
                         | have k := keeps_of_fst (r := r0) e (by clear e; simp (maxDischargeDepth := 30) [*]; done)
                         | have k := keeps_of_opt (r := r0) e (by clear e; simp (maxDischargeDepth := 30) [*]; done)
                         | have k := keeps_of_optFst (r := r0) e (by clear e; simp (maxDischargeDepth := 30) [*]; done)))))

@[simp] theorem releaseFn_keeps {r0 : State} (f : Nat) {s : State} (hK : Keeps r0 s) :
    Keeps r0 (releaseFn f s) := by
  unfold releaseFn
  repeat' (first
    | (simp (maxDischargeDepth := 30) [*]; done)
    | (simp +contextual (maxDischargeDepth := 30) [*]; done)
    | (refine keeps_foldl _ _ _ (fun s a h => ?_) ?_)
    | (refine keeps_foldl_fst _ _ _ (fun s a h => ?_) ?_)
    | (refine keeps_foldl_snd _ _ _ (fun s a h => ?_) ?_)
    | (extract_lets +onlyGivenNames x
       first
         | (have hx : Keeps r0 x := by (first | (simp (maxDischargeDepth := 30) [x, *]; done) | (simp +contextual (maxDischargeDepth := 30) [x, *]; done) | ((try unfold x); (try dsimp only); (repeat' split) <;> simp (maxDischargeDepth := 30) [*]; done))
            clear_value x)
         | (have hx : Keeps r0 x.2 := by (first | (simp (maxDischargeDepth := 30) [x, *]; done) | (simp +contextual (maxDischargeDepth := 30) [x, *]; done) | ((try unfold x); (try dsimp only); (repeat' split) <;> simp (maxDischargeDepth := 30) [*]; done))
            clear_value x)
         | (have hx : Keeps r0 x.1 := by (first | (simp (maxDischargeDepth := 30) [x, *]; done) | (simp +contextual (maxDischargeDepth := 30) [x, *]; done) | ((try unfold x); (try dsimp only); (repeat' split) <;> simp (maxDischargeDepth := 30) [*]; done))
            clear_value x)
         | clear_value x)
    | (split <;> (try (rename_i e
                       first
                         | have k := keeps_of_snd (r := r0) e (by clear e; simp (maxDischargeDepth := 30) [*]; done)
                         | have k := keeps_of_fst (r := r0) e (by clear e; simp (maxDischargeDepth := 30) [*]; done)
                         | have k := keeps_of_opt (r := r0) e (by clear e; simp (maxDischargeDepth := 30) [*]; done)
                         | have k := keeps_of_optFst (r := r0) e (by clear e; simp (maxDischargeDepth := 30) [*]; done)))))

@[simp] theorem msixFlush_keeps {r0 : State} (f : Nat) {s : State} (hK : Keeps r0 s) :
    Keeps r0 (msixFlush f s) := by
  unfold msixFlush
  repeat' (first
    | (simp (maxDischargeDepth := 30) [*]; done)
    | (simp +contextual (maxDischargeDepth := 30) [*]; done)
    | (refine keeps_foldl _ _ _ (fun s a h => ?_) ?_)
    | (refine keeps_foldl_fst _ _ _ (fun s a h => ?_) ?_)
    | (refine keeps_foldl_snd _ _ _ (fun s a h => ?_) ?_)
    | (extract_lets +onlyGivenNames x
       first
         | (have hx : Keeps r0 x := by (first | (simp (maxDischargeDepth := 30) [x, *]; done) | (simp +contextual (maxDischargeDepth := 30) [x, *]; done) | ((try unfold x); (try dsimp only); (repeat' split) <;> simp (maxDischargeDepth := 30) [*]; done))
            clear_value x)
         | (have hx : Keeps r0 x.2 := by (first | (simp (maxDischargeDepth := 30) [x, *]; done) | (simp +contextual (maxDischargeDepth := 30) [x, *]; done) | ((try unfold x); (try dsimp only); (repeat' split) <;> simp (maxDischargeDepth := 30) [*]; done))
            clear_value x)
         | (have hx : Keeps r0 x.1 := by (first | (simp (maxDischargeDepth := 30) [x, *]; done) | (simp +contextual (maxDischargeDepth := 30) [x, *]; done) | ((try unfold x); (try dsimp only); (repeat' split) <;> simp (maxDischargeDepth := 30) [*]; done))
            clear_value x)
         | clear_value x)
    | (split <;> (try (rename_i e
                       first
                         | have k := keeps_of_snd (r := r0) e (by clear e; simp (maxDischargeDepth := 30) [*]; done)
                         | have k := keeps_of_fst (r := r0) e (by clear e; simp (maxDischargeDepth := 30) [*]; done)
                         | have k := keeps_of_opt (r := r0) e (by clear e; simp (maxDischargeDepth := 30) [*]; done)
                         | have k := keeps_of_optFst (r := r0) e (by clear e; simp (maxDischargeDepth := 30) [*]; done)))))

@[simp] theorem cfgAccess_keeps {r0 : State} (f : Nat) (op : CfgOp) {s : State} (hK : Keeps r0 s) :
    Keeps r0 (cfgAccess f op s) := by
  unfold cfgAccess
  (repeat' split) <;> simp (maxDischargeDepth := 30) [*]

@[simp] theorem execBusMasterEnable_keeps {r0 : State} (f : Nat) (bme : Bool) (cfg : Bool × CfgOp) {s : State} (hK : Keeps r0 s) :
    KeepsRes r0 (execBusMasterEnable f bme cfg s) := by simp (maxDischargeDepth := 30) [execBusMasterEnable, *]

@[simp] theorem execResizableBarWrite_keeps {r0 : State} (size : Nat × Bool) {s : State} (hK : Keeps r0 s) :
    KeepsRes r0 (execResizableBarWrite size s) := by simp (maxDischargeDepth := 30) [execResizableBarWrite, *]

@[simp] theorem slotStore_keeps {r0 : State} (y1 : List (Nat × Nat)) (y2 : List Byte) {s : State} (hK : Keeps r0 s) :
    Keeps r0 (slotStore y1 y2 s) := by
  induction y1 generalizing y2 s with
  | nil => simp (maxDischargeDepth := 30) [slotStore, *]
  | cons a l ih => simp (maxDischargeDepth := 30) [slotStore, *]

@[simp] theorem slotPart_keeps {r0 : State} (f off : Nat) (bs : List Byte) {s : State} (hK : Keeps r0 s) :
    Keeps r0 (slotPart f off bs s) := by simp (maxDischargeDepth := 30) [slotPart, *]

@[simp] theorem slotParts_keeps {r0 : State} (f : Nat) (y1 : List (Nat × Nat)) (y2 : List Byte) {s : State} (hK : Keeps r0 s) :
    Keeps r0 (slotParts f y1 y2 s) := by
  induction y1 generalizing y2 s with
  | nil => simp (maxDischargeDepth := 30) [slotParts, *]
  | cons a l ih => simp (maxDischargeDepth := 30) [slotParts, *]

@[simp] theorem execSlotWrite_keeps {r0 : State} (f off : Nat) (data : List Byte) {s : State} (hK : Keeps r0 s) :
    KeepsRes r0 (execSlotWrite f off data s) := by simp (maxDischargeDepth := 30) [execSlotWrite, *]

@[simp] theorem handOver_keeps {r0 : State} (f k : Nat) (ctl : List Byte) {s : State} (hK : Keeps r0 s) :
    Keeps r0 (handOver f k ctl s) := by simp (maxDischargeDepth := 30) [handOver, *]

@[simp] theorem scanSlots_keeps {r0 : State} (y1 : List Nat) {s : State} (hK : Keeps r0 s) :
    Keeps r0 (scanSlots y1 s) := by
  induction y1 generalizing s with
  | nil => exact hK
  | cons k l ih =>
    rw [scanSlots]
    dsimp only
    have hc := localGet_keeps .slots (128 * k) hK
    generalize localGet .slots (128 * k) s = ctl at *
    have hu : Keeps r0 { ctl.1 with hif := { ctl.1.hif with marked := setDel k ctl.1.hif.marked } } := hc
    split
    · exact ih hu
    · split
      · exact ih hc
      · split
        · exact handOver_keeps _ _ _ hu
        · exact ih hc

@[simp] theorem execSlotPickup_keeps {r0 : State} {s : State} (hK : Keeps r0 s) :
    KeepsRes r0 (execSlotPickup s) := by simp (maxDischargeDepth := 30) [execSlotPickup, *]

@[simp] theorem setReq_keeps {r0 : State} (r : HostReq) {s : State} (hK : Keeps r0 s) :
    Keeps r0 (setReq r s) := by simp (maxDischargeDepth := 30) [setReq, *]

@[simp] theorem reqDenied_keeps {r0 : State} (r : HostReq) (dpa : Nat) (write : Bool) {s : State} (hK : Keeps r0 s) :
    Keeps r0 (reqDenied r dpa write s) := by simp (maxDischargeDepth := 30) [reqDenied, *]

@[simp] theorem reqStart_keeps {r0 : State} (i op : Nat) (used : List (Nat × Nat)) (good : HostReq → Bool) (f : HostReq → State → State) {s : State} (hFf : ∀ a0 a1, Keeps r0 a1 → Keeps r0 (f a0 a1)) (hK : Keeps r0 s) :
    Keeps r0 (reqStart i op used good f s) := by
  unfold reqStart
  (repeat' split) <;> simp (maxDischargeDepth := 30) [*]

@[simp] theorem execReqNop_keeps {r0 : State} (i : Nat) {s : State} (hK : Keeps r0 s) :
    KeepsRes r0 (execReqNop i s) := by
  unfold execReqNop
  repeat' (first
    | (simp (maxDischargeDepth := 30) [*]; done)
    | (simp +contextual (maxDischargeDepth := 30) [*]; done)
    | (refine keeps_foldl _ _ _ (fun s a h => ?_) ?_)
    | (refine keeps_foldl_fst _ _ _ (fun s a h => ?_) ?_)
    | (refine keeps_foldl_snd _ _ _ (fun s a h => ?_) ?_)
    | (extract_lets +onlyGivenNames x
       first
         | (have hx : Keeps r0 x := by (first | (simp (maxDischargeDepth := 30) [x, *]; done) | (simp +contextual (maxDischargeDepth := 30) [x, *]; done) | ((try unfold x); (try dsimp only); (repeat' split) <;> simp (maxDischargeDepth := 30) [*]; done))
            clear_value x)
         | (have hx : Keeps r0 x.2 := by (first | (simp (maxDischargeDepth := 30) [x, *]; done) | (simp +contextual (maxDischargeDepth := 30) [x, *]; done) | ((try unfold x); (try dsimp only); (repeat' split) <;> simp (maxDischargeDepth := 30) [*]; done))
            clear_value x)
         | (have hx : Keeps r0 x.1 := by (first | (simp (maxDischargeDepth := 30) [x, *]; done) | (simp +contextual (maxDischargeDepth := 30) [x, *]; done) | ((try unfold x); (try dsimp only); (repeat' split) <;> simp (maxDischargeDepth := 30) [*]; done))
            clear_value x)
         | clear_value x)
    | (split <;> (try (rename_i e
                       first
                         | have k := keeps_of_snd (r := r0) e (by clear e; simp (maxDischargeDepth := 30) [*]; done)
                         | have k := keeps_of_fst (r := r0) e (by clear e; simp (maxDischargeDepth := 30) [*]; done)
                         | have k := keeps_of_opt (r := r0) e (by clear e; simp (maxDischargeDepth := 30) [*]; done)
                         | have k := keeps_of_optFst (r := r0) e (by clear e; simp (maxDischargeDepth := 30) [*]; done)))))

@[simp] theorem copyEnd_keeps {r0 : State} (r : HostReq) {s : State} (hK : Keeps r0 s) :
    Keeps r0 (copyEnd r s) := by simp (maxDischargeDepth := 30) [copyEnd, *]

@[simp] theorem hostWrites_keeps {r0 : State} (f : Nat) (y1 : List (Nat × Nat)) (y2 : List Byte) {s : State} (hK : Keeps r0 s) :
    Keeps r0 (hostWrites f y1 y2 s) := by
  induction y1 generalizing y2 s with
  | nil => simp (maxDischargeDepth := 30) [hostWrites, *]
  | cons a l ih => simp (maxDischargeDepth := 30) [hostWrites, *]

@[simp] theorem copyMove_keeps {r0 : State} (y1 : List (Nat × Nat)) (y2 : HostReq) {s : State} (hK : Keeps r0 s) :
    Keeps r0 (copyMove y1 y2 s).1 := by
  induction y1 generalizing y2 s with
  | nil => simp (maxDischargeDepth := 30) [copyMove, *]
  | cons a l ih => simp (maxDischargeDepth := 30) [copyMove, *]

@[simp] theorem execReqCopy_keeps {r0 : State} (i : Nat) {s : State} (hK : Keeps r0 s) :
    KeepsRes r0 (execReqCopy i s) := by
  unfold execReqCopy
  split
  · exact hK
  · split
    · exact copyEnd_keeps _ hK
    · refine unlessHeld_keeps _ (fun s hK => ?_) hK
      refine reqStart_keeps _ _ _ _ _ (fun q s h => ?_) hK
      split
      · simp (maxDischargeDepth := 30) [*]
      · split
        · exact h
        · split
          · refine keeps_foldl _ _ _ (fun s p h => ?_) ?_ <;> simp (maxDischargeDepth := 30) [*]
          · exact copyEnd_keeps _ (copyMove_keeps _ _ h)

@[simp] theorem copyLand_keeps {r0 : State} (y1 : List (Nat × Nat)) (y2 : List Byte) (y3 : HostReq) {s : State} (hK : Keeps r0 s) :
    Keeps r0 (copyLand y1 y2 y3 s).1 := by
  induction y1 generalizing y2 y3 s with
  | nil => simp (maxDischargeDepth := 30) [copyLand, *]
  | cons a l ih => simp (maxDischargeDepth := 30) [copyLand, *]

@[simp] theorem execDmaReadCompletion_keeps {r0 : State} (i off : Nat) (data : List Byte) {s : State} (hK : Keeps r0 s) :
    KeepsRes r0 (execDmaReadCompletion i off data s) := by
  unfold execDmaReadCompletion
  rw [keepsRes_next]
  refine unlessHeld_keeps _ (fun s hK => ?_) hK
  split
  · exact hK
  · dsimp only
    split
    · exact hK
    · rename_i r _ _
      have k := copyLand_keeps (pieces (cpDst r + off) data.length) data { r with got := r.got ++ [(off, data.length)] } hK
      split
      · exact copyEnd_keeps _ k
      · exact setReq_keeps _ k

@[simp] theorem execCopyReadTimeout_keeps {r0 : State} (i : Nat) {s : State} (hK : Keeps r0 s) :
    KeepsRes r0 (execCopyReadTimeout i s) := by
  unfold execCopyReadTimeout
  (repeat' split) <;> simp (maxDischargeDepth := 30) [*]

@[simp] theorem crewLoadEnd_keeps {r0 : State} (r : HostReq) {s : State} (hK : Keeps r0 s) :
    Keeps r0 (crewLoadEnd r s) := by simp (maxDischargeDepth := 30) [crewLoadEnd, *]

@[simp] theorem execReqCrewLoad_keeps {r0 : State} (i : Nat) {s : State} (hK : Keeps r0 s) :
    KeepsRes r0 (execReqCrewLoad i s) := by
  unfold execReqCrewLoad
  repeat' (first
    | (simp (maxDischargeDepth := 30) [*]; done)
    | (simp +contextual (maxDischargeDepth := 30) [*]; done)
    | (refine keeps_foldl _ _ _ (fun s a h => ?_) ?_)
    | (refine keeps_foldl_fst _ _ _ (fun s a h => ?_) ?_)
    | (refine keeps_foldl_snd _ _ _ (fun s a h => ?_) ?_)
    | (extract_lets +onlyGivenNames x
       first
         | (have hx : Keeps r0 x := by (first | (simp (maxDischargeDepth := 30) [x, *]; done) | (simp +contextual (maxDischargeDepth := 30) [x, *]; done) | ((try unfold x); (try dsimp only); (repeat' split) <;> simp (maxDischargeDepth := 30) [*]; done))
            clear_value x)
         | (have hx : Keeps r0 x.2 := by (first | (simp (maxDischargeDepth := 30) [x, *]; done) | (simp +contextual (maxDischargeDepth := 30) [x, *]; done) | ((try unfold x); (try dsimp only); (repeat' split) <;> simp (maxDischargeDepth := 30) [*]; done))
            clear_value x)
         | (have hx : Keeps r0 x.1 := by (first | (simp (maxDischargeDepth := 30) [x, *]; done) | (simp +contextual (maxDischargeDepth := 30) [x, *]; done) | ((try unfold x); (try dsimp only); (repeat' split) <;> simp (maxDischargeDepth := 30) [*]; done))
            clear_value x)
         | clear_value x)
    | (split <;> (try (rename_i e
                       first
                         | have k := keeps_of_snd (r := r0) e (by clear e; simp (maxDischargeDepth := 30) [*]; done)
                         | have k := keeps_of_fst (r := r0) e (by clear e; simp (maxDischargeDepth := 30) [*]; done)
                         | have k := keeps_of_opt (r := r0) e (by clear e; simp (maxDischargeDepth := 30) [*]; done)
                         | have k := keeps_of_optFst (r := r0) e (by clear e; simp (maxDischargeDepth := 30) [*]; done)))))

@[simp] theorem execReqFaceLaunch_keeps {r0 : State} (i : Nat) {s : State} (hK : Keeps r0 s) :
    KeepsRes r0 (execReqFaceLaunch i s) := by
  unfold execReqFaceLaunch
  repeat' (first
    | (simp (maxDischargeDepth := 30) [*]; done)
    | (simp +contextual (maxDischargeDepth := 30) [*]; done)
    | (refine keeps_foldl _ _ _ (fun s a h => ?_) ?_)
    | (refine keeps_foldl_fst _ _ _ (fun s a h => ?_) ?_)
    | (refine keeps_foldl_snd _ _ _ (fun s a h => ?_) ?_)
    | (extract_lets +onlyGivenNames x
       first
         | (have hx : Keeps r0 x := by (first | (simp (maxDischargeDepth := 30) [x, *]; done) | (simp +contextual (maxDischargeDepth := 30) [x, *]; done) | ((try unfold x); (try dsimp only); (repeat' split) <;> simp (maxDischargeDepth := 30) [*]; done))
            clear_value x)
         | (have hx : Keeps r0 x.2 := by (first | (simp (maxDischargeDepth := 30) [x, *]; done) | (simp +contextual (maxDischargeDepth := 30) [x, *]; done) | ((try unfold x); (try dsimp only); (repeat' split) <;> simp (maxDischargeDepth := 30) [*]; done))
            clear_value x)
         | (have hx : Keeps r0 x.1 := by (first | (simp (maxDischargeDepth := 30) [x, *]; done) | (simp +contextual (maxDischargeDepth := 30) [x, *]; done) | ((try unfold x); (try dsimp only); (repeat' split) <;> simp (maxDischargeDepth := 30) [*]; done))
            clear_value x)
         | clear_value x)
    | (split <;> (try (rename_i e
                       first
                         | have k := keeps_of_snd (r := r0) e (by clear e; simp (maxDischargeDepth := 30) [*]; done)
                         | have k := keeps_of_fst (r := r0) e (by clear e; simp (maxDischargeDepth := 30) [*]; done)
                         | have k := keeps_of_opt (r := r0) e (by clear e; simp (maxDischargeDepth := 30) [*]; done)
                         | have k := keeps_of_optFst (r := r0) e (by clear e; simp (maxDischargeDepth := 30) [*]; done)))))

@[simp] theorem execReqMillShard_keeps {r0 : State} (i : Nat) {s : State} (hK : Keeps r0 s) :
    KeepsRes r0 (execReqMillShard i s) := by
  unfold execReqMillShard
  repeat' (first
    | (simp (maxDischargeDepth := 30) [*]; done)
    | (simp +contextual (maxDischargeDepth := 30) [*]; done)
    | (refine keeps_foldl _ _ _ (fun s a h => ?_) ?_)
    | (refine keeps_foldl_fst _ _ _ (fun s a h => ?_) ?_)
    | (refine keeps_foldl_snd _ _ _ (fun s a h => ?_) ?_)
    | (extract_lets +onlyGivenNames x
       first
         | (have hx : Keeps r0 x := by (first | (simp (maxDischargeDepth := 30) [x, *]; done) | (simp +contextual (maxDischargeDepth := 30) [x, *]; done) | ((try unfold x); (try dsimp only); (repeat' split) <;> simp (maxDischargeDepth := 30) [*]; done))
            clear_value x)
         | (have hx : Keeps r0 x.2 := by (first | (simp (maxDischargeDepth := 30) [x, *]; done) | (simp +contextual (maxDischargeDepth := 30) [x, *]; done) | ((try unfold x); (try dsimp only); (repeat' split) <;> simp (maxDischargeDepth := 30) [*]; done))
            clear_value x)
         | (have hx : Keeps r0 x.1 := by (first | (simp (maxDischargeDepth := 30) [x, *]; done) | (simp +contextual (maxDischargeDepth := 30) [x, *]; done) | ((try unfold x); (try dsimp only); (repeat' split) <;> simp (maxDischargeDepth := 30) [*]; done))
            clear_value x)
         | clear_value x)
    | (split <;> (try (rename_i e
                       first
                         | have k := keeps_of_snd (r := r0) e (by clear e; simp (maxDischargeDepth := 30) [*]; done)
                         | have k := keeps_of_fst (r := r0) e (by clear e; simp (maxDischargeDepth := 30) [*]; done)
                         | have k := keeps_of_opt (r := r0) e (by clear e; simp (maxDischargeDepth := 30) [*]; done)
                         | have k := keeps_of_optFst (r := r0) e (by clear e; simp (maxDischargeDepth := 30) [*]; done)))))

@[simp] theorem veinForward_keeps {r0 : State} (p : Nat) (r : HostReq) (ws : List Word) {s : State} (hK : Keeps r0 s) :
    Keeps r0 (veinForward p r ws s) := by simp (maxDischargeDepth := 30) [veinForward, *]

@[simp] theorem execReqVein_keeps {r0 : State} (ix : Nat × Nat) {s : State} (hK : Keeps r0 s) :
    KeepsRes r0 (execReqVein ix s) := by
  unfold execReqVein
  rw [keepsRes_next]
  refine unlessHeld_keeps _ (fun s hK => ?_) hK
  refine reqStart_keeps _ _ _ _ _ (fun r s hK => ?_) hK
  dsimp only
  (repeat' split) <;> simp (maxDischargeDepth := 30) [*]

@[simp] theorem cqCfgWrite_keeps {r0 : State} (f : Nat) (v : Word) {s : State} (hK : Keeps r0 s) :
    Keeps r0 (cqCfgWrite f v s) := by simp (maxDischargeDepth := 30) [cqCfgWrite, *]

@[simp] theorem execCqEnable_keeps {r0 : State} (r : Requester) (f : Nat) (v : Word) {s : State} (hK : Keeps r0 s) :
    KeepsRes r0 (execCqEnable r f v s) := by simp (maxDischargeDepth := 30) [execCqEnable, *]

@[simp] theorem execCqModTimer_keeps {r0 : State} (f : Nat) {s : State} (hK : Keeps r0 s) :
    KeepsRes r0 (execCqModTimer f s) := by simp (maxDischargeDepth := 30) [execCqModTimer, *]

@[simp] theorem execDoeRequest_keeps {r0 : State} (objType : Nat) (data : List Byte) {s : State} (hK : Keeps r0 s) :
    KeepsRes r0 (execDoeRequest objType data s) := by simp (maxDischargeDepth := 30) [execDoeRequest, *]

@[simp] theorem execDoeAbort_keeps {r0 : State} {s : State} (hK : Keeps r0 s) :
    KeepsRes r0 (execDoeAbort s) := by simp (maxDischargeDepth := 30) [execDoeAbort, *]

end Sys2Proof.Machine
end

