-- ==== Sys2Proof/Laws/KeepsBoot.lean ====
section
/-! SUPPORT. What the operations of Machine/Boot.lean keep (Laws/Keeps.lean). -/

set_option Elab.async false
set_option linter.unusedTactic false
set_option linter.unreachableTactic false

namespace Sys2Proof.Machine

@[simp] theorem State.setImg_keeps {r0 : State} {s : State} (k : Nat) (x : ImgSlot) (hK : Keeps r0 s) :
    Keeps r0 (State.setImg s k x) := by simp (maxDischargeDepth := 30) [State.setImg, *]

@[simp] theorem logRevert_keeps {r0 : State} (k cause : Nat) {s : State} (hK : Keeps r0 s) :
    Keeps r0 (logRevert k cause s) := by simp (maxDischargeDepth := 30) [logRevert, *]

@[simp] theorem bootSelect_keeps {r0 : State} (k : Nat) {s : State} (hK : Keeps r0 s) :
    Keeps r0 (bootSelect k s).1 := by simp (maxDischargeDepth := 30) [bootSelect, *]

@[simp] theorem resetSettings_keeps {r0 : State} (kind : Nat) {s : State} (hK : Keeps r0 s) :
    Keeps r0 (resetSettings kind s) := by simp (maxDischargeDepth := 30) [resetSettings, *]

@[simp] theorem recoverIdentity_keeps {r0 : State} (result featA featB resource : Nat) {s : State} (hK : Keeps r0 s) :
    Keeps r0 (recoverIdentity result featA featB resource s) := by simp (maxDischargeDepth := 30) [recoverIdentity, *]

@[simp] theorem driveSync_keeps {r0 : State} {s : State} (hK : Keeps r0 s) :
    Keeps r0 (driveSync s) := by simp (maxDischargeDepth := 30) [driveSync, *]

@[simp] theorem bootRom_keeps {r0 : State} {s : State} (hK : Keeps r0 s) :
    Keeps r0 (bootRom s) := by simp (maxDischargeDepth := 30) [bootRom, *]

@[simp] theorem baseReset_keeps {r0 : State} {s : State} (hK : Keeps r0 s) :
    Keeps r0 (baseReset s) := by
  unfold baseReset State.reset
  simp_all [Keeps, KeepsFields, Memory.wf]

@[simp] theorem coldReset_keeps {r0 : State} {s : State} (hK : Keeps r0 s) :
    Keeps r0 (coldReset s) := by simp (maxDischargeDepth := 30) [coldReset, *]

@[simp] theorem flushHeld_keeps {r0 : State} {s : State} (hK : Keeps r0 s) :
    Keeps r0 (flushHeld s) := by
  unfold flushHeld
  repeat' (first
    | (simp (maxDischargeDepth := 30) [*]; done)
    | (simp +contextual (maxDischargeDepth := 30) [*]; done)
    | (refine keeps_foldl _ _ _ (fun s a h => ?_) ?_)
    | (refine keeps_foldl_fst _ _ _ (fun s a h => ?_) ?_)
    | (refine keeps_foldl_snd _ _ _ (fun s a h => ?_) ?_)
    | (extract_lets +onlyGivenNames x
       first
         | (have hx : Keeps r0 x := by (first | (simp (maxDischargeDepth := 30) [x, *]; done) | (simp +contextual (maxDischargeDepth := 30) [x, *]; done) | ((try unfold x); (try dsimp only); (repeat' split) <;> simp (maxDischargeDepth := 30) [*]; done))
            clear_value x)
         | (have hx : Keeps r0 x.2 := by (first | (simp (maxDischargeDepth := 30) [x, *]; done) | (simp +contextual (maxDischargeDepth := 30) [x, *]; done) | ((try unfold x); (try dsimp only); (repeat' split) <;> simp (maxDischargeDepth := 30) [*]; done))
            clear_value x)
         | (have hx : Keeps r0 x.1 := by (first | (simp (maxDischargeDepth := 30) [x, *]; done) | (simp +contextual (maxDischargeDepth := 30) [x, *]; done) | ((try unfold x); (try dsimp only); (repeat' split) <;> simp (maxDischargeDepth := 30) [*]; done))
            clear_value x)
         | clear_value x)
    | (split <;> (try (rename_i e
                       first
                         | have k := keeps_of_snd (r := r0) e (by clear e; simp (maxDischargeDepth := 30) [*]; done)
                         | have k := keeps_of_fst (r := r0) e (by clear e; simp (maxDischargeDepth := 30) [*]; done)
                         | have k := keeps_of_opt (r := r0) e (by clear e; simp (maxDischargeDepth := 30) [*]; done)
                         | have k := keeps_of_optFst (r := r0) e (by clear e; simp (maxDischargeDepth := 30) [*]; done)))))

@[simp] theorem warmReset_keeps {r0 : State} (cause : Nat) (dram : Bool) {s : State} (hK : Keeps r0 s) :
    Keeps r0 (warmReset cause dram s) := by
  unfold warmReset
  have k := flushHeld_keeps hK
  generalize flushHeld s = s at k ⊢
  have k2 := baseReset_keeps k
  dsimp only
  refine bootRom_keeps (State.emit_keeps _ ?_)
  generalize baseReset s = b at k2 ⊢
  cases dram <;> simp_all [Keeps, KeepsFields, Memory.wf]

@[simp] theorem stepEnds_keeps {r0 : State} (state : Nat) (st : Status) (detail : Nat) {s : State} (hK : Keeps r0 s) :
    Keeps r0 (stepEnds state st detail s) := by simp (maxDischargeDepth := 30) [stepEnds, *]

@[simp] theorem sessionEnds_keeps {r0 : State} (st : Status) {s : State} (hK : Keeps r0 s) :
    Keeps r0 (sessionEnds st s) := by simp (maxDischargeDepth := 30) [sessionEnds, *]

@[simp] theorem foremanReset_keeps {r0 : State} (cause : Nat) {s : State} (hK : Keeps r0 s) :
    Keeps r0 (foremanReset cause s) := by simp (maxDischargeDepth := 30) [foremanReset, *]

@[simp] theorem startCopies_keeps {r0 : State} {s : State} (hK : Keeps r0 s) :
    Keeps r0 (startCopies s) := by
  unfold startCopies
  repeat' (first
    | (simp (maxDischargeDepth := 30) [*]; done)
    | (simp +contextual (maxDischargeDepth := 30) [*]; done)
    | (refine keeps_foldl _ _ _ (fun s a h => ?_) ?_)
    | (refine keeps_foldl_fst _ _ _ (fun s a h => ?_) ?_)
    | (refine keeps_foldl_snd _ _ _ (fun s a h => ?_) ?_)
    | (extract_lets +onlyGivenNames x
       first
         | (have hx : Keeps r0 x := by (first | (simp (maxDischargeDepth := 30) [x, *]; done) | (simp +contextual (maxDischargeDepth := 30) [x, *]; done) | ((try unfold x); (try dsimp only); (repeat' split) <;> simp (maxDischargeDepth := 30) [*]; done))
            clear_value x)
         | (have hx : Keeps r0 x.2 := by (first | (simp (maxDischargeDepth := 30) [x, *]; done) | (simp +contextual (maxDischargeDepth := 30) [x, *]; done) | ((try unfold x); (try dsimp only); (repeat' split) <;> simp (maxDischargeDepth := 30) [*]; done))
            clear_value x)
         | (have hx : Keeps r0 x.1 := by (first | (simp (maxDischargeDepth := 30) [x, *]; done) | (simp +contextual (maxDischargeDepth := 30) [x, *]; done) | ((try unfold x); (try dsimp only); (repeat' split) <;> simp (maxDischargeDepth := 30) [*]; done))
            clear_value x)
         | clear_value x)
    | (split <;> (try (rename_i e
                       first
                         | have k := keeps_of_snd (r := r0) e (by clear e; simp (maxDischargeDepth := 30) [*]; done)
                         | have k := keeps_of_fst (r := r0) e (by clear e; simp (maxDischargeDepth := 30) [*]; done)
                         | have k := keeps_of_opt (r := r0) e (by clear e; simp (maxDischargeDepth := 30) [*]; done)
                         | have k := keeps_of_optFst (r := r0) e (by clear e; simp (maxDischargeDepth := 30) [*]; done)))))

@[simp] theorem stockCtrlReset_keeps {r0 : State} {s : State} (hK : Keeps r0 s) :
    Keeps r0 (stockCtrlReset s) := by simp (maxDischargeDepth := 30) [stockCtrlReset, *]

@[simp] theorem execStockpileCtrlReset_keeps {r0 : State} {s : State} (hK : Keeps r0 s) :
    KeepsRes r0 (execStockpileCtrlReset s) := by simp (maxDischargeDepth := 30) [execStockpileCtrlReset, *]

@[simp] theorem execStockpileCtrlResetEnd_keeps {r0 : State} {s : State} (hK : Keeps r0 s) :
    KeepsRes r0 (execStockpileCtrlResetEnd s) := by simp (maxDischargeDepth := 30) [execStockpileCtrlResetEnd, *]

@[simp] theorem execForemanReset_keeps {r0 : State} (cause : Nat) {s : State} (hK : Keeps r0 s) :
    KeepsRes r0 (execForemanReset cause s) := by simp (maxDischargeDepth := 30) [execForemanReset, *]

@[simp] theorem execForemanResume_keeps {r0 : State} {s : State} (hK : Keeps r0 s) :
    KeepsRes r0 (execForemanResume s) := by simp (maxDischargeDepth := 30) [execForemanResume, *]

@[simp] theorem execPowerOn_keeps {r0 : State} {s : State} (hK : Keeps r0 s) :
    KeepsRes r0 (execPowerOn s) := by simp (maxDischargeDepth := 30) [execPowerOn, *]

@[simp] theorem brgCtrlWrite_keeps {r0 : State} (v : Word) {s : State} (hK : Keeps r0 s) :
    Keeps r0 (brgCtrlWrite v s) := by simp (maxDischargeDepth := 30) [brgCtrlWrite, *]

@[simp] theorem execWarmReset_keeps {r0 : State} (r : Requester) (v : Word) {s : State} (hK : Keeps r0 s) :
    KeepsRes r0 (execWarmReset r v s) := by simp (maxDischargeDepth := 30) [execWarmReset, *]

@[simp] theorem execSurveyDiscard_keeps {r0 : State} (r : Requester) {s : State} (hK : Keeps r0 s) :
    KeepsRes r0 (execSurveyDiscard r s) := by simp (maxDischargeDepth := 30) [execSurveyDiscard, *]

end Sys2Proof.Machine
end

