-- ==== Sys2Proof/Laws/KeepsPower.lean ====
section
/-! SUPPORT. What the operations of Machine/Power.lean keep (Laws/Keeps.lean). -/

set_option Elab.async false
set_option linter.unusedTactic false
set_option linter.unreachableTactic false

namespace Sys2Proof.Machine

@[simp] theorem execTraceRecord_keeps {r0 : State} {s : State} (hK : Keeps r0 s) :
    KeepsRes r0 (execTraceRecord s) := by
  unfold execTraceRecord
  (repeat' split) <;> simp (maxDischargeDepth := 30) [*]

@[simp] theorem execClockLoss_keeps {r0 : State} (domain gallery : Nat) {s : State} (hK : Keeps r0 s) :
    KeepsRes r0 (execClockLoss domain gallery s) := by simp (maxDischargeDepth := 30) [execClockLoss, *]

@[simp] theorem cpmTake_keeps {r0 : State} (g n : Nat) (v : Int) {s : State} (hK : Keeps r0 s) :
    Keeps r0 (cpmTake g n v s) := by simp (maxDischargeDepth := 30) [cpmTake, *]

@[simp] theorem execCpmMeasure_keeps {r0 : State} (slacks : List (Nat × Nat × Int)) {s : State} (hK : Keeps r0 s) :
    KeepsRes r0 (execCpmMeasure slacks s) := by
  unfold execCpmMeasure
  repeat' (first
    | (simp (maxDischargeDepth := 30) [*]; done)
    | (simp +contextual (maxDischargeDepth := 30) [*]; done)
    | (refine keeps_foldl _ _ _ (fun s a h => ?_) ?_)
    | (refine keeps_foldl_fst _ _ _ (fun s a h => ?_) ?_)
    | (refine keeps_foldl_snd _ _ _ (fun s a h => ?_) ?_)
    | (extract_lets +onlyGivenNames x
       first
         | (have hx : Keeps r0 x := by (first | (simp (maxDischargeDepth := 30) [x, *]; done) | (simp +contextual (maxDischargeDepth := 30) [x, *]; done) | ((try unfold x); (try dsimp only); (repeat' split) <;> simp (maxDischargeDepth := 30) [*]; done))
            clear_value x)
         | (have hx : Keeps r0 x.2 := by (first | (simp (maxDischargeDepth := 30) [x, *]; done) | (simp +contextual (maxDischargeDepth := 30) [x, *]; done) | ((try unfold x); (try dsimp only); (repeat' split) <;> simp (maxDischargeDepth := 30) [*]; done))
            clear_value x)
         | (have hx : Keeps r0 x.1 := by (first | (simp (maxDischargeDepth := 30) [x, *]; done) | (simp +contextual (maxDischargeDepth := 30) [x, *]; done) | ((try unfold x); (try dsimp only); (repeat' split) <;> simp (maxDischargeDepth := 30) [*]; done))
            clear_value x)
         | clear_value x)
    | (split <;> (try (rename_i e
                       first
                         | have k := keeps_of_snd (r := r0) e (by clear e; simp (maxDischargeDepth := 30) [*]; done)
                         | have k := keeps_of_fst (r := r0) e (by clear e; simp (maxDischargeDepth := 30) [*]; done)
                         | have k := keeps_of_opt (r := r0) e (by clear e; simp (maxDischargeDepth := 30) [*]; done)
                         | have k := keeps_of_optFst (r := r0) e (by clear e; simp (maxDischargeDepth := 30) [*]; done)))))

@[simp] theorem execAgeingReduction_keeps {r0 : State} (g n : Nat) {s : State} (hK : Keeps r0 s) :
    KeepsRes r0 (execAgeingReduction g n s) := by
  unfold execAgeingReduction
  dsimp only
  (repeat' split) <;> simp (maxDischargeDepth := 30) [*]

@[simp] theorem execSurveyWrite_keeps {r0 : State} {s : State} (hK : Keeps r0 s) :
    KeepsRes r0 (execSurveyWrite s) := by simp (maxDischargeDepth := 30) [execSurveyWrite, *]

@[simp] theorem galCfgWrite_keeps {r0 : State} (r : Requester) (g : Nat) (v : Word) {s : State} (hK : Keeps r0 s) :
    Keeps r0 (galCfgWrite r g v s) := by simp (maxDischargeDepth := 30) [galCfgWrite, *]

@[simp] theorem execVfTargetWrite_keeps {r0 : State} (r : Requester) (g : Nat) (v : Word) {s : State} (hK : Keeps r0 s) :
    KeepsRes r0 (execVfTargetWrite r g v s) := by simp (maxDischargeDepth := 30) [execVfTargetWrite, *]

@[simp] theorem execVfRaise_keeps {r0 : State} (g : Nat) {s : State} (hK : Keeps r0 s) :
    KeepsRes r0 (execVfRaise g s) := by simp (maxDischargeDepth := 30) [execVfRaise, *]

@[simp] theorem execVfLower_keeps {r0 : State} (g : Nat) {s : State} (hK : Keeps r0 s) :
    KeepsRes r0 (execVfLower g s) := by simp (maxDischargeDepth := 30) [execVfLower, *]

@[simp] theorem execVfSlewDone_keeps {r0 : State} (g : Nat) {s : State} (hK : Keeps r0 s) :
    KeepsRes r0 (execVfSlewDone g s) := by simp (maxDischargeDepth := 30) [execVfSlewDone, *]

@[simp] theorem noteReading_keeps {r0 : State} (g mv : Nat) {s : State} (hK : Keeps r0 s) :
    Keeps r0 (noteReading g mv s) := by simp (maxDischargeDepth := 30) [noteReading, *]

@[simp] theorem execDroopTrip_keeps {r0 : State} (g mv : Nat) {s : State} (hK : Keeps r0 s) :
    KeepsRes r0 (execDroopTrip g mv s) := by simp (maxDischargeDepth := 30) [execDroopTrip, *]

@[simp] theorem execDroopRecover_keeps {r0 : State} (g mv : Nat) {s : State} (hK : Keeps r0 s) :
    KeepsRes r0 (execDroopRecover g mv s) := by simp (maxDischargeDepth := 30) [execDroopRecover, *]

@[simp] theorem execRampLimitTrip_keeps {r0 : State} (g rise : Nat) {s : State} (hK : Keeps r0 s) :
    KeepsRes r0 (execRampLimitTrip g rise s) := by simp (maxDischargeDepth := 30) [execRampLimitTrip, *]

@[simp] theorem droopRearm_keeps {r0 : State} (g : Nat) {s : State} (hK : Keeps r0 s) :
    Keeps r0 (droopRearm g s) := by simp (maxDischargeDepth := 30) [droopRearm, *]

@[simp] theorem execDroopRearm_keeps {r0 : State} (r : Requester) (g : Nat) {s : State} (hK : Keeps r0 s) :
    KeepsRes r0 (execDroopRearm r g s) := by simp (maxDischargeDepth := 30) [execDroopRearm, *]

@[simp] theorem loseCrew_keeps {r0 : State} (c : Nat) {s : State} (hK : Keeps r0 s) :
    Keeps r0 (loseCrew c s) := by simp (maxDischargeDepth := 30) [loseCrew, *]

@[simp] theorem execRegFault_keeps {r0 : State} (g kind : Nat) (out : Nat × Nat) {s : State} (hK : Keeps r0 s) :
    KeepsRes r0 (execRegFault g kind out s) := by
  unfold execRegFault
  repeat' (first
    | (simp (maxDischargeDepth := 30) [*]; done)
    | (simp +contextual (maxDischargeDepth := 30) [*]; done)
    | (refine keeps_foldl _ _ _ (fun s a h => ?_) ?_)
    | (refine keeps_foldl_fst _ _ _ (fun s a h => ?_) ?_)
    | (refine keeps_foldl_snd _ _ _ (fun s a h => ?_) ?_)
    | (extract_lets +onlyGivenNames x
       first
         | (have hx : Keeps r0 x := by (first | (simp (maxDischargeDepth := 30) [x, *]; done) | (simp +contextual (maxDischargeDepth := 30) [x, *]; done) | ((try unfold x); (try dsimp only); (repeat' split) <;> simp (maxDischargeDepth := 30) [*]; done))
            clear_value x)
         | (have hx : Keeps r0 x.2 := by (first | (simp (maxDischargeDepth := 30) [x, *]; done) | (simp +contextual (maxDischargeDepth := 30) [x, *]; done) | ((try unfold x); (try dsimp only); (repeat' split) <;> simp (maxDischargeDepth := 30) [*]; done))
            clear_value x)
         | (have hx : Keeps r0 x.1 := by (first | (simp (maxDischargeDepth := 30) [x, *]; done) | (simp +contextual (maxDischargeDepth := 30) [x, *]; done) | ((try unfold x); (try dsimp only); (repeat' split) <;> simp (maxDischargeDepth := 30) [*]; done))
            clear_value x)
         | clear_value x)
    | (split <;> (try (rename_i e
                       first
                         | have k := keeps_of_snd (r := r0) e (by clear e; simp (maxDischargeDepth := 30) [*]; done)
                         | have k := keeps_of_fst (r := r0) e (by clear e; simp (maxDischargeDepth := 30) [*]; done)
                         | have k := keeps_of_opt (r := r0) e (by clear e; simp (maxDischargeDepth := 30) [*]; done)
                         | have k := keeps_of_optFst (r := r0) e (by clear e; simp (maxDischargeDepth := 30) [*]; done)))))

@[simp] theorem execDemandFrame_keeps {r0 : State} {s : State} (hK : Keeps r0 s) :
    KeepsRes r0 (execDemandFrame s) := by
  unfold execDemandFrame
  (repeat' split) <;> simp (maxDischargeDepth := 30) [*]

@[simp] theorem accountTake_keeps {r0 : State} (g m : Nat) {s : State} (hK : Keeps r0 s) :
    Keeps r0 (accountTake g m s) := by simp (maxDischargeDepth := 30) [accountTake, *]

@[simp] theorem settle_keeps {r0 : State} (y1 : Nat) {s : State} (hK : Keeps r0 s) :
    Keeps r0 (settle y1 s) := by
  induction y1 generalizing s with
  | zero => simp (maxDischargeDepth := 30) [settle, *]
  | succ n ih => simp (maxDischargeDepth := 30) [settle, *]

@[simp] theorem serveQueue_keeps {r0 : State} (y1 : Nat) {s : State} (hK : Keeps r0 s) :
    Keeps r0 (serveQueue y1 s) := by
  induction y1 generalizing s with
  | zero =>
    unfold serveQueue
    (repeat' split) <;> simp (maxDischargeDepth := 30) [*]
  | succ n ih =>
    unfold serveQueue
    repeat' (first
      | (simp (maxDischargeDepth := 30) [*]; done)
      | (simp +contextual (maxDischargeDepth := 30) [*]; done)
      | (refine keeps_foldl _ _ _ (fun s a h => ?_) ?_)
      | (refine keeps_foldl_fst _ _ _ (fun s a h => ?_) ?_)
      | (refine keeps_foldl_snd _ _ _ (fun s a h => ?_) ?_)
      | (extract_lets +onlyGivenNames x
         first
           | (have hx : Keeps r0 x := by (first | (simp (maxDischargeDepth := 30) [x, *]; done) | (simp +contextual (maxDischargeDepth := 30) [x, *]; done) | ((try unfold x); (try dsimp only); (repeat' split) <;> simp (maxDischargeDepth := 30) [*]; done))
              clear_value x)
           | (have hx : Keeps r0 x.2 := by (first | (simp (maxDischargeDepth := 30) [x, *]; done) | (simp +contextual (maxDischargeDepth := 30) [x, *]; done) | ((try unfold x); (try dsimp only); (repeat' split) <;> simp (maxDischargeDepth := 30) [*]; done))
              clear_value x)
           | (have hx : Keeps r0 x.1 := by (first | (simp (maxDischargeDepth := 30) [x, *]; done) | (simp +contextual (maxDischargeDepth := 30) [x, *]; done) | ((try unfold x); (try dsimp only); (repeat' split) <;> simp (maxDischargeDepth := 30) [*]; done))
              clear_value x)
           | clear_value x)
      | (split <;> (try (rename_i e
                         first
                           | have k := keeps_of_snd (r := r0) e (by clear e; simp (maxDischargeDepth := 30) [*]; done)
                           | have k := keeps_of_fst (r := r0) e (by clear e; simp (maxDischargeDepth := 30) [*]; done)
                           | have k := keeps_of_opt (r := r0) e (by clear e; simp (maxDischargeDepth := 30) [*]; done)
                           | have k := keeps_of_optFst (r := r0) e (by clear e; simp (maxDischargeDepth := 30) [*]; done)))))

@[simp] theorem overTrack_keeps {r0 : State} {s : State} (hK : Keeps r0 s) :
    Keeps r0 (overTrack s) := by simp (maxDischargeDepth := 30) [overTrack, *]

@[simp] theorem execLedgerEvaluate_keeps {r0 : State} (measured : List Nat) {s : State} (hK : Keeps r0 s) :
    KeepsRes r0 (execLedgerEvaluate measured s) := by
  unfold execLedgerEvaluate
  repeat' (first
    | (simp (maxDischargeDepth := 30) [*]; done)
    | (simp +contextual (maxDischargeDepth := 30) [*]; done)
    | (refine keeps_foldl _ _ _ (fun s a h => ?_) ?_)
    | (refine keeps_foldl_fst _ _ _ (fun s a h => ?_) ?_)
    | (refine keeps_foldl_snd _ _ _ (fun s a h => ?_) ?_)
    | (extract_lets +onlyGivenNames x
       first
         | (have hx : Keeps r0 x := by (first | (simp (maxDischargeDepth := 30) [x, *]; done) | (simp +contextual (maxDischargeDepth := 30) [x, *]; done) | ((try unfold x); (try dsimp only); (repeat' split) <;> simp (maxDischargeDepth := 30) [*]; done))
            clear_value x)
         | (have hx : Keeps r0 x.2 := by (first | (simp (maxDischargeDepth := 30) [x, *]; done) | (simp +contextual (maxDischargeDepth := 30) [x, *]; done) | ((try unfold x); (try dsimp only); (repeat' split) <;> simp (maxDischargeDepth := 30) [*]; done))
            clear_value x)
         | (have hx : Keeps r0 x.1 := by (first | (simp (maxDischargeDepth := 30) [x, *]; done) | (simp +contextual (maxDischargeDepth := 30) [x, *]; done) | ((try unfold x); (try dsimp only); (repeat' split) <;> simp (maxDischargeDepth := 30) [*]; done))
            clear_value x)
         | clear_value x)
    | (split <;> (try (rename_i e
                       first
                         | have k := keeps_of_snd (r := r0) e (by clear e; simp (maxDischargeDepth := 30) [*]; done)
                         | have k := keeps_of_fst (r := r0) e (by clear e; simp (maxDischargeDepth := 30) [*]; done)
                         | have k := keeps_of_opt (r := r0) e (by clear e; simp (maxDischargeDepth := 30) [*]; done)
                         | have k := keeps_of_optFst (r := r0) e (by clear e; simp (maxDischargeDepth := 30) [*]; done)))))

@[simp] theorem execLedgerOver_keeps {r0 : State} {s : State} (hK : Keeps r0 s) :
    KeepsRes r0 (execLedgerOver s) := by
  unfold execLedgerOver
  repeat' (first
    | (simp (maxDischargeDepth := 30) [*]; done)
    | (simp +contextual (maxDischargeDepth := 30) [*]; done)
    | (refine keeps_foldl _ _ _ (fun s a h => ?_) ?_)
    | (refine keeps_foldl_fst _ _ _ (fun s a h => ?_) ?_)
    | (refine keeps_foldl_snd _ _ _ (fun s a h => ?_) ?_)
    | (extract_lets +onlyGivenNames x
       first
         | (have hx : Keeps r0 x := by (first | (simp (maxDischargeDepth := 30) [x, *]; done) | (simp +contextual (maxDischargeDepth := 30) [x, *]; done) | ((try unfold x); (try dsimp only); (repeat' split) <;> simp (maxDischargeDepth := 30) [*]; done))
            clear_value x)
         | (have hx : Keeps r0 x.2 := by (first | (simp (maxDischargeDepth := 30) [x, *]; done) | (simp +contextual (maxDischargeDepth := 30) [x, *]; done) | ((try unfold x); (try dsimp only); (repeat' split) <;> simp (maxDischargeDepth := 30) [*]; done))
            clear_value x)
         | (have hx : Keeps r0 x.1 := by (first | (simp (maxDischargeDepth := 30) [x, *]; done) | (simp +contextual (maxDischargeDepth := 30) [x, *]; done) | ((try unfold x); (try dsimp only); (repeat' split) <;> simp (maxDischargeDepth := 30) [*]; done))
            clear_value x)
         | clear_value x)
    | (split <;> (try (rename_i e
                       first
                         | have k := keeps_of_snd (r := r0) e (by clear e; simp (maxDischargeDepth := 30) [*]; done)
                         | have k := keeps_of_fst (r := r0) e (by clear e; simp (maxDischargeDepth := 30) [*]; done)
                         | have k := keeps_of_opt (r := r0) e (by clear e; simp (maxDischargeDepth := 30) [*]; done)
                         | have k := keeps_of_optFst (r := r0) e (by clear e; simp (maxDischargeDepth := 30) [*]; done)))))

@[simp] theorem execLedgerClampRelease_keeps {r0 : State} {s : State} (hK : Keeps r0 s) :
    KeepsRes r0 (execLedgerClampRelease s) := by
  unfold execLedgerClampRelease
  repeat' (first
    | (simp (maxDischargeDepth := 30) [*]; done)
    | (simp +contextual (maxDischargeDepth := 30) [*]; done)
    | (refine keeps_foldl _ _ _ (fun s a h => ?_) ?_)
    | (refine keeps_foldl_fst _ _ _ (fun s a h => ?_) ?_)
    | (refine keeps_foldl_snd _ _ _ (fun s a h => ?_) ?_)
    | (extract_lets +onlyGivenNames x
       first
         | (have hx : Keeps r0 x := by (first | (simp (maxDischargeDepth := 30) [x, *]; done) | (simp +contextual (maxDischargeDepth := 30) [x, *]; done) | ((try unfold x); (try dsimp only); (repeat' split) <;> simp (maxDischargeDepth := 30) [*]; done))
            clear_value x)
         | (have hx : Keeps r0 x.2 := by (first | (simp (maxDischargeDepth := 30) [x, *]; done) | (simp +contextual (maxDischargeDepth := 30) [x, *]; done) | ((try unfold x); (try dsimp only); (repeat' split) <;> simp (maxDischargeDepth := 30) [*]; done))
            clear_value x)
         | (have hx : Keeps r0 x.1 := by (first | (simp (maxDischargeDepth := 30) [x, *]; done) | (simp +contextual (maxDischargeDepth := 30) [x, *]; done) | ((try unfold x); (try dsimp only); (repeat' split) <;> simp (maxDischargeDepth := 30) [*]; done))
            clear_value x)
         | clear_value x)
    | (split <;> (try (rename_i e
                       first
                         | have k := keeps_of_snd (r := r0) e (by clear e; simp (maxDischargeDepth := 30) [*]; done)
                         | have k := keeps_of_fst (r := r0) e (by clear e; simp (maxDischargeDepth := 30) [*]; done)
                         | have k := keeps_of_opt (r := r0) e (by clear e; simp (maxDischargeDepth := 30) [*]; done)
                         | have k := keeps_of_optFst (r := r0) e (by clear e; simp (maxDischargeDepth := 30) [*]; done)))))

@[simp] theorem galCtrlWrite_keeps {r0 : State} (g : Nat) (v : Word) {s : State} (hK : Keeps r0 s) :
    Keeps r0 (galCtrlWrite g v s) := by simp (maxDischargeDepth := 30) [galCtrlWrite, *]

@[simp] theorem execGalParkWrite_keeps {r0 : State} (r : Requester) (g : Nat) (v : Word) {s : State} (hK : Keeps r0 s) :
    KeepsRes r0 (execGalParkWrite r g v s) := by simp (maxDischargeDepth := 30) [execGalParkWrite, *]

@[simp] theorem execParkRampStep_keeps {r0 : State} (g : Nat) {s : State} (hK : Keeps r0 s) :
    KeepsRes r0 (execParkRampStep g s) := by simp (maxDischargeDepth := 30) [execParkRampStep, *]

@[simp] theorem drawHalf_keeps {r0 : State} (g : Nat) {s : State} (hK : Keeps r0 s) :
    Keeps r0 (drawHalf g s) := by simp (maxDischargeDepth := 30) [drawHalf, *]

@[simp] theorem execUnparkRampStep_keeps {r0 : State} (g : Nat) {s : State} (hK : Keeps r0 s) :
    KeepsRes r0 (execUnparkRampStep g s) := by simp (maxDischargeDepth := 30) [execUnparkRampStep, *]

@[simp] theorem noteVin_keeps {r0 : State} (rail mv : Nat) {s : State} (hK : Keeps r0 s) :
    Keeps r0 (noteVin rail mv s) := by simp (maxDischargeDepth := 30) [noteVin, *]

@[simp] theorem execRailWarning_keeps {r0 : State} (rail mv : Nat) {s : State} (hK : Keeps r0 s) :
    KeepsRes r0 (execRailWarning rail mv s) := by simp (maxDischargeDepth := 30) [execRailWarning, *]

@[simp] theorem execRailWarningClear_keeps {r0 : State} (rail : Nat × Nat) {s : State} (hK : Keeps r0 s) :
    KeepsRes r0 (execRailWarningClear rail s) := by simp (maxDischargeDepth := 30) [execRailWarningClear, *]

@[simp] theorem execSagClampLift_keeps {r0 : State} {s : State} (hK : Keeps r0 s) :
    KeepsRes r0 (execSagClampLift s) := by
  unfold execSagClampLift
  (repeat' split) <;> simp (maxDischargeDepth := 30) [*]

@[simp] theorem execPwrSagReset_keeps {r0 : State} (rail mv : Nat) {s : State} (hK : Keeps r0 s) :
    KeepsRes r0 (execPwrSagReset rail mv s) := by simp (maxDischargeDepth := 30) [execPwrSagReset, *]

end Sys2Proof.Machine
end

