-- ==== Sys2Proof/Laws/KeepsFirmware.lean ====
section
/-! SUPPORT. What the operations of Machine/Firmware.lean keep (Laws/Keeps.lean). -/

set_option Elab.async false
set_option linter.unusedTactic false
set_option linter.unreachableTactic false

namespace Sys2Proof.Machine

@[simp] theorem updRefused_keeps {r0 : State} (pldm : Bool) (st : Status) {s : State} (hK : Keeps r0 s) :
    Keeps r0 (updRefused pldm st s) := by simp (maxDischargeDepth := 30) [updRefused, *]

@[simp] theorem updTaken_keeps {r0 : State} (pldm : Bool) (st : Status) {s : State} (hK : Keeps r0 s) :
    Keeps r0 (updTaken pldm st s) := by simp (maxDischargeDepth := 30) [updTaken, *]

@[simp] theorem kickCopies_keeps {r0 : State} {s : State} (hK : Keeps r0 s) :
    Keeps r0 (kickCopies s) := by simp (maxDischargeDepth := 30) [kickCopies, *]

@[simp] theorem updBegin_keeps {r0 : State} (pldm : Bool) (kind len : Nat) {s : State} (hK : Keeps r0 s) :
    Keeps r0 (updBegin pldm kind len s) := by simp (maxDischargeDepth := 30) [updBegin, *]

@[simp] theorem updHeader_keeps {r0 : State} (x : Session) {s : State} (hK : Keeps r0 s) :
    Keeps r0 (updHeader x s) := by simp (maxDischargeDepth := 30) [updHeader, *]

@[simp] theorem updPush_keeps {r0 : State} (pldm : Bool) (chunk : List Byte) {s : State} (hK : Keeps r0 s) :
    Keeps r0 (updPush pldm chunk s) := by
  unfold updPush
  (repeat' split) <;> simp (maxDischargeDepth := 30) [*]

@[simp] theorem updEnd_keeps {r0 : State} (pldm : Bool) {s : State} (hK : Keeps r0 s) :
    Keeps r0 (updEnd pldm s) := by
  unfold updEnd
  (repeat' split) <;> simp (maxDischargeDepth := 30) [*]

@[simp] theorem updAbort_keeps {r0 : State} (pldm : Bool) {s : State} (hK : Keeps r0 s) :
    Keeps r0 (updAbort pldm s) := by
  unfold updAbort
  (repeat' split) <;> simp (maxDischargeDepth := 30) [*]

@[simp] theorem updRevert_keeps {r0 : State} (kind : Nat) {s : State} (hK : Keeps r0 s) :
    Keeps r0 (updRevert kind s) := by simp (maxDischargeDepth := 30) [updRevert, *]

@[simp] theorem updFactory_keeps {r0 : State} {s : State} (hK : Keeps r0 s) :
    Keeps r0 (updFactory s) := by simp (maxDischargeDepth := 30) [updFactory, *]

@[simp] theorem updCtrl_keeps {r0 : State} (v : Nat) {s : State} (hK : Keeps r0 s) :
    Keeps r0 (updCtrl v s) := by
  unfold updCtrl
  (repeat' split) <;> simp (maxDischargeDepth := 30) [*]

@[simp] theorem execSecBegin_keeps {r0 : State} (pldm : Bool) (kind len : Nat) {s : State} (hK : Keeps r0 s) :
    KeepsRes r0 (execSecBegin pldm kind len s) := by simp (maxDischargeDepth := 30) [execSecBegin, *]

@[simp] theorem execSecPush_keeps {r0 : State} (pldm : Bool) (chunk : List Byte) {s : State} (hK : Keeps r0 s) :
    KeepsRes r0 (execSecPush pldm chunk s) := by simp (maxDischargeDepth := 30) [execSecPush, *]

@[simp] theorem execSecEnd_keeps {r0 : State} (pldm : Bool) {s : State} (hK : Keeps r0 s) :
    KeepsRes r0 (execSecEnd pldm s) := by simp (maxDischargeDepth := 30) [execSecEnd, *]

@[simp] theorem execSecAbort_keeps {r0 : State} (pldm : Bool) {s : State} (hK : Keeps r0 s) :
    KeepsRes r0 (execSecAbort pldm s) := by simp (maxDischargeDepth := 30) [execSecAbort, *]

@[simp] theorem execSecRevert_keeps {r0 : State} (kind : Nat) {s : State} (hK : Keeps r0 s) :
    KeepsRes r0 (execSecRevert kind s) := by simp (maxDischargeDepth := 30) [execSecRevert, *]

@[simp] theorem execSecFactory_keeps {r0 : State} {s : State} (hK : Keeps r0 s) :
    KeepsRes r0 (execSecFactory s) := by simp (maxDischargeDepth := 30) [execSecFactory, *]

@[simp] theorem execPldmFwUpdate_keeps {r0 : State} (q : FwCommand) {s : State} (hK : Keeps r0 s) :
    KeepsRes r0 (execPldmFwUpdate q s) := by
  unfold execPldmFwUpdate
  (repeat' split) <;> simp (maxDischargeDepth := 30) [*]

@[simp] theorem execUpdateChunkDone_keeps {r0 : State} {s : State} (hK : Keeps r0 s) :
    KeepsRes r0 (execUpdateChunkDone s) := by simp (maxDischargeDepth := 30) [execUpdateChunkDone, *]

@[simp] theorem execReserveCopyDone_keeps {r0 : State} (kind : Nat) {s : State} (hK : Keeps r0 s) :
    KeepsRes r0 (execReserveCopyDone kind s) := by
  unfold execReserveCopyDone
  (repeat' split) <;> simp (maxDischargeDepth := 30) [*]

@[simp] theorem blowFuses_keeps {r0 : State} (k : Nat) (h : ImgHdr) {s : State} (hK : Keeps r0 s) :
    Keeps r0 (blowFuses k h s) := by simp (maxDischargeDepth := 30) [blowFuses, *]

@[simp] theorem eraseOldSettings_keeps {r0 : State} (k : Nat) (h : ImgHdr) {s : State} (hK : Keeps r0 s) :
    Keeps r0 (eraseOldSettings k h s) := by simp (maxDischargeDepth := 30) [eraseOldSettings, *]

@[simp] theorem confirm_keeps {r0 : State} (k : Nat) (fuseOk : Bool) {s : State} (hK : Keeps r0 s) :
    Keeps r0 (confirm k fuseOk s) := by
  unfold confirm
  dsimp only
  (repeat' split) <;> simp (maxDischargeDepth := 30) [*]

@[simp] theorem secConfirm_keeps {r0 : State} (r : Requester) (v : Word) (fuseOk : Bool) {s : State} (hK : Keeps r0 s) :
    Keeps r0 (secConfirm r v fuseOk s) := by
  unfold secConfirm
  (repeat' split) <;> simp (maxDischargeDepth := 30) [*]

@[simp] theorem execSecConfirm_keeps {r0 : State} (r : Requester) (v : Word) (fuseOk : Bool) {s : State} (hK : Keeps r0 s) :
    KeepsRes r0 (execSecConfirm r v fuseOk s) := by simp (maxDischargeDepth := 30) [execSecConfirm, *]

@[simp] theorem execConfirmTimer_keeps {r0 : State} (fuseOk : Bool) {s : State} (hK : Keeps r0 s) :
    KeepsRes r0 (execConfirmTimer fuseOk s) := by
  unfold execConfirmTimer
  (repeat' split) <;> simp (maxDischargeDepth := 30) [*]

@[simp] theorem execConfirmWindowExpiry_keeps {r0 : State} (kind : Nat) {s : State} (hK : Keeps r0 s) :
    KeepsRes r0 (execConfirmWindowExpiry kind s) := by
  unfold execConfirmWindowExpiry
  (repeat' split) <;> simp (maxDischargeDepth := 30) [*]

@[simp] theorem execRevertReset_keeps {r0 : State} {s : State} (hK : Keeps r0 s) :
    KeepsRes r0 (execRevertReset s) := by
  unfold execRevertReset
  (repeat' split) <;> simp (maxDischargeDepth := 30) [*]

@[simp] theorem execAliasKeysReady_keeps {r0 : State} {s : State} (hK : Keeps r0 s) :
    KeepsRes r0 (execAliasKeysReady s) := by simp (maxDischargeDepth := 30) [execAliasKeysReady, *]

end Sys2Proof.Machine
end

