-- ==== Sys2Proof/Laws/KeepsRegRead.lean ====
section
/-! SUPPORT. What the operations of Machine/RegRead.lean keep (Laws/Keeps.lean). -/

set_option Elab.async false
set_option linter.unusedTactic false
set_option linter.unreachableTactic false

namespace Sys2Proof.Machine

@[simp] theorem ringNote_keeps {r0 : State} (a : Nat) {s : State} (hK : Keeps r0 s) :
    Keeps r0 (ringNote a s) := by simp (maxDischargeDepth := 30) [ringNote, *]

end Sys2Proof.Machine
end

