-- ==== Sys2Proof/Laws/KeepsRegWrite.lean ====
section
/-! SUPPORT. What the operations of Machine/RegWrite.lean keep (Laws/Keeps.lean). -/

set_option Elab.async false
set_option linter.unusedTactic false
set_option linter.unreachableTactic false

namespace Sys2Proof.Machine

@[simp] theorem glbWrite_keeps {r0 : State} (o w : Nat) {s : State} (hK : Keeps r0 s) :
    Keeps r0 (glbWrite o w s) := by simp (maxDischargeDepth := 30) [glbWrite, *]

@[simp] theorem pwrWrite_keeps {r0 : State} (o w : Nat) {s : State} (hK : Keeps r0 s) :
    Keeps r0 (pwrWrite o w s) := by simp (maxDischargeDepth := 30) [pwrWrite, *]

@[simp] theorem clkWrite_keeps {r0 : State} (o w : Nat) {s : State} (hK : Keeps r0 s) :
    Keeps r0 (clkWrite o w s) := by simp (maxDischargeDepth := 30) [clkWrite, *]

@[simp] theorem thmWrite_keeps {r0 : State} (o w : Nat) {s : State} (hK : Keeps r0 s) :
    Keeps r0 (thmWrite o w s) := by simp (maxDischargeDepth := 30) [thmWrite, *]

@[simp] theorem fnWrite_keeps {r0 : State} (r : Requester) (f o w : Nat) {s : State} (hK : Keeps r0 s) :
    Keeps r0 (fnWrite r f o w s) := by simp (maxDischargeDepth := 30) [fnWrite, *]

@[simp] theorem galWrite_keeps {r0 : State} (r : Requester) (g o w : Nat) {s : State} (hK : Keeps r0 s) :
    Keeps r0 (galWrite r g o w s) := by simp (maxDischargeDepth := 30) [galWrite, *]

@[simp] theorem tlyCtrlWrite_keeps {r0 : State} (r : Requester) (c w : Nat) {s : State} (hK : Keeps r0 s) :
    Keeps r0 (tlyCtrlWrite r c w s) := by
  unfold tlyCtrlWrite
  (repeat' split) <;> simp (maxDischargeDepth := 30) [*]

@[simp] theorem hewerWrite_keeps {r0 : State} (c h o w : Nat) {s : State} (hK : Keeps r0 s) :
    Keeps r0 (hewerWrite c h o w s) := by simp (maxDischargeDepth := 30) [hewerWrite, *]

@[simp] theorem drsRegWrite_keeps {r0 : State} (c o w : Nat) {s : State} (hK : Keeps r0 s) :
    Keeps r0 (drsRegWrite c o w s) := by simp (maxDischargeDepth := 30) [drsRegWrite, *]

@[simp] theorem crwWrite_keeps {r0 : State} (r : Requester) (c o w : Nat) {s : State} (hK : Keeps r0 s) :
    Keeps r0 (crwWrite r c o w s) := by simp (maxDischargeDepth := 30) [crwWrite, *]

@[simp] theorem seamWrite_keeps {r0 : State} (n o w : Nat) {s : State} (hK : Keeps r0 s) :
    Keeps r0 (seamWrite n o w s) := by simp (maxDischargeDepth := 30) [seamWrite, *]

@[simp] theorem faceRegWrite_keeps {r0 : State} (r : Requester) (n o w : Nat) {s : State} (hK : Keeps r0 s) :
    Keeps r0 (faceRegWrite r n o w s) := by simp (maxDischargeDepth := 30) [faceRegWrite, *]

@[simp] theorem binWrite_keeps {r0 : State} (o w : Nat) {s : State} (hK : Keeps r0 s) :
    Keeps r0 (binWrite o w s) := by simp (maxDischargeDepth := 30) [binWrite, *]

@[simp] theorem engWrite_keeps {r0 : State} (r : Requester) (e o w : Nat) {s : State} (hK : Keeps r0 s) :
    Keeps r0 (engWrite r e o w s) := by simp (maxDischargeDepth := 30) [engWrite, *]

@[simp] theorem millRegWrite_keeps {r0 : State} (r : Requester) (o w : Nat) {s : State} (hK : Keeps r0 s) :
    Keeps r0 (millRegWrite r o w s) := by simp (maxDischargeDepth := 30) [millRegWrite, *]

@[simp] theorem veinRegWrite_keeps {r0 : State} (r : Requester) (o w : Nat) {s : State} (hK : Keeps r0 s) :
    Keeps r0 (veinRegWrite r o w s) := by simp (maxDischargeDepth := 30) [veinRegWrite, *]

@[simp] theorem aditWrite_keeps {r0 : State} (a o w : Nat) {s : State} (hK : Keeps r0 s) :
    Keeps r0 (aditWrite a o w s) := by simp (maxDischargeDepth := 30) [aditWrite, *]

@[simp] theorem fldWrite_keeps {r0 : State} (r : Requester) (o w : Nat) {s : State} (hK : Keeps r0 s) :
    Keeps r0 (fldWrite r o w s) := by simp (maxDischargeDepth := 30) [fldWrite, *]

@[simp] theorem chkWrite_keeps {r0 : State} (r : Requester) (u o w : Nat) {s : State} (hK : Keeps r0 s) :
    Keeps r0 (chkWrite r u o w s) := by simp (maxDischargeDepth := 30) [chkWrite, *]

@[simp] theorem secWrite_keeps {r0 : State} (r : Requester) (o w : Nat) {s : State} (hK : Keeps r0 s) :
    Keeps r0 (secWrite r o w s) := by simp (maxDischargeDepth := 30) [secWrite, *]

@[simp] theorem brgWrite_keeps {r0 : State} (o w : Nat) {s : State} (hK : Keeps r0 s) :
    Keeps r0 (brgWrite o w s) := by simp (maxDischargeDepth := 30) [brgWrite, *]

@[simp] theorem soloWrite_keeps {r0 : State} (r : Requester) (a w : Nat) {s : State} (hK : Keeps r0 s) :
    Keeps r0 (soloWrite r a w s) := by simp (maxDischargeDepth := 30) [soloWrite, *]

@[simp] theorem pairWrite_keeps {r0 : State} (r : Requester) (a v : Nat) {s : State} (hK : Keeps r0 s) :
    Keeps r0 (pairWrite r a v s) := by simp (maxDischargeDepth := 30) [pairWrite, *]

@[simp] theorem regPut_keeps {r0 : State} (r : Requester) (a w : Nat) {s : State} (hK : Keeps r0 s) :
    Keeps r0 (regPut r a w s) := by simp (maxDischargeDepth := 30) [regPut, *]

@[simp] theorem regGet_keeps {r0 : State} (r : Requester) (a : Nat) {s : State} (hK : Keeps r0 s) :
    Keeps r0 (regGet r a s).1 := by simp (maxDischargeDepth := 30) [regGet, *]

end Sys2Proof.Machine
end

