-- ==== Sys2Proof/Laws/KeepsRegs.lean ====
section
/-! SUPPORT. What the operations of Machine/Regs.lean keep (Laws/Keeps.lean). -/

set_option Elab.async false
set_option linter.unusedTactic false
set_option linter.unreachableTactic false

namespace Sys2Proof.Machine

@[simp] theorem regRefused_keeps {r0 : State} (r : Requester) (a : Nat) (write : Bool) {s : State} (hK : Keeps r0 s) :
    Keeps r0 (regRefused r a write s) := by
  unfold regRefused
  (repeat' split) <;> simp (maxDischargeDepth := 30) [*]

@[simp] theorem regStore_keeps {r0 : State} (r : Requester) (a n w : Nat) {s : State} (hK : Keeps r0 s) :
    Keeps r0 (regStore r a n w s) := by
  unfold regStore
  (repeat' split) <;> simp (maxDischargeDepth := 30) [*]

@[simp] theorem regAnswer_keeps {r0 : State} (r : Requester) (bs : List Byte) {s : State} (hK : Keeps r0 s) :
    Keeps r0 (regAnswer r bs s) := by
  unfold regAnswer
  (repeat' split) <;> simp (maxDischargeDepth := 30) [*]

@[simp] theorem slotLoad_keeps {r0 : State} (r : Requester) (f o n : Nat) {s : State} (hK : Keeps r0 s) :
    Keeps r0 (slotLoad r f o n s) := by
  unfold slotLoad
  repeat' (first
    | (simp (maxDischargeDepth := 30) [*]; done)
    | (simp +contextual (maxDischargeDepth := 30) [*]; done)
    | (refine keeps_foldl _ _ _ (fun s a h => ?_) ?_)
    | (refine keeps_foldl_fst _ _ _ (fun s a h => ?_) ?_)
    | (refine keeps_foldl_snd _ _ _ (fun s a h => ?_) ?_)
    | (extract_lets +onlyGivenNames x
       first
         | (have hx : Keeps r0 x := by (first | (simp (maxDischargeDepth := 30) [x, *]; done) | (simp +contextual (maxDischargeDepth := 30) [x, *]; done) | ((try unfold x); (try dsimp only); (repeat' split) <;> simp (maxDischargeDepth := 30) [*]; done))
            clear_value x)
         | (have hx : Keeps r0 x.2 := by (first | (simp (maxDischargeDepth := 30) [x, *]; done) | (simp +contextual (maxDischargeDepth := 30) [x, *]; done) | ((try unfold x); (try dsimp only); (repeat' split) <;> simp (maxDischargeDepth := 30) [*]; done))
            clear_value x)
         | (have hx : Keeps r0 x.1 := by (first | (simp (maxDischargeDepth := 30) [x, *]; done) | (simp +contextual (maxDischargeDepth := 30) [x, *]; done) | ((try unfold x); (try dsimp only); (repeat' split) <;> simp (maxDischargeDepth := 30) [*]; done))
            clear_value x)
         | clear_value x)
    | (split <;> (try (rename_i e
                       first
                         | have k := keeps_of_snd (r := r0) e (by clear e; simp (maxDischargeDepth := 30) [*]; done)
                         | have k := keeps_of_fst (r := r0) e (by clear e; simp (maxDischargeDepth := 30) [*]; done)
                         | have k := keeps_of_opt (r := r0) e (by clear e; simp (maxDischargeDepth := 30) [*]; done)
                         | have k := keeps_of_optFst (r := r0) e (by clear e; simp (maxDischargeDepth := 30) [*]; done)))))

@[simp] theorem regLoad_keeps {r0 : State} (r : Requester) (a n : Nat) {s : State} (hK : Keeps r0 s) :
    Keeps r0 (regLoad r a n s) := by
  unfold regLoad
  (repeat' split) <;> simp (maxDischargeDepth := 30) [*]

@[simp] theorem execRegisterWrite_keeps {r0 : State} (r : Requester) (addr nbytes : Nat) (v : Word) {s : State} (hK : Keeps r0 s) :
    KeepsRes r0 (execRegisterWrite r addr nbytes v s) := by simp (maxDischargeDepth := 30) [execRegisterWrite, *]

@[simp] theorem execReg64LowRead_keeps {r0 : State} (r : Requester) (addr nbytes : Nat) {s : State} (hK : Keeps r0 s) :
    KeepsRes r0 (execReg64LowRead r addr nbytes s) := by simp (maxDischargeDepth := 30) [execReg64LowRead, *]

@[simp] theorem execReg64LowWrite_keeps {r0 : State} (r : Requester) (addr nbytes : Nat) (v : Word) {s : State} (hK : Keeps r0 s) :
    KeepsRes r0 (execReg64LowWrite r addr nbytes v s) := by simp (maxDischargeDepth := 30) [execReg64LowWrite, *]

@[simp] theorem execReg64HighWrite_keeps {r0 : State} (r : Requester) (addr nbytes : Nat) (v : Word) {s : State} (hK : Keeps r0 s) :
    KeepsRes r0 (execReg64HighWrite r addr nbytes v s) := by simp (maxDischargeDepth := 30) [execReg64HighWrite, *]

@[simp] theorem execOverseerDpaAccess_keeps {r0 : State} (r : Requester) (store : Bool) (dpa len : Nat) (data : List Byte) {s : State} (hK : Keeps r0 s) :
    KeepsRes r0 (execOverseerDpaAccess r store dpa len data s) := by
  unfold execOverseerDpaAccess
  (repeat' split) <;> simp (maxDischargeDepth := 30) [*]

@[simp] theorem execFieldRegisterAccess_keeps {r0 : State} (a src addr : Nat) (store : Bool) (v : Dword) {s : State} (hK : Keeps r0 s) :
    KeepsRes r0 (execFieldRegisterAccess a src addr store v s) := by simp (maxDischargeDepth := 30) [execFieldRegisterAccess, *]

end Sys2Proof.Machine
end

