-- ==== Sys2Proof/Laws/Mill.lean ====
section
/-! SUPPORT. Laws of the Mill's lane registers. -/

set_option Elab.async false

namespace Sys2Proof.Machine

/-- The lane registers are read through their table alone. -/
theorem freg_congr {x y : Eng} (h : x.fregs = y.fregs) (i : Nat) : freg x i = freg y i := by
  unfold freg; rw [h]

theorem freg_put_same (x : Eng) (i : Nat) (v : List Word) (h : x.fregs = Tbl.put y i v) : freg x i = v := by
  unfold freg; rw [h, Tbl.look_put_same]

theorem freg_put_other (x z : Eng) {i k : Nat} (v : List Word) (h : x.fregs = Tbl.put z.fregs i v) (hk : k ≠ i) :
    freg x k = freg z k := by
  unfold freg; rw [h, Tbl.look_put_other _ _ _ hk]

end Sys2Proof.Machine
end

