-- ==== Sys2Proof/Laws/PerInstr.lean ====
section
/-! SUPPORT. What holds of each command as syntax: the opcode table gives its row no bits, so no word spells it
(log entry 1). -/

set_option Elab.async false

namespace Sys2Proof.Laws.NoWord

/-- No word of any length spells the command. -/
def Statement (i : Instr) : Prop := ∀ nbits w, decodeTableWord nbits w ≠ some i

/-- No word spells any command. -/
theorem of_any (i : Instr) : Statement i := fun _ _ h => by cases h

theorem registerWrite x0 x1 x2 x3 : Statement (.registerWrite x0 x1 x2 x3) := of_any _
theorem reg64LowRead x0 x1 x2 : Statement (.reg64LowRead x0 x1 x2) := of_any _
theorem reg64LowWrite x0 x1 x2 x3 : Statement (.reg64LowWrite x0 x1 x2 x3) := of_any _
theorem reg64HighWrite x0 x1 x2 x3 : Statement (.reg64HighWrite x0 x1 x2 x3) := of_any _
theorem busyWindow x0 x1 x2 : Statement (.busyWindow x0 x1 x2) := of_any _
theorem tokAcq x0 x1 x2 : Statement (.tokAcq x0 x1 x2) := of_any _
theorem tokRel x0 x1 : Statement (.tokRel x0 x1) := of_any _
theorem tokStat x0 x1 x2 : Statement (.tokStat x0 x1 x2) := of_any _
theorem tokenRevoke x0 : Statement (.tokenRevoke x0) := of_any _
theorem bar2Read x0 x1 x2 : Statement (.bar2Read x0 x1 x2) := of_any _
theorem bar2Write x0 x1 x2 x3 x4 : Statement (.bar2Write x0 x1 x2 x3 x4) := of_any _
theorem atomicopRequest x0 x1 : Statement (.atomicopRequest x0 x1) := of_any _
theorem seamGrant x0 : Statement (.seamGrant x0) := of_any _
theorem seamGuardExpiry x0 x1 : Statement (.seamGuardExpiry x0 x1) := of_any _
theorem eccWriteback x0 x1 x2 : Statement (.eccWriteback x0 x1 x2) := of_any _
theorem cutPush x0 x1 x2 x3 : Statement (.cutPush x0 x1 x2 x3) := of_any _
theorem cutHeadCheck x0 x1 : Statement (.cutHeadCheck x0 x1) := of_any _
theorem cutIssue x0 x1 : Statement (.cutIssue x0 x1) := of_any _
theorem cutRetry x0 x1 : Statement (.cutRetry x0 x1) := of_any _
theorem faceStoreUe x0 x1 : Statement (.faceStoreUe x0 x1) := of_any _
theorem tblParityError x0 x1 x2 : Statement (.tblParityError x0 x1 x2) := of_any _
theorem cutVerdict x0 x1 : Statement (.cutVerdict x0 x1) := of_any _
theorem cutDrainTile x0 x1 : Statement (.cutDrainTile x0 x1) := of_any _
theorem cutComplete x0 x1 : Statement (.cutComplete x0 x1) := of_any _
theorem tblLoad x0 x1 x2 x3 : Statement (.tblLoad x0 x1 x2 x3) := of_any _
theorem tblLoadDone x0 x1 x2 : Statement (.tblLoadDone x0 x1 x2) := of_any _
theorem blkRel x0 x1 x2 : Statement (.blkRel x0 x1 x2) := of_any _
theorem drsLaunch x0 x1 x2 : Statement (.drsLaunch x0 x1 x2) := of_any _
theorem routineStart x0 : Statement (.routineStart x0) := of_any _
theorem routineComplete x0 : Statement (.routineComplete x0) := of_any _
theorem drsLdt x0 x1 : Statement (.drsLdt x0 x1) := of_any _
theorem drsStt x0 x1 : Statement (.drsStt x0 x1) := of_any _
theorem drsLdf x0 x1 x2 : Statement (.drsLdf x0 x1 x2) := of_any _
theorem drsStf x0 x1 : Statement (.drsStf x0 x1) := of_any _
theorem drsLdmx x0 x1 x2 : Statement (.drsLdmx x0 x1 x2) := of_any _
theorem drsStmx x0 x1 : Statement (.drsStmx x0 x1) := of_any _
theorem drsSqpop x0 x1 x2 : Statement (.drsSqpop x0 x1 x2) := of_any _
theorem sqpopTimeout x0 : Statement (.sqpopTimeout x0) := of_any _
theorem drsLds x0 x1 : Statement (.drsLds x0 x1) := of_any _
theorem drsMov x0 x1 : Statement (.drsMov x0 x1) := of_any _
theorem drsAdd x0 x1 x2 : Statement (.drsAdd x0 x1 x2) := of_any _
theorem drsSub x0 x1 x2 : Statement (.drsSub x0 x1 x2) := of_any _
theorem drsMul x0 x1 x2 : Statement (.drsMul x0 x1 x2) := of_any _
theorem drsMad x0 x1 x2 : Statement (.drsMad x0 x1 x2) := of_any _
theorem drsMax x0 x1 x2 : Statement (.drsMax x0 x1 x2) := of_any _
theorem drsMin x0 x1 x2 : Statement (.drsMin x0 x1 x2) := of_any _
theorem drsCmp x0 x1 x2 : Statement (.drsCmp x0 x1 x2) := of_any _
theorem drsSel x0 x1 x2 : Statement (.drsSel x0 x1 x2) := of_any _
theorem drsShl x0 x1 x2 : Statement (.drsShl x0 x1 x2) := of_any _
theorem drsShr x0 x1 x2 : Statement (.drsShr x0 x1 x2) := of_any _
theorem drsAnd x0 x1 x2 : Statement (.drsAnd x0 x1 x2) := of_any _
theorem drsOr x0 x1 x2 : Statement (.drsOr x0 x1 x2) := of_any _
theorem drsXor x0 x1 x2 : Statement (.drsXor x0 x1 x2) := of_any _
theorem drsAlgn x0 x1 x2 : Statement (.drsAlgn x0 x1 x2) := of_any _
theorem drsEadd x0 x1 x2 : Statement (.drsEadd x0 x1 x2) := of_any _
theorem drsNorm x0 x1 x2 : Statement (.drsNorm x0 x1 x2) := of_any _
theorem drsTrn x0 x1 x2 : Statement (.drsTrn x0 x1 x2) := of_any _
theorem drsRmax x0 x1 x2 : Statement (.drsRmax x0 x1 x2) := of_any _
theorem drsRsum x0 x1 x2 : Statement (.drsRsum x0 x1 x2) := of_any _
theorem drsFn x0 x1 x2 : Statement (.drsFn x0 x1 x2) := of_any _
theorem drsEnd x0 x1 : Statement (.drsEnd x0 x1) := of_any _
theorem sqDrop x0 x1 x2 : Statement (.sqDrop x0 x1 x2) := of_any _
theorem cplGet x0 x1 : Statement (.cplGet x0 x1) := of_any _
theorem cplWait x0 x1 x2 : Statement (.cplWait x0 x1 x2) := of_any _
theorem cplWaitTimeout x0 : Statement (.cplWaitTimeout x0) := of_any _
theorem xfer x0 x1 x2 : Statement (.xfer x0 x1 x2) := of_any _
theorem xferStart x0 : Statement (.xferStart x0) := of_any _
theorem xferBlockDone x0 x1 : Statement (.xferBlockDone x0 x1) := of_any _
theorem xferComplete x0 x1 : Statement (.xferComplete x0 x1) := of_any _
theorem notice x0 x1 x2 x3 : Statement (.notice x0 x1 x2 x3) := of_any _
theorem hbeat x0 x1 : Statement (.hbeat x0 x1) := of_any _
theorem heartbeatExpired x0 : Statement (.heartbeatExpired x0) := of_any _
theorem arrSend x0 x1 x2 : Statement (.arrSend x0 x1 x2) := of_any _
theorem arrRead x0 x1 x2 : Statement (.arrRead x0 x1 x2) := of_any _
theorem arrWait x0 x1 x2 x3 : Statement (.arrWait x0 x1 x2 x3) := of_any _
theorem arrWaitTimeout x0 : Statement (.arrWaitTimeout x0) := of_any _
theorem arrClr x0 x1 : Statement (.arrClr x0 x1) := of_any _
theorem arrPoison x0 x1 x2 : Statement (.arrPoison x0 x1 x2) := of_any _
theorem arrSendTimeout x0 x1 : Statement (.arrSendTimeout x0 x1) := of_any _
theorem arrivalApply x0 : Statement (.arrivalApply x0) := of_any _
theorem arrCountWrite x0 x1 x2 x3 : Statement (.arrCountWrite x0 x1 x2 x3) := of_any _
theorem sendTablePoison x0 : Statement (.sendTablePoison x0) := of_any _
theorem crewStat x0 x1 : Statement (.crewStat x0 x1) := of_any _
theorem tlyLoad x0 x1 : Statement (.tlyLoad x0 x1) := of_any _
theorem imageLoaded x0 : Statement (.imageLoaded x0) := of_any _
theorem tlyStart x0 x1 : Statement (.tlyStart x0 x1) := of_any _
theorem tlyStop x0 x1 : Statement (.tlyStop x0 x1) := of_any _
theorem tlyEcall x0 : Statement (.tlyEcall x0) := of_any _
theorem tlyTrap x0 x1 x2 : Statement (.tlyTrap x0 x1 x2) := of_any _
theorem buddyTakeover x0 : Statement (.buddyTakeover x0) := of_any _
theorem crewMapWrite x0 x1 x2 : Statement (.crewMapWrite x0 x1 x2) := of_any _
theorem faceLaunchEnqueue x0 x1 x2 : Statement (.faceLaunchEnqueue x0 x1 x2) := of_any _
theorem faceFetch x0 : Statement (.faceFetch x0) := of_any _
theorem faceFetchDone x0 : Statement (.faceFetchDone x0) := of_any _
theorem faceSld x0 x1 : Statement (.faceSld x0 x1) := of_any _
theorem faceSst x0 x1 : Statement (.faceSst x0 x1) := of_any _
theorem faceSnw x0 x1 : Statement (.faceSnw x0 x1) := of_any _
theorem strokeEnd x0 : Statement (.strokeEnd x0) := of_any _
theorem mergeDone x0 x1 : Statement (.mergeDone x0 x1) := of_any _
theorem faceLdr x0 x1 x2 : Statement (.faceLdr x0 x1 x2) := of_any _
theorem faceStr x0 x1 : Statement (.faceStr x0 x1) := of_any _
theorem faceLdb x0 x1 x2 : Statement (.faceLdb x0 x1 x2) := of_any _
theorem faceAdd x0 x1 x2 : Statement (.faceAdd x0 x1 x2) := of_any _
theorem faceSub x0 x1 x2 : Statement (.faceSub x0 x1 x2) := of_any _
theorem faceMul x0 x1 x2 : Statement (.faceMul x0 x1 x2) := of_any _
theorem faceMad x0 x1 x2 : Statement (.faceMad x0 x1 x2) := of_any _
theorem faceMax x0 x1 x2 : Statement (.faceMax x0 x1 x2) := of_any _
theorem faceMin x0 x1 x2 : Statement (.faceMin x0 x1 x2) := of_any _
theorem faceIns x0 x1 x2 : Statement (.faceIns x0 x1 x2) := of_any _
theorem faceEadd x0 x1 x2 : Statement (.faceEadd x0 x1 x2) := of_any _
theorem faceNorm x0 x1 x2 : Statement (.faceNorm x0 x1 x2) := of_any _
theorem faceRmax x0 x1 x2 : Statement (.faceRmax x0 x1 x2) := of_any _
theorem faceRsum x0 x1 x2 : Statement (.faceRsum x0 x1 x2) := of_any _
theorem faceDot x0 x1 x2 : Statement (.faceDot x0 x1 x2) := of_any _
theorem faceFn x0 x1 x2 : Statement (.faceFn x0 x1 x2) := of_any _
theorem faceXadd x0 x1 : Statement (.faceXadd x0 x1) := of_any _
theorem faceLoop x0 x1 : Statement (.faceLoop x0 x1) := of_any _
theorem faceEnd x0 x1 : Statement (.faceEnd x0 x1) := of_any _
theorem faceProgramComplete x0 : Statement (.faceProgramComplete x0) := of_any _
theorem faceTimeLimit x0 : Statement (.faceTimeLimit x0) := of_any _
theorem slotOpen x0 x1 : Statement (.slotOpen x0 x1) := of_any _
theorem slotClose x0 x1 : Statement (.slotClose x0 x1) := of_any _
theorem veinPin x0 x1 : Statement (.veinPin x0 x1) := of_any _
theorem veinUnpin x0 x1 : Statement (.veinUnpin x0 x1) := of_any _
theorem slotTail x0 x1 : Statement (.slotTail x0 x1) := of_any _
theorem veinHash x0 x1 : Statement (.veinHash x0 x1) := of_any _
theorem veinLookup x0 x1 : Statement (.veinLookup x0 x1) := of_any _
theorem veinInsert x0 x1 : Statement (.veinInsert x0 x1) := of_any _
theorem veinRemove x0 x1 : Statement (.veinRemove x0 x1) := of_any _
theorem pageAlloc x0 x1 : Statement (.pageAlloc x0 x1) := of_any _
theorem pageRef x0 x1 : Statement (.pageRef x0 x1) := of_any _
theorem pageUnref x0 x1 : Statement (.pageUnref x0 x1) := of_any _
theorem mapSwap x0 x1 : Statement (.mapSwap x0 x1) := of_any _
theorem veinMigrate x0 x1 : Statement (.veinMigrate x0 x1) := of_any _
theorem migrateBucket : Statement .migrateBucket := of_any _
theorem limboReclaim x0 : Statement (.limboReclaim x0) := of_any _
theorem limboFullTimeout x0 : Statement (.limboFullTimeout x0) := of_any _
theorem shardUpdate x0 x1 x2 : Statement (.shardUpdate x0 x1 x2) := of_any _
theorem shardResume x0 x1 x2 : Statement (.shardResume x0 x1 x2) := of_any _
theorem shardStart x0 : Statement (.shardStart x0) := of_any _
theorem blockClassify x0 : Statement (.blockClassify x0) := of_any _
theorem gradientWrite x0 x1 x2 : Statement (.gradientWrite x0 x1 x2) := of_any _
theorem landingAdmit x0 : Statement (.landingAdmit x0) := of_any _
theorem blockCompute x0 : Statement (.blockCompute x0) := of_any _
theorem blockWritebackDone x0 : Statement (.blockWritebackDone x0) := of_any _
theorem millAdd x0 x1 x2 : Statement (.millAdd x0 x1 x2) := of_any _
theorem millSub x0 x1 x2 : Statement (.millSub x0 x1 x2) := of_any _
theorem millMul x0 x1 x2 : Statement (.millMul x0 x1 x2) := of_any _
theorem millFma x0 x1 x2 : Statement (.millFma x0 x1 x2) := of_any _
theorem millMin x0 x1 x2 : Statement (.millMin x0 x1 x2) := of_any _
theorem millMax x0 x1 x2 : Statement (.millMax x0 x1 x2) := of_any _
theorem millCmp x0 x1 x2 : Statement (.millCmp x0 x1 x2) := of_any _
theorem millSel x0 x1 x2 : Statement (.millSel x0 x1 x2) := of_any _
theorem millRsqrt x0 x1 x2 : Statement (.millRsqrt x0 x1 x2) := of_any _
theorem millRecip x0 x1 x2 : Statement (.millRecip x0 x1 x2) := of_any _
theorem millMend x0 x1 : Statement (.millMend x0 x1) := of_any _
theorem millQmx x0 x1 x2 : Statement (.millQmx x0 x1 x2) := of_any _
theorem millEnd x0 x1 : Statement (.millEnd x0 x1) := of_any _
theorem millStall x0 : Statement (.millStall x0) := of_any _
theorem shardComplete x0 : Statement (.shardComplete x0) := of_any _
theorem millDisarm x0 x1 : Statement (.millDisarm x0 x1) := of_any _
theorem flitReceive x0 x1 x2 : Statement (.flitReceive x0 x1 x2) := of_any _
theorem flitSlot x0 : Statement (.flitSlot x0) := of_any _
theorem replayTimeout x0 : Statement (.replayTimeout x0) := of_any _
theorem msgWrite x0 x1 : Statement (.msgWrite x0 x1) := of_any _
theorem msgRead x0 x1 : Statement (.msgRead x0 x1) := of_any _
theorem msgArrive x0 x1 : Statement (.msgArrive x0 x1) := of_any _
theorem msgPoison x0 x1 : Statement (.msgPoison x0 x1) := of_any _
theorem msgReadData x0 x1 : Statement (.msgReadData x0 x1) := of_any _
theorem msgWriteAck x0 x1 : Statement (.msgWriteAck x0 x1) := of_any _
theorem msgArriveAck x0 x1 : Statement (.msgArriveAck x0 x1) := of_any _
theorem capsFlit x0 x1 : Statement (.capsFlit x0 x1) := of_any _
theorem capsResendTimer x0 : Statement (.capsResendTimer x0) := of_any _
theorem capsTimeout x0 : Statement (.capsTimeout x0) := of_any _
theorem qualReq x0 : Statement (.qualReq x0) := of_any _
theorem qualReqTimer x0 : Statement (.qualReqTimer x0) := of_any _
theorem qualResult x0 x1 : Statement (.qualResult x0 x1) := of_any _
theorem qualifyDone x0 x1 : Statement (.qualifyDone x0 x1) := of_any _
theorem qualifyTimeout x0 : Statement (.qualifyTimeout x0) := of_any _
theorem retrainReq x0 : Statement (.retrainReq x0) := of_any _
theorem linkStop x0 : Statement (.linkStop x0) := of_any _
theorem trainDone x0 x1 x2 : Statement (.trainDone x0 x1 x2) := of_any _
theorem trainTimeout x0 x1 : Statement (.trainTimeout x0 x1) := of_any _
theorem linkFaultTrip x0 x1 : Statement (.linkFaultTrip x0 x1) := of_any _
theorem fastRetrainDone x0 x1 x2 : Statement (.fastRetrainDone x0 x1 x2) := of_any _
theorem signalDetect x0 : Statement (.signalDetect x0) := of_any _
theorem adtRetrain x0 x1 : Statement (.adtRetrain x0 x1) := of_any _
theorem adtReset x0 x1 : Statement (.adtReset x0 x1) := of_any _
theorem spareTakeover : Statement .spareTakeover := of_any _
theorem aditRefclkLoss x0 : Statement (.aditRefclkLoss x0) := of_any _
theorem aditRefclkReturn x0 : Statement (.aditRefclkReturn x0) := of_any _
theorem routeFlit x0 x1 : Statement (.routeFlit x0 x1) := of_any _
theorem ordWaitExpiry x0 : Statement (.ordWaitExpiry x0) := of_any _
theorem linkmapMsg x0 x1 x2 x3 : Statement (.linkmapMsg x0 x1 x2 x3) := of_any _
theorem linkmapTimer : Statement .linkmapTimer := of_any _
theorem linkmapStale x0 : Statement (.linkmapStale x0) := of_any _
theorem joinMsg x0 x1 : Statement (.joinMsg x0 x1) := of_any _
theorem leaveMsg x0 x1 : Statement (.leaveMsg x0 x1) := of_any _
theorem snapshotMsg x0 x1 : Statement (.snapshotMsg x0 x1) := of_any _
theorem joinSettle : Statement .joinSettle := of_any _
theorem fldIdWrite x0 x1 : Statement (.fldIdWrite x0 x1) := of_any _
theorem memberLeave x0 x1 : Statement (.memberLeave x0 x1) := of_any _
theorem memberRejoin x0 x1 : Statement (.memberRejoin x0 x1) := of_any _
theorem timeFlit x0 x1 x2 : Statement (.timeFlit x0 x1 x2) := of_any _
theorem timeFlitTimer x0 : Statement (.timeFlitTimer x0) := of_any _
theorem timeLocked : Statement .timeLocked := of_any _
theorem parentTimeout : Statement .parentTimeout := of_any _
theorem gmAdvertStale x0 : Statement (.gmAdvertStale x0) := of_any _
theorem ppsInEdge : Statement .ppsInEdge := of_any _
theorem ppsOutEdge : Statement .ppsOutEdge := of_any _
theorem perstDeassert : Statement .perstDeassert := of_any _
theorem pcieLinkUp x0 x1 x2 : Statement (.pcieLinkUp x0 x1 x2) := of_any _
theorem pciePartitionReset x0 : Statement (.pciePartitionReset x0) := of_any _
theorem vfFlr x0 : Statement (.vfFlr x0) := of_any _
theorem busMasterEnable x0 x1 x2 : Statement (.busMasterEnable x0 x1 x2) := of_any _
theorem resizableBarWrite x0 : Statement (.resizableBarWrite x0) := of_any _
theorem slotWrite x0 x1 x2 : Statement (.slotWrite x0 x1 x2) := of_any _
theorem slotPickup : Statement .slotPickup := of_any _
theorem reqNop x0 : Statement (.reqNop x0) := of_any _
theorem reqCopy x0 : Statement (.reqCopy x0) := of_any _
theorem copyReadTimeout x0 : Statement (.copyReadTimeout x0) := of_any _
theorem reqCrewLoad x0 : Statement (.reqCrewLoad x0) := of_any _
theorem reqFaceLaunch x0 : Statement (.reqFaceLaunch x0) := of_any _
theorem reqMillShard x0 : Statement (.reqMillShard x0) := of_any _
theorem reqVein x0 : Statement (.reqVein x0) := of_any _
theorem cqEnable x0 x1 x2 : Statement (.cqEnable x0 x1 x2) := of_any _
theorem cqModTimer x0 : Statement (.cqModTimer x0) := of_any _
theorem doeRequest x0 x1 : Statement (.doeRequest x0 x1) := of_any _
theorem doeAbort : Statement .doeAbort := of_any _
theorem eccLeak : Statement .eccLeak := of_any _
theorem scrubRead x0 x1 : Statement (.scrubRead x0 x1) := of_any _
theorem seamInjArm x0 x1 x2 : Statement (.seamInjArm x0 x1 x2) := of_any _
theorem shaftResend x0 x1 x2 x3 x4 x5 : Statement (.shaftResend x0 x1 x2 x3 x4 x5) := of_any _
theorem chkLine x0 x1 x2 x3 : Statement (.chkLine x0 x1 x2 x3) := of_any _
theorem chkCtrlWrite x0 x1 x2 : Statement (.chkCtrlWrite x0 x1 x2) := of_any _
theorem traceRecord : Statement .traceRecord := of_any _
theorem clockLoss x0 x1 : Statement (.clockLoss x0 x1) := of_any _
theorem cpmMeasure x0 : Statement (.cpmMeasure x0) := of_any _
theorem ageingReduction x0 x1 : Statement (.ageingReduction x0 x1) := of_any _
theorem surveyWrite : Statement .surveyWrite := of_any _
theorem vfTargetWrite x0 x1 x2 : Statement (.vfTargetWrite x0 x1 x2) := of_any _
theorem vfRaise x0 : Statement (.vfRaise x0) := of_any _
theorem vfLower x0 : Statement (.vfLower x0) := of_any _
theorem vfSlewDone x0 : Statement (.vfSlewDone x0) := of_any _
theorem droopTrip x0 x1 : Statement (.droopTrip x0 x1) := of_any _
theorem droopRecover x0 x1 : Statement (.droopRecover x0 x1) := of_any _
theorem rampLimitTrip x0 x1 : Statement (.rampLimitTrip x0 x1) := of_any _
theorem droopRearm x0 x1 : Statement (.droopRearm x0 x1) := of_any _
theorem regFault x0 x1 x2 : Statement (.regFault x0 x1 x2) := of_any _
theorem demandFrame : Statement .demandFrame := of_any _
theorem ledgerEvaluate x0 : Statement (.ledgerEvaluate x0) := of_any _
theorem ledgerOver : Statement .ledgerOver := of_any _
theorem ledgerClampRelease : Statement .ledgerClampRelease := of_any _
theorem galParkWrite x0 x1 x2 : Statement (.galParkWrite x0 x1 x2) := of_any _
theorem parkRampStep x0 : Statement (.parkRampStep x0) := of_any _
theorem unparkRampStep x0 : Statement (.unparkRampStep x0) := of_any _
theorem railWarning x0 x1 : Statement (.railWarning x0 x1) := of_any _
theorem railWarningClear x0 : Statement (.railWarningClear x0) := of_any _
theorem sagClampLift : Statement .sagClampLift := of_any _
theorem pwrSagReset x0 x1 : Statement (.pwrSagReset x0 x1) := of_any _
theorem canaryConvert x0 x1 : Statement (.canaryConvert x0 x1) := of_any _
theorem modelEvaluate : Statement (.modelEvaluate) := of_any _
theorem thermalClampRise x0 : Statement (.thermalClampRise x0) := of_any _
theorem hardTrip x0 x1 : Statement (.hardTrip x0 x1) := of_any _
theorem coolantSample x0 x1 x2 : Statement (.coolantSample x0 x1 x2) := of_any _
theorem flowPulse : Statement .flowPulse := of_any _
theorem flowWindowUpdate : Statement .flowWindowUpdate := of_any _
theorem dpCollapse : Statement .dpCollapse := of_any _
theorem flowOkLow : Statement .flowOkLow := of_any _
theorem flowLevel x0 : Statement (.flowLevel x0) := of_any _
theorem coolantUnparkTick : Statement .coolantUnparkTick := of_any _
theorem valveLoop : Statement .valveLoop := of_any _
theorem thmRestart x0 : Statement (.thmRestart x0) := of_any _
theorem pldmRequest x0 : Statement (.pldmRequest x0) := of_any _
theorem inletReportTimeout : Statement .inletReportTimeout := of_any _
theorem powerOn : Statement .powerOn := of_any _
theorem brgCharter x0 : Statement (.brgCharter x0) := of_any _
theorem brgFuses : Statement .brgFuses := of_any _
theorem assayB x0 : Statement (.assayB x0) := of_any _
theorem assayS x0 : Statement (.assayS x0) := of_any _
theorem assayD x0 x1 : Statement (.assayD x0 x1) := of_any _
theorem assayC x0 : Statement (.assayC x0) := of_any _
theorem brgGrade x0 : Statement (.brgGrade x0) := of_any _
theorem brgStockpile x0 : Statement (.brgStockpile x0) := of_any _
theorem brgBroadcast x0 : Statement (.brgBroadcast x0) := of_any _
theorem brgAditTrain : Statement .brgAditTrain := of_any _
theorem brgAditQualify : Statement .brgAditQualify := of_any _
theorem brgReady : Statement .brgReady := of_any _
theorem brgStepEnd : Statement .brgStepEnd := of_any _
theorem stepTimeout : Statement .stepTimeout := of_any _
theorem surveyDiscard x0 : Statement (.surveyDiscard x0) := of_any _
theorem warmReset x0 x1 : Statement (.warmReset x0 x1) := of_any _
theorem foremanReset x0 : Statement (.foremanReset x0) := of_any _
theorem foremanResume : Statement .foremanResume := of_any _
theorem stockpileCtrlReset : Statement .stockpileCtrlReset := of_any _
theorem stockpileCtrlResetEnd : Statement .stockpileCtrlResetEnd := of_any _
theorem secBegin x0 x1 x2 : Statement (.secBegin x0 x1 x2) := of_any _
theorem secPush x0 x1 : Statement (.secPush x0 x1) := of_any _
theorem secEnd x0 : Statement (.secEnd x0) := of_any _
theorem secAbort x0 : Statement (.secAbort x0) := of_any _
theorem secRevert x0 : Statement (.secRevert x0) := of_any _
theorem secFactory : Statement .secFactory := of_any _
theorem pldmFwUpdate x0 : Statement (.pldmFwUpdate x0) := of_any _
theorem reserveCopyDone x0 : Statement (.reserveCopyDone x0) := of_any _
theorem secConfirm x0 x1 x2 : Statement (.secConfirm x0 x1 x2) := of_any _
theorem confirmTimer x0 : Statement (.confirmTimer x0) := of_any _
theorem confirmWindowExpiry x0 : Statement (.confirmWindowExpiry x0) := of_any _
theorem revertReset : Statement .revertReset := of_any _
theorem aliasKeysReady : Statement .aliasKeysReady := of_any _
theorem spdmGetVersion x0 : Statement (.spdmGetVersion x0) := of_any _
theorem spdmGetCapabilities x0 : Statement (.spdmGetCapabilities x0) := of_any _
theorem spdmNegotiateAlgorithms x0 : Statement (.spdmNegotiateAlgorithms x0) := of_any _
theorem spdmGetDigests x0 : Statement (.spdmGetDigests x0) := of_any _
theorem spdmGetCertificate x0 x1 x2 x3 : Statement (.spdmGetCertificate x0 x1 x2 x3) := of_any _
theorem spdmChallenge x0 x1 x2 : Statement (.spdmChallenge x0 x1 x2) := of_any _
theorem spdmGetMeasurements x0 x1 x2 x3 : Statement (.spdmGetMeasurements x0 x1 x2 x3) := of_any _
theorem spdmKeyExchange x0 x1 : Statement (.spdmKeyExchange x0 x1) := of_any _
theorem spdmFinish x0 x1 : Statement (.spdmFinish x0 x1) := of_any _
theorem spdmEndSession x0 x1 : Statement (.spdmEndSession x0 x1) := of_any _
theorem spdmHeartbeat x0 x1 : Statement (.spdmHeartbeat x0 x1) := of_any _
theorem spdmKeyUpdate x0 x1 x2 : Statement (.spdmKeyUpdate x0 x1 x2) := of_any _
theorem spdmChunkSend x0 x1 x2 x3 x4 : Statement (.spdmChunkSend x0 x1 x2 x3 x4) := of_any _
theorem spdmChunkGet x0 x1 x2 : Statement (.spdmChunkGet x0 x1 x2) := of_any _
theorem tallyDpaAccess x0 x1 x2 x3 x4 : Statement (.tallyDpaAccess x0 x1 x2 x3 x4) := of_any _
theorem overseerDpaAccess x0 x1 x2 x3 x4 : Statement (.overseerDpaAccess x0 x1 x2 x3 x4) := of_any _
theorem fieldRegisterAccess x0 x1 x2 x3 x4 : Statement (.fieldRegisterAccess x0 x1 x2 x3 x4) := of_any _
theorem dmaReadCompletion x0 x1 x2 : Statement (.dmaReadCompletion x0 x1 x2) := of_any _
theorem pclkReturn : Statement .pclkReturn := of_any _
theorem vfEnableWrite x0 x1 : Statement (.vfEnableWrite x0 x1) := of_any _
theorem overseerLoadDone x0 x1 : Statement (.overseerLoadDone x0 x1) := of_any _
theorem updateChunkDone : Statement .updateChunkDone := of_any _

end Sys2Proof.Laws.NoWord
end

