-- ==== Sys2Proof/Laws/UnitFields.lean ====
section
/-! SUPPORT. What the shared operations leave: one lemma for each field, and the galleries a fence or a clamp touches. -/

set_option Elab.async false

namespace Sys2Proof.Machine


/-! Logging leaves every other field. -/

@[simp] theorem logEvent_pending (b i c : Nat) (d : List (Nat × Nat × Nat)) (s : State) :
    (logEvent b i c d s).pending = s.pending := by
  obtain ⟨_, _, _, h⟩ := logEvent_frame b i c d s; rw [h]

@[simp] theorem logEvent_now (b i c : Nat) (d : List (Nat × Nat × Nat)) (s : State) :
    (logEvent b i c d s).now = s.now := by
  obtain ⟨_, _, _, h⟩ := logEvent_frame b i c d s; rw [h]

@[simp] theorem logEvent_free (b i c : Nat) (d : List (Nat × Nat × Nat)) (s : State) :
    (logEvent b i c d s).free = s.free := by
  obtain ⟨_, _, _, h⟩ := logEvent_frame b i c d s; rw [h]

@[simp] theorem logEvent_tclk (b i c : Nat) (d : List (Nat × Nat × Nat)) (s : State) :
    (logEvent b i c d s).tclk = s.tclk := by
  obtain ⟨_, _, _, h⟩ := logEvent_frame b i c d s; rw [h]

@[simp] theorem logEvent_latches (b i c : Nat) (d : List (Nat × Nat × Nat)) (s : State) :
    (logEvent b i c d s).latches = s.latches := by
  obtain ⟨_, _, _, h⟩ := logEvent_frame b i c d s; rw [h]

@[simp] theorem logEvent_pendLow (b i c : Nat) (d : List (Nat × Nat × Nat)) (s : State) :
    (logEvent b i c d s).pendLow = s.pendLow := by
  obtain ⟨_, _, _, h⟩ := logEvent_frame b i c d s; rw [h]

@[simp] theorem logEvent_fuses (b i c : Nat) (d : List (Nat × Nat × Nat)) (s : State) :
    (logEvent b i c d s).fuses = s.fuses := by
  obtain ⟨_, _, _, h⟩ := logEvent_frame b i c d s; rw [h]

@[simp] theorem logEvent_chr (b i c : Nat) (d : List (Nat × Nat × Nat)) (s : State) :
    (logEvent b i c d s).chr = s.chr := by
  obtain ⟨_, _, _, h⟩ := logEvent_frame b i c d s; rw [h]

@[simp] theorem logEvent_committed (b i c : Nat) (d : List (Nat × Nat × Nat)) (s : State) :
    (logEvent b i c d s).committed = s.committed := by
  obtain ⟨_, _, _, h⟩ := logEvent_frame b i c d s; rw [h]

@[simp] theorem logEvent_glb (b i c : Nat) (d : List (Nat × Nat × Nat)) (s : State) :
    (logEvent b i c d s).glb = s.glb := by
  obtain ⟨_, _, _, h⟩ := logEvent_frame b i c d s; rw [h]

@[simp] theorem logEvent_pwr (b i c : Nat) (d : List (Nat × Nat × Nat)) (s : State) :
    (logEvent b i c d s).pwr = s.pwr := by
  obtain ⟨_, _, _, h⟩ := logEvent_frame b i c d s; rw [h]

@[simp] theorem logEvent_clk (b i c : Nat) (d : List (Nat × Nat × Nat)) (s : State) :
    (logEvent b i c d s).clk = s.clk := by
  obtain ⟨_, _, _, h⟩ := logEvent_frame b i c d s; rw [h]

@[simp] theorem logEvent_thm (b i c : Nat) (d : List (Nat × Nat × Nat)) (s : State) :
    (logEvent b i c d s).thm = s.thm := by
  obtain ⟨_, _, _, h⟩ := logEvent_frame b i c d s; rw [h]

@[simp] theorem logEvent_cans (b i c : Nat) (d : List (Nat × Nat × Nat)) (s : State) :
    (logEvent b i c d s).cans = s.cans := by
  obtain ⟨_, _, _, h⟩ := logEvent_frame b i c d s; rw [h]

@[simp] theorem logEvent_pairs (b i c : Nat) (d : List (Nat × Nat × Nat)) (s : State) :
    (logEvent b i c d s).pairs = s.pairs := by
  obtain ⟨_, _, _, h⟩ := logEvent_frame b i c d s; rw [h]

@[simp] theorem logEvent_gals (b i c : Nat) (d : List (Nat × Nat × Nat)) (s : State) :
    (logEvent b i c d s).gals = s.gals := by
  obtain ⟨_, _, _, h⟩ := logEvent_frame b i c d s; rw [h]

@[simp] theorem logEvent_cores (b i c : Nat) (d : List (Nat × Nat × Nat)) (s : State) :
    (logEvent b i c d s).cores = s.cores := by
  obtain ⟨_, _, _, h⟩ := logEvent_frame b i c d s; rw [h]

@[simp] theorem logEvent_crews (b i c : Nat) (d : List (Nat × Nat × Nat)) (s : State) :
    (logEvent b i c d s).crews = s.crews := by
  obtain ⟨_, _, _, h⟩ := logEvent_frame b i c d s; rw [h]

@[simp] theorem logEvent_hewers (b i c : Nat) (d : List (Nat × Nat × Nat)) (s : State) :
    (logEvent b i c d s).hewers = s.hewers := by
  obtain ⟨_, _, _, h⟩ := logEvent_frame b i c d s; rw [h]

@[simp] theorem logEvent_drs (b i c : Nat) (d : List (Nat × Nat × Nat)) (s : State) :
    (logEvent b i c d s).drs = s.drs := by
  obtain ⟨_, _, _, h⟩ := logEvent_frame b i c d s; rw [h]

@[simp] theorem logEvent_toks (b i c : Nat) (d : List (Nat × Nat × Nat)) (s : State) :
    (logEvent b i c d s).toks = s.toks := by
  obtain ⟨_, _, _, h⟩ := logEvent_frame b i c d s; rw [h]

@[simp] theorem logEvent_flowClamp (b i c : Nat) (d : List (Nat × Nat × Nat)) (s : State) :
    (logEvent b i c d s).flowClamp = s.flowClamp := by
  obtain ⟨_, _, _, h⟩ := logEvent_frame b i c d s; rw [h]

@[simp] theorem logEvent_layerSuspect (b i c : Nat) (d : List (Nat × Nat × Nat)) (s : State) :
    (logEvent b i c d s).layerSuspect = s.layerSuspect := by
  obtain ⟨_, _, _, h⟩ := logEvent_frame b i c d s; rw [h]

@[simp] theorem logEvent_arrQ (b i c : Nat) (d : List (Nat × Nat × Nat)) (s : State) :
    (logEvent b i c d s).arrQ = s.arrQ := by
  obtain ⟨_, _, _, h⟩ := logEvent_frame b i c d s; rw [h]

@[simp] theorem logEvent_crewMap (b i c : Nat) (d : List (Nat × Nat × Nat)) (s : State) :
    (logEvent b i c d s).crewMap = s.crewMap := by
  obtain ⟨_, _, _, h⟩ := logEvent_frame b i c d s; rw [h]

@[simp] theorem logEvent_seams (b i c : Nat) (d : List (Nat × Nat × Nat)) (s : State) :
    (logEvent b i c d s).seams = s.seams := by
  obtain ⟨_, _, _, h⟩ := logEvent_frame b i c d s; rw [h]

@[simp] theorem logEvent_faces (b i c : Nat) (d : List (Nat × Nat × Nat)) (s : State) :
    (logEvent b i c d s).faces = s.faces := by
  obtain ⟨_, _, _, h⟩ := logEvent_frame b i c d s; rw [h]

@[simp] theorem logEvent_merges (b i c : Nat) (d : List (Nat × Nat × Nat)) (s : State) :
    (logEvent b i c d s).merges = s.merges := by
  obtain ⟨_, _, _, h⟩ := logEvent_frame b i c d s; rw [h]

@[simp] theorem logEvent_slots (b i c : Nat) (d : List (Nat × Nat × Nat)) (s : State) :
    (logEvent b i c d s).slots = s.slots := by
  obtain ⟨_, _, _, h⟩ := logEvent_frame b i c d s; rw [h]

@[simp] theorem logEvent_pages (b i c : Nat) (d : List (Nat × Nat × Nat)) (s : State) :
    (logEvent b i c d s).pages = s.pages := by
  obtain ⟨_, _, _, h⟩ := logEvent_frame b i c d s; rw [h]

@[simp] theorem logEvent_vein (b i c : Nat) (d : List (Nat × Nat × Nat)) (s : State) :
    (logEvent b i c d s).vein = s.vein := by
  obtain ⟨_, _, _, h⟩ := logEvent_frame b i c d s; rw [h]

@[simp] theorem logEvent_vports (b i c : Nat) (d : List (Nat × Nat × Nat)) (s : State) :
    (logEvent b i c d s).vports = s.vports := by
  obtain ⟨_, _, _, h⟩ := logEvent_frame b i c d s; rw [h]

@[simp] theorem logEvent_millStall (b i c : Nat) (d : List (Nat × Nat × Nat)) (s : State) :
    (logEvent b i c d s).millStall = s.millStall := by
  obtain ⟨_, _, _, h⟩ := logEvent_frame b i c d s; rw [h]

@[simp] theorem logEvent_millFlagged (b i c : Nat) (d : List (Nat × Nat × Nat)) (s : State) :
    (logEvent b i c d s).millFlagged = s.millFlagged := by
  obtain ⟨_, _, _, h⟩ := logEvent_frame b i c d s; rw [h]

@[simp] theorem logEvent_engs (b i c : Nat) (d : List (Nat × Nat × Nat)) (s : State) :
    (logEvent b i c d s).engs = s.engs := by
  obtain ⟨_, _, _, h⟩ := logEvent_frame b i c d s; rw [h]

@[simp] theorem logEvent_adits (b i c : Nat) (d : List (Nat × Nat × Nat)) (s : State) :
    (logEvent b i c d s).adits = s.adits := by
  obtain ⟨_, _, _, h⟩ := logEvent_frame b i c d s; rw [h]

@[simp] theorem logEvent_fld (b i c : Nat) (d : List (Nat × Nat × Nat)) (s : State) :
    (logEvent b i c d s).fld = s.fld := by
  obtain ⟨_, _, _, h⟩ := logEvent_frame b i c d s; rw [h]

@[simp] theorem logEvent_members (b i c : Nat) (d : List (Nat × Nat × Nat)) (s : State) :
    (logEvent b i c d s).members = s.members := by
  obtain ⟨_, _, _, h⟩ := logEvent_frame b i c d s; rw [h]

@[simp] theorem logEvent_linkmaps (b i c : Nat) (d : List (Nat × Nat × Nat)) (s : State) :
    (logEvent b i c d s).linkmaps = s.linkmaps := by
  obtain ⟨_, _, _, h⟩ := logEvent_frame b i c d s; rw [h]

@[simp] theorem logEvent_hif (b i c : Nat) (d : List (Nat × Nat × Nat)) (s : State) :
    (logEvent b i c d s).hif = s.hif := by
  obtain ⟨_, _, _, h⟩ := logEvent_frame b i c d s; rw [h]

@[simp] theorem logEvent_chks (b i c : Nat) (d : List (Nat × Nat × Nat)) (s : State) :
    (logEvent b i c d s).chks = s.chks := by
  obtain ⟨_, _, _, h⟩ := logEvent_frame b i c d s; rw [h]

@[simp] theorem logEvent_sec (b i c : Nat) (d : List (Nat × Nat × Nat)) (s : State) :
    (logEvent b i c d s).sec = s.sec := by
  obtain ⟨_, _, _, h⟩ := logEvent_frame b i c d s; rw [h]

@[simp] theorem logEvent_brg (b i c : Nat) (d : List (Nat × Nat × Nat)) (s : State) :
    (logEvent b i c d s).brg = s.brg := by
  obtain ⟨_, _, _, h⟩ := logEvent_frame b i c d s; rw [h]

@[simp] theorem logEvent_buckets (b i c : Nat) (d : List (Nat × Nat × Nat)) (s : State) :
    (logEvent b i c d s).buckets = s.buckets := by
  obtain ⟨_, _, _, h⟩ := logEvent_frame b i c d s; rw [h]

@[simp] theorem logEvent_scrubs (b i c : Nat) (d : List (Nat × Nat × Nat)) (s : State) :
    (logEvent b i c d s).scrubs = s.scrubs := by
  obtain ⟨_, _, _, h⟩ := logEvent_frame b i c d s; rw [h]

@[simp] theorem logEvent_errs (b i c : Nat) (d : List (Nat × Nat × Nat)) (s : State) :
    (logEvent b i c d s).errs = s.errs := by
  obtain ⟨_, _, _, h⟩ := logEvent_frame b i c d s; rw [h]

@[simp] theorem logEvent_seamMem (b i c : Nat) (d : List (Nat × Nat × Nat)) (s : State) :
    (logEvent b i c d s).seamMem = s.seamMem := by
  obtain ⟨_, _, _, h⟩ := logEvent_frame b i c d s; rw [h]

@[simp] theorem logEvent_binMem (b i c : Nat) (d : List (Nat × Nat × Nat)) (s : State) :
    (logEvent b i c d s).binMem = s.binMem := by
  obtain ⟨_, _, _, h⟩ := logEvent_frame b i c d s; rw [h]

@[simp] theorem logEvent_storeMem (b i c : Nat) (d : List (Nat × Nat × Nat)) (s : State) :
    (logEvent b i c d s).storeMem = s.storeMem := by
  obtain ⟨_, _, _, h⟩ := logEvent_frame b i c d s; rw [h]

@[simp] theorem logEvent_stockMem (b i c : Nat) (d : List (Nat × Nat × Nat)) (s : State) :
    (logEvent b i c d s).stockMem = s.stockMem := by
  obtain ⟨_, _, _, h⟩ := logEvent_frame b i c d s; rw [h]

@[simp] theorem logEvent_lsMem (b i c : Nat) (d : List (Nat × Nat × Nat)) (s : State) :
    (logEvent b i c d s).lsMem = s.lsMem := by
  obtain ⟨_, _, _, h⟩ := logEvent_frame b i c d s; rw [h]

@[simp] theorem logEvent_tlyMem (b i c : Nat) (d : List (Nat × Nat × Nat)) (s : State) :
    (logEvent b i c d s).tlyMem = s.tlyMem := by
  obtain ⟨_, _, _, h⟩ := logEvent_frame b i c d s; rw [h]

@[simp] theorem logEvent_bufMem (b i c : Nat) (d : List (Nat × Nat × Nat)) (s : State) :
    (logEvent b i c d s).bufMem = s.bufMem := by
  obtain ⟨_, _, _, h⟩ := logEvent_frame b i c d s; rw [h]

@[simp] theorem logEvent_slotMem (b i c : Nat) (d : List (Nat × Nat × Nat)) (s : State) :
    (logEvent b i c d s).slotMem = s.slotMem := by
  obtain ⟨_, _, _, h⟩ := logEvent_frame b i c d s; rw [h]

@[simp] theorem logEvent_heldReqs (b i c : Nat) (d : List (Nat × Nat × Nat)) (s : State) :
    (logEvent b i c d s).heldReqs = s.heldReqs := by
  obtain ⟨_, _, _, h⟩ := logEvent_frame b i c d s; rw [h]

@[simp] theorem logEvent_mergeAns (b i c : Nat) (d : List (Nat × Nat × Nat)) (s : State) :
    (logEvent b i c d s).mergeAns = s.mergeAns := by
  obtain ⟨_, _, _, h⟩ := logEvent_frame b i c d s; rw [h]

@[simp] theorem logEvent_launchWait (b i c : Nat) (d : List (Nat × Nat × Nat)) (s : State) :
    (logEvent b i c d s).launchWait = s.launchWait := by
  obtain ⟨_, _, _, h⟩ := logEvent_frame b i c d s; rw [h]

@[simp] theorem logEvent_reqAt (b i c : Nat) (d : List (Nat × Nat × Nat)) (s : State) :
    (logEvent b i c d s).reqAt = s.reqAt := by
  obtain ⟨_, _, _, h⟩ := logEvent_frame b i c d s; rw [h]

@[simp] theorem logEvent_waited (b i c : Nat) (d : List (Nat × Nat × Nat)) (s : State) :
    (logEvent b i c d s).waited = s.waited := by
  obtain ⟨_, _, _, h⟩ := logEvent_frame b i c d s; rw [h]

@[simp] theorem logEvent_gal (b i c : Nat) (d : List (Nat × Nat × Nat)) (s : State) (g : Nat) :
    (logEvent b i c d s).gal g = s.gal g := by
  simp [State.gal]

@[simp] theorem logEvent_crew (b i c : Nat) (d : List (Nat × Nat × Nat)) (s : State) (g : Nat) :
    (logEvent b i c d s).crew g = s.crew g := by
  simp [State.crew]

@[simp] theorem logEvent_core (b i c : Nat) (d : List (Nat × Nat × Nat)) (s : State) (g n : Nat) :
    (logEvent b i c d s).core g n = s.core g n := by
  simp [State.core]

@[simp] theorem logEvent_can (b i c : Nat) (d : List (Nat × Nat × Nat)) (s : State) (g : Nat) :
    (logEvent b i c d s).can g = s.can g := by
  simp [State.can]

@[simp] theorem logEvent_adit (b i c : Nat) (d : List (Nat × Nat × Nat)) (s : State) (g : Nat) :
    (logEvent b i c d s).adit g = s.adit g := by
  simp [State.adit]

@[simp] theorem logEvent_img (b i c : Nat) (d : List (Nat × Nat × Nat)) (s : State) (g : Nat) :
    (logEvent b i c d s).img g = s.img g := by
  simp [State.img]

/-- A change of one gallery, seen from any gallery. -/
theorem gal_setGal_if (s : State) (g h : Nat) (x : Gal) : (s.setGal g x).gal h = if h = g then x else s.gal h := by
  by_cases hh : h = g
  · subst hh; simp
  · simp [State.gal, State.setGal, Tbl.look_put_other _ _ _ hh, hh]

/-- A pass over galleries that changes each one by itself. -/
theorem foldl_setGal (f : Nat → Gal → Gal) (l : List Nat) (hl : l.Nodup) (s : State) :
    ∃ x, l.foldl (fun s g => s.setGal g (f g (s.gal g))) s = { s with gals := x }
      ∧ ∀ h, State.gal { s with gals := x } h = if h ∈ l then f h (s.gal h) else s.gal h := by
  induction l generalizing s with
  | nil => exact ⟨_, rfl, by intro h; simp⟩
  | cons g l ih =>
    obtain ⟨x, e, k⟩ := ih (List.nodup_cons.1 hl).2 (s.setGal g (f g (s.gal g)))
    refine ⟨x, by rw [List.foldl_cons, e]; rfl, ?_⟩
    intro h
    have : State.gal { s with gals := x } h = State.gal { (s.setGal g (f g (s.gal g))) with gals := x } h := rfl
    rw [this, k h, gal_setGal_if]
    by_cases hg : h = g
    · subst hg; simp [(List.nodup_cons.1 hl).1]
    · simp [hg]

/-- What the governor may change: the ledger's requests and grants, and a gallery's raise. -/
def OnlyRaises (s t : State) : Prop :=
  (∃ q f r x, t = { s with pwr := { s.pwr with queue := q, fresh := f, granted := r }, gals := x })
    ∧ ∀ h, ∃ a b c, t.gal h = { s.gal h with waiting := a, raiseOk := b, goal := c }

theorem OnlyRaises.refl (s : State) : OnlyRaises s s := ⟨⟨_, _, _, _, rfl⟩, fun _ => ⟨_, _, _, rfl⟩⟩

theorem OnlyRaises.trans {s t u : State} (h : OnlyRaises s t) (k : OnlyRaises t u) : OnlyRaises s u := by
  obtain ⟨⟨_, _, _, _, rfl⟩, h⟩ := h
  obtain ⟨⟨_, _, _, _, rfl⟩, k⟩ := k
  refine ⟨⟨_, _, _, _, rfl⟩, fun g => ?_⟩
  obtain ⟨_, _, _, h⟩ := h g
  obtain ⟨_, _, _, k⟩ := k g
  rw [k, h]
  exact ⟨_, _, _, rfl⟩

theorem OnlyRaises.setGal (s : State) (g : Nat) (a b : Bool) (c : Nat) :
    OnlyRaises s (s.setGal g { s.gal g with waiting := a, raiseOk := b, goal := c }) := by
  refine ⟨⟨_, _, _, _, rfl⟩, fun h => ?_⟩
  rw [gal_setGal_if]
  split
  · rename_i e; subst e; exact ⟨_, _, _, rfl⟩
  · exact ⟨_, _, _, rfl⟩

theorem OnlyRaises.pwr (s : State) (q f : List (Nat × Nat × Bool × Bool)) (r : Tbl Nat) :
    OnlyRaises s { s with pwr := { s.pwr with queue := q, fresh := f, granted := r } } :=
  ⟨⟨_, _, _, _, rfl⟩, fun _ => ⟨_, _, _, rfl⟩⟩

/-- The governor of one gallery. -/
theorem OnlyRaises.govern (g : Nat) (s : State) : OnlyRaises s (govern g s) := by
  have w : OnlyRaises s (withdraw g s) :=
    (OnlyRaises.pwr s _ _ _).trans (OnlyRaises.setGal _ g false false _)
  have key : ∀ (t : State) (n k : Nat), OnlyRaises t (requestLedger g n true (t.setGal g { t.gal g with waiting := true, goal := k })) :=
    fun t n k => (OnlyRaises.setGal t g true (t.gal g).raiseOk k).trans (OnlyRaises.pwr _ _ _ _)
  simp only [Machine.govern]
  split
  · split
    · exact w
    · exact w.trans (key _ _ _)
  · split
    · exact .refl s
    · exact key _ _ _

/-- The governor of all galleries. -/
theorem OnlyRaises.governAll (s : State) : OnlyRaises s (governAll s) := by
  unfold Machine.governAll
  generalize List.range 32 = l
  induction l generalizing s with
  | nil => exact .refl s
  | cons g l ih => exact (OnlyRaises.govern g s).trans (ih _)

/-- What a fence may change: the crews, their hewers and dressers, the tokens, the losses to record, and the free values
used up. -/
def OnlyFence (s t : State) : Prop :=
  ∃ a b c d u f, t = { s with free := f, crews := a, hewers := b, drs := c, toks := d, brg := { s.brg with unwritten := u } }

theorem OnlyFence.refl (s : State) : OnlyFence s s := ⟨_, _, _, _, _, _, rfl⟩

theorem OnlyFence.trans {s t u : State} (h : OnlyFence s t) (k : OnlyFence t u) : OnlyFence s u := by
  obtain ⟨_, _, _, _, _, _, rfl⟩ := h
  obtain ⟨_, _, _, _, _, _, rfl⟩ := k
  exact ⟨_, _, _, _, _, _, rfl⟩

theorem OnlyFence.of_crews {s t : State} (h : OnlyCrews s t) : OnlyFence s t := ⟨t.crews, _, _, _, _, _, h⟩
theorem OnlyFence.setCrew (s : State) (c : Nat) (x : Crew) : OnlyFence s (s.setCrew c x) := ⟨_, _, _, _, _, _, rfl⟩
theorem OnlyFence.setHewer (s : State) (c h : Nat) (x : Hewer) : OnlyFence s (s.setHewer c h x) := ⟨_, _, _, _, _, _, rfl⟩
theorem OnlyFence.setDresser (s : State) (c : Nat) (x : Dresser) : OnlyFence s (s.setDresser c x) := ⟨_, _, _, _, _, _, rfl⟩
theorem OnlyFence.tokRelease (l c : Nat) (s : State) : OnlyFence s (tokRelease l c s) := ⟨_, _, _, _, _, _, rfl⟩

theorem OnlyFence.foldl {α : Type} (f : State → α → State) (h : ∀ s a, OnlyFence s (f s a)) (l : List α) (s : State) :
    OnlyFence s (l.foldl f s) := by
  induction l generalizing s with
  | nil => exact .refl s
  | cons a l ih => exact (h s a).trans (ih _)

theorem OnlyFence.noteLoss (g i c : Nat) (s : State) : OnlyFence s (noteLoss g i c s) := by
  simp only [Machine.noteLoss]
  split <;> exact ⟨_, _, _, _, _, _, rfl⟩

theorem OnlyFence.skqRelease (c : Nat) (es : List Nat) (s : State) : OnlyFence s (skqRelease c es s) := by
  refine OnlyFence.foldl _ (fun s k => ?_) es s
  split
  · exact ⟨_, _, _, _, _, _, rfl⟩
  · exact .refl s

theorem OnlyFence.failCut (c h i : Nat) (st : Status) (s : State) : OnlyFence s (failCut c h i st s) := by
  unfold Machine.failCut
  split
  · exact .refl s
  · exact ((OnlyFence.setHewer _ _ _ _).trans (OnlyFence.skqRelease _ _ _)).trans (OnlyFence.setHewer _ _ _ _)

theorem OnlyFence.killIssued (c h : Nat) (hard : Bool) (n : Nat) (s : State) : OnlyFence s (killIssued c h hard n s) := by
  induction n with
  | zero => exact .refl s
  | succ n ih =>
    unfold Machine.killIssued
    dsimp only
    split
    · split
      · exact ih.trans (OnlyFence.failCut _ _ _ _ _)
      · exact ih
    · exact ih

theorem OnlyFence.flushCuts (c h n : Nat) (s : State) : OnlyFence s (flushCuts c h n s) := by
  induction n generalizing s with
  | zero => exact .refl s
  | succ n ih =>
    unfold Machine.flushCuts
    split
    · split
      · exact ((OnlyFence.setHewer _ _ _ _).trans (.of_crews (OnlyCrews.postRec _ _ _))).trans (ih _)
      · exact .refl s
    · exact .refl s

theorem OnlyFence.applyRels (c : Nat) (s : State) : OnlyFence s (applyRels c s) := by
  refine OnlyFence.foldl _ (fun s k => ?_) _ s
  dsimp only
  split
  · exact (OnlyFence.setCrew _ _ _).trans (OnlyFence.setHewer _ _ _ _)
  · exact .refl s

theorem OnlyFence.cutStops (c h i : Nat) (s : State) : OnlyFence s (cutStops c h i s) := by
  unfold Machine.cutStops
  split
  · split
    · exact ⟨_, _, _, _, _, _, rfl⟩
    · exact .refl s
  · exact .refl s

/-- A hewer's fence (R124, R153). -/
theorem OnlyFence.fenceHewer (c h cause loss : Nat) (s : State) : OnlyFence s (fenceHewer c h cause loss s) := by
  have k : ∀ u, OnlyFence s u → OnlyFence s (Machine.tokRelease (layerOf c) (colOf c h)
      (Machine.killIssued c h (decide (cause = 3 ∨ cause = 4)) (u.hewer c h).issued.length
        (u.setHewer c h { u.hewer c h with
          fenceCause := cause, queue := [], checked := false
          issued := (u.hewer c h).issued
            ++ (u.hewer c h).queue.map (fun k => ({ cut := k, phase := 2, st := .unitDead } : CutRun)) }))) :=
    fun u hu => ((hu.trans (OnlyFence.setHewer u c h _)).trans (.killIssued c h _ _ _)).trans (.tokRelease _ _ _)
  unfold Machine.fenceHewer
  dsimp only
  split
  · split
    · exact ((OnlyFence.killIssued _ _ _ _ _).trans (.flushCuts _ _ _ _)).trans (.applyRels _ _)
    · exact .refl s
  · refine .trans ?_ (.noteLoss _ _ _ _)
    refine .trans ?_ (.applyRels _ _)
    refine .trans ?_ (.flushCuts _ _ _ _)
    split
    · split
      · exact (k _ (.cutStops _ _ _ _)).trans (.setCrew _ _ _)
      · exact k _ (.cutStops _ _ _ _)
    · split
      · exact (k _ (.refl s)).trans (.setCrew _ _ _)
      · exact k _ (.refl s)

theorem OnlyFence.dresserDead (c : Nat) (s : State) : OnlyFence s (dresserDead c s) := by
  unfold Machine.dresserDead
  exact (OnlyFence.setDresser _ _ _).trans (OnlyFence.foldl _ (fun s e => .of_crews (OnlyCrews.postRec _ _ _)) _ _)

/-- A crew's fence (Table 1-7). -/
theorem OnlyFence.fenceCrew (c cause : Nat) (s : State) : OnlyFence s (fenceCrew c cause s) := by
  unfold Machine.fenceCrew
  dsimp only
  split
  · exact .refl s
  · refine .trans ?_ (.noteLoss _ _ _ _)
    refine .trans ?_ (show OnlyFence _ (poisonStart _ _) from by
      unfold poisonStart; split
      · exact .refl _
      · exact .setCrew _ _ _)
    refine .trans ?_ (.setCrew _ _ _)
    refine .trans ?_ (.dresserDead _ _)
    refine .trans ?_ (show OnlyFence _ (skqClear _ _) from .setDresser _ _ _)
    exact ((OnlyFence.setCrew _ _ _).trans (.fenceHewer _ _ _ _ _)).trans (.fenceHewer _ _ _ _ _)

/-! The governor leaves every other field. -/

@[simp] theorem governAll_pending (s : State) : (governAll s).pending = s.pending := by
  obtain ⟨⟨_, _, _, _, h⟩, _⟩ := OnlyRaises.governAll s; rw [h]

@[simp] theorem governAll_now (s : State) : (governAll s).now = s.now := by
  obtain ⟨⟨_, _, _, _, h⟩, _⟩ := OnlyRaises.governAll s; rw [h]

@[simp] theorem governAll_free (s : State) : (governAll s).free = s.free := by
  obtain ⟨⟨_, _, _, _, h⟩, _⟩ := OnlyRaises.governAll s; rw [h]

@[simp] theorem governAll_out (s : State) : (governAll s).out = s.out := by
  obtain ⟨⟨_, _, _, _, h⟩, _⟩ := OnlyRaises.governAll s; rw [h]

@[simp] theorem governAll_tclk (s : State) : (governAll s).tclk = s.tclk := by
  obtain ⟨⟨_, _, _, _, h⟩, _⟩ := OnlyRaises.governAll s; rw [h]

@[simp] theorem governAll_latches (s : State) : (governAll s).latches = s.latches := by
  obtain ⟨⟨_, _, _, _, h⟩, _⟩ := OnlyRaises.governAll s; rw [h]

@[simp] theorem governAll_pendLow (s : State) : (governAll s).pendLow = s.pendLow := by
  obtain ⟨⟨_, _, _, _, h⟩, _⟩ := OnlyRaises.governAll s; rw [h]

@[simp] theorem governAll_fuses (s : State) : (governAll s).fuses = s.fuses := by
  obtain ⟨⟨_, _, _, _, h⟩, _⟩ := OnlyRaises.governAll s; rw [h]

@[simp] theorem governAll_chr (s : State) : (governAll s).chr = s.chr := by
  obtain ⟨⟨_, _, _, _, h⟩, _⟩ := OnlyRaises.governAll s; rw [h]

@[simp] theorem governAll_committed (s : State) : (governAll s).committed = s.committed := by
  obtain ⟨⟨_, _, _, _, h⟩, _⟩ := OnlyRaises.governAll s; rw [h]

@[simp] theorem governAll_glb (s : State) : (governAll s).glb = s.glb := by
  obtain ⟨⟨_, _, _, _, h⟩, _⟩ := OnlyRaises.governAll s; rw [h]

@[simp] theorem governAll_evt (s : State) : (governAll s).evt = s.evt := by
  obtain ⟨⟨_, _, _, _, h⟩, _⟩ := OnlyRaises.governAll s; rw [h]

@[simp] theorem governAll_clk (s : State) : (governAll s).clk = s.clk := by
  obtain ⟨⟨_, _, _, _, h⟩, _⟩ := OnlyRaises.governAll s; rw [h]

@[simp] theorem governAll_thm (s : State) : (governAll s).thm = s.thm := by
  obtain ⟨⟨_, _, _, _, h⟩, _⟩ := OnlyRaises.governAll s; rw [h]

@[simp] theorem governAll_cans (s : State) : (governAll s).cans = s.cans := by
  obtain ⟨⟨_, _, _, _, h⟩, _⟩ := OnlyRaises.governAll s; rw [h]

@[simp] theorem governAll_pairs (s : State) : (governAll s).pairs = s.pairs := by
  obtain ⟨⟨_, _, _, _, h⟩, _⟩ := OnlyRaises.governAll s; rw [h]

@[simp] theorem governAll_cores (s : State) : (governAll s).cores = s.cores := by
  obtain ⟨⟨_, _, _, _, h⟩, _⟩ := OnlyRaises.governAll s; rw [h]

@[simp] theorem governAll_crews (s : State) : (governAll s).crews = s.crews := by
  obtain ⟨⟨_, _, _, _, h⟩, _⟩ := OnlyRaises.governAll s; rw [h]

@[simp] theorem governAll_hewers (s : State) : (governAll s).hewers = s.hewers := by
  obtain ⟨⟨_, _, _, _, h⟩, _⟩ := OnlyRaises.governAll s; rw [h]

@[simp] theorem governAll_drs (s : State) : (governAll s).drs = s.drs := by
  obtain ⟨⟨_, _, _, _, h⟩, _⟩ := OnlyRaises.governAll s; rw [h]

@[simp] theorem governAll_toks (s : State) : (governAll s).toks = s.toks := by
  obtain ⟨⟨_, _, _, _, h⟩, _⟩ := OnlyRaises.governAll s; rw [h]

@[simp] theorem governAll_flowClamp (s : State) : (governAll s).flowClamp = s.flowClamp := by
  obtain ⟨⟨_, _, _, _, h⟩, _⟩ := OnlyRaises.governAll s; rw [h]

@[simp] theorem governAll_layerSuspect (s : State) : (governAll s).layerSuspect = s.layerSuspect := by
  obtain ⟨⟨_, _, _, _, h⟩, _⟩ := OnlyRaises.governAll s; rw [h]

@[simp] theorem governAll_arrQ (s : State) : (governAll s).arrQ = s.arrQ := by
  obtain ⟨⟨_, _, _, _, h⟩, _⟩ := OnlyRaises.governAll s; rw [h]

@[simp] theorem governAll_crewMap (s : State) : (governAll s).crewMap = s.crewMap := by
  obtain ⟨⟨_, _, _, _, h⟩, _⟩ := OnlyRaises.governAll s; rw [h]

@[simp] theorem governAll_seams (s : State) : (governAll s).seams = s.seams := by
  obtain ⟨⟨_, _, _, _, h⟩, _⟩ := OnlyRaises.governAll s; rw [h]

@[simp] theorem governAll_faces (s : State) : (governAll s).faces = s.faces := by
  obtain ⟨⟨_, _, _, _, h⟩, _⟩ := OnlyRaises.governAll s; rw [h]

@[simp] theorem governAll_merges (s : State) : (governAll s).merges = s.merges := by
  obtain ⟨⟨_, _, _, _, h⟩, _⟩ := OnlyRaises.governAll s; rw [h]

@[simp] theorem governAll_slots (s : State) : (governAll s).slots = s.slots := by
  obtain ⟨⟨_, _, _, _, h⟩, _⟩ := OnlyRaises.governAll s; rw [h]

@[simp] theorem governAll_pages (s : State) : (governAll s).pages = s.pages := by
  obtain ⟨⟨_, _, _, _, h⟩, _⟩ := OnlyRaises.governAll s; rw [h]

@[simp] theorem governAll_vein (s : State) : (governAll s).vein = s.vein := by
  obtain ⟨⟨_, _, _, _, h⟩, _⟩ := OnlyRaises.governAll s; rw [h]

@[simp] theorem governAll_vports (s : State) : (governAll s).vports = s.vports := by
  obtain ⟨⟨_, _, _, _, h⟩, _⟩ := OnlyRaises.governAll s; rw [h]

@[simp] theorem governAll_millStall (s : State) : (governAll s).millStall = s.millStall := by
  obtain ⟨⟨_, _, _, _, h⟩, _⟩ := OnlyRaises.governAll s; rw [h]

@[simp] theorem governAll_millFlagged (s : State) : (governAll s).millFlagged = s.millFlagged := by
  obtain ⟨⟨_, _, _, _, h⟩, _⟩ := OnlyRaises.governAll s; rw [h]

@[simp] theorem governAll_engs (s : State) : (governAll s).engs = s.engs := by
  obtain ⟨⟨_, _, _, _, h⟩, _⟩ := OnlyRaises.governAll s; rw [h]

@[simp] theorem governAll_adits (s : State) : (governAll s).adits = s.adits := by
  obtain ⟨⟨_, _, _, _, h⟩, _⟩ := OnlyRaises.governAll s; rw [h]

@[simp] theorem governAll_fld (s : State) : (governAll s).fld = s.fld := by
  obtain ⟨⟨_, _, _, _, h⟩, _⟩ := OnlyRaises.governAll s; rw [h]

@[simp] theorem governAll_members (s : State) : (governAll s).members = s.members := by
  obtain ⟨⟨_, _, _, _, h⟩, _⟩ := OnlyRaises.governAll s; rw [h]

@[simp] theorem governAll_linkmaps (s : State) : (governAll s).linkmaps = s.linkmaps := by
  obtain ⟨⟨_, _, _, _, h⟩, _⟩ := OnlyRaises.governAll s; rw [h]

@[simp] theorem governAll_hif (s : State) : (governAll s).hif = s.hif := by
  obtain ⟨⟨_, _, _, _, h⟩, _⟩ := OnlyRaises.governAll s; rw [h]

@[simp] theorem governAll_fns (s : State) : (governAll s).fns = s.fns := by
  obtain ⟨⟨_, _, _, _, h⟩, _⟩ := OnlyRaises.governAll s; rw [h]

@[simp] theorem governAll_chks (s : State) : (governAll s).chks = s.chks := by
  obtain ⟨⟨_, _, _, _, h⟩, _⟩ := OnlyRaises.governAll s; rw [h]

@[simp] theorem governAll_sec (s : State) : (governAll s).sec = s.sec := by
  obtain ⟨⟨_, _, _, _, h⟩, _⟩ := OnlyRaises.governAll s; rw [h]

@[simp] theorem governAll_brg (s : State) : (governAll s).brg = s.brg := by
  obtain ⟨⟨_, _, _, _, h⟩, _⟩ := OnlyRaises.governAll s; rw [h]

@[simp] theorem governAll_buckets (s : State) : (governAll s).buckets = s.buckets := by
  obtain ⟨⟨_, _, _, _, h⟩, _⟩ := OnlyRaises.governAll s; rw [h]

@[simp] theorem governAll_scrubs (s : State) : (governAll s).scrubs = s.scrubs := by
  obtain ⟨⟨_, _, _, _, h⟩, _⟩ := OnlyRaises.governAll s; rw [h]

@[simp] theorem governAll_errs (s : State) : (governAll s).errs = s.errs := by
  obtain ⟨⟨_, _, _, _, h⟩, _⟩ := OnlyRaises.governAll s; rw [h]

@[simp] theorem governAll_seamMem (s : State) : (governAll s).seamMem = s.seamMem := by
  obtain ⟨⟨_, _, _, _, h⟩, _⟩ := OnlyRaises.governAll s; rw [h]

@[simp] theorem governAll_binMem (s : State) : (governAll s).binMem = s.binMem := by
  obtain ⟨⟨_, _, _, _, h⟩, _⟩ := OnlyRaises.governAll s; rw [h]

@[simp] theorem governAll_storeMem (s : State) : (governAll s).storeMem = s.storeMem := by
  obtain ⟨⟨_, _, _, _, h⟩, _⟩ := OnlyRaises.governAll s; rw [h]

@[simp] theorem governAll_stockMem (s : State) : (governAll s).stockMem = s.stockMem := by
  obtain ⟨⟨_, _, _, _, h⟩, _⟩ := OnlyRaises.governAll s; rw [h]

@[simp] theorem governAll_lsMem (s : State) : (governAll s).lsMem = s.lsMem := by
  obtain ⟨⟨_, _, _, _, h⟩, _⟩ := OnlyRaises.governAll s; rw [h]

@[simp] theorem governAll_tlyMem (s : State) : (governAll s).tlyMem = s.tlyMem := by
  obtain ⟨⟨_, _, _, _, h⟩, _⟩ := OnlyRaises.governAll s; rw [h]

@[simp] theorem governAll_bufMem (s : State) : (governAll s).bufMem = s.bufMem := by
  obtain ⟨⟨_, _, _, _, h⟩, _⟩ := OnlyRaises.governAll s; rw [h]

@[simp] theorem governAll_slotMem (s : State) : (governAll s).slotMem = s.slotMem := by
  obtain ⟨⟨_, _, _, _, h⟩, _⟩ := OnlyRaises.governAll s; rw [h]

@[simp] theorem governAll_heldReqs (s : State) : (governAll s).heldReqs = s.heldReqs := by
  obtain ⟨⟨_, _, _, _, h⟩, _⟩ := OnlyRaises.governAll s; rw [h]

@[simp] theorem governAll_mergeAns (s : State) : (governAll s).mergeAns = s.mergeAns := by
  obtain ⟨⟨_, _, _, _, h⟩, _⟩ := OnlyRaises.governAll s; rw [h]

@[simp] theorem governAll_launchWait (s : State) : (governAll s).launchWait = s.launchWait := by
  obtain ⟨⟨_, _, _, _, h⟩, _⟩ := OnlyRaises.governAll s; rw [h]

@[simp] theorem governAll_reqAt (s : State) : (governAll s).reqAt = s.reqAt := by
  obtain ⟨⟨_, _, _, _, h⟩, _⟩ := OnlyRaises.governAll s; rw [h]

@[simp] theorem governAll_waited (s : State) : (governAll s).waited = s.waited := by
  obtain ⟨⟨_, _, _, _, h⟩, _⟩ := OnlyRaises.governAll s; rw [h]

@[simp] theorem governAll_pwr_headroom (s : State) : (governAll s).pwr.headroom = s.pwr.headroom := by
  obtain ⟨⟨_, _, _, _, h⟩, _⟩ := OnlyRaises.governAll s; rw [h]

@[simp] theorem governAll_pwr_over (s : State) : (governAll s).pwr.over_ = s.pwr.over_ := by
  obtain ⟨⟨_, _, _, _, h⟩, _⟩ := OnlyRaises.governAll s; rw [h]

@[simp] theorem governAll_pwr_overSince (s : State) : (governAll s).pwr.overSince = s.pwr.overSince := by
  obtain ⟨⟨_, _, _, _, h⟩, _⟩ := OnlyRaises.governAll s; rw [h]

@[simp] theorem governAll_pwr_overLogged (s : State) : (governAll s).pwr.overLogged = s.pwr.overLogged := by
  obtain ⟨⟨_, _, _, _, h⟩, _⟩ := OnlyRaises.governAll s; rw [h]

@[simp] theorem governAll_pwr_underSince (s : State) : (governAll s).pwr.underSince = s.pwr.underSince := by
  obtain ⟨⟨_, _, _, _, h⟩, _⟩ := OnlyRaises.governAll s; rw [h]

@[simp] theorem governAll_pwr_seq (s : State) : (governAll s).pwr.seq = s.pwr.seq := by
  obtain ⟨⟨_, _, _, _, h⟩, _⟩ := OnlyRaises.governAll s; rw [h]

@[simp] theorem governAll_pwr_frames (s : State) : (governAll s).pwr.frames = s.pwr.frames := by
  obtain ⟨⟨_, _, _, _, h⟩, _⟩ := OnlyRaises.governAll s; rw [h]

@[simp] theorem governAll_pwr_late (s : State) : (governAll s).pwr.late = s.pwr.late := by
  obtain ⟨⟨_, _, _, _, h⟩, _⟩ := OnlyRaises.governAll s; rw [h]

@[simp] theorem governAll_pwr_steps (s : State) : (governAll s).pwr.steps = s.pwr.steps := by
  obtain ⟨⟨_, _, _, _, h⟩, _⟩ := OnlyRaises.governAll s; rw [h]

@[simp] theorem governAll_pwr_sagIrq (s : State) : (governAll s).pwr.sagIrq = s.pwr.sagIrq := by
  obtain ⟨⟨_, _, _, _, h⟩, _⟩ := OnlyRaises.governAll s; rw [h]

@[simp] theorem governAll_pwr_sagClampEn (s : State) : (governAll s).pwr.sagClampEn = s.pwr.sagClampEn := by
  obtain ⟨⟨_, _, _, _, h⟩, _⟩ := OnlyRaises.governAll s; rw [h]

@[simp] theorem governAll_pwr_warn (s : State) : (governAll s).pwr.warn = s.pwr.warn := by
  obtain ⟨⟨_, _, _, _, h⟩, _⟩ := OnlyRaises.governAll s; rw [h]

@[simp] theorem governAll_pwr_warned (s : State) : (governAll s).pwr.warned = s.pwr.warned := by
  obtain ⟨⟨_, _, _, _, h⟩, _⟩ := OnlyRaises.governAll s; rw [h]

@[simp] theorem governAll_pwr_resetRail (s : State) : (governAll s).pwr.resetRail = s.pwr.resetRail := by
  obtain ⟨⟨_, _, _, _, h⟩, _⟩ := OnlyRaises.governAll s; rw [h]

@[simp] theorem governAll_pwr_vinMin (s : State) : (governAll s).pwr.vinMin = s.pwr.vinMin := by
  obtain ⟨⟨_, _, _, _, h⟩, _⟩ := OnlyRaises.governAll s; rw [h]

@[simp] theorem governAll_pwr_sagActive (s : State) : (governAll s).pwr.sagActive = s.pwr.sagActive := by
  obtain ⟨⟨_, _, _, _, h⟩, _⟩ := OnlyRaises.governAll s; rw [h]

@[simp] theorem governAll_pwr_sagClamp (s : State) : (governAll s).pwr.sagClamp = s.pwr.sagClamp := by
  obtain ⟨⟨_, _, _, _, h⟩, _⟩ := OnlyRaises.governAll s; rw [h]

@[simp] theorem governAll_pwr_clearAt (s : State) : (governAll s).pwr.clearAt = s.pwr.clearAt := by
  obtain ⟨⟨_, _, _, _, h⟩, _⟩ := OnlyRaises.governAll s; rw [h]

@[simp] theorem govern_pending (g : Nat) (s : State) : (govern g s).pending = s.pending := by
  obtain ⟨⟨_, _, _, _, h⟩, _⟩ := OnlyRaises.govern g s; rw [h]

@[simp] theorem govern_now (g : Nat) (s : State) : (govern g s).now = s.now := by
  obtain ⟨⟨_, _, _, _, h⟩, _⟩ := OnlyRaises.govern g s; rw [h]

@[simp] theorem govern_free (g : Nat) (s : State) : (govern g s).free = s.free := by
  obtain ⟨⟨_, _, _, _, h⟩, _⟩ := OnlyRaises.govern g s; rw [h]

@[simp] theorem govern_out (g : Nat) (s : State) : (govern g s).out = s.out := by
  obtain ⟨⟨_, _, _, _, h⟩, _⟩ := OnlyRaises.govern g s; rw [h]

@[simp] theorem govern_tclk (g : Nat) (s : State) : (govern g s).tclk = s.tclk := by
  obtain ⟨⟨_, _, _, _, h⟩, _⟩ := OnlyRaises.govern g s; rw [h]

@[simp] theorem govern_latches (g : Nat) (s : State) : (govern g s).latches = s.latches := by
  obtain ⟨⟨_, _, _, _, h⟩, _⟩ := OnlyRaises.govern g s; rw [h]

@[simp] theorem govern_pendLow (g : Nat) (s : State) : (govern g s).pendLow = s.pendLow := by
  obtain ⟨⟨_, _, _, _, h⟩, _⟩ := OnlyRaises.govern g s; rw [h]

@[simp] theorem govern_fuses (g : Nat) (s : State) : (govern g s).fuses = s.fuses := by
  obtain ⟨⟨_, _, _, _, h⟩, _⟩ := OnlyRaises.govern g s; rw [h]

@[simp] theorem govern_chr (g : Nat) (s : State) : (govern g s).chr = s.chr := by
  obtain ⟨⟨_, _, _, _, h⟩, _⟩ := OnlyRaises.govern g s; rw [h]

@[simp] theorem govern_committed (g : Nat) (s : State) : (govern g s).committed = s.committed := by
  obtain ⟨⟨_, _, _, _, h⟩, _⟩ := OnlyRaises.govern g s; rw [h]

@[simp] theorem govern_glb (g : Nat) (s : State) : (govern g s).glb = s.glb := by
  obtain ⟨⟨_, _, _, _, h⟩, _⟩ := OnlyRaises.govern g s; rw [h]

@[simp] theorem govern_evt (g : Nat) (s : State) : (govern g s).evt = s.evt := by
  obtain ⟨⟨_, _, _, _, h⟩, _⟩ := OnlyRaises.govern g s; rw [h]

@[simp] theorem govern_clk (g : Nat) (s : State) : (govern g s).clk = s.clk := by
  obtain ⟨⟨_, _, _, _, h⟩, _⟩ := OnlyRaises.govern g s; rw [h]

@[simp] theorem govern_thm (g : Nat) (s : State) : (govern g s).thm = s.thm := by
  obtain ⟨⟨_, _, _, _, h⟩, _⟩ := OnlyRaises.govern g s; rw [h]

@[simp] theorem govern_cans (g : Nat) (s : State) : (govern g s).cans = s.cans := by
  obtain ⟨⟨_, _, _, _, h⟩, _⟩ := OnlyRaises.govern g s; rw [h]

@[simp] theorem govern_pairs (g : Nat) (s : State) : (govern g s).pairs = s.pairs := by
  obtain ⟨⟨_, _, _, _, h⟩, _⟩ := OnlyRaises.govern g s; rw [h]

@[simp] theorem govern_cores (g : Nat) (s : State) : (govern g s).cores = s.cores := by
  obtain ⟨⟨_, _, _, _, h⟩, _⟩ := OnlyRaises.govern g s; rw [h]

@[simp] theorem govern_crews (g : Nat) (s : State) : (govern g s).crews = s.crews := by
  obtain ⟨⟨_, _, _, _, h⟩, _⟩ := OnlyRaises.govern g s; rw [h]

@[simp] theorem govern_hewers (g : Nat) (s : State) : (govern g s).hewers = s.hewers := by
  obtain ⟨⟨_, _, _, _, h⟩, _⟩ := OnlyRaises.govern g s; rw [h]

@[simp] theorem govern_drs (g : Nat) (s : State) : (govern g s).drs = s.drs := by
  obtain ⟨⟨_, _, _, _, h⟩, _⟩ := OnlyRaises.govern g s; rw [h]

@[simp] theorem govern_toks (g : Nat) (s : State) : (govern g s).toks = s.toks := by
  obtain ⟨⟨_, _, _, _, h⟩, _⟩ := OnlyRaises.govern g s; rw [h]

@[simp] theorem govern_flowClamp (g : Nat) (s : State) : (govern g s).flowClamp = s.flowClamp := by
  obtain ⟨⟨_, _, _, _, h⟩, _⟩ := OnlyRaises.govern g s; rw [h]

@[simp] theorem govern_layerSuspect (g : Nat) (s : State) : (govern g s).layerSuspect = s.layerSuspect := by
  obtain ⟨⟨_, _, _, _, h⟩, _⟩ := OnlyRaises.govern g s; rw [h]

@[simp] theorem govern_arrQ (g : Nat) (s : State) : (govern g s).arrQ = s.arrQ := by
  obtain ⟨⟨_, _, _, _, h⟩, _⟩ := OnlyRaises.govern g s; rw [h]

@[simp] theorem govern_crewMap (g : Nat) (s : State) : (govern g s).crewMap = s.crewMap := by
  obtain ⟨⟨_, _, _, _, h⟩, _⟩ := OnlyRaises.govern g s; rw [h]

@[simp] theorem govern_seams (g : Nat) (s : State) : (govern g s).seams = s.seams := by
  obtain ⟨⟨_, _, _, _, h⟩, _⟩ := OnlyRaises.govern g s; rw [h]

@[simp] theorem govern_faces (g : Nat) (s : State) : (govern g s).faces = s.faces := by
  obtain ⟨⟨_, _, _, _, h⟩, _⟩ := OnlyRaises.govern g s; rw [h]

@[simp] theorem govern_merges (g : Nat) (s : State) : (govern g s).merges = s.merges := by
  obtain ⟨⟨_, _, _, _, h⟩, _⟩ := OnlyRaises.govern g s; rw [h]

@[simp] theorem govern_slots (g : Nat) (s : State) : (govern g s).slots = s.slots := by
  obtain ⟨⟨_, _, _, _, h⟩, _⟩ := OnlyRaises.govern g s; rw [h]

@[simp] theorem govern_pages (g : Nat) (s : State) : (govern g s).pages = s.pages := by
  obtain ⟨⟨_, _, _, _, h⟩, _⟩ := OnlyRaises.govern g s; rw [h]

@[simp] theorem govern_vein (g : Nat) (s : State) : (govern g s).vein = s.vein := by
  obtain ⟨⟨_, _, _, _, h⟩, _⟩ := OnlyRaises.govern g s; rw [h]

@[simp] theorem govern_vports (g : Nat) (s : State) : (govern g s).vports = s.vports := by
  obtain ⟨⟨_, _, _, _, h⟩, _⟩ := OnlyRaises.govern g s; rw [h]

@[simp] theorem govern_millStall (g : Nat) (s : State) : (govern g s).millStall = s.millStall := by
  obtain ⟨⟨_, _, _, _, h⟩, _⟩ := OnlyRaises.govern g s; rw [h]

@[simp] theorem govern_millFlagged (g : Nat) (s : State) : (govern g s).millFlagged = s.millFlagged := by
  obtain ⟨⟨_, _, _, _, h⟩, _⟩ := OnlyRaises.govern g s; rw [h]

@[simp] theorem govern_engs (g : Nat) (s : State) : (govern g s).engs = s.engs := by
  obtain ⟨⟨_, _, _, _, h⟩, _⟩ := OnlyRaises.govern g s; rw [h]

@[simp] theorem govern_adits (g : Nat) (s : State) : (govern g s).adits = s.adits := by
  obtain ⟨⟨_, _, _, _, h⟩, _⟩ := OnlyRaises.govern g s; rw [h]

@[simp] theorem govern_fld (g : Nat) (s : State) : (govern g s).fld = s.fld := by
  obtain ⟨⟨_, _, _, _, h⟩, _⟩ := OnlyRaises.govern g s; rw [h]

@[simp] theorem govern_members (g : Nat) (s : State) : (govern g s).members = s.members := by
  obtain ⟨⟨_, _, _, _, h⟩, _⟩ := OnlyRaises.govern g s; rw [h]

@[simp] theorem govern_linkmaps (g : Nat) (s : State) : (govern g s).linkmaps = s.linkmaps := by
  obtain ⟨⟨_, _, _, _, h⟩, _⟩ := OnlyRaises.govern g s; rw [h]

@[simp] theorem govern_hif (g : Nat) (s : State) : (govern g s).hif = s.hif := by
  obtain ⟨⟨_, _, _, _, h⟩, _⟩ := OnlyRaises.govern g s; rw [h]

@[simp] theorem govern_fns (g : Nat) (s : State) : (govern g s).fns = s.fns := by
  obtain ⟨⟨_, _, _, _, h⟩, _⟩ := OnlyRaises.govern g s; rw [h]

@[simp] theorem govern_chks (g : Nat) (s : State) : (govern g s).chks = s.chks := by
  obtain ⟨⟨_, _, _, _, h⟩, _⟩ := OnlyRaises.govern g s; rw [h]

@[simp] theorem govern_sec (g : Nat) (s : State) : (govern g s).sec = s.sec := by
  obtain ⟨⟨_, _, _, _, h⟩, _⟩ := OnlyRaises.govern g s; rw [h]

@[simp] theorem govern_brg (g : Nat) (s : State) : (govern g s).brg = s.brg := by
  obtain ⟨⟨_, _, _, _, h⟩, _⟩ := OnlyRaises.govern g s; rw [h]

@[simp] theorem govern_buckets (g : Nat) (s : State) : (govern g s).buckets = s.buckets := by
  obtain ⟨⟨_, _, _, _, h⟩, _⟩ := OnlyRaises.govern g s; rw [h]

@[simp] theorem govern_scrubs (g : Nat) (s : State) : (govern g s).scrubs = s.scrubs := by
  obtain ⟨⟨_, _, _, _, h⟩, _⟩ := OnlyRaises.govern g s; rw [h]

@[simp] theorem govern_errs (g : Nat) (s : State) : (govern g s).errs = s.errs := by
  obtain ⟨⟨_, _, _, _, h⟩, _⟩ := OnlyRaises.govern g s; rw [h]

@[simp] theorem govern_seamMem (g : Nat) (s : State) : (govern g s).seamMem = s.seamMem := by
  obtain ⟨⟨_, _, _, _, h⟩, _⟩ := OnlyRaises.govern g s; rw [h]

@[simp] theorem govern_binMem (g : Nat) (s : State) : (govern g s).binMem = s.binMem := by
  obtain ⟨⟨_, _, _, _, h⟩, _⟩ := OnlyRaises.govern g s; rw [h]

@[simp] theorem govern_storeMem (g : Nat) (s : State) : (govern g s).storeMem = s.storeMem := by
  obtain ⟨⟨_, _, _, _, h⟩, _⟩ := OnlyRaises.govern g s; rw [h]

@[simp] theorem govern_stockMem (g : Nat) (s : State) : (govern g s).stockMem = s.stockMem := by
  obtain ⟨⟨_, _, _, _, h⟩, _⟩ := OnlyRaises.govern g s; rw [h]

@[simp] theorem govern_lsMem (g : Nat) (s : State) : (govern g s).lsMem = s.lsMem := by
  obtain ⟨⟨_, _, _, _, h⟩, _⟩ := OnlyRaises.govern g s; rw [h]

@[simp] theorem govern_tlyMem (g : Nat) (s : State) : (govern g s).tlyMem = s.tlyMem := by
  obtain ⟨⟨_, _, _, _, h⟩, _⟩ := OnlyRaises.govern g s; rw [h]

@[simp] theorem govern_bufMem (g : Nat) (s : State) : (govern g s).bufMem = s.bufMem := by
  obtain ⟨⟨_, _, _, _, h⟩, _⟩ := OnlyRaises.govern g s; rw [h]

@[simp] theorem govern_slotMem (g : Nat) (s : State) : (govern g s).slotMem = s.slotMem := by
  obtain ⟨⟨_, _, _, _, h⟩, _⟩ := OnlyRaises.govern g s; rw [h]

@[simp] theorem govern_heldReqs (g : Nat) (s : State) : (govern g s).heldReqs = s.heldReqs := by
  obtain ⟨⟨_, _, _, _, h⟩, _⟩ := OnlyRaises.govern g s; rw [h]

@[simp] theorem govern_mergeAns (g : Nat) (s : State) : (govern g s).mergeAns = s.mergeAns := by
  obtain ⟨⟨_, _, _, _, h⟩, _⟩ := OnlyRaises.govern g s; rw [h]

@[simp] theorem govern_launchWait (g : Nat) (s : State) : (govern g s).launchWait = s.launchWait := by
  obtain ⟨⟨_, _, _, _, h⟩, _⟩ := OnlyRaises.govern g s; rw [h]

@[simp] theorem govern_reqAt (g : Nat) (s : State) : (govern g s).reqAt = s.reqAt := by
  obtain ⟨⟨_, _, _, _, h⟩, _⟩ := OnlyRaises.govern g s; rw [h]

@[simp] theorem govern_waited (g : Nat) (s : State) : (govern g s).waited = s.waited := by
  obtain ⟨⟨_, _, _, _, h⟩, _⟩ := OnlyRaises.govern g s; rw [h]

@[simp] theorem govern_pwr_headroom (g : Nat) (s : State) : (govern g s).pwr.headroom = s.pwr.headroom := by
  obtain ⟨⟨_, _, _, _, h⟩, _⟩ := OnlyRaises.govern g s; rw [h]

@[simp] theorem govern_pwr_over (g : Nat) (s : State) : (govern g s).pwr.over_ = s.pwr.over_ := by
  obtain ⟨⟨_, _, _, _, h⟩, _⟩ := OnlyRaises.govern g s; rw [h]

@[simp] theorem govern_pwr_overSince (g : Nat) (s : State) : (govern g s).pwr.overSince = s.pwr.overSince := by
  obtain ⟨⟨_, _, _, _, h⟩, _⟩ := OnlyRaises.govern g s; rw [h]

@[simp] theorem govern_pwr_overLogged (g : Nat) (s : State) : (govern g s).pwr.overLogged = s.pwr.overLogged := by
  obtain ⟨⟨_, _, _, _, h⟩, _⟩ := OnlyRaises.govern g s; rw [h]

@[simp] theorem govern_pwr_underSince (g : Nat) (s : State) : (govern g s).pwr.underSince = s.pwr.underSince := by
  obtain ⟨⟨_, _, _, _, h⟩, _⟩ := OnlyRaises.govern g s; rw [h]

@[simp] theorem govern_pwr_seq (g : Nat) (s : State) : (govern g s).pwr.seq = s.pwr.seq := by
  obtain ⟨⟨_, _, _, _, h⟩, _⟩ := OnlyRaises.govern g s; rw [h]

@[simp] theorem govern_pwr_frames (g : Nat) (s : State) : (govern g s).pwr.frames = s.pwr.frames := by
  obtain ⟨⟨_, _, _, _, h⟩, _⟩ := OnlyRaises.govern g s; rw [h]

@[simp] theorem govern_pwr_late (g : Nat) (s : State) : (govern g s).pwr.late = s.pwr.late := by
  obtain ⟨⟨_, _, _, _, h⟩, _⟩ := OnlyRaises.govern g s; rw [h]

@[simp] theorem govern_pwr_steps (g : Nat) (s : State) : (govern g s).pwr.steps = s.pwr.steps := by
  obtain ⟨⟨_, _, _, _, h⟩, _⟩ := OnlyRaises.govern g s; rw [h]

@[simp] theorem govern_pwr_sagIrq (g : Nat) (s : State) : (govern g s).pwr.sagIrq = s.pwr.sagIrq := by
  obtain ⟨⟨_, _, _, _, h⟩, _⟩ := OnlyRaises.govern g s; rw [h]

@[simp] theorem govern_pwr_sagClampEn (g : Nat) (s : State) : (govern g s).pwr.sagClampEn = s.pwr.sagClampEn := by
  obtain ⟨⟨_, _, _, _, h⟩, _⟩ := OnlyRaises.govern g s; rw [h]

@[simp] theorem govern_pwr_warn (g : Nat) (s : State) : (govern g s).pwr.warn = s.pwr.warn := by
  obtain ⟨⟨_, _, _, _, h⟩, _⟩ := OnlyRaises.govern g s; rw [h]

@[simp] theorem govern_pwr_warned (g : Nat) (s : State) : (govern g s).pwr.warned = s.pwr.warned := by
  obtain ⟨⟨_, _, _, _, h⟩, _⟩ := OnlyRaises.govern g s; rw [h]

@[simp] theorem govern_pwr_resetRail (g : Nat) (s : State) : (govern g s).pwr.resetRail = s.pwr.resetRail := by
  obtain ⟨⟨_, _, _, _, h⟩, _⟩ := OnlyRaises.govern g s; rw [h]

@[simp] theorem govern_pwr_vinMin (g : Nat) (s : State) : (govern g s).pwr.vinMin = s.pwr.vinMin := by
  obtain ⟨⟨_, _, _, _, h⟩, _⟩ := OnlyRaises.govern g s; rw [h]

@[simp] theorem govern_pwr_sagActive (g : Nat) (s : State) : (govern g s).pwr.sagActive = s.pwr.sagActive := by
  obtain ⟨⟨_, _, _, _, h⟩, _⟩ := OnlyRaises.govern g s; rw [h]

@[simp] theorem govern_pwr_sagClamp (g : Nat) (s : State) : (govern g s).pwr.sagClamp = s.pwr.sagClamp := by
  obtain ⟨⟨_, _, _, _, h⟩, _⟩ := OnlyRaises.govern g s; rw [h]

@[simp] theorem govern_pwr_clearAt (g : Nat) (s : State) : (govern g s).pwr.clearAt = s.pwr.clearAt := by
  obtain ⟨⟨_, _, _, _, h⟩, _⟩ := OnlyRaises.govern g s; rw [h]


/-- The cores' shares of edges change nothing else of a core. -/
theorem recomputeK_core (g : Nat) (s : State) (g' n' : Nat) :
    ∃ k, (recomputeK g s).core g' n' = { s.core g' n' with k := k } := by
  unfold recomputeK
  generalize List.range 16 = l
  induction l generalizing s with
  | nil => exact ⟨_, rfl⟩
  | cons n l ih =>
    obtain ⟨k, h⟩ := ih (s.setCore g n { s.core g n with k := keepOf s g n (mvNow s g) (s.gal g).point })
    rw [List.foldl_cons, h]
    by_cases e : 16 * g' + n' = 16 * g + n
    · refine ⟨k, ?_⟩
      simp [State.core, State.setCore, e]
    · refine ⟨k, ?_⟩
      simp [State.core, State.setCore, Tbl.look_put_other _ _ _ e]

/-! A loss noted leaves every other field. -/

@[simp] theorem noteLoss_pending (g i c : Nat) (s : State) : (noteLoss g i c s).pending = s.pending := by
  obtain ⟨_, h⟩ := noteLoss_frame g i c s; rw [h]

@[simp] theorem noteLoss_now (g i c : Nat) (s : State) : (noteLoss g i c s).now = s.now := by
  obtain ⟨_, h⟩ := noteLoss_frame g i c s; rw [h]

@[simp] theorem noteLoss_free (g i c : Nat) (s : State) : (noteLoss g i c s).free = s.free := by
  obtain ⟨_, h⟩ := noteLoss_frame g i c s; rw [h]

@[simp] theorem noteLoss_out (g i c : Nat) (s : State) : (noteLoss g i c s).out = s.out := by
  obtain ⟨_, h⟩ := noteLoss_frame g i c s; rw [h]

@[simp] theorem noteLoss_tclk (g i c : Nat) (s : State) : (noteLoss g i c s).tclk = s.tclk := by
  obtain ⟨_, h⟩ := noteLoss_frame g i c s; rw [h]

@[simp] theorem noteLoss_latches (g i c : Nat) (s : State) : (noteLoss g i c s).latches = s.latches := by
  obtain ⟨_, h⟩ := noteLoss_frame g i c s; rw [h]

@[simp] theorem noteLoss_pendLow (g i c : Nat) (s : State) : (noteLoss g i c s).pendLow = s.pendLow := by
  obtain ⟨_, h⟩ := noteLoss_frame g i c s; rw [h]

@[simp] theorem noteLoss_fuses (g i c : Nat) (s : State) : (noteLoss g i c s).fuses = s.fuses := by
  obtain ⟨_, h⟩ := noteLoss_frame g i c s; rw [h]

@[simp] theorem noteLoss_chr (g i c : Nat) (s : State) : (noteLoss g i c s).chr = s.chr := by
  obtain ⟨_, h⟩ := noteLoss_frame g i c s; rw [h]

@[simp] theorem noteLoss_committed (g i c : Nat) (s : State) : (noteLoss g i c s).committed = s.committed := by
  obtain ⟨_, h⟩ := noteLoss_frame g i c s; rw [h]

@[simp] theorem noteLoss_glb (g i c : Nat) (s : State) : (noteLoss g i c s).glb = s.glb := by
  obtain ⟨_, h⟩ := noteLoss_frame g i c s; rw [h]

@[simp] theorem noteLoss_evt (g i c : Nat) (s : State) : (noteLoss g i c s).evt = s.evt := by
  obtain ⟨_, h⟩ := noteLoss_frame g i c s; rw [h]

@[simp] theorem noteLoss_pwr (g i c : Nat) (s : State) : (noteLoss g i c s).pwr = s.pwr := by
  obtain ⟨_, h⟩ := noteLoss_frame g i c s; rw [h]

@[simp] theorem noteLoss_clk (g i c : Nat) (s : State) : (noteLoss g i c s).clk = s.clk := by
  obtain ⟨_, h⟩ := noteLoss_frame g i c s; rw [h]

@[simp] theorem noteLoss_thm (g i c : Nat) (s : State) : (noteLoss g i c s).thm = s.thm := by
  obtain ⟨_, h⟩ := noteLoss_frame g i c s; rw [h]

@[simp] theorem noteLoss_cans (g i c : Nat) (s : State) : (noteLoss g i c s).cans = s.cans := by
  obtain ⟨_, h⟩ := noteLoss_frame g i c s; rw [h]

@[simp] theorem noteLoss_pairs (g i c : Nat) (s : State) : (noteLoss g i c s).pairs = s.pairs := by
  obtain ⟨_, h⟩ := noteLoss_frame g i c s; rw [h]

@[simp] theorem noteLoss_gals (g i c : Nat) (s : State) : (noteLoss g i c s).gals = s.gals := by
  obtain ⟨_, h⟩ := noteLoss_frame g i c s; rw [h]

@[simp] theorem noteLoss_cores (g i c : Nat) (s : State) : (noteLoss g i c s).cores = s.cores := by
  obtain ⟨_, h⟩ := noteLoss_frame g i c s; rw [h]

@[simp] theorem noteLoss_crews (g i c : Nat) (s : State) : (noteLoss g i c s).crews = s.crews := by
  obtain ⟨_, h⟩ := noteLoss_frame g i c s; rw [h]

@[simp] theorem noteLoss_hewers (g i c : Nat) (s : State) : (noteLoss g i c s).hewers = s.hewers := by
  obtain ⟨_, h⟩ := noteLoss_frame g i c s; rw [h]

@[simp] theorem noteLoss_drs (g i c : Nat) (s : State) : (noteLoss g i c s).drs = s.drs := by
  obtain ⟨_, h⟩ := noteLoss_frame g i c s; rw [h]

@[simp] theorem noteLoss_toks (g i c : Nat) (s : State) : (noteLoss g i c s).toks = s.toks := by
  obtain ⟨_, h⟩ := noteLoss_frame g i c s; rw [h]

@[simp] theorem noteLoss_flowClamp (g i c : Nat) (s : State) : (noteLoss g i c s).flowClamp = s.flowClamp := by
  obtain ⟨_, h⟩ := noteLoss_frame g i c s; rw [h]

@[simp] theorem noteLoss_layerSuspect (g i c : Nat) (s : State) : (noteLoss g i c s).layerSuspect = s.layerSuspect := by
  obtain ⟨_, h⟩ := noteLoss_frame g i c s; rw [h]

@[simp] theorem noteLoss_arrQ (g i c : Nat) (s : State) : (noteLoss g i c s).arrQ = s.arrQ := by
  obtain ⟨_, h⟩ := noteLoss_frame g i c s; rw [h]

@[simp] theorem noteLoss_crewMap (g i c : Nat) (s : State) : (noteLoss g i c s).crewMap = s.crewMap := by
  obtain ⟨_, h⟩ := noteLoss_frame g i c s; rw [h]

@[simp] theorem noteLoss_seams (g i c : Nat) (s : State) : (noteLoss g i c s).seams = s.seams := by
  obtain ⟨_, h⟩ := noteLoss_frame g i c s; rw [h]

@[simp] theorem noteLoss_faces (g i c : Nat) (s : State) : (noteLoss g i c s).faces = s.faces := by
  obtain ⟨_, h⟩ := noteLoss_frame g i c s; rw [h]

@[simp] theorem noteLoss_merges (g i c : Nat) (s : State) : (noteLoss g i c s).merges = s.merges := by
  obtain ⟨_, h⟩ := noteLoss_frame g i c s; rw [h]

@[simp] theorem noteLoss_slots (g i c : Nat) (s : State) : (noteLoss g i c s).slots = s.slots := by
  obtain ⟨_, h⟩ := noteLoss_frame g i c s; rw [h]

@[simp] theorem noteLoss_pages (g i c : Nat) (s : State) : (noteLoss g i c s).pages = s.pages := by
  obtain ⟨_, h⟩ := noteLoss_frame g i c s; rw [h]

@[simp] theorem noteLoss_vein (g i c : Nat) (s : State) : (noteLoss g i c s).vein = s.vein := by
  obtain ⟨_, h⟩ := noteLoss_frame g i c s; rw [h]

@[simp] theorem noteLoss_vports (g i c : Nat) (s : State) : (noteLoss g i c s).vports = s.vports := by
  obtain ⟨_, h⟩ := noteLoss_frame g i c s; rw [h]

@[simp] theorem noteLoss_millStall (g i c : Nat) (s : State) : (noteLoss g i c s).millStall = s.millStall := by
  obtain ⟨_, h⟩ := noteLoss_frame g i c s; rw [h]

@[simp] theorem noteLoss_millFlagged (g i c : Nat) (s : State) : (noteLoss g i c s).millFlagged = s.millFlagged := by
  obtain ⟨_, h⟩ := noteLoss_frame g i c s; rw [h]

@[simp] theorem noteLoss_engs (g i c : Nat) (s : State) : (noteLoss g i c s).engs = s.engs := by
  obtain ⟨_, h⟩ := noteLoss_frame g i c s; rw [h]

@[simp] theorem noteLoss_adits (g i c : Nat) (s : State) : (noteLoss g i c s).adits = s.adits := by
  obtain ⟨_, h⟩ := noteLoss_frame g i c s; rw [h]

@[simp] theorem noteLoss_fld (g i c : Nat) (s : State) : (noteLoss g i c s).fld = s.fld := by
  obtain ⟨_, h⟩ := noteLoss_frame g i c s; rw [h]

@[simp] theorem noteLoss_members (g i c : Nat) (s : State) : (noteLoss g i c s).members = s.members := by
  obtain ⟨_, h⟩ := noteLoss_frame g i c s; rw [h]

@[simp] theorem noteLoss_linkmaps (g i c : Nat) (s : State) : (noteLoss g i c s).linkmaps = s.linkmaps := by
  obtain ⟨_, h⟩ := noteLoss_frame g i c s; rw [h]

@[simp] theorem noteLoss_hif (g i c : Nat) (s : State) : (noteLoss g i c s).hif = s.hif := by
  obtain ⟨_, h⟩ := noteLoss_frame g i c s; rw [h]

@[simp] theorem noteLoss_fns (g i c : Nat) (s : State) : (noteLoss g i c s).fns = s.fns := by
  obtain ⟨_, h⟩ := noteLoss_frame g i c s; rw [h]

@[simp] theorem noteLoss_chks (g i c : Nat) (s : State) : (noteLoss g i c s).chks = s.chks := by
  obtain ⟨_, h⟩ := noteLoss_frame g i c s; rw [h]

@[simp] theorem noteLoss_sec (g i c : Nat) (s : State) : (noteLoss g i c s).sec = s.sec := by
  obtain ⟨_, h⟩ := noteLoss_frame g i c s; rw [h]

@[simp] theorem noteLoss_buckets (g i c : Nat) (s : State) : (noteLoss g i c s).buckets = s.buckets := by
  obtain ⟨_, h⟩ := noteLoss_frame g i c s; rw [h]

@[simp] theorem noteLoss_scrubs (g i c : Nat) (s : State) : (noteLoss g i c s).scrubs = s.scrubs := by
  obtain ⟨_, h⟩ := noteLoss_frame g i c s; rw [h]

@[simp] theorem noteLoss_errs (g i c : Nat) (s : State) : (noteLoss g i c s).errs = s.errs := by
  obtain ⟨_, h⟩ := noteLoss_frame g i c s; rw [h]

@[simp] theorem noteLoss_seamMem (g i c : Nat) (s : State) : (noteLoss g i c s).seamMem = s.seamMem := by
  obtain ⟨_, h⟩ := noteLoss_frame g i c s; rw [h]

@[simp] theorem noteLoss_binMem (g i c : Nat) (s : State) : (noteLoss g i c s).binMem = s.binMem := by
  obtain ⟨_, h⟩ := noteLoss_frame g i c s; rw [h]

@[simp] theorem noteLoss_storeMem (g i c : Nat) (s : State) : (noteLoss g i c s).storeMem = s.storeMem := by
  obtain ⟨_, h⟩ := noteLoss_frame g i c s; rw [h]

@[simp] theorem noteLoss_stockMem (g i c : Nat) (s : State) : (noteLoss g i c s).stockMem = s.stockMem := by
  obtain ⟨_, h⟩ := noteLoss_frame g i c s; rw [h]

@[simp] theorem noteLoss_lsMem (g i c : Nat) (s : State) : (noteLoss g i c s).lsMem = s.lsMem := by
  obtain ⟨_, h⟩ := noteLoss_frame g i c s; rw [h]

@[simp] theorem noteLoss_tlyMem (g i c : Nat) (s : State) : (noteLoss g i c s).tlyMem = s.tlyMem := by
  obtain ⟨_, h⟩ := noteLoss_frame g i c s; rw [h]

@[simp] theorem noteLoss_bufMem (g i c : Nat) (s : State) : (noteLoss g i c s).bufMem = s.bufMem := by
  obtain ⟨_, h⟩ := noteLoss_frame g i c s; rw [h]

@[simp] theorem noteLoss_slotMem (g i c : Nat) (s : State) : (noteLoss g i c s).slotMem = s.slotMem := by
  obtain ⟨_, h⟩ := noteLoss_frame g i c s; rw [h]

@[simp] theorem noteLoss_heldReqs (g i c : Nat) (s : State) : (noteLoss g i c s).heldReqs = s.heldReqs := by
  obtain ⟨_, h⟩ := noteLoss_frame g i c s; rw [h]

@[simp] theorem noteLoss_mergeAns (g i c : Nat) (s : State) : (noteLoss g i c s).mergeAns = s.mergeAns := by
  obtain ⟨_, h⟩ := noteLoss_frame g i c s; rw [h]

@[simp] theorem noteLoss_launchWait (g i c : Nat) (s : State) : (noteLoss g i c s).launchWait = s.launchWait := by
  obtain ⟨_, h⟩ := noteLoss_frame g i c s; rw [h]

@[simp] theorem noteLoss_reqAt (g i c : Nat) (s : State) : (noteLoss g i c s).reqAt = s.reqAt := by
  obtain ⟨_, h⟩ := noteLoss_frame g i c s; rw [h]

@[simp] theorem noteLoss_waited (g i c : Nat) (s : State) : (noteLoss g i c s).waited = s.waited := by
  obtain ⟨_, h⟩ := noteLoss_frame g i c s; rw [h]

@[simp] theorem noteLoss_brg_step (g i c : Nat) (s : State) : (noteLoss g i c s).brg.step = s.brg.step := by
  obtain ⟨_, h⟩ := noteLoss_frame g i c s; rw [h]

@[simp] theorem noteLoss_brg_state (g i c : Nat) (s : State) : (noteLoss g i c s).brg.state = s.brg.state := by
  obtain ⟨_, h⟩ := noteLoss_frame g i c s; rw [h]

@[simp] theorem noteLoss_brg_status (g i c : Nat) (s : State) : (noteLoss g i c s).brg.status = s.brg.status := by
  obtain ⟨_, h⟩ := noteLoss_frame g i c s; rw [h]

@[simp] theorem noteLoss_brg_orderErr (g i c : Nat) (s : State) : (noteLoss g i c s).brg.orderErr = s.brg.orderErr := by
  obtain ⟨_, h⟩ := noteLoss_frame g i c s; rw [h]

@[simp] theorem noteLoss_brg_detail (g i c : Nat) (s : State) : (noteLoss g i c s).brg.detail = s.brg.detail := by
  obtain ⟨_, h⟩ := noteLoss_frame g i c s; rw [h]

@[simp] theorem noteLoss_brg_stepAt (g i c : Nat) (s : State) : (noteLoss g i c s).brg.stepAt = s.brg.stepAt := by
  obtain ⟨_, h⟩ := noteLoss_frame g i c s; rw [h]

@[simp] theorem noteLoss_brg_stepPaused (g i c : Nat) (s : State) : (noteLoss g i c s).brg.stepPaused = s.brg.stepPaused := by
  obtain ⟨_, h⟩ := noteLoss_frame g i c s; rw [h]

@[simp] theorem noteLoss_brg_result (g i c : Nat) (s : State) : (noteLoss g i c s).brg.result = s.brg.result := by
  obtain ⟨_, h⟩ := noteLoss_frame g i c s; rw [h]

@[simp] theorem noteLoss_brg_done (g i c : Nat) (s : State) : (noteLoss g i c s).brg.done = s.brg.done := by
  obtain ⟨_, h⟩ := noteLoss_frame g i c s; rw [h]

@[simp] theorem noteLoss_brg_chResult (g i c : Nat) (s : State) : (noteLoss g i c s).brg.chResult = s.brg.chResult := by
  obtain ⟨_, h⟩ := noteLoss_frame g i c s; rw [h]

@[simp] theorem noteLoss_brg_featA (g i c : Nat) (s : State) : (noteLoss g i c s).brg.featA = s.brg.featA := by
  obtain ⟨_, h⟩ := noteLoss_frame g i c s; rw [h]

@[simp] theorem noteLoss_brg_featB (g i c : Nat) (s : State) : (noteLoss g i c s).brg.featB = s.brg.featB := by
  obtain ⟨_, h⟩ := noteLoss_frame g i c s; rw [h]

@[simp] theorem noteLoss_brg_resource (g i c : Nat) (s : State) : (noteLoss g i c s).brg.resource = s.brg.resource := by
  obtain ⟨_, h⟩ := noteLoss_frame g i c s; rw [h]

@[simp] theorem noteLoss_brg_keepDram (g i c : Nat) (s : State) : (noteLoss g i c s).brg.keepDram = s.brg.keepDram := by
  obtain ⟨_, h⟩ := noteLoss_frame g i c s; rw [h]

@[simp] theorem noteLoss_brg_discard (g i c : Nat) (s : State) : (noteLoss g i c s).brg.discard = s.brg.discard := by
  obtain ⟨_, h⟩ := noteLoss_frame g i c s; rw [h]

@[simp] theorem noteLoss_brg_lost (g i c : Nat) (s : State) : (noteLoss g i c s).brg.lost = s.brg.lost := by
  obtain ⟨_, h⟩ := noteLoss_frame g i c s; rw [h]

@[simp] theorem noteLoss_brg_warm (g i c : Nat) (s : State) : (noteLoss g i c s).brg.warm = s.brg.warm := by
  obtain ⟨_, h⟩ := noteLoss_frame g i c s; rw [h]

@[simp] theorem noteLoss_brg_powered (g i c : Nat) (s : State) : (noteLoss g i c s).brg.powered = s.brg.powered := by
  obtain ⟨_, h⟩ := noteLoss_frame g i c s; rw [h]

@[simp] theorem noteLoss_brg_charterDone (g i c : Nat) (s : State) : (noteLoss g i c s).brg.charterDone = s.brg.charterDone := by
  obtain ⟨_, h⟩ := noteLoss_frame g i c s; rw [h]

@[simp] theorem noteLoss_brg_surveyA (g i c : Nat) (s : State) : (noteLoss g i c s).brg.surveyA = s.brg.surveyA := by
  obtain ⟨_, h⟩ := noteLoss_frame g i c s; rw [h]

@[simp] theorem noteLoss_brg_surveyB (g i c : Nat) (s : State) : (noteLoss g i c s).brg.surveyB = s.brg.surveyB := by
  obtain ⟨_, h⟩ := noteLoss_frame g i c s; rw [h]

@[simp] theorem noteLoss_brg_entries (g i c : Nat) (s : State) : (noteLoss g i c s).brg.entries = s.brg.entries := by
  obtain ⟨_, h⟩ := noteLoss_frame g i c s; rw [h]

@[simp] theorem noteLoss_brg_assayBad (g i c : Nat) (s : State) : (noteLoss g i c s).brg.assayBad = s.brg.assayBad := by
  obtain ⟨_, h⟩ := noteLoss_frame g i c s; rw [h]

@[simp] theorem noteLoss_brg_ageUnwritten (g i c : Nat) (s : State) : (noteLoss g i c s).brg.ageUnwritten = s.brg.ageUnwritten := by
  obtain ⟨_, h⟩ := noteLoss_frame g i c s; rw [h]

@[simp] theorem noteLoss_brg_remapUnwritten (g i c : Nat) (s : State) : (noteLoss g i c s).brg.remapUnwritten = s.brg.remapUnwritten := by
  obtain ⟨_, h⟩ := noteLoss_frame g i c s; rw [h]

@[simp] theorem noteLoss_brg_foreman (g i c : Nat) (s : State) : (noteLoss g i c s).brg.foreman = s.brg.foreman := by
  obtain ⟨_, h⟩ := noteLoss_frame g i c s; rw [h]

@[simp] theorem noteLoss_brg_foremanAt (g i c : Nat) (s : State) : (noteLoss g i c s).brg.foremanAt = s.brg.foremanAt := by
  obtain ⟨_, h⟩ := noteLoss_frame g i c s; rw [h]

@[simp] theorem noteLoss_brg_foremanCause (g i c : Nat) (s : State) : (noteLoss g i c s).brg.foremanCause = s.brg.foremanCause := by
  obtain ⟨_, h⟩ := noteLoss_frame g i c s; rw [h]

@[simp] theorem noteLoss_brg_stockReset (g i c : Nat) (s : State) : (noteLoss g i c s).brg.stockReset = s.brg.stockReset := by
  obtain ⟨_, h⟩ := noteLoss_frame g i c s; rw [h]

@[simp] theorem noteLoss_brg_stockSelf (g i c : Nat) (s : State) : (noteLoss g i c s).brg.stockSelf = s.brg.stockSelf := by
  obtain ⟨_, h⟩ := noteLoss_frame g i c s; rw [h]

@[simp] theorem noteLoss_brg_syncLow (g i c : Nat) (s : State) : (noteLoss g i c s).brg.syncLow = s.brg.syncLow := by
  obtain ⟨_, h⟩ := noteLoss_frame g i c s; rw [h]


/-! So do the cores' shares of edges. -/

@[simp] theorem recomputeK_pending (g : Nat) (s : State) : (recomputeK g s).pending = s.pending := by
  obtain ⟨_, h⟩ := recomputeK_frame g s; rw [h]

@[simp] theorem recomputeK_now (g : Nat) (s : State) : (recomputeK g s).now = s.now := by
  obtain ⟨_, h⟩ := recomputeK_frame g s; rw [h]

@[simp] theorem recomputeK_free (g : Nat) (s : State) : (recomputeK g s).free = s.free := by
  obtain ⟨_, h⟩ := recomputeK_frame g s; rw [h]

@[simp] theorem recomputeK_out (g : Nat) (s : State) : (recomputeK g s).out = s.out := by
  obtain ⟨_, h⟩ := recomputeK_frame g s; rw [h]

@[simp] theorem recomputeK_tclk (g : Nat) (s : State) : (recomputeK g s).tclk = s.tclk := by
  obtain ⟨_, h⟩ := recomputeK_frame g s; rw [h]

@[simp] theorem recomputeK_latches (g : Nat) (s : State) : (recomputeK g s).latches = s.latches := by
  obtain ⟨_, h⟩ := recomputeK_frame g s; rw [h]

@[simp] theorem recomputeK_pendLow (g : Nat) (s : State) : (recomputeK g s).pendLow = s.pendLow := by
  obtain ⟨_, h⟩ := recomputeK_frame g s; rw [h]

@[simp] theorem recomputeK_fuses (g : Nat) (s : State) : (recomputeK g s).fuses = s.fuses := by
  obtain ⟨_, h⟩ := recomputeK_frame g s; rw [h]

@[simp] theorem recomputeK_chr (g : Nat) (s : State) : (recomputeK g s).chr = s.chr := by
  obtain ⟨_, h⟩ := recomputeK_frame g s; rw [h]

@[simp] theorem recomputeK_committed (g : Nat) (s : State) : (recomputeK g s).committed = s.committed := by
  obtain ⟨_, h⟩ := recomputeK_frame g s; rw [h]

@[simp] theorem recomputeK_glb (g : Nat) (s : State) : (recomputeK g s).glb = s.glb := by
  obtain ⟨_, h⟩ := recomputeK_frame g s; rw [h]

@[simp] theorem recomputeK_evt (g : Nat) (s : State) : (recomputeK g s).evt = s.evt := by
  obtain ⟨_, h⟩ := recomputeK_frame g s; rw [h]

@[simp] theorem recomputeK_pwr (g : Nat) (s : State) : (recomputeK g s).pwr = s.pwr := by
  obtain ⟨_, h⟩ := recomputeK_frame g s; rw [h]

@[simp] theorem recomputeK_clk (g : Nat) (s : State) : (recomputeK g s).clk = s.clk := by
  obtain ⟨_, h⟩ := recomputeK_frame g s; rw [h]

@[simp] theorem recomputeK_thm (g : Nat) (s : State) : (recomputeK g s).thm = s.thm := by
  obtain ⟨_, h⟩ := recomputeK_frame g s; rw [h]

@[simp] theorem recomputeK_cans (g : Nat) (s : State) : (recomputeK g s).cans = s.cans := by
  obtain ⟨_, h⟩ := recomputeK_frame g s; rw [h]

@[simp] theorem recomputeK_pairs (g : Nat) (s : State) : (recomputeK g s).pairs = s.pairs := by
  obtain ⟨_, h⟩ := recomputeK_frame g s; rw [h]

@[simp] theorem recomputeK_gals (g : Nat) (s : State) : (recomputeK g s).gals = s.gals := by
  obtain ⟨_, h⟩ := recomputeK_frame g s; rw [h]

@[simp] theorem recomputeK_crews (g : Nat) (s : State) : (recomputeK g s).crews = s.crews := by
  obtain ⟨_, h⟩ := recomputeK_frame g s; rw [h]

@[simp] theorem recomputeK_hewers (g : Nat) (s : State) : (recomputeK g s).hewers = s.hewers := by
  obtain ⟨_, h⟩ := recomputeK_frame g s; rw [h]

@[simp] theorem recomputeK_drs (g : Nat) (s : State) : (recomputeK g s).drs = s.drs := by
  obtain ⟨_, h⟩ := recomputeK_frame g s; rw [h]

@[simp] theorem recomputeK_toks (g : Nat) (s : State) : (recomputeK g s).toks = s.toks := by
  obtain ⟨_, h⟩ := recomputeK_frame g s; rw [h]

@[simp] theorem recomputeK_flowClamp (g : Nat) (s : State) : (recomputeK g s).flowClamp = s.flowClamp := by
  obtain ⟨_, h⟩ := recomputeK_frame g s; rw [h]

@[simp] theorem recomputeK_layerSuspect (g : Nat) (s : State) : (recomputeK g s).layerSuspect = s.layerSuspect := by
  obtain ⟨_, h⟩ := recomputeK_frame g s; rw [h]

@[simp] theorem recomputeK_arrQ (g : Nat) (s : State) : (recomputeK g s).arrQ = s.arrQ := by
  obtain ⟨_, h⟩ := recomputeK_frame g s; rw [h]

@[simp] theorem recomputeK_crewMap (g : Nat) (s : State) : (recomputeK g s).crewMap = s.crewMap := by
  obtain ⟨_, h⟩ := recomputeK_frame g s; rw [h]

@[simp] theorem recomputeK_seams (g : Nat) (s : State) : (recomputeK g s).seams = s.seams := by
  obtain ⟨_, h⟩ := recomputeK_frame g s; rw [h]

@[simp] theorem recomputeK_faces (g : Nat) (s : State) : (recomputeK g s).faces = s.faces := by
  obtain ⟨_, h⟩ := recomputeK_frame g s; rw [h]

@[simp] theorem recomputeK_merges (g : Nat) (s : State) : (recomputeK g s).merges = s.merges := by
  obtain ⟨_, h⟩ := recomputeK_frame g s; rw [h]

@[simp] theorem recomputeK_slots (g : Nat) (s : State) : (recomputeK g s).slots = s.slots := by
  obtain ⟨_, h⟩ := recomputeK_frame g s; rw [h]

@[simp] theorem recomputeK_pages (g : Nat) (s : State) : (recomputeK g s).pages = s.pages := by
  obtain ⟨_, h⟩ := recomputeK_frame g s; rw [h]

@[simp] theorem recomputeK_vein (g : Nat) (s : State) : (recomputeK g s).vein = s.vein := by
  obtain ⟨_, h⟩ := recomputeK_frame g s; rw [h]

@[simp] theorem recomputeK_vports (g : Nat) (s : State) : (recomputeK g s).vports = s.vports := by
  obtain ⟨_, h⟩ := recomputeK_frame g s; rw [h]

@[simp] theorem recomputeK_millStall (g : Nat) (s : State) : (recomputeK g s).millStall = s.millStall := by
  obtain ⟨_, h⟩ := recomputeK_frame g s; rw [h]

@[simp] theorem recomputeK_millFlagged (g : Nat) (s : State) : (recomputeK g s).millFlagged = s.millFlagged := by
  obtain ⟨_, h⟩ := recomputeK_frame g s; rw [h]

@[simp] theorem recomputeK_engs (g : Nat) (s : State) : (recomputeK g s).engs = s.engs := by
  obtain ⟨_, h⟩ := recomputeK_frame g s; rw [h]

@[simp] theorem recomputeK_adits (g : Nat) (s : State) : (recomputeK g s).adits = s.adits := by
  obtain ⟨_, h⟩ := recomputeK_frame g s; rw [h]

@[simp] theorem recomputeK_fld (g : Nat) (s : State) : (recomputeK g s).fld = s.fld := by
  obtain ⟨_, h⟩ := recomputeK_frame g s; rw [h]

@[simp] theorem recomputeK_members (g : Nat) (s : State) : (recomputeK g s).members = s.members := by
  obtain ⟨_, h⟩ := recomputeK_frame g s; rw [h]

@[simp] theorem recomputeK_linkmaps (g : Nat) (s : State) : (recomputeK g s).linkmaps = s.linkmaps := by
  obtain ⟨_, h⟩ := recomputeK_frame g s; rw [h]

@[simp] theorem recomputeK_hif (g : Nat) (s : State) : (recomputeK g s).hif = s.hif := by
  obtain ⟨_, h⟩ := recomputeK_frame g s; rw [h]

@[simp] theorem recomputeK_fns (g : Nat) (s : State) : (recomputeK g s).fns = s.fns := by
  obtain ⟨_, h⟩ := recomputeK_frame g s; rw [h]

@[simp] theorem recomputeK_chks (g : Nat) (s : State) : (recomputeK g s).chks = s.chks := by
  obtain ⟨_, h⟩ := recomputeK_frame g s; rw [h]

@[simp] theorem recomputeK_sec (g : Nat) (s : State) : (recomputeK g s).sec = s.sec := by
  obtain ⟨_, h⟩ := recomputeK_frame g s; rw [h]

@[simp] theorem recomputeK_brg (g : Nat) (s : State) : (recomputeK g s).brg = s.brg := by
  obtain ⟨_, h⟩ := recomputeK_frame g s; rw [h]

@[simp] theorem recomputeK_buckets (g : Nat) (s : State) : (recomputeK g s).buckets = s.buckets := by
  obtain ⟨_, h⟩ := recomputeK_frame g s; rw [h]

@[simp] theorem recomputeK_scrubs (g : Nat) (s : State) : (recomputeK g s).scrubs = s.scrubs := by
  obtain ⟨_, h⟩ := recomputeK_frame g s; rw [h]

@[simp] theorem recomputeK_errs (g : Nat) (s : State) : (recomputeK g s).errs = s.errs := by
  obtain ⟨_, h⟩ := recomputeK_frame g s; rw [h]

@[simp] theorem recomputeK_seamMem (g : Nat) (s : State) : (recomputeK g s).seamMem = s.seamMem := by
  obtain ⟨_, h⟩ := recomputeK_frame g s; rw [h]

@[simp] theorem recomputeK_binMem (g : Nat) (s : State) : (recomputeK g s).binMem = s.binMem := by
  obtain ⟨_, h⟩ := recomputeK_frame g s; rw [h]

@[simp] theorem recomputeK_storeMem (g : Nat) (s : State) : (recomputeK g s).storeMem = s.storeMem := by
  obtain ⟨_, h⟩ := recomputeK_frame g s; rw [h]

@[simp] theorem recomputeK_stockMem (g : Nat) (s : State) : (recomputeK g s).stockMem = s.stockMem := by
  obtain ⟨_, h⟩ := recomputeK_frame g s; rw [h]

@[simp] theorem recomputeK_lsMem (g : Nat) (s : State) : (recomputeK g s).lsMem = s.lsMem := by
  obtain ⟨_, h⟩ := recomputeK_frame g s; rw [h]

@[simp] theorem recomputeK_tlyMem (g : Nat) (s : State) : (recomputeK g s).tlyMem = s.tlyMem := by
  obtain ⟨_, h⟩ := recomputeK_frame g s; rw [h]

@[simp] theorem recomputeK_bufMem (g : Nat) (s : State) : (recomputeK g s).bufMem = s.bufMem := by
  obtain ⟨_, h⟩ := recomputeK_frame g s; rw [h]

@[simp] theorem recomputeK_slotMem (g : Nat) (s : State) : (recomputeK g s).slotMem = s.slotMem := by
  obtain ⟨_, h⟩ := recomputeK_frame g s; rw [h]

@[simp] theorem recomputeK_heldReqs (g : Nat) (s : State) : (recomputeK g s).heldReqs = s.heldReqs := by
  obtain ⟨_, h⟩ := recomputeK_frame g s; rw [h]

@[simp] theorem recomputeK_mergeAns (g : Nat) (s : State) : (recomputeK g s).mergeAns = s.mergeAns := by
  obtain ⟨_, h⟩ := recomputeK_frame g s; rw [h]

@[simp] theorem recomputeK_launchWait (g : Nat) (s : State) : (recomputeK g s).launchWait = s.launchWait := by
  obtain ⟨_, h⟩ := recomputeK_frame g s; rw [h]

@[simp] theorem recomputeK_reqAt (g : Nat) (s : State) : (recomputeK g s).reqAt = s.reqAt := by
  obtain ⟨_, h⟩ := recomputeK_frame g s; rw [h]

@[simp] theorem recomputeK_waited (g : Nat) (s : State) : (recomputeK g s).waited = s.waited := by
  obtain ⟨_, h⟩ := recomputeK_frame g s; rw [h]


end Sys2Proof.Machine
end

