-- ==== Sys2Proof/Laws/Waited.lean ====
section
/-! SUPPORT. Which operations leave the mark that a line waits: every one but an access that meets such a line; a completion of the
vein-index engine posts its record without waiting (R229). -/

set_option Elab.async false
set_option linter.unusedTactic false
set_option linter.unreachableTactic false

namespace Sys2Proof.Machine

theorem foldl_waited {α : Type} (l : List α) (f : State → α → State) (h : ∀ s a, (f s a).waited = s.waited) (s : State) :
    (l.foldl f s).waited = s.waited := by
  induction l generalizing s with
  | nil => rfl
  | cons a l ih => rw [List.foldl_cons, ih, h]

@[simp] theorem State.poke_waited (l : Loc) (bs : List Byte) (s : State) :
    (s.poke l bs).waited = s.waited := by
  simp only [State.poke]
  repeat' (first | rfl | (simp [*]; done) | split)

@[simp] theorem State.cleanLine_waited (l : LineId) (s : State) :
    (s.cleanLine l).waited = s.waited := by
  simp only [State.cleanLine]
  repeat' (first | rfl | (simp [*]; done) | split)

@[simp] theorem recordDeny_waited (r : Requester) (dpa : Nat) (write : Bool) (reason : Nat) (s : State) :
    (recordDeny r dpa write reason s).waited = s.waited := by
  simp only [recordDeny]
  repeat' (first | rfl | (simp [*]; done) | split)

@[simp] theorem bucketAdd_waited (kind inst : Nat) (s : State) :
    (bucketAdd kind inst s).waited = s.waited := by
  simp only [bucketAdd]
  repeat' (first | rfl | (simp [*]; done) | split)

@[simp] theorem noteCorrected_waited (l : LineId) (s : State) :
    (noteCorrected l s).waited = s.waited := by
  simp only [noteCorrected]
  repeat' (first | rfl | (simp [*]; done) | split)

@[simp] theorem noteUe_waited (l : LineId) (scrub write : Bool) (s : State) :
    (noteUe l scrub write s).waited = s.waited := by
  simp only [noteUe]
  repeat' (first | rfl | (simp [*]; done) | split)

@[simp] theorem noteRead_waited (l : LineId) (v : Verdict) (scrub write : Bool) (s : State) :
    (noteRead l v scrub write s).waited = s.waited := by
  simp only [noteRead]
  repeat' (first | rfl | (simp [*]; done) | split)

@[simp] theorem readLine_waited (l : Loc) (s : State) :
    (readLine l s).1.waited = s.waited := by
  simp only [readLine]
  repeat' (first | rfl | (simp [*]; done) | split)

@[simp] theorem writeLine_waited (l : Loc) (bs : List Byte) (s : State) :
    (writeLine l bs s).waited = s.waited := by
  simp only [writeLine]
  repeat' (first | rfl | (simp [*]; done) | split)

@[simp] theorem mergeWrite_waited (l : Loc) (ups : List (Nat × Byte)) (s : State) :
    (mergeWrite l ups s).1.waited = s.waited := by
  simp only [mergeWrite]
  repeat' (first | rfl | (simp [*]; done) | split)

@[simp] theorem poisonStart_waited (c : Nat) (s : State) :
    (poisonStart c s).waited = s.waited := by
  simp only [poisonStart]
  repeat' (first | rfl | (simp [*]; done) | split)

@[simp] theorem tallyTrap_waited (c cause : Nat) (tval : Dword) (s : State) :
    (tallyTrap c cause tval s).waited = s.waited := by
  simp only [tallyTrap]
  repeat' (first | rfl | (simp [*]; done) | split)

@[simp] theorem mergeWake_waited (ok : Bool) (r : Requester) (s : State) :
    (mergeWake ok r s).waited = s.waited := by
  simp only [mergeWake]
  repeat' (first | rfl | (simp [*]; done) | split)

@[simp] theorem entryTaken_waited (r : Requester) (s : State) :
    (entryTaken s r).waited = s.waited := by
  simp only [entryTaken]
  repeat' (first | rfl | (simp [*]; done) | split)

@[simp] theorem freeLine_waited (n line : Nat) (s : State) :
    (freeLine n line s).waited = s.waited := by
  simp only [freeLine]
  repeat' (first | rfl | (simp [*]; done) | split)

@[simp] theorem taintFace_waited (n line : Nat) (s : State) :
    (taintFace n line s).waited = s.waited := by
  simp only [taintFace]
  repeat' (first | rfl | (simp [*]; done) | split)

@[simp] theorem doMerge_waited (m : Merge) (s : State) :
    (doMerge m s).1.waited = s.waited := by
  simp only [doMerge]
  repeat' (first | rfl | (simp; done) | (rw [hostRefill_waited]) | (rw [foldl_waited _ _ (by intros; simp)]) | (rw [foldl_waited _ _ (by intros; exact foldl_waited _ _ (by intros; simp) _)]) | split)

@[simp] theorem hostMerge_waited (m : Merge) (s : State) :
    (hostMerge m s).waited = s.waited := by
  simp only [hostMerge]
  repeat' (first | rfl | (simp [*]; done) | split)

@[simp] theorem hostRefill_waited (col n : Nat) (s : State) :
    (hostRefill col n s).waited = s.waited := by
  induction n generalizing s with
  | zero => rfl
  | succ n ih =>
    simp only [hostRefill]; split
    · rfl
    · split
      · rw [ih, foldl_waited _ _ (fun s a => entryTaken_waited a s)]; simp
      · rfl

@[simp] theorem drainLine_waited (n line : Nat) (s : State) :
    (drainLine n line s).waited = s.waited := by
  simp only [drainLine]
  repeat' (first | rfl | (simp; done) | (rw [hostRefill_waited]) | (rw [foldl_waited _ _ (by intros; simp)]) | (rw [foldl_waited _ _ (by intros; exact foldl_waited _ _ (by intros; simp) _)]) | split)

@[simp] theorem portTake_waited (l : Loc) (s : State) :
    (portTake l s).waited = s.waited := by
  simp only [portTake]
  repeat' (first | rfl | (simp [*]; done) | split)

@[simp] theorem takeTurn_waited (r : Requester) (dpa : Nat) (s : State) :
    (takeTurn r dpa s).waited = s.waited := by
  simp only [takeTurn]
  repeat' (first | rfl | (simp [*]; done) | split)

@[simp] theorem taintHewer_waited (c h role line : Nat) (s : State) :
    (taintHewer c h role line s).waited = s.waited := by
  simp only [taintHewer]
  repeat' (first | rfl | (simp [*]; done) | split)

@[simp] theorem taint_waited (l : Loc) (s : State) :
    (taint l s).waited = s.waited := by
  simp only [taint]
  repeat' (first | rfl | (simp [*]; done) | split)

@[simp] theorem landTake_waited (e : Nat) (g : Range) (j : Nat) (bs : List Byte) (s : State) :
    (landTake e g j bs s).waited = s.waited := by
  simp only [landTake]
  repeat' (first | rfl | (simp [*]; done) | split)

@[simp] theorem landLine_waited (r : Requester) (e : Nat) (g : Range) (dpa : Nat) (bs : List Byte) (s : State) :
    (landLine r e g dpa bs s).waited = s.waited := by
  simp only [landLine]
  repeat' (first | rfl | (simp [*]; done) | split)

@[simp] theorem lineGet_waited (r : Requester) (dpa : Nat) (first : Bool) (s : State) :
    (lineGet r dpa first s).1.waited = s.waited := by
  simp only [lineGet]
  repeat' (first | rfl | (simp [*]; done) | split)

@[simp] theorem linePut_waited (r : Requester) (dpa : Nat) (bs : List Byte) (first : Bool) (s : State) :
    (linePut r dpa bs first s).1.waited = s.waited := by
  simp only [linePut]
  repeat' (first | rfl | (simp [*]; done) | split)

@[simp] theorem partPut_waited (r : Requester) (dpa : Nat) (bs : List Byte) (first : Bool) (s : State) :
    (partPut r dpa bs first s).1.waited = s.waited := by
  simp only [partPut]
  repeat' (first | rfl | (simp [*]; done) | split)

@[simp] theorem writeSpans_waited (r : Requester) (l : List (Nat × Nat)) (bs : List Byte) (first : Bool) (s : State) :
    (writeSpans r l bs first s).1.waited = s.waited := by
  induction l generalizing s bs first with
  | nil => rfl
  | cons a l ih =>
    have h1 := fun b => linePut_waited r a.1 b first s
    have h2 := fun b => partPut_waited r a.1 b first s
    simp only [writeSpans]
    split
    · rename_i e; split at e
      · have := h1 (bs.take 64); rw [e] at this; exact this
      · have := h2 (bs.take a.2); rw [e] at this; exact this
    · rename_i e; rw [ih]; split at e
      · have := h1 (bs.take 64); rw [e] at this; exact this
      · have := h2 (bs.take a.2); rw [e] at this; exact this

@[simp] theorem msix_waited (f v : Nat) (s : State) :
    (msix f v s).waited = s.waited := by
  simp only [msix]
  repeat' (first | rfl | (simp [*]; done) | split)

@[simp] theorem cqPut_waited (f : Nat) (rec : List Byte) (s : State) :
    (cqPut f rec s).waited = s.waited := by
  simp only [cqPut]
  repeat' (first | rfl | (simp [*]; done) | split)

@[simp] theorem cqWrite_waited (f : Nat) (rec : List Byte) (s : State) :
    (cqWrite f rec s).waited = s.waited := by
  simp only [cqWrite]
  repeat' (first | rfl | (simp [*]; done) | split)

@[simp] theorem completeReq_waited (id : Nat) (st : Status) (result : Nat) (detail : List Byte) (s : State) :
    (completeReq id st result detail s).waited = s.waited := by
  simp only [completeReq]
  repeat' (first | rfl | (simp [*]; done) | split)

@[simp] theorem completeOpt_waited (id : Option Nat) (st : Status) (result : Nat) (detail : List Byte) (s : State) :
    (completeOpt id st result detail s).waited = s.waited := by
  simp only [completeOpt]
  repeat' (first | rfl | (simp [*]; done) | split)

theorem dpaWrite_waited (r : Requester) (dpa : Nat) (bs : List Byte) (s : State) (h : spanHeld s r dpa bs.length = false) :
    (dpaWrite r dpa bs s).1.waited = s.waited := by
  simp only [dpaWrite]; split
  · simp
  · rw [if_neg (by simp [h])]; simp

@[simp] theorem postWrite_waited (r : Requester) (dpa : Nat) (bs : List Byte) (s : State) :
    (postWrite r dpa bs s).waited = s.waited := by
  simp only [postWrite]; split
  · rfl
  · rename_i h; exact dpaWrite_waited r dpa bs s (by simpa using h)

@[simp] theorem veinDone_waited (p : Nat) (st : Status) (r : VDone) (s : State) : (veinDone p st r s).waited = s.waited := by
  simp only [veinDone]; split <;> simp

end Sys2Proof.Machine
end

