-- ==== Sys2Proof/Laws/Vein.lean ====
section
/-! SUPPORT. How a command of the vein-index engine ends: with its result, with a status, or with references still to drop. -/

set_option Elab.async false

namespace Sys2Proof.Machine

@[simp] theorem pageUnref_waited (id : Nat) (s : State) : (pageUnref id s).1.waited = s.waited := by
  simp only [pageUnref]
  repeat' (first | rfl | split)

@[simp] theorem dropRefs_waited (ids : List Nat) (s : State) : (dropRefs ids s).1.waited = s.waited := by
  induction ids generalizing s with
  | nil => rfl
  | cons id ids ih =>
    have h := pageUnref_waited id s
    simp only [dropRefs]
    split <;> rename_i e <;> rw [e] at h <;> first | exact h | rw [ih]; exact h

@[simp] theorem veinDrop_waited (p : Nat) (ids : List Nat) (r : VDone) (s : State) : (veinDrop p ids r s).waited = s.waited := by
  simp only [veinDrop]; split <;> simp

/-- A command that drops no reference completes at once. -/
@[simp] theorem veinDrop_nil (p : Nat) (r : VDone) (s : State) : veinDrop p [] r s = veinDone p .ok r s := rfl

theorem veinRun_at {s : State} {p op : Nat} {ws : List Word} {req : Option Nat} (h : Safety.VeinAt s p op ws req)
    (f : List Word → Nat → State → State × VOut (VDone × List Nat)) :
    veinRun p op ws f s = match f ws (s.vport p).applied s with
      | (s, .ok r) => veinDrop p r.2 r.1 s
      | (s, .bad st n) => veinDone p st (0, n, 0) s
      | (s, .wait n) => veinWait p n s := by
  obtain ⟨h1, ⟨rest, h2⟩, h3, h4, h5, h6, h7⟩ := h
  simp only [veinRun, h2]
  rw [if_pos ⟨h1, trivial, Or.inl h3, h5, h6⟩, h7, h4]
  rfl

theorem veinStepD_ok {s t : State} {p op : Nat} {ws : List Word} {req : Option Nat} {r : VDone} {ids : List Nat}
    {f : List Word → Nat → State → State × VOut (VDone × List Nat)} (h : Safety.VeinAt s p op ws req)
    (e : f ws (s.vport p).applied s = (t, .ok (r, ids))) (w : t.waited = false) :
    veinStepD p op ws f s = .next (veinDrop p ids r t) := by
  rw [veinStepD, unlessHeld, veinRun_at h, e]; simp [w]

theorem veinStepD_bad {s t : State} {p op n : Nat} {ws : List Word} {req : Option Nat} {st : Status}
    {f : List Word → Nat → State → State × VOut (VDone × List Nat)} (h : Safety.VeinAt s p op ws req)
    (e : f ws (s.vport p).applied s = (t, .bad st n)) (w : t.waited = false) :
    veinStepD p op ws f s = .next (veinDone p st (0, n, 0) t) := by
  rw [veinStepD, unlessHeld, veinRun_at h, e]; simp [w]

theorem veinStep_ok {s t : State} {p op : Nat} {ws : List Word} {req : Option Nat} {r : VDone}
    {f : List Word → Nat → State → State × VOut VDone} (h : Safety.VeinAt s p op ws req)
    (e : f ws (s.vport p).applied s = (t, .ok r)) (w : t.waited = false) :
    veinStep p op ws f s = .next (veinDone p .ok r t) := by
  rw [veinStep, veinStepD_ok (ids := []) h (by rw [e]; rfl) w]; rfl

theorem veinStep_bad {s t : State} {p op n : Nat} {ws : List Word} {req : Option Nat} {st : Status}
    {f : List Word → Nat → State → State × VOut VDone} (h : Safety.VeinAt s p op ws req)
    (e : f ws (s.vport p).applied s = (t, .bad st n)) (w : t.waited = false) :
    veinStep p op ws f s = .next (veinDone p st (0, n, 0) t) := by
  rw [veinStep, veinStepD_bad h (by rw [e]; rfl) w]

/-- An operation on a block whose tokens are read and hashed. -/
theorem withBlock_at {α : Type} {s s' : State} {p : Nat} {ws : List Word} {t : List Byte} (h : Safety.BlockAt s s' p ws t)
    (f : Nat → List Byte → State → State × VOut α) :
    withBlock p ws f s = f (crc64 (leBytes 8 (vdpa ws 2) ++ t)) t s' := by
  obtain ⟨h1, s0, u, h2, h3, rfl⟩ := h
  simp [withBlock, h1, h2, h3, vbind, blockHash]

@[simp] theorem putSlot_waited (n : Nat) (x : SeqSlot) (s : State) : (putSlot n x s).waited = s.waited := by
  simp [putSlot]

end Sys2Proof.Machine
end

