-- ==== Sys2Proof/Tests/Slice0.lean ====
section
/-! SUPPORT. The tests: commands that are not well formed are refused by name of their check, values that the manual works out,
and for every statement with hypotheses a state and operands that meet them. -/

set_option Elab.async false

namespace Sys2Proof.Tests

open Sys2Proof.Machine

/-! ### Ill-formed commands: one for each check of each command -/

theorem test_illFormed_0 : ([
    .registerWrite (.crew 128) 0 0 0,
    .reg64LowRead (.crew 128) 0 0,
    .reg64LowWrite (.crew 128) 0 0 0,
    .reg64HighWrite (.crew 128) 0 0 0,
    .busyWindow 128 0 0,
    .busyWindow 0 2 0,
    .tokAcq 128 0 0,
    .tokAcq 0 32 0,
    .tokAcq 0 0 32,
    .tokRel 128 0,
    .tokRel 0 32,
    .tokStat 128 0 0,
    .tokStat 0 32 0,
    .tokStat 0 0 32,
    .tokenRevoke 64,
    .bar2Read 16 0 0,
    .bar2Write 16 0 [] false false,
    .atomicopRequest 16 0,
    .seamGrant 768,
    .seamGuardExpiry 768 false,
    .eccWriteback 7 0 0,
    .cutPush 128 0 0 0,
    .cutPush 0 32 0 0,
    .cutPush 0 0 32 0,
    .cutPush 0 0 0 32,
    .cutHeadCheck 128 0,
    .cutHeadCheck 0 2,
    .cutIssue 128 0,
    .cutIssue 0 2,
    .cutRetry 128 0] : List Instr).all (fun i => !i.wf) = true := by decide +kernel
theorem test_illFormed_1 : ([
    .cutRetry 0 2,
    .faceStoreUe 128 0,
    .faceStoreUe 0 2,
    .tblParityError 128 0 0,
    .tblParityError 0 2 0,
    .tblParityError 0 0 4,
    .cutVerdict 128 0,
    .cutVerdict 0 2,
    .cutDrainTile 128 0,
    .cutDrainTile 0 2,
    .cutComplete 128 0,
    .cutComplete 0 2,
    .tblLoad 128 0 0 0,
    .tblLoad 0 32 0 0,
    .tblLoad 0 0 32 0,
    .tblLoad 0 0 0 32,
    .tblLoadDone 128 0 0,
    .tblLoadDone 0 2 0,
    .tblLoadDone 0 0 4,
    .blkRel 128 0 0,
    .blkRel 0 32 0,
    .blkRel 0 0 32,
    .drsLaunch 128 0 0,
    .drsLaunch 0 32 0,
    .drsLaunch 0 0 32,
    .routineStart 128,
    .routineComplete 128,
    .drsLdt 128 default,
    .drsStt 128 default,
    .drsLdf 128 default 0] : List Instr).all (fun i => !i.wf) = true := by decide +kernel
theorem test_illFormed_2 : ([
    .drsStf 128 default,
    .drsLdmx 128 default 0,
    .drsStmx 128 default,
    .drsSqpop 128 default (0, false),
    .sqpopTimeout 128,
    .drsLds 128 default,
    .drsMov 128 default,
    .drsAdd 128 default 0,
    .drsSub 128 default 0,
    .drsMul 128 default 0,
    .drsMad 128 default 0,
    .drsMax 128 default 0,
    .drsMin 128 default 0,
    .drsCmp 128 default 0,
    .drsSel 128 default 0,
    .drsShl 128 default 0,
    .drsShr 128 default 0,
    .drsAnd 128 default 0,
    .drsOr 128 default 0,
    .drsXor 128 default 0,
    .drsAlgn 128 default 0,
    .drsEadd 128 default 0,
    .drsNorm 128 default 0,
    .drsTrn 128 default 0,
    .drsRmax 128 default 0,
    .drsRsum 128 default 0,
    .drsFn 128 default 0,
    .drsEnd 128 default,
    .sqDrop 128 0 0,
    .sqDrop 0 32 0] : List Instr).all (fun i => !i.wf) = true := by decide +kernel
theorem test_illFormed_3 : ([
    .sqDrop 0 0 32,
    .cplGet 128 0,
    .cplGet 0 32,
    .cplWait 128 0 0,
    .cplWait 0 32 0,
    .cplWait 0 0 32,
    .cplWaitTimeout 128,
    .xfer 128 0 0,
    .xfer 0 32 0,
    .xfer 0 0 32,
    .xferStart 128,
    .xferBlockDone 128 (0, []),
    .xferBlockDone 0 (0, [(0, [(72, 0)])]),
    .xferBlockDone 0 (0, [(16, [])]),
    .xferComplete 128 (0, []),
    .xferComplete 0 (0, [(0, [(72, 0)])]),
    .notice 128 0 0 0,
    .notice 0 32 0 0,
    .notice 0 0 32 0,
    .notice 0 0 0 32,
    .hbeat 128 0,
    .hbeat 0 32,
    .heartbeatExpired 128,
    .arrSend 128 0 0,
    .arrSend 0 32 0,
    .arrSend 0 0 32,
    .arrRead 128 0 0,
    .arrRead 0 32 0,
    .arrRead 0 0 32,
    .arrWait 128 0 0 0] : List Instr).all (fun i => !i.wf) = true := by decide +kernel
theorem test_illFormed_4 : ([
    .arrWait 0 32 0 0,
    .arrWait 0 0 32 0,
    .arrWait 0 0 0 32,
    .arrWaitTimeout 128,
    .arrClr 128 0,
    .arrClr 0 32,
    .arrPoison 128 0 0,
    .arrPoison 0 32 0,
    .arrPoison 0 0 32,
    .arrSendTimeout 128 0,
    .arrCountWrite (.crew 128) 0 0 0,
    .arrCountWrite .foreman 128 0 0,
    .arrCountWrite .foreman 0 16 0,
    .sendTablePoison 128,
    .crewStat 128 0,
    .crewStat 0 32,
    .tlyLoad (.crew 128) 0,
    .tlyLoad .foreman 128,
    .imageLoaded 128,
    .tlyStart (.crew 128) 0,
    .tlyStart .foreman 128,
    .tlyStop (.crew 128) 0,
    .tlyStop .foreman 128,
    .tlyEcall 128,
    .tlyTrap 128 0 0,
    .buddyTakeover 128,
    .crewMapWrite (.crew 128) 0 0,
    .crewMapWrite .foreman 128 0,
    .faceLaunchEnqueue (.crew 128) 0 0,
    .faceLaunchEnqueue .foreman 768 0] : List Instr).all (fun i => !i.wf) = true := by decide +kernel
theorem test_illFormed_5 : ([
    .faceFetch 768,
    .faceFetchDone 768,
    .faceSld 768 default,
    .faceSst 768 default,
    .faceSnw 768 default,
    .strokeEnd 768,
    .mergeDone 64 false,
    .faceLdr 768 default 0,
    .faceStr 768 default,
    .faceLdb 768 default 0,
    .faceAdd 768 default 0,
    .faceSub 768 default 0,
    .faceMul 768 default 0,
    .faceMad 768 default 0,
    .faceMax 768 default 0,
    .faceMin 768 default 0,
    .faceIns 768 default 0,
    .faceEadd 768 default 0,
    .faceNorm 768 default 0,
    .faceRmax 768 default 0,
    .faceRsum 768 default 0,
    .faceDot 768 default 0,
    .faceFn 768 default 0,
    .faceXadd 768 default,
    .faceLoop 768 default,
    .faceEnd 768 default,
    .faceProgramComplete 768,
    .faceTimeLimit 768,
    .slotOpen 9 [0, 0, 0, 0, 0, 0, 0, 0],
    .slotOpen 0 []] : List Instr).all (fun i => !i.wf) = true := by decide +kernel
theorem test_illFormed_6 : ([
    .slotClose 9 [0, 0, 0, 0, 0, 0, 0, 0],
    .slotClose 0 [],
    .veinPin 9 [0, 0, 0, 0, 0, 0, 0, 0],
    .veinPin 0 [],
    .veinUnpin 9 [0, 0, 0, 0, 0, 0, 0, 0],
    .veinUnpin 0 [],
    .slotTail 9 [0, 0, 0, 0, 0, 0, 0, 0],
    .slotTail 0 [],
    .veinHash 9 [0, 0, 0, 0, 0, 0, 0, 0],
    .veinHash 0 [],
    .veinLookup 9 [0, 0, 0, 0, 0, 0, 0, 0],
    .veinLookup 0 [],
    .veinInsert 9 [0, 0, 0, 0, 0, 0, 0, 0],
    .veinInsert 0 [],
    .veinRemove 9 [0, 0, 0, 0, 0, 0, 0, 0],
    .veinRemove 0 [],
    .pageAlloc 9 [0, 0, 0, 0, 0, 0, 0, 0],
    .pageAlloc 0 [],
    .pageRef 9 [0, 0, 0, 0, 0, 0, 0, 0],
    .pageRef 0 [],
    .pageUnref 9 [0, 0, 0, 0, 0, 0, 0, 0],
    .pageUnref 0 [],
    .mapSwap 9 [0, 0, 0, 0, 0, 0, 0, 0],
    .mapSwap 0 [],
    .veinMigrate 9 [0, 0, 0, 0, 0, 0, 0, 0],
    .veinMigrate 0 [],
    .limboFullTimeout 9,
    .shardUpdate (.crew 128) 0 0,
    .shardUpdate .foreman 4 0,
    .shardResume (.crew 128) 0 0] : List Instr).all (fun i => !i.wf) = true := by decide +kernel
theorem test_illFormed_7 : ([
    .shardResume .foreman 4 0,
    .shardStart 4,
    .blockClassify 4,
    .gradientWrite (.crew 128) 0 [],
    .landingAdmit 4,
    .blockCompute 4,
    .blockWritebackDone 4,
    .millAdd 4 0 0,
    .millSub 4 0 0,
    .millMul 4 0 0,
    .millFma 4 0 0,
    .millMin 4 0 0,
    .millMax 4 0 0,
    .millCmp 4 0 0,
    .millSel 4 0 0,
    .millRsqrt 4 0 0,
    .millRecip 4 0 0,
    .millMend 4 0,
    .millQmx 4 0 0,
    .millEnd 4 0,
    .millStall 4,
    .shardComplete 4,
    .millDisarm (.crew 128) 0,
    .millDisarm .foreman 4,
    .flitReceive 48 [] (false, []),
    .flitSlot 48,
    .replayTimeout 48,
    .msgWrite 48 default,
    .msgWrite 0 { (default : Msg) with vc := 4 },
    .msgRead 48 default] : List Instr).all (fun i => !i.wf) = true := by decide +kernel
theorem test_illFormed_8 : ([
    .msgRead 0 { (default : Msg) with vc := 4 },
    .msgArrive 48 default,
    .msgArrive 0 { (default : Msg) with vc := 4 },
    .msgPoison 48 default,
    .msgPoison 0 { (default : Msg) with vc := 4 },
    .msgReadData 48 default,
    .msgReadData 0 { (default : Msg) with vc := 4 },
    .msgWriteAck 48 default,
    .msgWriteAck 0 { (default : Msg) with vc := 4 },
    .msgArriveAck 48 default,
    .msgArriveAck 0 { (default : Msg) with vc := 4 },
    .capsFlit 48 default,
    .capsResendTimer 48,
    .capsTimeout 48,
    .qualReq 48,
    .qualReqTimer 48,
    .qualResult 48 false,
    .qualifyDone 48 [],
    .qualifyTimeout 48,
    .retrainReq 48,
    .linkStop 48,
    .trainDone 48 0 0,
    .trainDone 0 3 0,
    .trainDone 0 0 16,
    .trainTimeout 48 false,
    .linkFaultTrip 48 0,
    .linkFaultTrip 0 16,
    .fastRetrainDone 48 false 0,
    .fastRetrainDone 0 false 16,
    .signalDetect 48] : List Instr).all (fun i => !i.wf) = true := by decide +kernel
theorem test_illFormed_9 : ([
    .adtRetrain (.crew 128) 0,
    .adtRetrain .foreman 48,
    .adtReset (.crew 128) 0,
    .adtReset .foreman 48,
    .aditRefclkLoss 4,
    .aditRefclkReturn 4,
    .routeFlit (some 48) default,
    .routeFlit none { (default : MsgFlit) with vc := 4 },
    .ordWaitExpiry 48,
    .linkmapMsg 48 0 0 0,
    .linkmapMsg 0 32 0 0,
    .linkmapMsg 0 0 4294967296 0,
    .linkmapMsg 0 0 0 65536,
    .linkmapStale 32,
    .joinMsg 48 default,
    .joinMsg 0 { (default : MemberEntry) with stack := 16384 },
    .leaveMsg 48 default,
    .leaveMsg 0 { (default : MemberEntry) with stack := 16384 },
    .snapshotMsg 48 [],
    .snapshotMsg 0 [{ (default : MemberEntry) with stack := 16384 }],
    .fldIdWrite (.crew 128) 0,
    .memberLeave (.crew 128) 0,
    .memberLeave .foreman 16384,
    .memberRejoin (.crew 128) 0,
    .memberRejoin .foreman 16384,
    .timeFlit 48 default 0,
    .timeFlitTimer 48,
    .gmAdvertStale 48,
    .pcieLinkUp 16 0 false,
    .pcieLinkUp 0 32 false] : List Instr).all (fun i => !i.wf) = true := by decide +kernel
theorem test_illFormed_10 : ([
    .vfFlr 16,
    .busMasterEnable 16 false (false, default),
    .resizableBarWrite (64, false),
    .slotWrite 16 0 [],
    .reqVein (0, 8),
    .cqEnable (.crew 128) 0 0,
    .cqEnable .foreman 16 0,
    .cqModTimer 16,
    .doeRequest 256 [],
    .scrubRead 7 (0, 0),
    .scrubRead 0 (0, 4),
    .seamInjArm (.crew 128) 0 0,
    .seamInjArm .foreman 768 0,
    .shaftResend 128 0 false 0 0 [],
    .shaftResend 0 2 false 0 0 [],
    .shaftResend 0 0 false 0 16 [],
    .chkLine 16 0 0 [],
    .chkLine 0 512 0 [],
    .chkCtrlWrite (.crew 128) 0 0,
    .chkCtrlWrite .foreman 32 0,
    .clockLoss 13 0,
    .clockLoss 0 32,
    .ageingReduction 32 0,
    .ageingReduction 0 16,
    .vfTargetWrite (.crew 128) 0 0,
    .vfTargetWrite .foreman 32 0,
    .vfRaise 32,
    .vfLower 32,
    .vfSlewDone 32,
    .droopTrip 32 0] : List Instr).all (fun i => !i.wf) = true := by decide +kernel
theorem test_illFormed_11 : ([
    .droopRecover 32 0,
    .rampLimitTrip 32 0,
    .droopRearm (.crew 128) 0,
    .droopRearm .foreman 32,
    .regFault 32 0 (0, 0),
    .regFault 0 3 (0, 0),
    .galParkWrite (.crew 128) 0 0,
    .galParkWrite .foreman 32 0,
    .parkRampStep 32,
    .unparkRampStep 32,
    .railWarning 8 0,
    .railWarningClear (8, 0),
    .pwrSagReset 8 0,
    .canaryConvert 624 none,
    .thermalClampRise 32,
    .hardTrip 624 0,
    .flowLevel 8,
    .thmRestart (.crew 128),
    .brgStockpile ([], [4]),
    .brgBroadcast ([], [(2, false)]),
    .brgBroadcast ([], [(6, false)]),
    .surveyDiscard (.crew 128),
    .warmReset (.crew 128) 0,
    .foremanReset 2,
    .secBegin false 8 0,
    .secRevert 8,
    .reserveCopyDone 7,
    .secConfirm (.crew 128) 0 false,
    .confirmWindowExpiry 7,
    .spdmGetVersion (.field 48 0)] : List Instr).all (fun i => !i.wf) = true := by decide +kernel
theorem test_illFormed_12 : ([
    .spdmGetCapabilities (.field 48 0),
    .spdmNegotiateAlgorithms (.field 48 0),
    .spdmGetDigests (.field 48 0),
    .spdmGetCertificate (.field 48 0) 0 0 0,
    .spdmChallenge (.field 48 0) 0 0,
    .spdmGetMeasurements (.field 48 0) 0 false 0,
    .spdmKeyExchange (.field 48 0) 0,
    .spdmFinish (.field 48 0) 0,
    .spdmEndSession (.field 48 0) 0,
    .spdmHeartbeat (.field 48 0) 0,
    .spdmKeyUpdate (.field 48 0) 0 0,
    .spdmChunkSend (.field 48 0) 0 0 false [],
    .spdmChunkGet (.field 48 0) 0 0,
    .tallyDpaAccess 128 false 0 0 (0, false),
    .tallyDpaAccess 0 false 0 0 (32, false),
    .overseerDpaAccess (.crew 128) false 0 0 [],
    .fieldRegisterAccess 48 0 0 false 0,
    .fieldRegisterAccess 0 16384 0 false 0,
    .vfEnableWrite 16 false] : List Instr).all (fun i => !i.wf) = true := by decide +kernel

/-! ### Values the manual works out -/

/-- Chapter 1, worked example: hewer (C2, 45) is hewer 1 of crew 86 in gallery 21. -/
theorem test_crew_of_C2_45 : crewOf 2 45 = 86 ∧ roleOf 45 = 1 ∧ galOf 86 = 21 ∧ colOf 86 0 = 44 := by decide

/-- The part of chapter 2's worked example: groups 0, 1 and 3, blocks 0 to 3 striped. -/
def partM288 : State := { State.reset with glb := { State.reset.glb with groups := 11 }, chr := { State.reset.chr with stripeMask := 0x0F } }

/-- Chapter 2, worked example: one byte in both views. -/
theorem test_one_byte_in_both_views :
    partM288.stripedSize = 0x2400000000 ∧ rawDecode partM288 0x001234567890 = some (0, .ok (.seam 103 0x08174890))
      ∧ rawDecode partM288 0x006CE8174890 = some (1, .error 1) ∧ rawDecode partM288 0x006CF0000000 = some (1, .ok (.seam 103 0x10000000))
      ∧ rawDecode partM288 0x009000000000 = some (1, .error 2) ∧ rawDecode partM288 0x00A7FFFFFFFF = some (1, .error 2) := by
  decide +kernel

/-- Chapter 3, worked example: the group sum is -1.5, and 10.0 and it give 8.5. -/
theorem test_group_sum :
    groupSum ([0x38, 0x3C, 0x40, 0xB4].map (mxDecode 0)) ([0x40, 0xB8, 0x30, 0x48].map (mxDecode 0)) (scaleExp 0x7D) (scaleExp 0x81)
        = 0xBFC00000#32
      ∧ fpAdd 0x41200000#32 0xBFC00000#32 = 0x41080000#32 := by
  decide +kernel

/-- The row of chapter 3's worked example. -/
def rowLanes : List Machine.Num := [.fin false 17 (-1), .fin true 3 0, .fin false 1 (-7), .fin false 3 (-21)] ++ List.replicate 28 (.fin false 0 0)

/-- Chapter 3, worked example: pack to BFX. -/
theorem test_pack : (bfxPack rowLanes).row.e = 131 ∧ (bfxPack rowLanes).row.m.take 5 = [4456448, -1572864, 4096, 1, 0] := by
  decide +kernel

/-- Chapter 3, worked example: drain to MXFP8 E4M3. -/
theorem test_drain_e4m3 : (mxQuantise 0 (fun _ => none) rowLanes).1 = 0x7A
    ∧ (mxQuantise 0 (fun _ => none) rowLanes).2.take 4 = [0x78, 0xEC, 0x28, 0x00] := by
  decide +kernel

/-- Chapter 10, worked example: the headers of a 256-byte write's two flits. -/
theorem test_flit_headers :
    (msgFlits { vc := 0, ordered := true, src := 1040, dst := 1043, addr := 0x0413006012345000, tag := 0x51, op := 1, status := 0
                len := 0x100, data := List.replicate 256 0 } 0 false 0).map flitHeader = [0x0000000410104C24, 0x0000000410104C28] := by
  decide +kernel

/-- The characters 1 to 9. -/
def digits : List Byte := (List.range 9).map (fun i => BitVec.ofNat 8 (0x31 + i))

/-- Table 13-4: the check values of the four CRCs. -/
theorem test_crcs :
    (List.range 4).map (fun k => (crcFlip (crcKind k) (crcRun (crcKind k) (crcFlip (crcKind k) (crcKind k).init) digits)).xor (crcKind k).final)
      = [0xE3069283, 0xCBF43926, 0x6C40DF5F0B497347, 0x29B1] := by
  decide +kernel

/-- Table 13-4: the CRC-32C of images and results is code 0's. -/
theorem test_crc32c : crc32c digits = 0xE3069283 := by decide +kernel

/-- R395, example: a core fused at 2.30, 3.05, 3.60 and 4.10 GHz at 0.81 V: cap 3.80 GHz, 15 edges of 16 kept at P13. -/
theorem test_core_cap :
    let s : State := { State.reset with fuses := { State.reset.fuses with fmax := [(0, [2300, 3050, 3600, 4100])] } }
    capAt s 0 0 810 = 3800 ∧ keepOf s 0 0 810 13 = 15 := by
  decide +kernel

/-- Table 14-5, step 2: with 50 A of headroom a request of 66 A is granted by half. -/
theorem test_partial_grant :
    let s0 := State.reset.setGal 0 { account := 9400 }
    let s : State := { s0 with pwr := { s0.pwr with queue := [(21, 528, false, false)] }, chr := { s0.chr with ledgerLimit := 2400 } }
    headroom8 s = 400 ∧ Tbl.look 0 (serveQueue 1 s).pwr.granted 21 = 264 ∧ (serveQueue 1 s).pwr.queue = [(21, 264, false, true)] := by
  decide +kernel

/-- R48 and R46: the first bytes of the stockpile and of a face store's slot. -/
theorem test_windows :
    rawDecode State.reset 0x20000000400 = some (4, .ok (.stock 1 0)) ∧ rawDecode State.reset 0x01000100002A = some (2, .ok (.bin 0x100002A)) := by
  decide +kernel

/-! ### States and operands that meet the statements' hypotheses -/

/-- The full-grade block with gallery 0 running and crew 0 in a program. -/
def crewRun : State := (State.reset.setGal 0 { stopAt := none, parked := false, rBoot := false }).setCrew 0 { state := 4 }

/-- Crew 0's dresser at a routine whose first word has this opcode and immediate. -/
def drsAt (op imm : Nat) : State :=
  { crewRun.setDresser 0 { run := some {} } with lsMem := Memory.write [] 0 (leBytes 8 (op + 4294967296 * imm)) }

/-- The conditions of `Safety.DrsFetched` there. -/
def fetched (op imm : Nat) : Bool :=
  let s := drsAt op imm
  let w : InstrWord := BitVec.ofNat 64 (op + 4294967296 * imm)
  let m := localRead (.ls 0) 0 8 s
  drsRuns s 0 && decide ((s.dresser 0).run = some {}) && decide ((m.2).map leNat = some w.toNat) && dOp w == op % 256 && dListed (op % 256)
    && dUnusedZero w && dValuesGood w

/-- The same with every seam wholly seam-linear. -/
def seamRun : State := { crewRun with chr := { crewRun.chr with stripeMask := 0 } }

/-- Face unit 0 in a program whose first word has this low word and immediate. -/
def faceAt (op imm : Nat) : State :=
  seamRun.setFace 0 { state := 2, cur := some default, prog := [BitVec.ofNat 64 (op + 4294967296 * imm)] }

/-- The conditions of `Safety.FaceAt` there. -/
def faceHas (op imm : Nat) : Bool :=
  let s := faceAt op imm
  let w : InstrWord := BitVec.ofNat 64 (op + 4294967296 * imm)
  faceRuns s 0 && (s.face 0).state == 2 && (s.face 0).ended.isNone && decide ((s.face 0).prog[(s.face 0).pc]? = some w)
    && bits 7 0 w.toNat == op % 256 && fListed (op % 256) && fUnusedZero w && fValuesGood w
    && decide (s.verdict (progLine 0 0) [] ≠ .uncorrectable)

/-- A command at the head of the Foreman's vein port. -/
def veinAt (ws : List Word) : State := seamRun.setVport 8 { queue := [(ws, none)] }

/-- The conditions of `Safety.VeinAt` in a state with the command at the head of the Foreman's port, and no access waiting. -/
def veinOk (s : State) (op : Nat) (ws : List Word) : Bool :=
  decide ((s.vport 8).queue = [(ws, none)]) && bits 7 0 (vw ws 0) == op && vGood ws && !ringFull (s.vport 8) && !s.thm.stopped
    && decide ((s.vport 8).result = none) && !s.waited

/-- The same in `veinAt`. -/
def veinHas (op : Nat) (ws : List Word) : Bool := veinOk (veinAt ws) op ws

/-- A part of a command answers a value of which `f` is true, in a state in which no access waits. -/
def vOk {α : Type} (r : State × VOut α) (f : State → α → Bool) : Bool :=
  match r with | (s, .ok a) => !s.waited && f s a | _ => false

/-- The same with block 0 of every seam in the page pool. -/
def kvRun : State := { seamRun with chr := { seamRun.chr with kvPool := 1 } }

/-- Engine 0 in the moment phase of a block, at a program word. -/
def millAt (w : Word) : State :=
  crewRun.setEng 0 { state := 1, cur := some {}, block := some { stage := 1 }, prog := [w] }

/-- The conditions of `Safety.MillAt` there. -/
def millHas (op : Nat) (w : Word) : Bool :=
  let s := millAt w
  millRuns s 0 && decide ((s.eng 0).cur = some {}) && decide ((s.eng 0).block = some { stage := 1 })
    && decide ((s.eng 0).prog[(s.eng 0).pc]? = some w) && mOp w == op && !(millDecode 0 (81920 + (s.eng 0).pc / 16) 1 s).2

/-- Function 0 with its aperture 0 on the first bytes of the bin, 64 slots and a ring. -/
def hostRun : State :=
  { (crewRun.setFn 0 { slotCount := 64, seqCount := 256, ops := 0x3F, cqEn := true, bme := true }) with
    hif := { crewRun.hif with apt := [(0, (0x10000000000, true))], pickup := true } }

/-- A request waits in the mailbox of a responder with this connection. -/
def spdmRun (x : Spdm) (ready : Bool) : State :=
  ({ crewRun with
      hif := { crewRun.hif with doe := some (1, []) }
      sec := { crewRun.sec with imgs := [(1, { booted := some default })], attestReady := ready } } : State).setSpdm .doe x

/-- An image slot and the firmware record at a time. -/
def imgRun (k : Nat) (x : ImgSlot) (sec : Sec) (now : Nat) : State :=
  { crewRun with sec := { sec with imgs := [(k, x)] }, now := now, brg := { crewRun.brg with charterDone := true } }

theorem test_wit_FrontCommand :
    ({ crewRun with pending := [.eccLeak, .powerOn] } : State).pending = .eccLeak :: [.powerOn] := by decide +kernel

theorem test_wit_IdleTick : crewRun.pending = [] ∧ crewRun.fld.steer = 0 := by decide +kernel

theorem test_wit_EveryStepGoesOn : ∃ t, step { crewRun with pending := [.eccLeak] } = .next t := ⟨_, rfl⟩

theorem test_wit_MemoriesCanonical :
    Safety.memoriesWf { crewRun with pending := [.eccLeak], seamMem := [(5, 1#8)] } = true
      ∧ ∃ t, step { crewRun with pending := [.eccLeak], seamMem := [(5, 1#8)] } = .next t := ⟨by decide +kernel, _, rfl⟩

theorem test_wit_LineReadAfterWrite :
    (∃ p ∈ storeParts 3 3, p.1 ≤ 65536 ∧ 65536 < p.1 + p.2) ∧ (∃ p ∈ storeParts 3 3, p.1 ≤ 75775 ∧ 75775 < p.1 + p.2)
      ∧ (∃ p ∈ storeParts 6 8, p.1 ≤ 8191 ∧ 8191 < p.1 + p.2)
      ∧ (List.replicate 64 (7#8)).length = 64 ∧ (⟨3, 3, 65536⟩ : LineId) ≠ ⟨3, 3, 0⟩ := by
  refine ⟨⟨(65536, 8192), ?_⟩, ⟨(73728, 2048), ?_⟩, ⟨(0, 8192), ?_⟩, ?_⟩ <;> decide +kernel

theorem test_wit_OneDpaPerSeamByte :
    crewRun.seamPresent 700 = true ∧ bit (5 / 0x4000000) crewRun.chr.stripeMask = true
      ∧ bit (0x1FFFFFFF / 0x4000000) crewRun.chr.stripeMask = false := by decide +kernel

theorem test_wit_BinSlices : 63 < 64 ∧ 0xFFFFFF < 0x1000000 := by decide

theorem test_wit_StripedView :
    (let e := (List.range 12).filter crewRun.layerOn
     let b := (List.range 8).filter (fun j => bit j crewRun.chr.stripeMask)
     0x12345678 < 64 * e.length * b.length * 0x4000000 ∧ 64 * e.length * b.length * 0x4000000 ≤ 0x5FFFFFFFFF) := by decide +kernel

theorem test_wit_DroopRecord : reachesRegs .foreman = true ∧ (crewRun.gal 3).vmin = 0x3FF ∧ 500 < (crewRun.gal 3).vmin := by
  decide +kernel

theorem test_wit_DutyTokens :
    crewRun.tallyRuns 0 = true ∧ crewRun.holds 0 0 = false ∧ (crewRun.tok 0).holders.length < crewRun.tokLimit
      ∧ (crewRun.tok 0).holders = [] ∧ ({ crewRun with toks := [(0, { holders := [0] })] } : State).holds 0 0 = true
      ∧ ({ crewRun with toks := [(0, { holders := [1] })] } : State).tokAdjacency = true
      ∧ (({ crewRun with toks := [(0, { holders := [0, 2, 3] })] } : State).tok 0).holders.length ≤ crewRun.tokLimit + 4 := by
  decide

theorem test_wit_TallyQueues :
    crewRun.tallyRuns 0 = true ∧ (localRead (.tly 0) (tget crewRun 0 0).toNat 32 crewRun).2 = some (List.replicate 32 0)
      ∧ cutUse (crewRun.crew 0) 0 < 19 ∧ tblUse (crewRun.crew 0) 0 < 4 ∧ redirected crewRun 0 0 = false
      ∧ (crewRun.hewer 0 0).fenceCause = 0 ∧ (crewRun.dresser 0).queue.length < 4 := by
  decide

theorem test_wit_TallyRecords :
    crewRun.tallyRuns 0 = true ∧ (crewRun.crew 0).cpl = [] ∧ (tget crewRun 0 0).toNat = 0
      ∧ ((crewRun.setCrew 0 { state := 4, cpl := [default] }).crew 0).cpl = [default]
      ∧ (tget (crewRun.setCrew 0 { state := 4, regs := [(1, 5)] }) 0 1).toNat ≠ 0
      ∧ ((crewRun.setCrew 0 { state := 4, wait := .cpl 1 0 }).crew 0).wait = .cpl 1 0
      ∧ (localRead (.tly 0) (tget crewRun 0 0).toNat 32 crewRun).2 = some (List.replicate 32 0)
      ∧ (crewRun.crew 0).sendUse < 8
      ∧ crewRun.crewPresent 0 = true ∧ crewRun.crewRuns 0 = true
      ∧ ({ crewRun with now := 20000 } : State).hclkNs 0 = 20000 := by
  decide

theorem test_wit_Arrivals :
    crewRun.tallyRuns 0 = true ∧ 8 ≤ ((crewRun.setCrew 0 { state := 4, sendUse := 8 }).crew 0).sendUse
      ∧ (crewRun.crew 0).sendUse < 8
      ∧ ((crewRun.setCrew 0 { state := 4, dead := [0] }).crew 0).dead.contains 0 = true
      ∧ (crewRun.crew 0).dead.contains 0 = false ∧ ((0 : Word) - 0).toNat < 2 ^ 31 ∧ 2 ^ 31 ≤ ((0 : Word) - 1).toNat
      ∧ ((crewRun.setCrew 0 { state := 4, wait := .arr 0 1 1 0 }).crew 0).wait = .arr 0 1 1 0
      ∧ ((crewRun.setCrew 0 { state := 4, arrs := [{ addr := 0, sent := true }] }).crew 0).arrs[0]?
          = some { addr := 0, sent := true }
      ∧ ({ crewRun with arrQ := [default] } : State).arrQ[0]? = some default
      ∧ reachesRegs (.host 0) = true ∧ crewRun.crewPresent 0 = true
      ∧ ((crewRun.setCrew 0 { poisonAt := some 0, sends := [5] }).crew 0).sends[0]? = some 5
      ∧ (localRead (.tly 0) 0 8 crewRun).2 = some (List.replicate 8 0)
      ∧ (localWrite (.tly 0) 0x8000 (leBytes 8 0) crewRun).2 = true
      ∧ spanHeld crewRun (.crew 0) 0x010000000000 8 = false
      ∧ (dpaRead (.crew 0) 0x010000000000 8 crewRun).2.2 = .ok
      ∧ (dpaWrite (.crew 0) 0x010000000000 (leBytes 8 0) crewRun).2 = .ok
      ∧ decodeDpa crewRun (.crew 0) 0x010000000000 = .ok (.bin 0) := by
  decide

/-- A crew program image of one empty tally-memory section, for logical crew 0. -/
def tinyImage : List Byte :=
  let h := leBytes 4 0x50435A4B ++ leBytes 2 1 ++ leBytes 2 0 ++ leBytes 4 0 ++ leBytes 2 0 ++ leBytes 2 1 ++ leBytes 4 80
    ++ leBytes 4 0 ++ leBytes 8 0 ++ leBytes 8 0x8000 ++ leBytes 24 0 ++ leBytes 4 1 ++ leBytes 4 0x8000 ++ leBytes 8 0
  h.take 0x14 ++ leBytes 4 (crc32c h) ++ h.drop 0x18

/-- Crew 0 loading that image from the bin. -/
def loadingCrew : State :=
  { crewRun with crews := [(0, { state := 2, img := 0x010000000000 })], crewMap := [(0, (0, true))]
                 binMem := Memory.write [] 0 tinyImage }

theorem test_wit_Programs_image :
    (readPieces (.crew 0) (pieces 0x010000000000 64) loadingCrew).2 = (tinyImage.take 64, .ok)
      ∧ (readPieces (.crew 0) (pieces 0x010000000000 80) loadingCrew).2 = (tinyImage, .ok)
      ∧ imgGood loadingCrew 0 tinyImage = true ∧ imgGood loadingCrew 1 tinyImage = false := by
  decide +kernel

theorem test_wit_Programs :
    reachesRegs (.host 0) = true ∧ crewRun.crewPresent 0 = true ∧ ((crewRun.setCrew 0 { state := 1 }).crew 0).state = 1
      ∧ ((crewRun.setCrew 0 { state := 2, img := 8 }).crew 0).img % 64 ≠ 0
      ∧ ((crewRun.setCrew 0 { state := 3 }).crew 0).state = 3 ∧ (crewRun.crew 0).state = 4 ∧ crewRun.tallyRuns 0 = true
      ∧ ((crewRun.setCrew 0 { state := 4, takeover := some 0, buddyReady := true }).crew 0).buddyEn = true
      ∧ (copyBlocks 0 0 [] crewRun).2 = true ∧ bit 7 (0x80 : Word).toNat = true ∧ bit 7 (0 : Word).toNat = false
      ∧ Tbl.look (0, false) ({ crewRun with crewMap := [(1, (0, true))] } : State).crewMap 1 = (bits 6 0 (0x80 : Word).toNat, true) := by
  decide

/-- A transfer of one line from the bin to face-store line 0 of hewer 0, and one with a bad descriptor. -/
def tinyXfer : Xfer :=
  { words := [BitVec.ofNat 32 (1 + 1 * 2 ^ 7), 64, 0, 0x100, 0, 0, 0, 0], order := 0 }

theorem test_wit_TransfersAndSeams :
    ((crewRun.setCrew 0 { state := 4, xferQ := [tinyXfer] }).crew 0).xferQ = [tinyXfer] ∧ crewRun.crewRuns 0 = true
      ∧ xferBad crewRun 0 tinyXfer = false ∧ sourceFree crewRun 0 tinyXfer = true ∧ xferEmpty crewRun 0 tinyXfer = false
      ∧ nextFree crewRun 0 tinyXfer = true ∧ nextBlock 0 tinyXfer = some (0, 0) ∧ xRemote crewRun tinyXfer = false
      ∧ xferBad crewRun 0 { words := [], order := 0 } = true
      ∧ xWrites crewRun 0 tinyXfer ≠ [] ∧ blockRest tinyXfer ≠ 0 ∧ rangeHeld crewRun 0 tinyXfer 0 64 = false
      ∧ shaftClear crewRun 0 { tinyXfer with granted := 64 } 64 = true
      ∧ (moveLines 0 [] 1 0 0 { tinyXfer with badAt := none, status := .ok } (xferTurn 0 tinyXfer 0 64 crewRun)).2.badAt = none
      ∧ nextBlock 0 { tinyXfer with done := 64 } = none ∧ ({ tinyXfer with done := 64 } : Xfer).done = xLen tinyXfer := by
  decide +kernel

/-- Seam 0 with a request of its shaft port and a stroke of its face unit. -/
def seamAsked (a b : Nat) : State :=
  ((crewRun.setSeam 0 { (crewRun.seam 0) with queue := [
    { shaft := true, first := 0, lines := 0, at_ := a, crew := 0, order := 0 },
    { shaft := false, first := 0, lines := 0, at_ := b, crew := 0, order := 0 }] }).setFace 0
      { strokes := [{ (default : Stroke) with line := 0 }] })

theorem test_wit_TransfersAndSeams_grant :
    crewRun.seamPresent 0 = true ∧ (oldestOf (seamAsked 0 0) 0 true).isSome = true
      ∧ (oldestOf (seamAsked 0 0) 0 false).isSome = true ∧ shaftWins crewRun 0 = true
      ∧ shaftWins { crewRun with chr := { crewRun.chr with seamArb := 1 } } 0 = false
      ∧ overdue { crewRun with now := 2000 } { (default : SeamReq) with at_ := 0 } { (default : SeamReq) with at_ := 1 } = true
      ∧ overdue crewRun { (default : SeamReq) with at_ := 0 } { (default : SeamReq) with at_ := 1 } = false
      ∧ (crewRun.seam 0).selfRefresh = false := by
  decide +kernel

/-- A good cut of hewer 0: one array, MXFP8 operands, FP32 output; and the same to the skip queue, and with code tables. -/
def tinyCut : Cut := { words := [BitVec.ofNat 32 (1 + 10 * 2 ^ 13 + 2 ^ 17), 0, 0, 64, 128, 0, 0, 0] }
def skipCut : Cut := { words := [BitVec.ofNat 32 (1 + 10 * 2 ^ 13 + 2 ^ 17 + 2 ^ 21), 0, 0, 64, 0, 0, 0, 0] }
def tableCut : Cut := { words := [BitVec.ofNat 32 (1 + 6 * 2 ^ 5 + 10 * 2 ^ 13 + 2 ^ 17), 0, 0, 64, 128, 0, 0, 0] }

/-- Crew 0 running with hewer 0 as given. -/
def hewing (x : Hewer) : State := crewRun.setHewer 0 0 x

theorem test_wit_CutEvents :
    crewRun.crewPresent 0 = true ∧ (hewing { queue := [tinyCut] }).hewerRuns 0 0 = true ∧ tinyCut.good true = true
      ∧ tblBad {} tinyCut = false ∧ ({ words := [] } : Cut).good true = false
      ∧ canIssue (hewing { queue := [tinyCut], checked := true, blocks := [(0, 2), (1, 2), (4, 2)] }) 0 0 tinyCut = true
      ∧ streaming ((hewing { issued := [{ cut := tinyCut }] }).hewer 0 0) = some (0, { cut := tinyCut })
      ∧ checksOn crewRun tinyCut = true ∧ tableCut.cb = true ∧ tableCut.arrays.contains 0 = true
      ∧ (cutErrs { crewRun with errs := [{ kind := 3, line := 0, bytes := [0, 1, 2] }] } 0 0 tinyCut).find?
          (fun p => faceVerdict { crewRun with errs := [{ kind := 3, line := 0, bytes := [0, 1, 2] }] } 0 p.1 p.2
            == .uncorrectable) = some (0, 0)
      ∧ cutErrs crewRun 0 0 tinyCut = [] ∧ tinyCut.op ≠ 2 ∧ tinyCut.xbarS = false
      ∧ draining ((hewing { issued := [{ cut := skipCut, phase := 1, entries := [0] }] }).hewer 0 0)
          = some (0, { cut := skipCut, phase := 1, entries := [0] })
      ∧ ueCut { hewing { issued := [{ cut := tinyCut }] } with errs := [{ kind := 3, line := 0, bytes := [0, 1, 2] }] } 0 0
          = some (0, { cut := tinyCut })
      ∧ decoding ((hewing { issued := [{ cut := tableCut }] }).hewer 0 0) 0 = some (0, { cut := tableCut })
      ∧ (skqEntry (crewRun.setDresser 0 { skq := [(0, { st := 1 })] }) 0 0).st = 1
      ∧ crewRun.hewerDrains 0 = true ∧ skipCut.toSkip = true
      ∧ (readLine (.face 0 0 0) crewRun).2 = some (List.replicate 64 0) ∧ tableGood (List.replicate 16 0) = true
      ∧ tableGood (List.replicate 16 0x7F) = false := by
  decide +kernel

theorem test_wit_DresserArith :
    crewRun.chr.residueEn = true ∧ ({} : Dresser).laneFaults (0x10 : InstrWord) = 0 ∧ ({} : Dresser).laneFaults (0x20 : InstrWord) = 0
      ∧ fetched 0x10 0 = true
      ∧ fetched 0x11 0 = true
      ∧ fetched 0x12 0 = true
      ∧ fetched 0x13 0 = true
      ∧ fetched 0x14 0 = true
      ∧ fetched 0x15 0 = true
      ∧ fetched 0x16 0 = true
      ∧ fetched 0x17 0 = true := by
  decide +kernel

theorem test_wit_DresserBits :
    crewRun.chr.residueEn = true ∧ ({} : Dresser).laneFaults (0x10 : InstrWord) = 0 ∧ ({} : Dresser).laneFaults (0x20 : InstrWord) = 0
      ∧ fetched 0x20 0 = true
      ∧ fetched 0x21 0 = true
      ∧ fetched 0x22 0 = true
      ∧ fetched 0x23 0 = true
      ∧ fetched 0x24 0 = true
      ∧ fetched 0x30 0 = true
      ∧ fetched 0x31 0 = true
      ∧ fetched 0x32 0 = true
      ∧ fetched 0x33 0 = true
      ∧ fetched 0x34 0 = true
      ∧ fetched 0x35 0 = true
      ∧ fetched 0x40 0 = true := by
  decide +kernel

/-- The dresser at an SQPOP, with entry 0 of the skip queue FULL. -/
def drsPop : State := setSkq 0 0 { st := 2, data := List.replicate 32 (List.replicate 32 0) } (drsAt 7 0)

theorem test_wit_DresserLoads :
    fetched 1 0 = true ∧ fetched 3 0 = true ∧ fetched 5 0 = true ∧ fetched 0x10000005 0 = true ∧ fetched 8 0 = true ∧ fetched 9 0 = true
      ∧ lineOperand {} 1 65 = some 0 ∧ ((localRead (.ls 0) 0 4160 (drsAt 1 0)).2).isSome = true
      ∧ ((localRead (.ls 0) 0 4 (drsAt 8 0)).2).isSome = true
      ∧ drsRuns drsPop 0 = true ∧ sqOldest drsPop 0 0 = some 0 ∧ (skqEntry drsPop 0 0).parityBad = false
      ∧ fetched 7 0 = true ∧ sqOldest (drsAt 7 0) 0 0 = none ∧ ((drsAt 7 0).dresser 0).waitFrom = none := by
  decide +kernel
theorem test_wit_DresserLoads_rows :
    ((rowParts {} ({} : Dresser) (0x10000005 : InstrWord)).map (fun ps => (rowBlocks 0 (blockBytes 0) ps (drsAt 0x10000005 0)).2.isSome))
      = some true := by
  decide +kernel

theorem test_wit_DresserStores :
    fetched 2 0 = true ∧ fetched 4 0 = true ∧ fetched 6 0 = true ∧ fetched 0x7F 0 = true ∧ lineOperand {} 2 65 = some 0
      ∧ (rowsImage (((drsAt 2 0).dresser 0).opA 2)).length = 4160
      ∧ ((((drsAt 4 0).dresser 0).opA 4).flatMap (fun r => (bfxUnpack r).flatMap (fun v => leBytes 4 v.toNat))).length = 4096
      ∧ ((drsAt 0x7F 0).dresser 0).run = some {}
      ∧ crewRun.crewPresent 0 = true ∧ (crewRun.crew 0).fenced = false ∧ crewRun.crewRuns 0 = true
      ∧ (crewRun.dresser 0).run = none ∧ (crewRun.dresser 0).done = none
      ∧ ((crewRun.setDresser 0 { queue := [{}] }).dresser 0).queue = [{}]
      ∧ dresserRoom (crewRun.setDresser 0 { done := some (1, .ok) }) 0 = true
      ∧ ((crewRun.setDresser 0 { done := some (1, .ok) }).dresser 0).done = some (1, .ok)
      ∧ (rowParts {} ({} : Dresser) (0x10000006 : InstrWord)).isSome = true := by
  decide +kernel
theorem test_wit_DresserStores_limit :
    let s : State := { drsAt 7 0 with now := 100000 }
    let s := s.setDresser 0 { s.dresser 0 with waitFrom := some 0 }
    drsRuns s 0 = true ∧ (s.dresser 0).waitFrom = some 0 ∧ (s.dresser 0).run = some {}
      ∧ sqOldest s 0 0 = none ∧ 0 + 1000 * 100 ≤ s.hclkNs 0 := by
  decide +kernel

theorem test_wit_DresserResidue :
    fetched 0x10 0 = true ∧ crewRun.chr.residueEn = true ∧ (crewRun.crew 0).fenced = false ∧ ({} : Dresser).laneFaults (0x10 : InstrWord) = 0
      ∧ ({ codes := [(0, [3])] } : Dresser).laneFaults (0x10 : InstrWord) = 2
      ∧ ({ crewRun with chr := { crewRun.chr with residueEn := false } } : State).chr.residueEn = false := by
  decide +kernel

theorem test_wit_FaceArith :
    (faceAt 0x10 0).chr.residueEn = true ∧ ((faceAt 0x10 0).face 0).strokes = []
      ∧ faceLaneFaults ((faceAt 0x10 0).face 0) 0x10 = 0
      ∧ faceHas 0x10 0 = true
      ∧ faceHas 0x11 0 = true
      ∧ faceHas 0x12 0 = true
      ∧ faceHas 0x13 0 = true
      ∧ faceHas 0x14 0 = true
      ∧ faceHas 0x15 0 = true
      ∧ faceHas 0x18 0 = true
      ∧ faceHas 0x31 0 = true
      ∧ faceHas 0x32 0 = true
      ∧ faceHas 0x34 0 = true
      ∧ faceHas 0x35 0 = true
      ∧ faceHas 0x36 0 = true
      ∧ faceHas 0x40 0 = true := by
  decide +kernel

theorem test_wit_FaceMoves :
    faceHas 0x08 0 = true ∧ (ldParts 0 0 0).isSome = true
      ∧ ((ldParts 0 0 0).map (fun ps => (bufReads 0 ps (faceAt 0x08 0)).2.isSome)) = some true
      ∧ faceHas 0x0A 0 = true ∧ ((localRead (.buf 0) (64 * 128) 1 (faceAt 0x0A 0)).2).isSome = true
      ∧ ((biasLanes 0 0 ((List.range 32).map (biasIndex 0)) (faceAt 0x0A 0)).2).isSome = true
      ∧ faceHas 0x09 0 = true
      ∧ ((ldParts 0 0 0).map (fun ps => (bufWrites 0 (List.zip (ps.map (·.1)) (stBytes 0 {}).1) (faceAt 0x09 0)).2)) = some true
      ∧ faceHas 0x01000050 4 = true ∧ fXs 0x01000050 ≠ 0 ∧ faceHas 0x50 4 = true ∧ faceHas 0x01000051 4 = true ∧ faceHas 0x7F 0 = true := by
  decide +kernel

/-- A launch of a program at seam line 0 in face unit 0's queue. -/
def faceQueued (w0 : Word) : State := seamRun.setFace 0 { queue := [{ words := [w0, 0, 0, 0, 0, 0, 0, 0] }] }

theorem test_wit_FacePrograms :
    reachesRegs .foreman = true ∧ faceHere crewRun 0 = true ∧ faceOwner crewRun .foreman = true ∧ (crewRun.face 0).state ≠ 3
      ∧ (crewRun.face 0).queue.length < 4 ∧ 4 ≤ ((crewRun.setFace 0 { queue := List.replicate 4 default }).face 0).queue.length
      ∧ faceRuns (faceQueued 0) 0 = true ∧ ((faceQueued 0).face 0).state = 0
      ∧ fArr { words := [0, 0, 0, 0, 0, 0, 0, 0] } = 0 ∧ faceDenies (faceQueued 0) 0 0 1 = none
      ∧ bits 15 8 (fWord { words := [256, 0, 0, 0, 0, 0, 0, 0] } 0) ≠ 0
      ∧ faceRuns (crewRun.setFace 0 { state := 1 }) 0 = true
      ∧ faceHas 1 0 = true ∧ strokeCheck (faceAt 1 0) 0 1 1 = .good 0 0 ∧ faceHas 2 0 = true
      ∧ strokeCheck (faceAt 2 0) 0 2 1 = .good 0 0 ∧ faceHas 3 0 = true ∧ (faceAt 3 0).faceShare ≠ 0
      ∧ strokeCheck (faceAt 3 0) 0 3 1 = .good 0 0
      ∧ ((seamLines 0 0 1 crewRun).2).isSome = true ∧ ((localRead (.buf 0) 0 64 crewRun).2).isSome = true
      ∧ faceHere (crewRun.setFace 0 { strokes := [{ granted := true }] }) 0 = true
      ∧ faceRuns (crewRun.setFace 0 { state := 2, cur := some default, ended := some .ok }) 0 = true
      ∧ ({ crewRun with now := 200000 } : State).now = 0 + 0 + 1000 * ((crewRun.setFace 0 { state := 2 }).face 0).limit
      ∧ (crewRun.seam 0).selfRefresh = false := by
  decide +kernel

/-- Slot 0 OPEN with its map at the start of seam 0, and a command at the head of the Foreman's port. -/
def slotRun (ws : List Word) : State := (veinAt ws).setSlot 0 { st := 1, map := 0x6000000000 }

theorem test_wit_VeinSlots :
    veinHas 1 [1, 0, 0, 0x100, 0, 0, 0, 0] = true ∧ (((veinAt [1, 0, 0, 0x100, 0, 0, 0, 0]).slot 0).st = 0)
      ∧ vdpa [1, 0, 0, 0x100, 0, 0, 0, 0] 2 % 64 = 0
      ∧ vOk (vRead 8 0x10000000000 8 (veinAt [1, 0, 0, 0x100, 0, 0, 0, 0])) (fun _ _ => true) = true
      ∧ veinOk (slotRun [1, 0, 0, 0x100, 0, 0, 0, 0]) 1 [1, 0, 0, 0x100, 0, 0, 0, 0] = true
      ∧ veinOk (slotRun [2, 0, 0, 0, 0, 0, 0, 0]) 2 [2, 0, 0, 0, 0, 0, 0, 0] = true
      ∧ ((slotRun []).slot 0).st = 1 ∧ ((slotRun []).vport 8).applied = 0
      ∧ vOk (mapIds 8 0x6000000000 (putSlot 0 { st := 2, map := 0x6000000000 } (slotRun [2, 0, 0, 0, 0, 0, 0, 0])))
          (fun s1 ids => vOk (pageList pageUnref ids 0 s1) (fun _ k => k == 0)) = true := by
  decide +kernel
theorem test_wit_VeinSlots_pins :
    veinOk (slotRun [3, 0, 0, 0, 0, 0, 0, 0]) 3 [3, 0, 0, 0, 0, 0, 0, 0] = true
      ∧ veinOk (slotRun [4, 0, 0, 0, 0, 0, 0, 0]) 4 [4, 0, 0, 0, 0, 0, 0, 0] = true
      ∧ veinOk (slotRun [5, 0, 0, 0, 0, 0, 0, 0]) 5 [5, 0, 0, 0, 0, 0, 0, 0] = true
      ∧ veinHas 3 [3, 0, 0, 0, 0, 0, 0, 0] = true ∧ veinHas 4 [4, 0, 0, 0, 0, 0, 0, 0] = true
      ∧ veinHas 5 [5, 0, 0, 0, 0, 0, 0, 0] = true ∧ ((veinAt []).slot 0).st ≠ 1
      ∧ ({ crewRun with vein := { crewRun.vein with limbo := [(0, 1)] } } : State).vein.limbo[0]? = some (0, 1)
      ∧ crewRun.slots = [] := by
  decide +kernel
theorem test_wit_VeinSlots_full :
    65536 ≤ ({ crewRun with vein := { crewRun.vein with limbo := List.replicate 65536 (0, 1) } } : State).vein.limbo.length
      ∧ (({ crewRun with now := 10000000 } : State).setVport 0 { waitFrom := some 0 }).vport 0 = { waitFrom := some 0 } := by
  constructor
  · show 65536 ≤ (List.replicate 65536 (0, 1)).length
    rw [List.length_replicate]
  · decide

/-- Words of a command on the block at the start of the bin, with its record at 64 KiB of the bin. -/
def vBlockCmd (op : Word) : List Word := [op, 0, 0, 0, 0, 0x100, if op = 0xA then 0x10000 else 0, if op = 0xA then 0x100 else 0]

/-- A command at the Foreman's port, with the table at 1 MiB of the bin and these entries in its first bucket. -/
def tableRun (ws : List Word) (es : List VeinEnt) : State :=
  { veinAt ws with
      vein := { (veinAt ws).vein with table := 0x10000100000, log2 := 18, seed := 0 }
      binMem := Memory.write [] 0x100000 (es.flatMap entBytes) }

/-- The block's hash there, which is that of 264 zero bytes, and the state after it is taken. -/
def hashRun (op : Word) (es : List VeinEnt) : State := hashTake 0 0 (tableRun (vBlockCmd op) es)

/-- An entry of the block of hash `h`, with its record at 64 KiB of the bin. -/
def entAt (h : Nat) : VeinEnt := { hash := h, record := 0x10000010000, valid := true, hit := h }

/-- The conditions of `Safety.BlockAt` there, with zero tokens, and of `Safety.VeinAt`. -/
def blockHas (op : Word) (es : List VeinEnt) : Bool :=
  let s := tableRun (vBlockCmd op) es
  veinOk s op.toNat (vBlockCmd op) && vdpa (vBlockCmd op) 4 % 64 == 0 && decide (hashUnit s = some 0)
    && vOk (vRead 8 (vdpa (vBlockCmd op) 4) 256 s) (fun _ t => t == List.replicate 256 0)
    && leBytes 8 (vdpa (vBlockCmd op) 2) == List.replicate 8 0

theorem test_crc64_zeros (n : Nat) : crc64 (List.replicate n 0) = 0 := by
  have h : crcByte 64 0x42F0E1EBA9EA3693 0 0 = 0 := by decide
  have k : (List.replicate n (0 : Byte)).foldl (crcByte 64 0x42F0E1EBA9EA3693) 0 = 0 := by
    induction n with
    | zero => rfl
    | succ n ih => rw [List.replicate_succ, List.foldl_cons, h]; exact ih
  exact k
theorem test_wit_VeinTable_lookup :
    blockHas 8 [] = true ∧ blockHas 9 [] = true ∧ blockHas 9 [entAt 0] = true
      ∧ vOk (findAny 8 0 (List.replicate 256 0) (vTables (hashRun 9 [])) (hashRun 9 [])) (fun _ r => r.isNone) = true
      ∧ vOk (findAny 8 0 (List.replicate 256 0) (vTables (hashRun 9 [entAt 0])) (hashRun 9 [entAt 0])) (fun s r =>
          match r with
          | some (a, e) => vOk (vWrite 8 a (entBytes { e with hit := s.tclk.toNat }) s) (fun _ _ => true)
          | none => false) = true := by
  decide +kernel
/-- The conditions of INSERT of a new block, with or without an eviction. -/
def insertHas (es : List VeinEnt) (evicts : Bool) : Bool :=
  vOk (findAny 8 0 (List.replicate 256 0) (vTables (hashRun 0xA es)) (hashRun 0xA es)) (fun s2 r => r.isNone
    && vOk (recordPages 8 0x10000010000 s2) (fun s3 ids => vOk (pageList pageRef ids 0 s3) (fun s4 _ =>
      vOk (putEntry 8 (oldTable s3) { hash := 0, record := 0x10000010000, valid := true, hit := 0 } s4) (fun _ ev =>
        ev.isSome == evicts))))

theorem test_wit_VeinTable_insert :
    blockHas 0xA [] = true ∧ blockHas 0xA [entAt 0] = true ∧ vdpa (vBlockCmd 0xA) 6 % 64 = 0
      ∧ vOk (findAny 8 0 (List.replicate 256 0) (vTables (hashRun 0xA [entAt 0])) (hashRun 0xA [entAt 0]))
          (fun _ r => r.isSome) = true
      ∧ insertHas [] false = true
      ∧ blockHas 0xA ((List.range 8).map (fun i => entAt (i + 1))) = true
      ∧ insertHas ((List.range 8).map (fun i => entAt (i + 1))) true = true := by
  decide +kernel
theorem test_wit_VeinTable_remove :
    blockHas 0xB [] = true ∧ blockHas 0xB [entAt 0] = true
      ∧ vOk (findAll 8 0 (List.replicate 256 0) (vTables (hashRun 0xB [])) (hashRun 0xB [])) (fun _ r => r == []) = true
      ∧ vOk (findAll 8 0 (List.replicate 256 0) (vTables (hashRun 0xB [entAt 0])) (hashRun 0xB [entAt 0])) (fun s2 r =>
          match r with
          | (a, e) :: more => vOk (recordPages 8 e.record s2) (fun s3 _ => vOk (clearEntries 8 ((a, e) :: more) s3) (fun _ _ => true))
          | [] => false) = true := by
  decide +kernel
theorem test_wit_VeinTable_stops :
    veinHas 8 [8, 0, 0, 0, 1, 0x100, 0, 0] = true ∧ vdpa [8, 0, 0, 0, 1, 0x100, 0, 0] 4 % 64 ≠ 0
      ∧ veinOk { veinAt (vBlockCmd 8) with chr := { crewRun.chr with veinChk := 0 } } 8 (vBlockCmd 8) = true
      ∧ hashUnit { veinAt (vBlockCmd 8) with chr := { crewRun.chr with veinChk := 0 } } = none
      ∧ (dropRefs [noPage] crewRun).2 = []
      ∧ (((veinAt (vBlockCmd 0xB)).setVport 8 { queue := [(vBlockCmd 0xB, none)], result := some (1, 0, 0) }).vport 8).result
          = some (1, 0, 0)
      ∧ vGood (vBlockCmd 0xB) = true ∧ vGood (vBlockCmd 0xA) = true := by
  decide +kernel
theorem test_wit_VeinTable_migrate :
    veinHas 0x18 [0x18, 18, 0, 0, 0x3E000000, 0x100, 0, 0] = true
      ∧ tableGoodAt (veinAt []) 18 (vdpa [0x18, 18, 0, 0, 0x3E000000, 0x100, 0, 0] 4) = true
      ∧ (veinAt []).vein.migrating = false
      ∧ vOk (vRead 8 0x10000100000 256 (tableRun [] [])) (fun s bs =>
          match moveWays (newTable s) bs (List.range 8) s with | some t => !t.waited | none => false) = true := by
  decide +kernel

/-- Pages of block 0 in the pool, page 0 with a count, and a command at the head of the Foreman's port. -/
def pageRun (ws : List Word) (n : Nat) : State :=
  { ((veinAt ws).setPage 0 { count := n }) with chr := { crewRun.chr with stripeMask := 0, kvPool := 1 } }

theorem test_wit_VeinPages :
    veinOk (pageRun [0x10, 0, 0, 0, 0, 0, 0, 0] 0) 0x10 [0x10, 0, 0, 0, 0, 0, 0, 0] = true
      ∧ veinOk (pageRun [0x10, 0, 0, 0, 0, 0, 0, 0] 1) 0x10 [0x10, 0, 0, 0, 0, 0, 0, 0] = true
      ∧ bit 0 (vw [0x10, 0, 0, 0, 0, 0, 0, 0] 2) = false ∧ pageBad (pageRun [] 0) 0 = false
      ∧ pageFree (pageRun [] 0) 0 = true ∧ pageFree (pageRun [] 1) 0 = false
      ∧ veinOk (pageRun [0x10, 0, 1, 0, 0, 0, 0, 0] 0) 0x10 [0x10, 0, 1, 0, 0, 0, 0, 0] = true
      ∧ bit 0 (vw [0x10, 0, 1, 0, 0, 0, 0, 0] 2) = true ∧ (pageRun [] 0).seamPresent 0 = true
      ∧ veinOk (pageRun [0x11, 1, 0, 0x100, 0, 0, 0, 0] 1) 0x11 [0x11, 1, 0, 0x100, 0, 0, 0, 0] = true
      ∧ vOk (listOperand 8 [0x11, 1, 0, 0x100, 0, 0, 0, 0] (pageRun [0x11, 1, 0, 0x100, 0, 0, 0, 0] 1)) (fun s ids =>
          vOk (pageList pageRef ids 0 s) (fun _ n => n == 1)) = true
      ∧ veinOk (pageRun [0x12, 1, 0, 0x100, 0, 0, 0, 0] 1) 0x12 [0x12, 1, 0, 0x100, 0, 0, 0, 0] = true
      ∧ vOk (listOperand 8 [0x12, 1, 0, 0x100, 0, 0, 0, 0] (pageRun [0x12, 1, 0, 0x100, 0, 0, 0, 0] 1)) (fun s ids =>
          vOk (pageList pageUnref ids 0 s) (fun _ n => n == 1)) = true := by
  decide +kernel
theorem test_wit_VeinPages_swap :
    veinOk (pageRun [0x13, 0, 1, 0, 0, 0x100, 0, 0] 1) 0x13 [0x13, 0, 1, 0, 0, 0x100, 0, 0] = true
      ∧ veinOk (pageRun [0x13, 1, 0, 0, 0, 0x100, 0, 0] 1) 0x13 [0x13, 1, 0, 0, 0, 0x100, 0, 0] = true
      ∧ pageBad (pageRun [] 1) 0 = false ∧ pageBad (pageRun [] 1) 1 = false
      ∧ vOk (vRead 8 0x10000000000 4 (pageRun [] 1)) (fun s b => leNat b == 0
          && vOk (pageUnref 0 s) (fun s _ => vOk (vWrite 8 0x10000000000 (leBytes 4 1) s) (fun _ _ => true))) = true
      ∧ ((pageRun [] 0).page 0).count < 65535 ∧ 1 < ((pageRun [] 2).page 0).count ∧ ((pageRun [] 1).page 0).count = 1
      ∧ (pageRun [] 1).vein.limbo = [] := by
  decide +kernel
theorem test_wit_VeinPages_member : 0 ∈ seamPages (pageRun [] 0) 0 := by
  simp only [seamPages, List.mem_flatMap, List.mem_map, List.mem_filter, List.mem_range]
  exact ⟨0, ⟨by omega, by decide +kernel⟩, 0, by omega, by omega⟩

theorem test_wit_MillArith :
    (millAt 1).chr.residueEn = true ∧ millHas 1 1 = true ∧ millHas 2 2 = true ∧ millHas 3 3 = true ∧ millHas 4 4 = true ∧ millHas 5 5 = true ∧ millHas 6 6 = true ∧ millHas 7 7 = true ∧ millHas 8 8 = true ∧ millHas 9 9 = true ∧ millHas 10 10 = true := by
  decide +kernel

/-- A shard descriptor with its arrays, journal and copy in the stockpile window, of one block, at step 1. -/
def shardOf (mode : Word) : Shard :=
  { words := [mode, 1, 1, 0xF, 0, 0x200, 0x8000, 0x200, 0x10000, 0x200, 0x20000, 0x200, 0, 0, 0, 0, 0x30000, 0x200, 0x40000, 0x200,
      0x7F000000, 0, 0, 0, 0, 0, 0, 0, 0, 0, 0, 0] }

/-- Engine 0 on that shard, with its journal line's tags in the stockpile. -/
def millOn (mode : Word) (mtag wtag : Nat) : State :=
  (dpaWrite .foreman 0x20000020000 (leBytes 4 mtag ++ leBytes 4 wtag) crewRun).1.setEng 0 { state := 1, cur := some (shardOf mode) }

/-- The block's index and its journal line with those tags are read, no access waiting. -/
def journalOk (mode : Word) (mtag wtag : Nat) : Bool :=
  let s := millOn mode mtag wtag
  let o := orderRead 0 (shardOf mode) s
  let j := mRead 0 (hdpa (shardOf mode) 10) 64 o.1
  millRuns s 0 && decide (inFlight (s.eng 0) < 16) && decide ((shardOf mode).seen.length < shBlocks (shardOf mode))
    && decide (o.2 = (0, .ok)) && j.2.2 == .ok && leAt j.2.1 0 4 == mtag && leAt j.2.1 4 4 == wtag && !j.1.waited
    && shStep (shardOf mode) == 1 && shMode (shardOf mode) == mode.toNat

/-- The three reads of a block's banks from a state on, no access waiting. -/
def banksOk (s : State) : Bool :=
  let m := mRead 0 (bankDpa (shardOf 1) 4 0 0) 0x4000 s
  let v := mRead 0 (bankDpa (shardOf 1) 6 0 0) 0x4000 m.1
  let w := mRead 0 (bankDpa (shardOf 1) 8 0 0) 0x4000 v.1
  m.2.2 == .ok && v.2.2 == .ok && w.2.2 == .ok && !w.1.waited

theorem test_wit_MillBlocks_classify :
    journalOk 1 0 0 = true ∧ journalOk 1 1 0 = true ∧ journalOk 2 0 0 = true ∧ journalOk 1 1 1 = true
      ∧ journalOk 1 5 0 = true := by
  decide +kernel
set_option maxRecDepth 100000 in
theorem test_wit_MillBlocks_banks :
    banksOk ((millOn 1 0 0).setEng 0 { (millOn 1 0 0).eng 0 with cur := some { shardOf 1 with seen := [0] } }) = true
      ∧ banksOk (dropLanded 0 0 0 ((millOn 1 1 0).setEng 0 { (millOn 1 1 0).eng 0 with cur := some { shardOf 1 with seen := [0] } }))
          = true := by
  decide +kernel
theorem test_wit_MillBlocks :
    (millDecode 0 (stageLine { cls := 1 }) 768 (millOn 1 0 0)).2 = false
      ∧ millHas 0x10 0x10 = true ∧ millHas 0x11 0x11 = true ∧ millHas 0x3F 0x3F = true
      ∧ (millAt 1).chr.residueEn = true ∧ ((millAt 0x3F).eng 0).ahead = []
      ∧ ((([] : List Word) ++ [] ++ [0x7FC00000]).any notFinite) = true ∧ shFmt (shardOf 1) = 0xF
      ∧ shFmt { shardOf 1 with words := listSet (shardOf 1).words 3 0 } ≠ 0xF := by
  decide +kernel
set_option maxRecDepth 100000 in
theorem test_wit_MillBlocks_zeros : ((freg ((millAt 0x3F).eng 0) 3).any notFinite) = false := by decide +kernel
/-- Engine 0 with a block in write-back at a stage. -/
def millBack (stage : Nat) : State :=
  crewRun.setEng 0 { state := 1, cur := some (shardOf 1), wback := [{ stage := stage }] }

/-- The writes of that stage, with no bytes of state, no access waiting. -/
def backOk (stage a : Nat) (bs : List Byte) : Bool :=
  let r := mWrite 0 a bs (millBack stage)
  millRuns (millBack stage) 0 && r.2 == .ok && !r.1.waited

theorem test_wit_MillBlocks_writes :
    backOk 4 (bankDpa (shardOf 1) 4 1 0) [] = true ∧ backOk 4 (bankDpa (shardOf 1) 6 1 0) [] = true
      ∧ backOk 5 (jrnlDpa (shardOf 1) 0) (jrnlLine 1 0 1 0 false 0) = true
      ∧ backOk 6 (bankDpa (shardOf 1) 8 1 0) [] = true
      ∧ backOk 7 (jrnlDpa (shardOf 1) 0) (jrnlLine 1 1 0 1 false 0) = true
      ∧ backOk 8 (jrnlDpa (shardOf 1) 0) (jrnlLine 1 1 0 0 true 0) = true := by
  decide +kernel
/-- Engine 0 with a block that waits for its gradient, which has landed: its one word that is not zero is 1.0. -/
def millGrad (limit : Word) : State :=
  crewRun.setEng 0 { state := 1, cur := some { shardOf 1 with words := listSet (shardOf 1).words 20 limit }, block := some {}
                     landed := (List.range 256).map (fun j => (0, j, if j = 0 then leBytes 4 0x3F800000 else [])) }

/-- That gradient is finite, its sum is over the limit or not, and the lines it lies in are sound. -/
def gradOk (limit : Word) (large : Bool) : Bool :=
  match gradient ((millGrad limit).eng 0) 0 0 with
  | some g => millRuns (millGrad limit) 0 && !g.any notFinite && (numOfWord limit).lt false (numOfWord (blockSumsq g)) == large
      && !(millDecode 0 0 256 (millGrad limit)).2 && !(millDecode 0 (stageLine {}) 768 (millGrad limit)).2
      && ((millGrad limit).eng 0).dups == []
  | none => false

set_option maxRecDepth 100000 in
theorem test_wit_MillBlocks_gradient : gradOk 0x3F800000 false = true ∧ gradOk 0 true = true := by decide +kernel

/-- Descriptor words of a shard of one block. -/
def shardWords : List Word :=
  [1, 1, 1, 0xF, 0, 0x200, 0x8000, 0x200, 0x10000, 0x200, 0x20000, 0x200, 0, 0, 0, 0, 0x30000, 0x200, 0x40000, 0x200,
    0x7F000000, 0, 0, 0, 0, 0, 0, 0, 0, 0, 0, 0]

/-- Engine 0 with those words staged. -/
def millStaged : State := crewRun.setEng 0 { staged := shardWords.mapIdx (fun i w => (i, w)) }

/-- Engine 0 with that shard queued and its program, MEND and END, in the stockpile. -/
def millQueued : State :=
  ((dpaWrite .foreman 0x20000030000 (leBytes 4 0x4C4C494D ++ leBytes 4 0x102 ++ leBytes 8 0 ++ leBytes 4 0x10 ++ leBytes 4 0x3F)
    crewRun).1).setEng 0 { queue := [{ words := shardWords }] }

theorem test_wit_MillShards_good :
    shardBad millStaged 0 { words := shardWords } = false ∧ rangesFull millStaged 0 { words := shardWords } = false
      ∧ stagedMode millStaged 0 ≠ 2
      ∧ (mRead 0 0x20000040000 64 millQueued).2.2 = .ok
      ∧ progHeader (mRead 0 0x20000030000 16 millQueued).2.1 = some 2
      ∧ progGood 0xF (wordsOf (mRead 0 0x20000030010 8 millQueued).2.1) = true := by
  decide +kernel

theorem test_wit_MillShards :
    reachesRegs .foreman = true ∧ millOwner .foreman = true ∧ (crewRun.eng 0).queue.length < 4 ∧ (crewRun.eng 0).state ≠ 2
      ∧ stagedMode crewRun 0 ≠ 2 ∧ stagedMode (crewRun.setEng 0 { staged := [(0, 2)] }) 0 = 2
      ∧ 4 ≤ ((crewRun.setEng 0 { queue := List.replicate 4 {} }).eng 0).queue.length
      ∧ shardBad crewRun 0 { words := [] } = true
      ∧ rangesFull crewRun 0 { words := [] } = false
      ∧ crewRun.thm.stopped = false ∧ crewRun.brg.stockReset = false
      ∧ landingOf (crewRun.setEng 0 { ranges := [{ base := 0x20000000000, blocks := 1 }] }) .foreman 0x20000000000
          = some (0, { base := 0x20000000000, blocks := 1 })
      ∧ admits (crewRun.setEng 0 { held := [(0, 0, [], .foreman)] }) 0 0 0 0 = true
      ∧ millRuns (millAt 1) 0 = true ∧ (millAt 1).millStall ≠ 0 ∧ shBlocks {} ≤ ({} : Shard).pos := by
  decide +kernel

/-- A message of stack 1, a member, in the endpoint's inbox. -/
def msgOf (vc op : Nat) (len : Nat) (data : List Byte) : Msg :=
  { vc := vc, ordered := true, src := 1, dst := 0, addr := 0x10000000000, tag := 5, op := op, status := 0, len := len, data := data }

/-- The stack with that message in its inbox. -/
def inboxRun (m : Msg) : State :=
  { crewRun with fld := { crewRun.fld with inbox := [(0, m)] }, members := [(1, { member := true })] }

theorem test_wit_FieldMessages :
    let w := msgOf 0 1 64 (List.replicate 64 0)
    let r := msgOf 0 2 64 []
    (inboxRun w).isMember 1 = true ∧ opOnVc 0 1 = true ∧ badRange w = false ∧ writeWaits (inboxRun w) 0 w = false
      ∧ badRange (msgOf 0 1 1 []) = true ∧ opOnVc 0 2 = true ∧ badRange r = false
      ∧ spanHeld (inboxRun r) (.peer 0 1) 0x10000000000 64 = false ∧ opOnVc 0 3 = true ∧ opOnVc 0 4 = true
      ∧ arrBad (0x10000 : Dword) = false ∧ arrBad ((2 : Dword) ^ 63) = true ∧ (inboxRun w).isMember 2 = false
      ∧ (crewRun.setAdit 0 { rxbuf := [default] }).adit 0 = { rxbuf := [default] }
      ∧ ((crewRun.setAdit 0 { state := 6 }).adit 0).state = 6 := by
  decide +kernel
theorem test_wit_FieldMessages_route :
    let s := (inboxRun default).setAdit 0 { state := 5, inUse := true }
    let f : MsgFlit := { (default : MsgFlit) with first := true, dst := 1 }
    f.dst ≠ s.fld.id ∧ s.isMember f.dst = true ∧ routeOf s f false 0 = .port 0 false ∧ (s.adit (s.rolePort 0)).state = 5 := by
  decide +kernel

/-- A management message in the endpoint's inbox. -/
def mgmtRun (type : Nat) : State :=
  { crewRun with fld := { crewRun.fld with inbox := [(0, { (default : Msg) with
      op := 0x20, src := 1, data := BitVec.ofNat 8 type :: List.replicate 31 0 })] } }

theorem test_wit_Membership :
    (crewRun.memberOf 1).inc < 1 ∧ 1 ≠ crewRun.fld.id ∧ (7 : Nat) ≠ crewRun.fuses.serial.toNat
      ∧ (({ crewRun with members := [(1, { member := true })] } : State).memberOf 1).member = true
      ∧ (mgmtRun 0x10).fld.inbox.length = 1 ∧ groupOf 1 = groupOf crewRun.fld.id
      ∧ (({ crewRun with linkmaps := [(2, { fresh := true })], now := 3000001 } : State).linkmap 2).at_ + 3000000 < 3000001
      ∧ crewRun.fld.idLocked = false ∧ groupOf (bits 13 0 (1 : Word).toNat) < crewRun.chr.groups
      ∧ crewRun.chr.groups ≤ groupOf (bits 13 0 (0x3FFF : Word).toNat)
      ∧ ({ crewRun with fld := { crewRun.fld with left := true } } : State).fld.left = true
      ∧ ({ crewRun with fld := { crewRun.fld with joinSent := true }, now := 100000 } : State).fld.joinAt + 100000 ≤ 100000 := by
  decide +kernel

/-- A port in use and ACTIVE whose neighbour is the parent. -/
def timeRun : State :=
  (({ crewRun with chr := { crewRun.chr with gmPrio := 0 } } : State).setAdit 0 { state := 5, inUse := true, timeGot := true, advert := some (1, 3, 0) })

theorem test_wit_FieldTime :
    (timeRun.adit 0).inUse = true ∧ (timeRun.adit 0).state = 5 ∧ (selectGm timeRun).fld.hasParent = true
      ∧ (selectGm timeRun).fld.parent = 0 ∧ (timeRun.adit 0).timeGot = true ∧ crewRun.fld.tstate = 0
      ∧ ((timeRun.adit 0).advert.isSome = true)
      ∧ (selectGm ({ crewRun with chr := { crewRun.chr with gmPrio := 1, auxPpsIn := some (0, 0), auxPpsOut := some (0, 1) } } : State)).fld.tstate = 3
      ∧ ({ crewRun.fld with ppsDue := true }).ppsDue = true ∧ crewRun.fld.hasParent = false := by
  decide +kernel

/-- A REQ flit of 256 bytes, an ARRIVE, whose CRC is right. -/
def goodFlit : List Byte :=
  let b : List Byte := leBytes 8 4 ++ ([0, 0, 0, 0, 0, 0, 0, 0, 0, 0, 3, 0] ++ List.replicate 228 0) ++ leBytes 4 0x2000000
  b ++ leBytes 4 (crc32c b)

/-- A port in state ACTIVE with credits. -/
def linkRun (x : Adit) : State := crewRun.setAdit 0 { x with state := 5, credR := [(0, 4)] }

/-- A held or queued flit. -/
def oneFlit : Flit := { f := parseFlit goodFlit }

theorem test_wit_LinkFlits :
    goodFlit.length = 256 ∧ leAt goodFlit 252 4 = crc32c (goodFlit.take 252) ∧ bits 4 2 (leAt goodFlit 0 8) = 1
      ∧ ((takeReturns 0 (leAt goodFlit 0 8) (leAt goodFlit 248 4) (linkRun {})).adit 0).state = 5
      ∧ bits 11 0 (leAt goodFlit 248 4) = ((linkRun {}).adit 0).rxNext := by
  decide +kernel
theorem test_wit_LinkFlits_more :
    badHeader 2 (leAt goodFlit 0 8) (parseFlit goodFlit) = false ∧ creditUsed {} (0, 0) < creditLimit 2 0 0
      ∧ (parseFlit goodFlit).first = true ∧ ((linkRun {}).adit 0).nakSent = false
      ∧ ((linkRun { txq := [oneFlit] }).adit 0).resend = [] ∧ (pickVc ((linkRun { txq := [oneFlit] }).adit 0)).isSome = true
      ∧ (readyOf ((linkRun { txq := [oneFlit] }).adit 0) 0).isSome = true
      ∧ ((linkRun { resend := [oneFlit] }).adit 0).resend = [oneFlit] ∧ pickVc ((linkRun {}).adit 0) = none
      ∧ ({ linkRun { replay := [oneFlit] } with now := 10000 } : State).adit 0 = { state := 5, credR := [(0, 4)], replay := [oneFlit] }
      ∧ oneFlit.sends < 16 ∧ 16 ≤ ({ oneFlit with sends := 16 } : Flit).sends
      ∧ leAt (List.replicate 256 0) 252 4 ≠ crc32c (List.replicate 252 0) := by
  decide +kernel

/-- Port 0 in a state. -/
def portIn (st : Nat) (x : Adit) : State := crewRun.setAdit 0 { x with state := st }
/-- CAPS of another stack of the field. -/
def capsGood : CapsPayload :=
  { stack := 1, adit := 30, revMax := 2, revMin := 1, lanes := 0, rate := 0, fieldId := crewRun.chr.fieldId, reserved := 4
    shared := [108, 108, 716, 12], seen := true }

theorem test_wit_LinkStates :
    let w := widthOf (maskOf 4 (fun l => bit l 15 && !bit l 0))
    ((portIn 1 {}).chr.aditMinWidth ≤ w.length ∧ w ≠ []) ∧ capsGood.stack ≠ crewRun.fld.id
      ∧ crewRun.chr.aditRevMin ≤ min 2 capsGood.revMax ∧ capsGood.revMin ≤ min 2 capsGood.revMax
      ∧ ((portIn 2 { capsGot := true }).adit 0).capsGot = true
      ∧ ((portIn 3 { qualSent := true }).adit 0).qualSent = true
      ∧ ((portIn 4 { rxDone := true, passRx := true }).adit 0).passRx = true
      ∧ ((aditFail 0 11 (portIn 5 {})).adit 0).state = 7
      ∧ ((portIn 7 { cause := 1 }).adit 0).cause = 1 ∧ 0 / 12 ∉ crewRun.clk.refLost
      ∧ reachesRegs .foreman = true ∧ crewRun.fld.ready = false
      ∧ ([(10 ^ 12, 0, 0)] : List (Nat × Nat × Nat)).length = (lanesOf ((portIn 4 { lanes := 1 }).adit 0).lanes).length
      ∧ 10 ^ 12 ≤ ([(10 ^ 12, 0, 0)] : List (Nat × Nat × Nat)).foldl (fun n l => n + l.1) 0
      ∧ 0 ∈ ({ crewRun with clk := { crewRun.clk with refLost := [0] } } : State).clk.refLost := by
  decide +kernel
theorem test_wit_LinkStates_trips :
    let s := portIn 5 { lanes := 1, fec := [(0, (0, 30000, 9))] }
    (lanesOf (s.adit 0).lanes = [0]) ∧ laneMsBits (s.adit 0).rate < 10000 * laneMsErrs s 0 0
      ∧ 8 < (((s.adit 0).fec.filter (fun e => decide (s.now < e.1 + 1000000))).map (fun e => e.2.2.2)).sum
      ∧ ((portIn 3 {}).adit 0).qualSent = false := by
  decide +kernel
theorem test_wit_LinkStates_spare :
    let s := ((({ crewRun with chr := { crewRun.chr with aditSpare := 3 } } : State).setAdit 3 { state := 7 }).setAdit 47 { state := 5 })
    s.chr.aditSpare < 47 ∧ (s.adit s.chr.aditSpare).state = 7 ∧ (s.adit 47).state = 5 ∧ (s.adit 47).spare = false := by
  decide +kernel

theorem test_wit_HostAccess :
    hostRun.fnExists 0 = true ∧ hostRun.thm.stopped = false ∧ bar2Dpa hostRun 0 0 = some (0x10000000000, none)
      ∧ spanHeld hostRun (.host 0) 0x10000000000 4 = false ∧ bar2Dpa hostRun 0 0x1000000000 = some (0, some 0)
      ∧ (dpaWrite (.host 0) 0x10000000000 [1, 2, 3, 4] hostRun).2 = .ok
      ∧ ownsSlot (hostRun.fn 0) 0 = true ∧ ownsSlot ((hostRun.setFn 0 { slotCount := 1 }).fn 0) 64 = false ∧ reachesFn hostRun .foreman 0 = true
      ∧ hostRun.hif.doe = none ∧ (38 : Nat) ≠ hostRun.hif.bar2Log2
      ∧ ((hostRun.setFn 0 { unsig := 1, modTime := 1 }).fn 0).unsig ≠ 0
      ∧ (let s := { hostRun.setFn 0 { unsig := 1, modTime := 1 } with now := 5000 }
         (s.fn 0).oldestAt + 1000 * (s.fn 0).modTime ≤ s.now)
      ∧ hostRun.errs = [] ∧ bit 0 (1#64).toNat = true ∧ (0 : Nat) < hostRun.msixSize 0 := by
  decide +kernel
theorem test_wit_HostAccess_pickup :
    let s : State := { hostRun with slotMem := [(0, 1)], hif := { hostRun.hif with marked := [0] } }
    s.hif.pickup = true ∧ s.thm.stopped = false ∧ s.errs = [] ∧ scanOrder s = [0] ∧ bit 0 (s.slotMem.get 0).toNat = true ∧ slotOwner s 0 = some 0 ∧ pickable (s.fn 0) = true
      ∧ leAt (s.slotMem.read 0 128) 1 1 < 6 := by
  decide +kernel

theorem test_wit_HostResets :
    let s : State := { hostRun with hif := { hostRun.hif with training := true, perst := false, vfEn := true, numVfs := 2 } }
    s.hif.training = true ∧ s.hif.perst = false ∧ s.clk.pclkLost = false ∧ linkMode 5 16 false = true ∧ s.fnExists 1 = true
      ∧ hostRun.hif.vfEn = false := by
  decide +kernel

/-- Function 0's runtime with one request of these bytes. -/
def reqRun (bs : List Byte) : State :=
  { hostRun with hif := { hostRun.hif with
      reqs := [{ bytes := (bs ++ List.replicate 128 0).take 128 }], apt := (List.range 16).map (fun n => (n, (defaultBase n, true))) } }

/-- The conditions of `Safety.ReqNew` there. -/
def reqHas (op : Nat) (used : List (Nat × Nat)) (bs : List Byte) : Bool :=
  match (reqRun bs).hif.reqs[0]? with
  | some r => reqOp r == op && r.stage == 0 && reqClean r used && opAllowed (reqRun bs) r
  | none => false

/-- A COPY of 64 bytes within the bin, and one from host address 0 to the bin. -/
def copyBytes64 (flags : Byte) : List Byte :=
  [1, 1, 0, 0, 0, 0, 0, 0] ++ leBytes 8 (if flags = 0 then 0x10000000000 else 0) ++ leBytes 8 0x10000000040 ++ leBytes 4 64 ++ [flags]

theorem test_wit_HostRequests :
    reqHas 0 [] [1, 0] = true ∧ reqHas 1 [(8, 21)] (copyBytes64 0) = true ∧ reqHas 1 [(8, 21)] (copyBytes64 1) = true
      ∧ reqHas 2 [(8, 3), (16, 8)] [1, 2] = true ∧ reqHas 3 [(8, 2), (16, 32)] [1, 3] = true
      ∧ reqHas 4 [(8, 1), (16, 8)] [1, 4] = true ∧ reqHas 5 [(16, 32)] [1, 5] = true
      ∧ reachable (reqRun []) 0 0 64 = true ∧ reachable (reqRun []) 0 0 128 = true
      ∧ (((reqRun []).setCrew 0 { state := 1 }).crew 0).state = 1 ∧ faceHere (reqRun []) 0 = true
      ∧ (pieces 0 128).all (fun p => !spanHeld (reqRun []) (.host 0) p.1 p.2) = true
      ∧ (readPieces (.host 0) (pieces 0 128) (reqRun [])).2.2 = .ok
      ∧ (let d := readPieces (.host 0) (pieces 0 128) (reqRun [])
         (shardSubmit 0 (wordsOf d.2.1) (some 0) (setReq { stage := 1 } d.1)).waited = false)
      ∧ (reqRun []).waited = false ∧ writesOpen (reqRun []) 0 = false ∧ (reqRun []).chr.faceLauncherHost = false
      ∧ ((reqRun []).face 0).queue.length < 4 ∧ ((reqRun []).eng 0).queue.length < 4
      ∧ ((reqRun []).vport 0).queue.length < 32 ∧ ringFull ((reqRun []).vport 0) = false
      ∧ vGood (wordsOf (leBytes 4 0x10 ++ List.replicate 28 0)) = true ∧ vGood (wordsOf (List.replicate 32 0)) = false := by
  decide +kernel
theorem test_wit_HostRequests_denied :
    let s : State := (reqRun [1, 0]).setFn 0 { (reqRun []).fn 0 with ops := 0 }
    let r : HostReq := { bytes := ([1, 0] ++ List.replicate 128 0).take 128 }
    s.hif.reqs[0]? = some r ∧ reqOp r = 0 ∧ r.stage = 0 ∧ reqClean r [] = true ∧ opAllowed s r = false := by
  decide +kernel
theorem test_wit_HostRequests_far :
    let bs := [1, 1, 0, 0, 0, 0, 0, 0] ++ leBytes 8 0xFF0000000000 ++ leBytes 8 0x10000000040 ++ leBytes 4 64
    let r : HostReq := { bytes := (bs ++ List.replicate 128 0).take 128 }
    reqHas 1 [(8, 21)] bs = true ∧ copyGood r = true ∧ copyOut (reqRun bs) r = some (0xFF0000000000, false) := by
  decide +kernel
theorem test_wit_HostRequests_copy :
    let r : HostReq := { bytes := (copyBytes64 0 ++ List.replicate 128 0).take 128 }
    let q : HostReq := { bytes := (copyBytes64 1 ++ List.replicate 128 0).take 128, stage := 1 }
    copyGood r = true ∧ copyGood q = true ∧ copyOut (reqRun []) r = none ∧ copyHeld (reqRun []) r = false
      ∧ copyOut (reqRun []) q = none ∧ copyHeld (reqRun []) q = false ∧ cpSrcHost q = true ∧ cpLen q = 64
      ∧ (pieces (cpDst q) 64).all (fun p => !spanHeld (reqRun []) (.host 0) p.1 p.2) = true
      ∧ (copyMove (allParts r) r (reqRun [])).1.waited = false
      ∧ (copyLand (pieces (cpDst q) 64) (List.replicate 64 1) q (reqRun [])).1.waited = false
      ∧ q.at_ + hostRun.hif.cplTimeout ≤ ({ reqRun [] with now := 10 ^ 9 } : State).now
      ∧ (hostRun.fn 0).hold = false ∧ ((hostRun.setFn 0 { cqEn := true, bme := true, modCount := 2 }).fn 0).unsig + 1 < max 1 2 := by
  decide +kernel

theorem test_wit_Integrity :
    let l : LineId := ⟨0, 0, 5⟩
    let s : State := { crewRun with errs := [{ kind := 0, inst := 0, line := 5, bytes := [3], wb := true }] }
    ((s.lineErr l).map (·.wb) = some true) ∧ storeAwake s 0 0 = true ∧ crewRun.lineErr l = none
      ∧ crewRun.chr.scrubEn = true ∧ storeIdle crewRun 0 0 = true ∧ storeIdle crewRun 3 0 = true ∧ 0 < (storeParts 0 0).length ∧ 1 < (storeParts 3 0).length
      ∧ reachesRegs .foreman = true ∧ crewRun.seamPresent 0 = true ∧ crewRun.hewerLive 0 0 = true ∧ crewRun.crewRuns 0 = true := by
  decide +kernel
theorem test_wit_Integrity_chk :
    let s := crewRun.setChk 30 { arm := true, src := 1 }
    chkSnoops s 30 1 0 64 = true ∧ (s.chk 30).window = false
      ∧ (List.range 32).all (fun w => w == 30 || !chkSnoops s w 1 0 64) = true ∧ crewRun.chr.veinChk ≤ 30
      ∧ 0 < crewRun.chr.veinChk ∧ reachesRegs .foreman = true ∧ (64 : Nat) % 64 = 0 := by
  decide +kernel

/-- Gallery 0 at a record. -/
def galAt (x : Gal) : State := crewRun.setGal 0 x

theorem test_wit_GalleryPoints :
    reachesRegs .foreman = true ∧ ((galAt { raiseOk := true, rBoot := false }).gal 0).reasons = false
      ∧ (let s := galAt { parked := false, rBoot := false, target := 2, point := 4 }
         effPoint s 0 < (s.gal 0).point ∧ (s.gal 0).moving = false ∧ (s.gal 0).fenced = false ∧ (s.gal 0).waiting = false
          ∧ (s.gal 0).raiseOk = false)
      ∧ (let s := ({ galAt { moving := true, goal := 5, point := 4, mv := 610 } with now := 5000 } : State)
         (s.gal 0).slewAt + 100 * (pointMv (s.gal 0).goal - (s.gal 0).mv + ((s.gal 0).mv - pointMv (s.gal 0).goal)) ≤ s.now)
      ∧ (let s := galAt { parked := false, stopAt := none, rBoot := false, mv := 610, vmin := 500 }
         (s.gal 0).vmin ≤ 500 ∧ 500 + (s.gal 0).droopTrip < mvNow s 0 ∧ s.running 0 = true ∧ (s.gal 0).dropping = false
           ∧ rampLimit s < 300 ∧ (s.gal 0).rampTrip = false)
      ∧ (let s := galAt { dropping := true, mv := 610 }
         2 * mvNow s 0 < 2 * 610 + (s.gal 0).droopTrip)
      ∧ (galAt { parked := true }).running 0 = false
      ∧ rampSteps ((galAt { ramp := 1, step := 8 }).gal 0) = 8 := by
  decide +kernel
theorem test_wit_GalleryPoints_ramp :
    let s : State := { galAt { ramp := 2, step := 8, partial_ := true } with committed := true, pwr := { crewRun.pwr with queue := [(0, 4, false, true)] } }
    s.committed = true ∧ crewRun.committed = false ∧ bits 15 8 (40 * 256) = (s.gal 0).droopTrip ∧ (∃ q ∈ s.pwr.queue, q.1 = 0)
      ∧ (s.gal 0).halfDrawn = false ∧ (∀ q ∈ crewRun.pwr.queue, q.1 ≠ 0)
      ∧ (s.gal 0).step < rampSteps (s.gal 0) ∧ rampSteps ((galAt { ramp := 2, step := 8 }).gal 0) = 8 := by
  decide +kernel

/-- The block with this power record and time. -/
def pwrRun (p : Pwr) (now : Nat) : State := { crewRun with pwr := p, now := now }

theorem test_wit_Ledger :
    let p := crewRun.pwr
    ({ pwrRun { p with steps := [(8, 13000)] } 0 with chr := { crewRun.chr with boardDemand := true } } : State).chr.boardDemand = true ∧ ((13000 : Int) % 6480 ≠ 3240) ∧ crewRun.brg.foreman = true
      ∧ ((100 : Nat) : Int) ≤ headroom8 (pwrRun { p with queue := [(0, 100, true, false)] } 0)
      ∧ (let s := pwrRun { p with queue := [(0, 3000000, true, false)] } 0
         headroom8 s < (3 * headroom8 s / 2).toNat ∧ ((3 * headroom8 s / 2).toNat : Int) ≤ 2 * headroom8 s)
      ∧ (let s := pwrRun { p with overSince := some 0, over_ := true } 20000
         s.pwr.over_ = true ∧ 0 + 10000 ≤ s.now ∧ s.running 0 = true ∧ effPoint s 0 = topPoint s)
      ∧ (let s := (pwrRun { p with underSince := some 0 } 2000000).setGal 1 { ledgerClamp := 8 }
         0 + 1000000 ≤ s.now ∧ (s.gal 1).ledgerClamp < 16) := by
  decide +kernel

theorem test_wit_ClocksAndRails :
    ({ crewRun with brg := { crewRun.brg with powered := true } } : State).brg.powered = true ∧ crewRun.brg.foreman = true ∧ crewRun.running 0 = true ∧ corePresent crewRun 0 0 = true
      ∧ (let s := crewRun.setCore 0 0 { slack := some 3 }
         (s.core 0 0).slack = some 3 ∧ s.now < (s.core 0 0).slackAt + 1000000000)
      ∧ (let s : State := { crewRun with brg := { crewRun.brg with surveyA := { valid := true, count := 4 }, ageUnwritten := [(3, 1, 0)] } }
         s.brg.unwritten = [] ∧ s.brg.remapUnwritten = [] ∧ surveyNow s = some (false, s.brg.surveyA)
           ∧ (surveyEntries s).length < surveyRoom)
      ∧ (crewRun.gal 0).fenced = false ∧ mvNow crewRun 0 + 80 < 2000 ∧ 96 * railNominal crewRun 4 < 100 * 2000
      ∧ warnsAt crewRun 3 700 = true ∧ 3 ∉ crewRun.pwr.warn ∧ resetsAt crewRun 3 900 = true
      ∧ (let s : State := { crewRun with pwr := { crewRun.pwr with sagIrq := false } }
         s.pwr.sagIrq = false)
      ∧ (let s : State := { crewRun with chr := { crewRun.chr with auxTrace := some (0, 1, 2) }, brg := { crewRun.brg with charterDone := true } }
         s.chr.auxTrace ≠ none ∧ s.brg.charterDone = true) := by
  decide +kernel
/-- Ageing: whatever the free guard band is, a slack can lie below it. -/
theorem test_wit_ClocksAndRails_age :
    let s : State := { crewRun.setCore 0 0 { slack := some (Config.guardBand 0 - 1) } with now := 1000000000 }
    (s.core 0 0).slack = some (Config.guardBand 0 - 1) ∧ (s.core 0 0).slackAt + 1000000000 ≤ s.now
      ∧ Config.guardBand 0 - 1 < Config.guardBand 0 := by
  refine ⟨by simp [State.core, State.setCore], by simp [State.core, State.setCore], by omega⟩

/-- The block with its supply on and its charter applied. -/
def powered : State :=
  { crewRun with brg := { crewRun.brg with powered := true, charterDone := true } }

theorem test_wit_ThermalControl :
    powered.brg.powered = true ∧ (powered.can 7).failed = false ∧ ((powered.setCan 7 { bad := 2 }).can 7).bad = 2
      ∧ (600 : Int) < tripAt 600 ∧ (powered.can 300).failed = false ∧ powered.brg.foreman = true ∧ powered.chr.air = false
      ∧ (let c : Cause := { pt := 8, riseAt := some 0 }
         let s := ({ powered with now := 20000000 } : State).setGal 0 { causes := [(201, c)] }
         (s.gal 0).causes = [(201, c)] ∧ mayRise s 0 201 c = true)
      ∧ tripAt 600 ≤ 900 ∧ (powered.can 600).failed = false
      ∧ (let s : State := { powered with thm := { powered.thm with dpLowSince := some 0 }, now := 2000000, chr := { powered.chr with flowOkEn := true } }
         s.chr.flowOkEn = true ∧ s.thm.dpLowSince = some 0 ∧ 0 + 1000000 ≤ s.now)
      ∧ (let s : State := { powered with thm := { powered.thm with stopped := true }, chr := { powered.chr with air := true } }
         s.thm.stopped = true ∧ s.chr.air = true ∧ restartFails s false = 0 ∧ restartFails s true = 0)
      ∧ (let s : State := { powered with thm := { powered.thm with stopped := true, tripAsserted := [3] }, chr := { powered.chr with air := true } }
         restartFails s false ≠ 0 ∧ restartFails s true ≠ 0) := by
  decide +kernel

/-- The block in channel mode at a thermal record and a time. -/
def coolRun (t : Thm) (now : Nat) : State :=
  { crewRun with brg := { crewRun.brg with powered := true, charterDone := true }, thm := t, now := now }

theorem test_wit_Coolant :
    let t := crewRun.thm
    let s := coolRun t 0
    s.brg.charterDone = true ∧ s.chr.air = false ∧ s.brg.foreman = true ∧ s.thm.pulseFailed = false
      ∧ ({ s with chr := { s.chr with flowSrcPressure := false } } : State).chr.flowSrcPressure = false
      ∧ ({ s with chr := { s.chr with auxFlow := some 3 } } : State).chr.auxFlow ≠ none
      ∧ (let s := coolRun { t with level := 1, belowSince := [(1, 0), (2, 0)] } 200000000
         s.thm.level < 2 ∧ 2 = levelDue s)
      ∧ (let s := coolRun { t with level := 0, belowSince := [(1, 0), (2, 0), (3, 0)] } 200000000
         s.thm.level < 3 ∧ 3 = levelDue s)
      ∧ (let s := coolRun { t with level := 2, aboveSince := some 0 } 2000000000
         s.thm.level = 1 + 1 ∧ held s.now 1000000000 s.thm.aboveSince = true)
      ∧ (coolRun { t with unparkQ := [4] } 0).thm.stopped = false
      ∧ (let s := coolRun { t with dp := 100000, pulseFailed := true } 0
         s.thm.level = 0 ∧ 100 * (flowFrac s).2 ≤ (flowFrac s).1 ∧ s.chr.valveMin ≤ 1024)
      ∧ smbUp s = true ∧ (let s := coolRun { t with airReportAt := some 0 } 20000000000
         s.thm.airReportAt = some 0 ∧ 0 + 10000000000 ≤ s.now)
      ∧ (coolRun { t with level := 1 } 0).thm.level ≠ 0 ∧ (pldmSensor s 11).isSome = true ∧ pldmSensor s 12 = none := by
  decide +kernel

/-- The block with its supply on. -/
def poweredUp : State := { crewRun with brg := { crewRun.brg with powered := true } }

theorem test_wit_StackResets :
    reachesRegs .foreman = true ∧ poweredUp.brg.foreman = true ∧ warmKey 0x1A500#32 = true ∧ warmKey 3#32 = false
      ∧ poweredUp.evt.held = [] ∧ poweredUp.chr.auxValve = none ∧ poweredUp.sec.session = none ∧ (poweredUp.img 1).st = 0
      ∧ ({ poweredUp with brg := { poweredUp.brg with state := 1 } } : State).brg.state = 1
      ∧ ({ poweredUp with brg := { poweredUp.brg with state := 2 } } : State).brg.state ≠ 1
      ∧ (let s : State := { poweredUp with brg := { poweredUp.brg with foreman := false, stockReset := true } }
         copiesRun { s with brg := { s.brg with foreman := true } } = false ∧ s.brg.stockReset = true) := by
  decide +kernel

/-- A running step of bring-up. -/
def stepRun (code : Nat) : State :=
  { State.reset with brg := { State.reset.brg with powered := true, charterDone := true, step := code, state := 1, done := code - 1 } }
/-- Both survey copies missing. -/
def noSurvey (d : Bool) : State :=
  { stepRun 1 with brg := { (stepRun 1).brg with surveyA := { valid := false }, surveyB := { valid := false }, discard := d } }

theorem test_wit_BringupSteps :
    let s := stepRun 14
    (s.brg.step = 14 ∧ s.brg.state = 1 ∧ s.brg.powered = true ∧ s.brg.foreman = true)
      ∧ (List.range 12).all (fun n => stepRuns n (stepRun n)) = true
      ∧ (surveyNow (stepRun 1)).isSome = true ∧ surveyNow (noSurvey true) = none ∧ (noSurvey true).brg.discard = true
      ∧ stepRuns 1 (noSurvey false) = true ∧ (noSurvey false).brg.discard = false
      ∧ (stepRun 2).brg.assayBad = [] ∧ essentialLost [] (stepRun 2) = false ∧ keeps (stepRun 4) = false ∧ (stepRun 4).glb.groups ≠ 0
      ∧ crewGood (stepRun 5) 0 = true ∧ (stepRun 7).glb.stock ≠ 0 ∧ (stepRun 8).crewPresent 0 = true
      ∧ (crewsOf 0).any (stepRun 8).crewPresent = true ∧ aditOn (stepRun 9) 0 = true := by
  decide +kernel
theorem test_wit_BringupSteps_end :
    let s : State := { stepRun 6 with brg := { (stepRun 6).brg with result := some (2, .ok, 0) } }
    let w : State := { stepRun 6 with now := 1000000000 }
    (s.brg.state = 1 ∧ s.thm.stopped = false ∧ s.brg.result = some (2, .ok, 0))
      ∧ w.brg.result = none ∧ w.brg.stepAt + w.brg.stepPaused + 1000000 * stepLimit w.brg.step ≤ w.now
      ∧ ({ s with sec := { s.sec with ovLoading := true } } : State).sec.ovLoading = true
      ∧ (({ stepRun 10 with adits := [(0, { state := 3, qualGot := true })] } : State).adit 0).qualGot = true := by
  decide +kernel

theorem test_wit_Firmware :
    let c := crewRun.sec
    let u := fun (p : Bool) (ph : Nat) (st : Nat) => imgRun 1 { st := st }
      { c with session := some { pldm := p, total := 8, recv := [0, 0, 0, 0], hdr := some default }, phase := ph, kind := 1 } 0
    (updReady false crewRun = true ∧ crewRun.sec.session = none ∧ (crewRun.img 1).st ≤ 1)
      ∧ (updReady false (u false 3 0) = true ∧ (u false 3 0).sec.session ≠ none)
      ∧ ({ crewRun with sec := { c with ready := false } } : State).sec.ready = false
      ∧ (u false 1 0).brg.foreman = true ∧ (u true 3 0).sec.ready = true
      ∧ ((u true 3 0).sec.session.map (fun x => decide (x.recv.length + [1, 2, 3, 4].length ≤ x.total) && x.pldm)) = some true
      ∧ ((imgRun 1 {} { c with session := some { total := 4, recv := [0, 0, 0, 0], hdr := some default }, phase := 3 } 0).sec.session.map
          (fun x => x.recv.length == x.total)) = some true
      ∧ ((u false 3 2).img (u false 3 2).sec.kind).st = 2 ∧ ((imgRun 2 { st := 3 } c 0).img 2).st = 3
      ∧ smbUp (u true 3 0) = true ∧ smbUp State.reset = false
      ∧ (u false 2 0).sec.phase = 2 ∧ (u false 2 0).sec.kind = 1
      ∧ (imgRun 1 {} { c with copying := [(1, true)] } 0).sec.session = none := by
  decide +kernel

theorem test_wit_Confirmation :
    let c := { crewRun.sec with readyAt := some 0, revertAt := some 0, crewMicro := true }
    let x : ImgSlot := { st := 3, boots := 1, booted := some { hdr := { (default : ImgHdr) with svn := 3 }, body := [] } }
    let s := imgRun 2 x c 1000000000000
    ((s.img 2).booted.isSome = true ∧ (s.img 2).st = 3 ∧ (s.img 2).boots ≠ 0 ∧ (s.img 2).fromReserve = false
        ∧ (s.img 2).reverted = false ∧ (s.img 2).fuseFail = false)
      ∧ bit 0 (1#32).toNat = true ∧ ((s.img 2).booted.bind (fun b => firstFuse s 2 b.hdr)) = some (0, 0)
      ∧ ((imgRun 4 x c 70000000000).img 4).st = 3 ∧ (0 : Nat) + 60000000000 ≤ (imgRun 4 x c 70000000000).now
      ∧ s.sec.foremanResetSinceReady = false ∧ s.brg.foreman = true ∧ s.sec.crewMicro = true
      ∧ (0 : Nat) + 600000000000 ≤ s.now ∧ s.sec.revertAt = some 0
      ∧ ((imgRun 1 x c 0).img 1).booted.isSome = true := by
  decide +kernel

theorem test_wit_SpdmConnection :
    let s := spdmRun { version := true, caps := true, algs := true } true
    (s.brg.foreman = true ∧ (s.img 1).booted.isSome = true ∧ (takeRequest .doe s).isSome = true)
      ∧ (s.spdmOf .doe).version = true ∧ (s.spdmOf .doe).caps = true ∧ (s.spdmOf .doe).algs = true ∧ s.sec.attestReady = true
      ∧ (measAsked 0 s).isSome = true ∧ (measAsked 0xFF s).isSome = true := by
  decide +kernel
theorem test_wit_SpdmConnection_early :
    let s := spdmRun {} false
    let n := spdmRun { version := true, caps := true, algs := true } false
    (s.brg.foreman = true ∧ (s.img 1).booted.isSome = true ∧ (takeRequest .doe s).isSome = true)
      ∧ s.sec.attestReady = false ∧ (s.spdmOf .doe).algs = false
      ∧ (takeRequest .doe n).isSome = true ∧ (n.spdmOf .doe).algs = true ∧ n.sec.attestReady = false := by
  decide +kernel

theorem test_wit_SpdmSessions :
    let s := spdmRun { version := true, caps := true, algs := true, sessions := [(7, false), (9, true)], chunkIn := some (1, 1, [0]), chunkOut := some (0, 0, [1, 2]) } true
    let x := s.spdmOf .doe
    (s.brg.foreman = true ∧ (s.img 1).booted.isSome = true ∧ (takeRequest .doe s).isSome = true ∧ x.algs = true)
      ∧ s.sec.attestReady = true ∧ (7, false) ∈ x.sessions ∧ (9, true) ∈ x.sessions ∧ (7, true) ∉ x.sessions
      ∧ x.chunkIn = some (1, 1, [0]) ∧ ([0] ++ [5, 6] : List Byte).length ≤ 65536 ∧ x.chunkOut = some (0, 0, [1, 2]) := by
  decide +kernel
theorem test_wit_SpdmSessions_none :
    let s := spdmRun { algs := true } true
    (s.brg.foreman = true ∧ (s.img 1).booted.isSome = true ∧ (takeRequest .doe s).isSome = true ∧ (s.spdmOf .doe).algs = true)
      ∧ (s.spdmOf .doe).chunkIn = none ∧ (9, true) ∉ (s.spdmOf .doe).sessions := by
  decide +kernel

theorem test_wit_Registers :
    let s : State := { crewRun with hif := { crewRun.hif with perst := false } }
    recovering s = false ∧ inReset .foreman 0x3701020 s = false ∧ pcieOff s = false
      ∧ pcieOff { s with hif := { s.hif with perst := true } } = true ∧ bar0Slot 0 0x3701020 = none ∧ isLow s 0x3701020 = true ∧ isHigh s 0x3701024 = true
      ∧ isLow s 0x320 = false ∧ isHigh s 0x320 = false ∧ bar0Slot 0 0x320 = none ∧ s.fnExists 0 = true
      ∧ (let u : State := { s with latches := [((.foreman, 0x3701020), 5)] }
         isHigh u 0x3701024 = true ∧ u.latches.find? (fun p => p.1 == (.foreman, 0x3701024 - 4)) = some ((.foreman, 0x3701024 - 4), 5))
      ∧ (({ s with glb := { s.glb with deny := { s.glb.deny with valid := true } } } : State).glb.deny.valid = true)
      ∧ ((s.setAdit 3 { state := 5 }).adit 3).state = 5 ∧ (pairRead s 0x3701020).isSome = true := by
  decide +kernel

theorem test_wit_ResetStartsCharter :
    let s : State := { crewRun with brg := { crewRun.brg with powered := true } }
    reachesRegs .foreman = true ∧ s.brg.foreman = true ∧ warmKey 0x1A500#32 = true ∧ s.brg.powered = true
      ∧ resetsAt s 3 900 = true := by decide +kernel

theorem test_wit_TokenLimit :
    crewRun.flowClamp = false ∧ crewRun.layerSuspect = false ∧ crewRun.tokLimit = 2 ∧ crewRun.chr.testMode = false
      ∧ ({ crewRun with layerSuspect := true } : State).layerSuspect = true
      ∧ ({ crewRun with flowClamp := true } : State).flowClamp = true
      ∧ (List.range 64).all (fun col => regRead crewRun (0x3400200 + 4 * col) % 8 == crewRun.tokLimit) = true := by decide +kernel

theorem test_wit_CrewEncoding :
    (Instr.cutPush 3 1 2 31).wf = true ∧ encodeCrewExt (.cutPush 3 1 2 31) = some (rType 0 0 1 2 31)
      ∧ (0xFE00000B#32).toNat % 128 = 0x0B ∧ [3, 2, 1, 2, 5, 5, 1, 0].getD ((0xFE00000B#32).toNat / 2 ^ 12 % 8) 0 ≤ (0xFE00000B#32).toNat / 2 ^ 25
      ∧ (0x13#32).toNat % 128 ≠ 0x0B := by
  decide +kernel
/-- tok.rel x5 by Table 6-2: funct7 1, rs2 0, rs1 5, funct3 4, rd 0, opcode 0x0B. -/
theorem test_tokRel_word : decodeCrewExt 7 0b0000001_00000_00101_100_00000_0001011#32 = some (.tokRel 7 5) := by decide +kernel
/-- arr.wait x1, x2, x3: funct7 2, rs2 3, rs1 2, funct3 5, rd 1. -/
theorem test_arrWait_word : decodeCrewExt 0 0b0000010_00011_00010_101_00001_0001011#32 = some (.arrWait 0 1 2 3) := by decide +kernel

end Sys2Proof.Tests
end

section
/-! Register accesses (R8, R9, R49, R442, R455, R493): one rule per way an access can go, then the statement about them (O52). -/

namespace Sys2Proof.Machine

/-! ### The commands, as accesses -/

theorem exec_registerWrite (r : Requester) (a n : Nat) (v : Word) (s : State) :
    exec (.registerWrite r a n v) s = .next (regStore r a n v.toNat s) := rfl

theorem exec_reg64LowWrite (r : Requester) (a n : Nat) (v : Word) (s : State) :
    exec (.reg64LowWrite r a n v) s = .next (regStore r a n v.toNat s) := rfl

theorem exec_reg64HighWrite (r : Requester) (a n : Nat) (v : Word) (s : State) :
    exec (.reg64HighWrite r a n v) s = .next (regStore r a n v.toNat s) := rfl

theorem exec_reg64LowRead (r : Requester) (a n : Nat) (s : State) :
    exec (.reg64LowRead r a n) s = .next (regLoad r a n s) := rfl

theorem exec_overseerDpaAccess (r : Requester) (store : Bool) (dpa len : Nat) (data : List Byte) (s : State) :
    exec (.overseerDpaAccess r store dpa len data) s = execOverseerDpaAccess r store dpa len data s := rfl

theorem exec_fieldRegisterAccess (a src addr : Nat) (store : Bool) (v : Dword) (s : State) :
    exec (.fieldRegisterAccess a src addr store v) s = execFieldRegisterAccess a src addr store v s := rfl

/-! ### One aligned word, stored or loaded (R8) -/

theorem isLow_of_isHigh {s : State} {a : Nat} (h : isHigh s a = true) : isLow s a = false := by
  simp only [isHigh, Bool.and_eq_true, Bool.not_eq_true'] at h
  exact h.1.2

theorem regPut_low {s : State} {a : Nat} (r : Requester) (w : Nat) (h : isLow s a = true) :
    regPut r a w s = { s with pendLow := assocSet s.pendLow (r, a) (BitVec.ofNat 32 w) } :=
  if_pos h

theorem regPut_high {s : State} {a : Nat} (r : Requester) (w : Nat) (h : isHigh s a = true) :
    regPut r a w s = pairWrite r (a - 4) (2 ^ 32 * w + lowWord s r (a - 4))
      { s with pendLow := s.pendLow.filter (fun p => p.1 != (r, a - 4)) } := by
  simp [regPut, isLow_of_isHigh h, h]

theorem regPut_solo {s : State} {a : Nat} (r : Requester) (w : Nat) (hl : isLow s a = false) (hh : isHigh s a = false) :
    regPut r a w s = soloWrite r a w s := by
  simp [regPut, hl, hh]

theorem regGet_low {s : State} {a : Nat} (r : Requester) (h : isLow s a = true) :
    regGet r a s = ({ s with free := s.free + 1, latches := assocSet s.latches (r, a) (BitVec.ofNat 32 (regRead s (a + 4))) },
      regRead s a) :=
  if_pos h

theorem regGet_high_latched {s : State} {a : Nat} {r : Requester} {w : Word} (h : isHigh s a = true)
    (hw : s.latches.find? (fun p => p.1 == (r, a - 4)) = some ((r, a - 4), w)) :
    regGet r a s = ({ s with free := s.free + 1 }, w.toNat) := by
  simp [regGet, isLow_of_isHigh h, h, hw]

/-! ### What an access meets first: the reset of the PCIe partition, then R9 and the recovery identity -/

theorem inReset_eq_false {s : State} {a : Nat} (r : Requester) (h : pcieOff s = false ∨ a < 0x800000 ∨ 0x2000000 ≤ a) :
    inReset r a s = false := by
  obtain h | h | h := h
  · simp [inReset, h]
  · simp [inReset, Nat.not_le.mpr h]
  · simp [inReset, Nat.not_lt.mpr h]

theorem regOpen_word {s : State} {a : Nat} (h4 : a % 4 = 0) (ha : a < 0x4000000) (hs : recovering s = false) :
    regOpen a 4 s = true := by
  simp [regOpen, r9, h4, ha, hs]

theorem regOpen_malformed {a n : Nat} (s : State) (h : n ≠ 4 ∨ a % 4 ≠ 0 ∨ 0x4000000 ≤ a) : regOpen a n s = false := by
  have h9 : r9 a n = false := by
    simp only [r9, Bool.and_eq_false_iff, beq_eq_false_iff_ne, decide_eq_false_iff_not, Nat.not_lt, or_assoc]
    exact h
  simp [regOpen, h9]

/-! ### Accesses of the Foreman and the Overseers (R49) -/

section Fabric

variable {r : Requester} (hr : r = .foreman ∨ ∃ o, r = .overseer o)
include hr

theorem inReset_of_pcieOff {s : State} {a : Nat} (hoff : pcieOff s = true) (hlo : 0x800000 ≤ a) (hhi : a < 0x2000000) :
    inReset r a s = true := by
  obtain rfl | ⟨o, rfl⟩ := hr <;> simp [inReset, hoff, hlo, hhi]

theorem regStore_inReset {s : State} {a : Nat} (n w : Nat) (h : inReset r a s = true) :
    regStore r a n w s = s.emit (.answer r .abortedByReset []) := by
  obtain rfl | ⟨o, rfl⟩ := hr <;> exact if_pos h

theorem regLoad_inReset {s : State} {a : Nat} (n : Nat) (h : inReset r a s = true) :
    regLoad r a n s = s.emit (.answer r .abortedByReset []) := by
  obtain rfl | ⟨o, rfl⟩ := hr <;> exact if_pos h

theorem regStore_open {s : State} {a n : Nat} (w : Nat) (hs : bar0Slot 0 a = none) (hi : inReset r a s = false)
    (ho : regOpen a n s = true) : regStore r a n w s = regPut r a w s := by
  obtain rfl | ⟨o, rfl⟩ := hr <;> simp [regStore, hi, hs, ho]

theorem regStore_refused {s : State} {a n : Nat} (w : Nat) (hs : bar0Slot 0 a = none) (hi : inReset r a s = false)
    (ho : regOpen a n s = false) : regStore r a n w s = regRefused r a true s := by
  obtain rfl | ⟨o, rfl⟩ := hr <;> simp [regStore, hi, hs, ho]

theorem regLoad_open {s : State} {a n : Nat} (hs : bar0Slot 0 a = none) (hi : inReset r a s = false)
    (ho : regOpen a n s = true) :
    regLoad r a n s = (ringNote a (regGet r a s).1).emit (.answer r .ok (leBytes 4 (regGet r a s).2)) := by
  obtain rfl | ⟨o, rfl⟩ := hr <;> simp [regLoad, regAnswer, hi, hs, ho]

theorem exec_overseerDpaAccess_memory {dpa : Nat} (h : dpa < 0xF0000000000) (store : Bool) (len : Nat) (data : List Byte)
    (s : State) : exec (.overseerDpaAccess r store dpa len data) s = .next (dpaAccess r store dpa len data s) := by
  have hw : ¬ (0xF0000000000 ≤ dpa ∧ dpa < 0xF0004000000) := fun hd => Nat.not_le.mpr h hd.1
  rw [exec_overseerDpaAccess]
  obtain rfl | ⟨o, rfl⟩ := hr <;> exact congrArg Host.Outcome.next (if_neg hw)

theorem exec_overseerDpaAccess_regStore {s : State} {dpa : Nat} {data : List Byte} (hlo : 0xF0000000000 ≤ dpa)
    (hhi : dpa < 0xF0004000000) (hs : bar0Slot 0 (winOff dpa) = none) (hi : inReset r (winOff dpa) s = false)
    (ho : regOpen (winOff dpa) data.length s = true) (len : Nat) :
    exec (.overseerDpaAccess r true dpa len data) s
      = .next ((regPut r (winOff dpa) (leNat data) s).emit (.answer r .ok [])) := by
  rw [← regStore_open hr (leNat data) hs hi ho]
  obtain rfl | ⟨o, rfl⟩ := hr <;> simp [exec_overseerDpaAccess, execOverseerDpaAccess, hlo, hhi, hi, hs, ho]

end Fabric

/-! ### Accesses of the physical function and of a peer (R9, R8) -/

theorem regStore_host_refused {s : State} {a n : Nat} (w : Nat) (hf : s.fnExists 0 = true) (hs : bar0Slot 0 a = none)
    (ho : regOpen a n s = false) : regStore (.host 0) a n w s = s.emit (.cplUR 0) := by
  simp [regStore, regRefused, bar0Reg, hf, hs, ho]

section Peer

variable {s : State} {a addr : Nat} (hup : (s.adit a).state = 5) (src : Nat)
  (hi : inReset (.peer a src) addr s = false) (ho : regOpen addr 4 s = true)
include hup hi ho

theorem exec_fieldRegisterAccess_load_pair (v : Dword) {x : Nat} (hx : pairRead s addr = some x) :
    exec (.fieldRegisterAccess a src addr false v) s
      = .next ((ringNote addr { s with free := s.free + 1 }).emit (.answer (.peer a src) .ok (leBytes 8 x))) := by
  simp [exec_fieldRegisterAccess, execFieldRegisterAccess, hup, hi, ho, hx]

theorem exec_fieldRegisterAccess_store_pair (v : Dword) (hl : isLow s addr = true) :
    exec (.fieldRegisterAccess a src addr true v) s
      = .next ((pairWrite (.peer a src) addr v.toNat s).emit (.answer (.peer a src) .ok [])) := by
  simp [exec_fieldRegisterAccess, execFieldRegisterAccess, hup, hi, ho, hl]

theorem exec_fieldRegisterAccess_store_solo (v : Dword) (hl : isLow s addr = false) (hh : isHigh s addr = false) :
    exec (.fieldRegisterAccess a src addr true v) s
      = .next ((soloWrite (.peer a src) addr (v.toNat % 2 ^ 32) s).emit (.answer (.peer a src) .ok [])) := by
  simp [exec_fieldRegisterAccess, execFieldRegisterAccess, hup, hi, ho, hl, hh]

end Peer

/-! ### The GLB registers that are written (R64, Table 16-12) -/

theorem pairRead_glb_none (s : State) {a : Nat} (h : a < 0x100000) (hd : a ≠ 0x108) (hp : a ≠ 0x318) :
    pairRead s a = none := by
  unfold pairRead
  repeat rw [if_neg (by omega)]

/-- GLB's only pairs are the deny record's address at 0x108 and the adits present at 0x318: an address that is neither's, nor 4
bytes after either, stands alone. -/
theorem glb_solo (s : State) {a : Nat} (h : a < 0x100000) (hl : a ≠ 0x108 ∧ a ≠ 0x318) (hh : a ≠ 0x10C ∧ a ≠ 0x31C) :
    isLow s a = false ∧ isHigh s a = false := by
  have hlow : isLow s a = false := by simp [isLow, pairRead_glb_none s h hl.1 hl.2]
  refine ⟨hlow, ?_⟩
  by_cases h4 : 4 ≤ a
  · have hnone : pairRead s (a - 4) = none := pairRead_glb_none s (by omega) (by omega) (by omega)
    simp [isHigh, isLow, hnone]
  · simp [isHigh, h4]

theorem soloWrite_glb (r : Requester) {a : Nat} (w : Nat) (s : State) (h : a < 0x100000) :
    soloWrite r a w s = glbWrite a w s :=
  if_pos h

/-- A conforming write by the Foreman of a GLB register that belongs to no pair. -/
theorem exec_registerWrite_glb {s : State} {a : Nat} (v : Word) (hs : recovering s = false) (h4 : a % 4 = 0)
    (ha : a < 0x100000) (hl : a ≠ 0x108 ∧ a ≠ 0x318) (hh : a ≠ 0x10C ∧ a ≠ 0x31C) :
    exec (.registerWrite .foreman a 4 v) s = .next (glbWrite a v.toNat s) := by
  obtain ⟨hlow, hhigh⟩ := glb_solo s ha hl hh
  have hslot : bar0Slot 0 a = none := by rw [bar0Slot, if_neg (by omega), if_neg (by simp)]
  rw [exec_registerWrite, regStore_open (.inl rfl) _ hslot (inReset_eq_false _ (.inr (.inl (by omega))))
    (regOpen_word h4 (by omega) hs), regPut_solo _ _ hlow hhigh, soloWrite_glb _ _ _ ha]

theorem glbWrite_resetCause (w : Nat) (s : State) :
    glbWrite 0x320 w s = { s with glb := { s.glb with resetCause := if w % 8 ≤ 4 then w % 8 else 0 } } := rfl

theorem glbWrite_deny_clears {s : State} {w : Nat} (hw : bit 0 w = true) (hd : s.glb.deny.valid = true) :
    glbWrite 0x104 w s = { s with glb := { s.glb with deny := { s.glb.deny with valid := false, overflow := false } } } := by
  simp [glbWrite, hw, hd]

/-! ### The statement -/

/-- Settles O52: each clause is the rule above of the way its access goes. -/
theorem registers : Obligations.Registers := by
  unfold Obligations.Registers
  refine ⟨fun s a v r hr h4 ha hslot hs hi => ?_, fun s r a n v hr hoff hlo hhi => ?_, fun s v hs => ⟨?_, fun hv hd => ?_⟩,
    fun s a n v hf hbad hslot hon => ?_, fun s a src addr v hup h4 ha hs hon => ?_, fun s r store dpa len data hr h => ?_,
    fun s r dpa len data hr hlo hhi hlen h4 ha hslot hs hi hl hh => ?_⟩
  · have ho : regOpen a 4 s = true := regOpen_word h4 ha hs
    have hstore : regStore r a 4 v.toNat s = regPut r a v.toNat s := regStore_open hr _ hslot hi ho
    have hload := regLoad_open hr hslot hi ho
    refine ⟨fun hl => ⟨?_, ?_⟩, fun hh => ⟨?_, fun w hw => ?_⟩, fun hl hh => ?_⟩
    · rw [exec_reg64LowWrite, hstore, regPut_low r _ hl, BitVec.ofNat_toNat, BitVec.setWidth_eq]
    · rw [exec_reg64LowRead, hload, regGet_low r hl]; rfl
    · rw [exec_reg64HighWrite, hstore, regPut_high r _ hh]
    · rw [exec_reg64LowRead, hload, regGet_high_latched hh hw]; rfl
    · rw [exec_registerWrite, hstore, regPut_solo r _ hl hh]
  · have hreset : inReset r a s = true := inReset_of_pcieOff hr hoff hlo hhi
    have hstore := regStore_inReset hr n v.toNat hreset
    rw [exec_registerWrite, exec_reg64LowWrite, exec_reg64HighWrite, exec_reg64LowRead, hstore, regLoad_inReset hr n hreset]
    exact ⟨rfl, rfl, rfl, rfl⟩
  · rw [exec_registerWrite_glb v hs rfl (by decide) (by decide) (by decide), glbWrite_resetCause]
  · rw [exec_registerWrite_glb v hs rfl (by decide) (by decide) (by decide),
      glbWrite_deny_clears hv hd]
  · have ho : regOpen a n s = false := regOpen_malformed s hbad
    constructor
    · rw [exec_registerWrite, regStore_host_refused _ hf hslot ho]; rfl
    · rw [exec_registerWrite, regStore_refused (.inl rfl) _ hslot (inReset_eq_false _ hon) ho]; rfl
  · have hi := inReset_eq_false (.peer a src) hon
    have ho := regOpen_word h4 ha hs
    exact ⟨fun x hx => exec_fieldRegisterAccess_load_pair hup src hi ho v hx,
      exec_fieldRegisterAccess_store_pair hup src hi ho v, exec_fieldRegisterAccess_store_solo hup src hi ho v⟩
  · exact exec_overseerDpaAccess_memory hr h store len data s
  · have ho : regOpen (winOff dpa) data.length s = true := by rw [hlen]; exact regOpen_word h4 ha hs
    rw [exec_overseerDpaAccess_regStore hr hlo hhi hslot hi ho, regPut_solo r _ hl hh]

end Sys2Proof.Machine
end

section
/-! Duty tokens (R28 to R35, R172): how a slice judges a request, what a release and a revocation leave, and how the limit of
Table 1-8 is made up; then the statements about them (O11, O54). -/

namespace Sys2Proof.Machine

/-! ### The limit of a column (R30, Table 1-8) -/

/-- The token limit before the reductions of Table 1-8. -/
def State.tokBase (s : State) : Nat := if s.chr.testMode then s.chr.testTokens else if s.chr.air then 1 else 2

theorem State.tokLimit_eq (s : State) :
    s.tokLimit = max 1 (if s.layerSuspect = true then (if s.flowClamp = true then min s.tokBase 1 else s.tokBase) - 1
      else if s.flowClamp = true then min s.tokBase 1 else s.tokBase) := rfl

theorem State.one_le_tokLimit (s : State) : 1 ≤ s.tokLimit := Nat.le_max_left _ _

theorem State.tokLimit_of_no_reduction {s : State} (hf : s.flowClamp = false) (hl : s.layerSuspect = false) :
    s.tokLimit = max 1 s.tokBase := by
  simp [s.tokLimit_eq, hf, hl]

theorem State.tokLimit_of_flowClamp {s : State} (hf : s.flowClamp = true) : s.tokLimit = 1 := by
  have hmin : min s.tokBase 1 ≤ 1 := Nat.min_le_right _ _
  rw [s.tokLimit_eq, if_pos hf]
  split <;> omega

theorem State.tokLimit_of_layerSuspect {s : State} (hl : s.layerSuspect = true) (hf : s.flowClamp = false) :
    s.tokLimit = max 1 (s.tokBase - 1) := by
  simp [s.tokLimit_eq, hf, hl]

/-! ### BIN_TOK_STAT (Table 1-10) -/

/-- No 64-bit quantity is exposed in the bin's registers (R8). -/
theorem pairRead_bin_none (s : State) {a : Nat} (hlo : 0x3400000 ≤ a) (hhi : a < 0x3500000) : pairRead s a = none := by
  unfold pairRead
  repeat rw [if_neg (by omega)]

/-- The bin's block holds its VERSION and CAP in its first two words and nowhere else (R491, R492). -/
theorem versionRead_bin_none (s : State) {a : Nat} (hlo : 0x3400008 ≤ a) (hhi : a < 0x3500000) : versionRead s a = none := by
  rw [versionRead, Option.map_eq_none_iff, List.find?_eq_none]
  simp only [blocks, List.cons_append, List.nil_append, List.forall_mem_cons, List.not_mem_nil,
    false_implies, implies_true, and_true, Bool.or_eq_true, beq_iff_eq]
  omega

theorem regRead_bin (s : State) {o : Nat} (hlo : 8 ≤ o) (hhi : o < 0x100000) : regRead s (0x3400000 + o) = binRead s o := by
  have hpair := pairRead_bin_none s (a := 0x3400000 + o) (by omega) (by omega)
  have hbelow := pairRead_bin_none s (a := 0x3400000 + o - 4) (by omega) (by omega)
  have hver := versionRead_bin_none s (a := 0x3400000 + o) (by omega) (by omega)
  have hword : ¬ 0x3400000 + o < 4 := by omega
  simp only [regRead, hpair, hword, if_false, hbelow, soloRead, hver]
  repeat rw [if_neg (by omega)]
  rw [if_pos (by omega), Nat.add_sub_cancel_left]

theorem binRead_tokStat (s : State) {col : Nat} (h : col < 64) :
    binRead s (0x200 + 4 * col)
      = pack [(0, 3, s.tokLimit), (4, 4, setMask 4 (s.tok col).holders), (8, 4, setMask 4 (s.tok col).revoked)] := by
  have hcol : (0x200 + 4 * col - 0x200) / 4 = col := by omega
  rw [binRead, if_neg (by omega), if_pos (by omega), hcol]

theorem pack_tokStat_mod (l h r : Nat) : pack [(0, 3, l), (4, 4, h), (8, 4, r)] % 8 = l % 8 := by
  simp only [pack, List.foldl]
  omega

/-- Settles O54: the limit by the active reductions, and the register that shows it. -/
theorem tokenLimit : Obligations.TokenLimit := by
  unfold Obligations.TokenLimit
  intro s
  refine ⟨s.one_le_tokLimit, fun hf hl hb => ?_, State.tokLimit_of_flowClamp, State.tokLimit_of_layerSuspect,
    fun hle col hcol => ?_⟩
  · rw [State.tokLimit_of_no_reduction hf hl]
    exact Nat.max_eq_right hb
  · have hread : regRead s (0x3400200 + 4 * col) = binRead s (0x200 + 4 * col) := by
      rw [← regRead_bin s (by omega) (by omega), ← Nat.add_assoc]
    rw [hread, binRead_tokStat s hcol, pack_tokStat_mod]
    omega

/-! ### The tally's instructions: each acts while the program runs (R157) -/

theorem tally_of_runs {s : State} {c : Nat} (f : State → State) (h : s.tallyRuns c = true) : tally c f s = .next (f s) := by
  rw [tally, if_pos h]

theorem exec_tokAcq {s t : State} {c : Nat} {ok : Bool} (rd rs1 : Nat) (h : s.tallyRuns c = true)
    (hreq : tokRequest (layerOf c) (colOf c (hewerFor s c ((tget s c rs1).toNat % 2))) s = (t, ok)) :
    exec (.tokAcq c rd rs1) s = .next (tset c rd (BitVec.ofNat 64 (b2n ok)) t) := by
  have hexec : exec (.tokAcq c rd rs1) s = execTokAcq c rd rs1 s := rfl
  rw [hexec, execTokAcq, tally_of_runs _ h]
  simp only [hreq]

theorem exec_tokRel {s : State} {c : Nat} (rs1 : Nat) (h : s.tallyRuns c = true) :
    exec (.tokRel c rs1) s
      = .next (tokRelease (layerOf c) (colOf c (hewerFor s c ((tget s c rs1).toNat % 2))) s) :=
  tally_of_runs _ h

theorem exec_tokStat {s : State} {c : Nat} (rd rs1 : Nat) (h : s.tallyRuns c = true) :
    exec (.tokStat c rd rs1) s
      = .next (tset c rd (BitVec.ofNat 64 (tokWord s (colOf c ((tget s c rs1).toNat % 2)))) s) :=
  tally_of_runs _ h

theorem exec_crewStat {s : State} {c : Nat} (rd : Nat) (h : s.tallyRuns c = true) :
    exec (.crewStat c rd) s = .next (tset c rd (BitVec.ofNat 64 (crewWord s c)) s) :=
  tally_of_runs _ h

/-! ### A request judged (R31, R32) -/

/-- A slice grants while the column has room and, where R32 applies, no layer next to the asker's holds a token. -/
theorem tokGrants_iff (s : State) (layer col : Nat) :
    tokGrants s layer col = true ↔ (s.tok col).holders.length < s.tokLimit
      ∧ (s.tokAdjacency = true → ∀ k ∈ (s.tok col).holders, k + 1 ≠ layer ∧ layer + 1 ≠ k) := by
  cases hadj : s.tokAdjacency <;> simp [tokGrants, hadj]

/-- A slice refuses a full column, and the neighbour of a holder where R32 applies. -/
theorem tokGrants_eq_false {s : State} {layer col : Nat}
    (h : s.tokLimit ≤ (s.tok col).holders.length
      ∨ s.tokAdjacency = true ∧ ∃ k ∈ (s.tok col).holders, k + 1 = layer ∨ layer + 1 = k) :
    tokGrants s layer col = false := by
  refine Bool.eq_false_iff.mpr fun hg => ?_
  obtain ⟨hroom, hnone⟩ := (tokGrants_iff s layer col).mp hg
  obtain hfull | ⟨hadj, k, hk, hnext⟩ := h
  · exact Nat.not_le.mpr hroom hfull
  · exact hnext.elim (hnone hadj k hk).1 (hnone hadj k hk).2

theorem tokRequest_of_holds {s : State} {layer col : Nat} (h : s.holds layer col = true) :
    tokRequest layer col s = (s, true) :=
  if_pos h

theorem tokRequest_of_grants {s : State} {layer col : Nat} (h : s.holds layer col = false)
    (hg : tokGrants s layer col = true) :
    tokRequest layer col s = (s.setTok col { holders := (s.tok col).holders ++ [layer]
                                             revoked := setDel layer (s.tok col).revoked }, true) := by
  simp [tokRequest, h, hg]

theorem tokRequest_of_refused {s : State} {layer col : Nat} (h : s.holds layer col = false)
    (hg : tokGrants s layer col = false) : tokRequest layer col s = (s, false) := by
  simp [tokRequest, h, hg]

/-! ### A token released (R33) -/

theorem tokRelease_eq (layer col : Nat) (s : State) :
    tokRelease layer col s = s.setTok col { holders := (s.tok col).holders.filter (fun k => k ≠ layer)
                                            revoked := (s.tok col).revoked } := by
  simp [tokRelease, bne, beq_eq_decide]

/-! ### Tokens revoked (R34) -/

theorem revokeOver_of_le {s : State} {col : Nat} (n : Nat) (h : (s.tok col).holders.length ≤ s.tokLimit) :
    revokeOver col n s = s := by
  cases n with
  | zero => rfl
  | succ n => exact if_pos h

/-- One revocation takes the newest holder's token and posts its record, which touches crews only. -/
theorem revokeOver_succ_of_gt {s : State} {col : Nat} (n : Nat) (h : s.tokLimit < (s.tok col).holders.length) :
    ∃ t, revokeOver col (n + 1) s = revokeOver col n t ∧ (t.tok col).holders = (s.tok col).holders.dropLast
      ∧ t.tokLimit = s.tokLimit := by
  refine ⟨_, if_neg (Nat.not_le.mpr h), ?_, ?_⟩
  · rw [(OnlyCrews.postRevoked _ _ _).tok, State.tok_setTok]
  · rw [(OnlyCrews.postRevoked _ _ _).tokLimit]; rfl

/-- Revoking one by one from the newest leaves the oldest holders, as many as the limit, once the rounds suffice. -/
theorem revokeOver_holders {col : Nat} (n : Nat) {s : State} (h : (s.tok col).holders.length ≤ s.tokLimit + n) :
    ((revokeOver col n s).tok col).holders = (s.tok col).holders.take s.tokLimit := by
  induction n generalizing s with
  | zero => exact (List.take_of_length_le h).symm
  | succ n ih =>
    by_cases hle : (s.tok col).holders.length ≤ s.tokLimit
    · rw [revokeOver_of_le _ hle, List.take_of_length_le hle]
    · obtain ⟨t, hstep, hdrop, hlim⟩ := revokeOver_succ_of_gt n (Nat.not_le.mp hle)
      have hlen : (t.tok col).holders.length ≤ t.tokLimit + n := by
        rw [hdrop, hlim, List.length_dropLast]; omega
      rw [hstep, ih hlen, hdrop, hlim, List.dropLast_eq_take, List.take_take, Nat.min_eq_left (by omega)]

theorem exec_tokenRevoke (s : State) {col : Nat} (h : col < 64) :
    exec (.tokenRevoke col) s = .next (revokeOver col 4 s) :=
  congrArg Host.Outcome.next (if_pos h)

/-- Settles O11: the request by the three verdicts, the release, the two state words, and the revocation. -/
theorem dutyTokens : Obligations.DutyTokens := by
  unfold Obligations.DutyTokens
  refine ⟨fun s c rd rs1 hr => ⟨fun hh => ?_, fun hh hroom hadj => ?_, fun hh hno => ?_, ?_⟩,
    fun s c rd rs1 hr => exec_tokStat rd rs1 hr, fun s c rd hr => exec_crewStat rd hr,
    fun s col hcol hlen => ⟨_, exec_tokenRevoke s hcol, revokeOver_holders 4 hlen⟩⟩
  · exact exec_tokAcq rd rs1 hr (tokRequest_of_holds hh)
  · exact exec_tokAcq rd rs1 hr (tokRequest_of_grants hh ((tokGrants_iff _ _ _).mpr ⟨hroom, hadj⟩))
  · exact exec_tokAcq rd rs1 hr (tokRequest_of_refused hh (tokGrants_eq_false hno))
  · rw [exec_tokRel rs1 hr, tokRelease_eq]

end Sys2Proof.Machine
end

section
/-! The byte memories as a whole (R36, R38, R367): reset leaves them empty, and what every operation keeps (Laws/Keeps.lean) is put
together over the commands into what a step keeps; then the statements about it (O5, O4). -/

namespace Sys2Proof.Machine

/-! ### One operation, one command, one step -/

theorem memoriesWf_iff (s : State) :
    Safety.memoriesWf s = true ↔ s.seamMem.wf = true ∧ s.binMem.wf = true ∧ s.storeMem.wf = true ∧ s.stockMem.wf = true
      ∧ s.lsMem.wf = true ∧ s.tlyMem.wf = true ∧ s.bufMem.wf = true ∧ s.slotMem.wf = true := by
  simp only [Safety.memoriesWf, Bool.and_eq_true, and_assoc]

theorem Keeps.memoriesWf {r s : State} (h : Keeps r s) (hr : Safety.memoriesWf r = true) : Safety.memoriesWf s = true := by
  obtain ⟨-, -, -, -, hseam, hbin, hstore, hstock, hls, htly, hbuf, hslot⟩ := h
  obtain ⟨rseam, rbin, rstore, rstock, rls, rtly, rbuf, rslot⟩ := (memoriesWf_iff r).mp hr
  exact (memoriesWf_iff s).mpr
    ⟨hseam rseam, hbin rbin, hstore rstore, hstock rstock, hls rls, htly rtly, hbuf rbuf, hslot rslot⟩

/-- A command's arm is one operation of the block, and `simp` finds that operation's `_keeps` lemma. -/
theorem exec_keeps (i : Instr) {r s : State} (hK : Keeps r s) : KeepsRes r (exec i s) := by
  cases i <;> simp only [exec] <;> simp [hK]

theorem step_of_idle {s : State} (h : s.pending = []) : step s = .next (tick s) := by
  simp only [step, h]

theorem step_of_pending {s : State} {c : Instr} {rest : List Instr} (h : s.pending = c :: rest) :
    step s = exec c { s with pending := rest } := by
  simp only [step, h]

/-- What a step can do: it ticks, or it comes by a command's operations from the state with that command taken. -/
theorem step_next_cases {s t : State} (h : step s = .next t) :
    (s.pending = [] ∧ t = tick s) ∨ ∃ c rest, s.pending = c :: rest ∧ Keeps { s with pending := rest } t := by
  cases hp : s.pending with
  | nil =>
    rw [step_of_idle hp] at h
    exact .inl ⟨rfl, (Host.Outcome.next.inj h).symm⟩
  | cons c rest =>
    rw [step_of_pending hp] at h
    have hk := exec_keeps c (Keeps.refl { s with pending := rest })
    rw [h] at hk
    exact .inr ⟨c, rest, rfl, hk⟩

theorem memoriesWf_tick (s : State) : Safety.memoriesWf (tick s) = Safety.memoriesWf s := rfl

theorem memoriesWf_setPending (s : State) (q : List Instr) :
    Safety.memoriesWf { s with pending := q } = Safety.memoriesWf s := rfl

/-! ### The statements -/

/-- Settles O5: every memory of the reset state is the empty list. -/
theorem resetMemories : Obligations.ResetMemories := by
  unfold Obligations.ResetMemories
  exact ⟨rfl, rfl, rfl, rfl, rfl, rfl, rfl, rfl, rfl⟩

/-- Settles O4: a tick writes no memory, and a command's operations keep the form of each. -/
theorem memoriesCanonical : Obligations.MemoriesCanonical := by
  unfold Obligations.MemoriesCanonical
  intro s t hs hst
  rcases step_next_cases hst with ⟨-, rfl⟩ | ⟨c, rest, -, hk⟩
  · exact (memoriesWf_tick s).trans hs
  · exact hk.memoriesWf ((memoriesWf_setPending s rest).trans hs)

end Sys2Proof.Machine
end

section
/-! The decode of a DPA (R38 to R44): which window answers with which byte, and that the striped view and its inverse `stripedAddr`
undo each other; then the statements about the views of the seams and about the bin (O8, O9, O7). -/

namespace Sys2Proof.Machine

/-! ### The windows of the seams and the bin -/

theorem rawDecode_striped_of_le {s : State} {a : Nat} (h : a < 0x6000000000) (ha : s.stripedSize ≤ a) :
    rawDecode s a = some (0, .error 0) := by
  rw [rawDecode, if_pos h, if_pos ha]

theorem rawDecode_striped_of_lt {s : State} {a : Nat} (h : a < 0x6000000000) (ha : a < s.stripedSize) :
    rawDecode s a = some (0, .ok (stripedLoc s a)) := by
  rw [rawDecode, if_pos h, if_neg (Nat.not_le.mpr ha)]

theorem rawDecode_linear {s : State} {n off : Nat} (hn : s.seamPresent n = true) (hoff : off < 0x20000000)
    (hb : bit (off / 0x4000000) s.chr.stripeMask = false) :
    rawDecode s (0x6000000000 + n * 0x20000000 + off) = some (1, .ok (.seam n off)) := by
  simp only [State.seamPresent, Bool.and_eq_true, decide_eq_true_eq] at hn
  obtain ⟨hlt, hon⟩ := hn
  have hseam : (0x6000000000 + n * 0x20000000 + off) / 0x20000000 - 0x300 = n := by omega
  have hbyte : (0x6000000000 + n * 0x20000000 + off) % 0x20000000 = off := by omega
  rw [rawDecode, if_neg (by omega), if_pos (by omega)]
  simp [hseam, hbyte, hon, hb]

theorem rawDecode_bin {s : State} {x : Nat} (h : x < 0x40000000) :
    rawDecode s (0x10000000000 + x) = some (2, .ok (.bin x)) := by
  have hbyte : (0x10000000000 + x) % 0x40000000 = x := by omega
  rw [rawDecode, if_neg (by omega), if_neg (by omega), if_pos (by omega), hbyte]

/-- Only two windows answer with a byte of a seam: the striped one, within the bytes it backs, and the seam-linear one, with a
block that is not striped. -/
theorem rawDecode_seam_cases {s : State} {dpa v n off : Nat} (h : rawDecode s dpa = some (v, .ok (.seam n off))) :
    (v = 0 ∧ dpa < s.stripedSize ∧ stripedLoc s dpa = .seam n off)
      ∨ (v = 1 ∧ dpa = 0x6000000000 + n * 0x20000000 + off ∧ bit (off / 0x4000000) s.chr.stripeMask = false) := by
  simp only [rawDecode] at h
  split_ifs at h with hwin hout hwin hoff hb
  all_goals simp only [Option.some.injEq, Prod.mk.injEq, Except.ok.injEq, Loc.seam.injEq, reduceCtorEq, and_false] at h
  · exact .inl ⟨h.1.symm, Nat.not_le.mp hout, h.2⟩
  · obtain ⟨rfl, rfl, rfl⟩ := h
    exact .inr ⟨rfl, by omega, Bool.eq_false_iff.mpr hb⟩

/-- Only the bin's window answers with a byte of the bin, and with the one that its offset numbers. -/
theorem eq_of_rawDecode_bin {s : State} {dpa w x : Nat} (h : rawDecode s dpa = some (w, .ok (.bin x))) :
    dpa = 0x10000000000 + x := by
  simp only [rawDecode] at h
  split_ifs at h
  all_goals simp only [stripedLoc, Option.some.injEq, Prod.mk.injEq, Except.ok.injEq, Loc.bin.injEq, reduceCtorEq, and_false] at h
  omega

/-! ### The enabled layers and the striped blocks -/

theorem State.mem_dramLayers {s : State} {k : Nat} : k ∈ s.dramLayers ↔ s.layerOn k = true := by
  simp only [State.dramLayers, List.mem_filter, List.mem_range, State.layerOn, Bool.and_eq_true, decide_eq_true_eq]
  tauto

theorem State.mem_stripedBlocks {s : State} {j : Nat} : j ∈ s.stripedBlocks ↔ j < 8 ∧ bit j s.chr.stripeMask = true := by
  simp [State.stripedBlocks]

theorem State.nodup_dramLayers (s : State) : s.dramLayers.Nodup := List.nodup_range.filter _

theorem State.nodup_stripedBlocks (s : State) : s.stripedBlocks.Nodup := List.nodup_range.filter _

theorem State.stripedSize_le (s : State) : s.stripedSize ≤ 0x6000000000 := by
  have hl : s.dramLayers.length ≤ 12 := List.length_filter_le s.layerOn (List.range 12)
  have hb : s.stripedBlocks.length ≤ 8 := List.length_filter_le (fun j => bit j s.chr.stripeMask) (List.range 8)
  have hmul := Nat.mul_le_mul hl hb
  rw [State.stripedSize, Nat.mul_assoc 64]
  omega

theorem getD_idxOf {l : List Nat} {x : Nat} (h : x ∈ l) : l.getD (l.idxOf x) 0 = x := by
  have hlt := List.idxOf_lt_length_iff.mpr h
  rw [List.getD_eq_getElem _ _ hlt, List.getElem_idxOf hlt]

theorem idxOf_getD {l : List Nat} (hl : l.Nodup) {i : Nat} (h : i < l.length) : l.idxOf (l.getD i 0) = i := by
  rw [List.getD_eq_getElem _ _ h, hl.idxOf_getElem i h]

/-! ### The striped view and its inverse (R42) -/

/-- An offset that the striped view backs has an enabled layer and a striped block. -/
theorem granule_bounds {s : State} {a : Nat} (h : a < s.stripedSize) :
    a / 4096 / 64 % s.dramLayers.length < s.dramLayers.length
      ∧ a / 4096 / 64 / s.dramLayers.length / 16384 < s.stripedBlocks.length := by
  rw [State.stripedSize, Nat.mul_assoc 64] at h
  have hq : a / 4096 / 64 < s.dramLayers.length * (s.stripedBlocks.length * 16384) := by
    rw [← Nat.mul_assoc]; omega
  exact ⟨Nat.mod_lt _ (Nat.pos_of_lt_mul_right hq), by have := Nat.div_lt_of_lt_mul hq; omega⟩

/-- An offset falls apart into the byte, the column, the layer's place and the granule of the seam that it was made of. -/
theorem granule_parts {l r i m x : Nat} (hi : i < l) (hm : m < 64) (hx : x < 4096) :
    let a := ((r * l + i) * 64 + m) * 4096 + x
    a % 4096 = x ∧ a / 4096 % 64 = m ∧ a / 4096 / 64 % l = i ∧ a / 4096 / 64 / l = r := by
  intro a
  have hq : a / 4096 / 64 = i + l * r := by rw [Nat.mul_comm l r]; omega
  refine ⟨by omega, by omega, ?_, ?_⟩
  · rw [hq, Nat.add_mul_mod_self_left, Nat.mod_eq_of_lt hi]
  · rw [hq, Nat.add_mul_div_left _ _ (by omega), Nat.div_eq_of_lt hi, Nat.zero_add]

section Forward

variable {s : State} {n off : Nat} (hn : s.layerOn (n / 64) = true) (hb : off / 0x4000000 ∈ s.stripedBlocks)
include hn hb

theorem stripedAddr_lt : stripedAddr s n off < s.stripedSize := by
  have hi : s.dramLayers.idxOf (n / 64) < s.dramLayers.length := List.idxOf_lt_length_iff.mpr (State.mem_dramLayers.mpr hn)
  have hj : s.stripedBlocks.idxOf (off / 0x4000000) < s.stripedBlocks.length := List.idxOf_lt_length_iff.mpr hb
  simp only [stripedAddr, State.stripedSize]
  generalize s.dramLayers.idxOf (n / 64) = i at *
  generalize s.stripedBlocks.idxOf (off / 0x4000000) = j at *
  have hr : j * 16384 + off % 0x4000000 / 4096 + 1 ≤ s.stripedBlocks.length * 16384 := by omega
  have hq := Nat.mul_le_mul_right s.dramLayers.length hr
  rw [Nat.add_one_mul, Nat.mul_right_comm, Nat.mul_comm s.stripedBlocks.length] at hq
  rw [Nat.mul_assoc 64]
  omega

theorem stripedLoc_stripedAddr : stripedLoc s (stripedAddr s n off) = .seam n off := by
  have hl := State.mem_dramLayers.mpr hn
  obtain ⟨hbyte, hcol, hlayer, hgran⟩ := granule_parts
    (r := s.stripedBlocks.idxOf (off / 0x4000000) * 16384 + off % 0x4000000 / 4096)
    (List.idxOf_lt_length_iff.mpr hl) (Nat.mod_lt n (show 0 < 64 by decide)) (Nat.mod_lt off (show 0 < 4096 by decide))
  have hblock (j : Nat) : (j * 16384 + off % 0x4000000 / 4096) / 16384 = j := by omega
  have hplace (j : Nat) : (j * 16384 + off % 0x4000000 / 4096) % 16384 = off % 0x4000000 / 4096 :=
    Nat.mul_add_mod_of_lt (by omega)
  simp only [stripedLoc, stripedAddr, hbyte, hcol, hlayer, hgran, hblock, hplace, getD_idxOf hl, getD_idxOf hb, Loc.seam.injEq]
  constructor <;> omega

end Forward

/-- The striped view answers with striped blocks only, and each of its bytes is at one offset. -/
theorem stripedAddr_of_stripedLoc {s : State} {a n off : Nat} (ha : a < s.stripedSize) (h : stripedLoc s a = .seam n off) :
    stripedAddr s n off = a ∧ bit (off / 0x4000000) s.chr.stripeMask = true := by
  obtain ⟨hi, hj⟩ := granule_bounds ha
  have hmem : s.stripedBlocks.getD (a / 4096 / 64 / s.dramLayers.length / 16384) 0 ∈ s.stripedBlocks := by
    rw [List.getD_eq_getElem _ _ hj]; exact List.getElem_mem hj
  have hlayer := idxOf_getD s.nodup_dramLayers hi
  have hblock := idxOf_getD s.nodup_stripedBlocks hj
  simp only [stripedLoc, Loc.seam.injEq] at h
  obtain ⟨hn, hoff⟩ := h
  generalize s.dramLayers.getD (a / 4096 / 64 % s.dramLayers.length) 0 = k at *
  generalize s.stripedBlocks.getD (a / 4096 / 64 / s.dramLayers.length / 16384) 0 = blk at *
  have hk : n / 64 = k := by omega
  have hblk : off / 0x4000000 = blk := by omega
  have hgran : off % 0x4000000 / 4096 = a / 4096 / 64 / s.dramLayers.length % 16384 := by omega
  have hcol : n % 64 = a / 4096 % 64 := by omega
  have hbyte : off % 4096 = a % 4096 := by omega
  refine ⟨?_, hblk ▸ (State.mem_stripedBlocks.mp hmem).2⟩
  simp only [stripedAddr, hk, hblk, hlayer, hblock, hgran, hcol, hbyte, Nat.div_add_mod']

/-! ### The one DPA of a seam's byte (R41) -/

/-- The DPA of a byte of an enabled seam decodes to it, in the view its block is assigned to. -/
theorem rawDecode_seamDpa {s : State} {n off : Nat} (hn : s.seamPresent n = true) (hoff : off < 0x20000000) :
    rawDecode s (seamDpa s n off)
      = some (if bit (off / 0x4000000) s.chr.stripeMask then 0 else 1, .ok (.seam n off)) := by
  cases hb : bit (off / 0x4000000) s.chr.stripeMask with
  | false => simpa [seamDpa, hb] using rawDecode_linear hn hoff hb
  | true =>
    have hon : s.layerOn (n / 64) = true := by
      rw [State.seamPresent, Bool.and_eq_true] at hn; exact hn.2
    have hblk : off / 0x4000000 ∈ s.stripedBlocks := State.mem_stripedBlocks.mpr ⟨by omega, hb⟩
    have hlt := stripedAddr_lt hon hblk
    simp only [seamDpa, hb, if_true]
    rw [rawDecode_striped_of_lt (hlt.trans_le s.stripedSize_le) hlt, stripedLoc_stripedAddr hon hblk]

/-- A DPA that decodes to a byte of a seam is that byte's DPA, and its window is the view of the byte's block. -/
theorem eq_seamDpa_of_rawDecode {s : State} {dpa v n off : Nat} (h : rawDecode s dpa = some (v, .ok (.seam n off))) :
    dpa = seamDpa s n off ∧ v = if bit (off / 0x4000000) s.chr.stripeMask then 0 else 1 := by
  rcases rawDecode_seam_cases h with ⟨rfl, hlt, hloc⟩ | ⟨rfl, rfl, hb⟩
  · obtain ⟨haddr, hb⟩ := stripedAddr_of_stripedLoc hlt hloc
    simp [seamDpa, hb, haddr]
  · simp [seamDpa, hb]

/-! ### The statements -/

/-- Settles O8: the bin's window numbers its bytes from its start, and no other window answers with one of them. -/
theorem binSlices : Obligations.BinSlices := by
  unfold Obligations.BinSlices
  intro s col off hcol hoff
  rw [Nat.add_assoc]
  exact ⟨rawDecode_bin (by omega), fun dpa w h => eq_of_rawDecode_bin h⟩

/-- Settles O9: the model's striped view takes the rule's steps, and an offset it backs has its layer and its block. -/
theorem stripedView : Obligations.StripedView := by
  unfold Obligations.StripedView
  intro s a ha e b g q r
  refine ⟨rawDecode_striped_of_le ha, fun hin => ?_⟩
  obtain ⟨hi, hj⟩ := granule_bounds hin
  refine ⟨_, _, List.getElem?_eq_getElem hi, List.getElem?_eq_getElem hj, ?_⟩
  rw [rawDecode_striped_of_lt ha hin, stripedLoc, List.getD_eq_getElem _ _ hi, List.getD_eq_getElem _ _ hj]
  rfl

/-- Settles O7: the DPA of a byte decodes to it, and what decodes to it is that DPA. -/
theorem oneDpaPerSeamByte : Obligations.OneDpaPerSeamByte := by
  unfold Obligations.OneDpaPerSeamByte
  intro s n off hn hoff w
  exact ⟨rawDecode_seamDpa hn hoff, fun dpa v h => eq_seamDpa_of_rawDecode h⟩

end Sys2Proof.Machine
end

section
/-! The hewer's events (R28, R111 to R128, R147): what each leaves where its conditions hold, in the order of a cut's life; then the
statement about them (O17). -/

namespace Sys2Proof.Machine

/-! ### Occupancy (R28) -/

theorem exec_busyWindow {s : State} {c role hclk : Nat} (hc : s.crewPresent c = true) (hr : role < 2) (hn : hclk ≠ 0) :
    exec (.busyWindow c role hclk) s = .next (s.setHewer c role { s.hewer c role with
      occ := min 1024 ((s.hewer c role).busy * 1024 / (4 * hclk))
      heavy := decide (240 * hclk < 100 * (s.hewer c role).busy), busy := 0 }) := by
  change execBusyWindow c role hclk s = _
  rw [execBusyWindow, if_pos ⟨hc, hr⟩]
  simp only [if_neg hn]

/-! ### The head cut: its check and its issue (R111, R113, R114, R121) -/

section Head

variable {s : State} {c role : Nat} {k : Cut} {rest : List Cut} (hq : (s.hewer c role).queue = k :: rest)
  (hruns : s.hewerRuns c role = true)
include hq hruns

theorem exec_cutHeadCheck (hx : (s.hewer c role).checked = false) :
    exec (.cutHeadCheck c role) s = .next (
      if (!k.good (s.crewPresent c) || tblBad (s.hewer c role) k) = true then refuseHead c role k rest s
      else s.setHewer c role { s.hewer c role with checked := true }) := by
  change execCutHeadCheck c role s = _
  simp only [execCutHeadCheck, hq, hruns, hx, and_self, if_true]

theorem exec_cutHeadCheck_good (hx : (s.hewer c role).checked = false) (hg : k.good (s.crewPresent c) = true)
    (hb : tblBad (s.hewer c role) k = false) :
    exec (.cutHeadCheck c role) s = .next (s.setHewer c role { s.hewer c role with checked := true }) := by
  rw [exec_cutHeadCheck hq hruns hx, if_neg (by simp [hg, hb])]

theorem exec_cutHeadCheck_bad (hx : (s.hewer c role).checked = false)
    (hb : k.good (s.crewPresent c) = false ∨ tblBad (s.hewer c role) k = true) :
    exec (.cutHeadCheck c role) s = .next (refuseHead c role k rest s) := by
  rw [exec_cutHeadCheck hq hruns hx, if_pos (by simpa using hb)]

end Head

theorem exec_cutIssue {s : State} {c role : Nat} {k : Cut} {rest : List Cut} (hq : (s.hewer c role).queue = k :: rest)
    (hb : tblBad (s.hewer c role) k = false) (hi : canIssue s c role k = true) :
    exec (.cutIssue c role) s = .next (issueCut c role k rest s) := by
  change execCutIssue c role s = _
  have hne : ¬ (s.hewerRuns c role = true ∧ (s.hewer c role).checked = true ∧ tblBad (s.hewer c role) k = true) := by
    simp [hb]
  simp only [execCutIssue, hq, if_neg hne, if_pos hi]

/-! ### The cut that streams: retry and verdict (R115, R116, R123 to R126) -/

section Streaming

variable {s : State} {c role i : Nat} {k : CutRun} (hk : streaming (s.hewer c role) = some (i, k))
  (hruns : s.hewerRuns c role = true)
include hk hruns

theorem exec_cutRetry_first (hcs : checksOn s k.cut = true) (hre : k.retried = false) :
    exec (.cutRetry c role) s = .next (s.setHewer c role { s.hewer c role with
      issued := listSet (s.hewer c role).issued i { k with retried := true, ran := k.ran + k.cut.busySum }
      busy := (s.hewer c role).busy + k.cut.busySum }) := by
  change execCutRetry c role s = _
  simp only [execCutRetry, hk, if_pos (And.intro hruns hcs), if_neg (ne_true_of_eq_false hre)]

theorem exec_cutRetry_second (hcs : checksOn s k.cut = true) (hre : k.retried = true) :
    exec (.cutRetry c role) s
      = .next (fenceHewer c role 1 3 (failCut c role i .unitFault (ranFor c role k k.cut.busySum s))) := by
  change execCutRetry c role s = _
  simp only [execCutRetry, hk, if_pos (And.intro hruns hcs), if_pos hre]

/-- Where a verdict is due, the loss of the crew-mate counts before the cut's own operands (log entry 35). -/
theorem exec_cutVerdict (hfree : (s.hewer c role).issued.all (fun r => r.phase != 1) = true)
    (hop : k.cut.op ≠ 2 ∨ k.retried = true) :
    exec (.cutVerdict c role) s = .next (
      if ((k.cut.xbarS || k.cut.xbarT) && (s.hewer c (1 - role)).fenceCause == 5) = true then stopCut c role i .denied s
      else if (cutErrs s c role k.cut).any (fun p => faceVerdict s c p.1 p.2 == .uncorrectable) = true then s
      else passCut c role i k s) := by
  change execCutVerdict c role s = _
  simp only [execCutVerdict, hk, if_pos (And.intro hruns (And.intro hfree hop))]

end Streaming

/-! ### A cut stopped by what it reads (R122, R126) -/

theorem exec_faceStoreUe {s : State} {c role i : Nat} {k : CutRun} {p : Nat × Nat} (hk : ueCut s c role = some (i, k))
    (hruns : s.hewerRuns c role = true)
    (hp : (cutErrs s c role k.cut).find? (fun p => faceVerdict s c p.1 p.2 == .uncorrectable) = some p) :
    exec (.faceStoreUe c role) s = .next (stopCut c role i .uncorrectable
      (noteRead (lineOf (.face c p.1 (64 * p.2))) .uncorrectable false false s)) := by
  change execFaceStoreUe c role s = _
  simp only [execFaceStoreUe, hk, if_pos hruns, hp]

theorem exec_tblParityError {s : State} {c role i a : Nat} {k : CutRun}
    (hk : decoding (s.hewer c role) a = some (i, k)) (hruns : s.hewerRuns c role = true) :
    exec (.tblParityError c role a) s = .next (stopCut c role i .unitFault (s.setHewer c role { s.hewer c role with
      act := Tbl.put (s.hewer c role).act a { Tbl.look {} (s.hewer c role).act a with valid := false }
      tblParity := satInc 0xFF (s.hewer c role).tblParity })) := by
  change execTblParityError c role a s = _
  simp only [execTblParityError, hk, if_pos hruns]

/-! ### The cut that drains (R112, R114, R116, R147) -/

@[simp] theorem skqEntry_setHewer (s : State) (c r : Nat) (x : Hewer) (c' e : Nat) :
    skqEntry (s.setHewer c r x) c' e = skqEntry s c' e := rfl

theorem skqEntry_setDresser_put {s : State} {c e : Nat} {x : Dresser} {t : Tbl SkqEntry} {y : SkqEntry}
    (h : x.skq = Tbl.put t e y) : skqEntry (s.setDresser c x) c e = y := by
  rw [skqEntry, State.dresser_setDresser, h, Tbl.look_put_same]

section Draining

variable {s : State} {c role i : Nat} {k : CutRun} (hk : draining (s.hewer c role) = some (i, k))
  (hdrains : s.hewerDrains c = true)
include hk hdrains

theorem exec_cutDrainTile (hskip : k.cut.toSkip = true) (hleft : k.drained < k.entries.length)
    (hst : (skqEntry s c (k.entries.getD k.drained 0)).st = 1) :
    ∃ t, exec (.cutDrainTile c role) s = .next t
      ∧ (skqEntry t c (k.entries.getD k.drained 0)).st = 2
      ∧ (skqEntry t c (k.entries.getD k.drained 0)).data = (k.cut.tile (drainResult k s).2 k.drained).1 := by
  change ∃ t, execCutDrainTile c role s = .next t ∧ _
  simp only [execCutDrainTile, hk, if_pos (And.intro hdrains (And.intro hskip (And.intro hleft hst)))]
  refine ⟨_, rfl, ?_, ?_⟩ <;> rw [skqEntry_setHewer, skqEntry_setDresser_put rfl]

theorem exec_cutComplete (hend : k.cut.toSkip = false ∨ k.drained = k.entries.length) :
    exec (.cutComplete c role) s = .next (completeCut c role i k s) := by
  change execCutComplete c role s = _
  simp only [execCutComplete, hk, if_pos (And.intro hdrains hend)]

end Draining

/-! ### Code-table loads (R72, R118, R119) -/

section Loads

variable {s : State} {c role a : Nat} {q : TblReq} (hq : (s.hewer c role).loads.find? (fun l => l.arr == a) = some q)
  (hc : s.crewPresent c = true) (hruns : s.crewRuns c = true)
include hq hc hruns

theorem exec_tblLoadDone_fenced (hf : (s.hewer c role).fenceCause ≠ 0) :
    exec (.tblLoadDone c role a) s = .next (endLoad c role q .unitDead [] s) := by
  change execTblLoadDone c role a s = _
  simp only [execTblLoadDone, hq, if_pos (And.intro hc hruns), if_pos hf]

/-- A load on a live hewer ends by the check of the bytes it read. -/
theorem exec_tblLoadDone_read {s' : State} {ln : List Byte} (hf : (s.hewer c role).fenceCause = 0)
    (hread : readLine (.face c role (q.addr / 64 * 64)) s = (s', some ln)) :
    let bs := (ln.drop (q.addr % 64)).take (if q.kind = 0 then 16 else 8)
    exec (.tblLoadDone c role a) s
      = .next (if tableGood bs = true then endLoad c role q .ok bs s' else endLoad c role q .badDescriptor [] s') := by
  change execTblLoadDone c role a s = _
  simp only [execTblLoadDone, hq, if_pos (And.intro hc hruns), hf, ne_eq, not_true_eq_false, if_false, hread]

end Loads

/-! ### The statement -/

/-- Settles O17: each clause is the rule above of its event; a table load on a fenced hewer ends by log entry 137. -/
theorem cutEvents : Obligations.CutEvents := by
  unfold Obligations.CutEvents
  refine ⟨fun s c role hclk hc hr hn => exec_busyWindow hc hr hn,
    fun s c role k rest hq hruns => ⟨exec_cutHeadCheck_good hq hruns, exec_cutHeadCheck_bad hq hruns,
      fun _ => exec_cutIssue hq⟩,
    fun s c role i k hk hruns => ⟨exec_cutRetry_first hk hruns, exec_cutRetry_second hk hruns,
      fun hfree hop => ⟨fun hlost => ?_, fun hmate hclean => ?_⟩⟩,
    fun s c role i k p hk hruns hp => exec_faceStoreUe hk hruns hp,
    fun s c role i a k hk hruns => exec_tblParityError hk hruns,
    fun s c role i k hk hdrains => ⟨exec_cutDrainTile hk hdrains, exec_cutComplete hk hdrains⟩,
    fun s s' c role a q ln hq hc hruns => ⟨exec_tblLoadDone_fenced hq hc hruns,
      fun hf hread => ⟨fun hgood => ?_, fun hbad => ?_⟩⟩⟩
  · rw [exec_cutVerdict hk hruns hfree hop, if_pos hlost]
  · rw [exec_cutVerdict hk hruns hfree hop, if_neg (ne_true_of_eq_false hmate), if_neg (ne_true_of_eq_false hclean)]
  · rw [exec_tblLoadDone_read hq hc hruns hf hread, if_pos hgood]
  · rw [exec_tblLoadDone_read hq hc hruns hf hread, if_neg (ne_true_of_eq_false hbad)]

end Sys2Proof.Machine
end

section
/-! The dresser's instructions (R136 to R155): what follows the fetch of a well-formed word, what a tile result leaves, and what a
residue verdict comes to; then the statements about its arithmetic pipe (O18, O19). -/

namespace Sys2Proof.Machine

/-! ### The fetch, and the next place (R136) -/

/-- A well-formed word of the command's opcode is fetched and acts on the state after its fetch. -/
theorem drsStep_fetched {s s' : State} {c op : Nat} {w : InstrWord} {r : Routine} (hf : Safety.DrsFetched s s' c op w r)
    (f : Routine → State → State) : drsStep c op w f s = .next (f r s') := by
  obtain ⟨hruns, hrun, ⟨bs, hread, hword⟩, hop, hlisted, hunused, hvalues⟩ := hf
  simp [drsStep, hruns, hrun, hread, hword, hop, hlisted, hunused, hvalues]

section EndRoutine

variable (c : Nat) (st : Status) (s : State)

theorem endRoutine_run {r : Routine} (h : (s.dresser c).run = some r) :
    endRoutine c st s = s.setDresser c { s.dresser c with done := some (r.tag, st), waitFrom := none } := by
  simp [endRoutine, h]

theorem endRoutine_idle (h : (s.dresser c).run = none) : endRoutine c st s = s := by
  simp [endRoutine, h]

/-- A field of the dresser that is not the end of its routine stays. -/
theorem endRoutine_dresser {α : Type} {f : Dresser → α} (hf : ∀ d dn wf, f { d with done := dn, waitFrom := wf } = f d) :
    f ((endRoutine c st s).dresser c) = f (s.dresser c) := by
  cases hrun : (s.dresser c).run with
  | none => rw [endRoutine_idle c st s hrun]
  | some r => rw [endRoutine_run c st s hrun, State.dresser_setDresser, hf]

@[simp] theorem endRoutine_faultOp : ((endRoutine c st s).dresser c).faultOp = (s.dresser c).faultOp :=
  endRoutine_dresser c st s (f := Dresser.faultOp) fun _ _ _ => rfl

@[simp] theorem endRoutine_parity : ((endRoutine c st s).dresser c).parity = (s.dresser c).parity :=
  endRoutine_dresser c st s (f := Dresser.parity) fun _ _ _ => rfl

@[simp] theorem endRoutine_skq : ((endRoutine c st s).dresser c).skq = (s.dresser c).skq :=
  endRoutine_dresser c st s (f := Dresser.skq) fun _ _ _ => rfl

@[simp] theorem endRoutine_crew (k : Nat) : (endRoutine c st s).crew k = s.crew k := by
  unfold endRoutine
  dsimp only
  split <;> rfl

end EndRoutine

/-- The next place is the dresser's own matter; a routine with no word left has ended there. -/
theorem drsNext_frame (c : Nat) (s : State) :
    ∃ dn, drsNext c s = s.setDresser c { s.dresser c with pc := (s.dresser c).pc + 1, waitFrom := none, done := dn } := by
  unfold drsNext
  dsimp only
  split_ifs
  · cases (s.dresser c).run with
    | none => exact ⟨(s.dresser c).done, by simp [endRoutine]⟩
    | some r => exact ⟨some (r.tag, .badDescriptor), by simp [endRoutine]⟩
  · exact ⟨(s.dresser c).done, rfl⟩

section Next

variable (c : Nat) (s : State)

@[simp] theorem drsNext_pc : ((drsNext c s).dresser c).pc = (s.dresser c).pc + 1 := by
  obtain ⟨dn, h⟩ := drsNext_frame c s; simp [h]

@[simp] theorem drsNext_tiles : ((drsNext c s).dresser c).tiles = (s.dresser c).tiles := by
  obtain ⟨dn, h⟩ := drsNext_frame c s; simp [h]

@[simp] theorem drsNext_codes : ((drsNext c s).dresser c).codes = (s.dresser c).codes := by
  obtain ⟨dn, h⟩ := drsNext_frame c s; simp [h]

@[simp] theorem drsNext_sregs : ((drsNext c s).dresser c).sregs = (s.dresser c).sregs := by
  obtain ⟨dn, h⟩ := drsNext_frame c s; simp [h]

@[simp] theorem drsNext_rsat : ((drsNext c s).dresser c).rsat = (s.dresser c).rsat := by
  obtain ⟨dn, h⟩ := drsNext_frame c s; simp [h]

@[simp] theorem drsNext_rinv : ((drsNext c s).dresser c).rinv = (s.dresser c).rinv := by
  obtain ⟨dn, h⟩ := drsNext_frame c s; simp [h]

@[simp] theorem drsNext_retries : ((drsNext c s).dresser c).retries = (s.dresser c).retries := by
  obtain ⟨dn, h⟩ := drsNext_frame c s; simp [h]

@[simp] theorem drsNext_skq : ((drsNext c s).dresser c).skq = (s.dresser c).skq := by
  obtain ⟨dn, h⟩ := drsNext_frame c s; simp [h]

@[simp] theorem drsNext_lsMem : (drsNext c s).lsMem = s.lsMem := by
  obtain ⟨dn, h⟩ := drsNext_frame c s; simp [h]

@[simp] theorem drsNext_crews : (drsNext c s).crews = s.crews := by
  obtain ⟨dn, h⟩ := drsNext_frame c s; simp [h]

end Next

/-! ### A tile result (R85, R136, R382) -/

@[simp] theorem drsWrite_dresser (c : Nat) (w : InstrWord) (rs : List RowRes) (s : State) :
    (drsWrite c w rs s).dresser c = { s.dresser c with
      tiles := Tbl.put (s.dresser c).tiles (dTd w) (tileRes rs).1
      codes := Tbl.put (s.dresser c).codes (dTd w) ((tileRes rs).1.flatMap (fun r => r.m.map mod3))
      rsat := (s.dresser c).rsat || (tileRes rs).2.1, rinv := (s.dresser c).rinv || (tileRes rs).2.2
      sat := (s.dresser c).sat || (tileRes rs).2.1, inv := (s.dresser c).inv || (tileRes rs).2.2 } :=
  State.dresser_setDresser _ _ _

@[simp] theorem drsWrite_lsMem (c : Nat) (w : InstrWord) (rs : List RowRes) (s : State) :
    (drsWrite c w rs s).lsMem = s.lsMem := rfl

@[simp] theorem drsWrite_crews (c : Nat) (w : InstrWord) (rs : List RowRes) (s : State) :
    (drsWrite c w rs s).crews = s.crews := rfl

/-- Lanes agree with their own residues. -/
theorem lanesBad_map_mod3 (ms : List Int) : lanesBad ms (ms.map mod3) = false := by
  induction ms with
  | nil => rfl
  | cons m ms ih => simpa [lanesBad] using ih

/-- A tile whose codes are its lanes' residues is good (R154). -/
theorem tileGood_of_codes {d : Dresser} {t : Nat} (h : Tbl.look [] d.codes t = (d.tile t).flatMap (fun r => r.m.map mod3)) :
    d.tileGood t = true := by
  rw [Dresser.tileGood, h, ← List.map_flatMap, lanesBad_map_mod3, Bool.not_false]

/-- State `u` has what an instruction's result is measured against as state `s` has it: the tiles, the scalar registers, the
routine's flags and place, the local stores and the crews. -/
structure DrsAgrees (c : Nat) (s u : State) : Prop where
  tiles : (u.dresser c).tiles = (s.dresser c).tiles
  sregs : (u.dresser c).sregs = (s.dresser c).sregs
  rsat : (u.dresser c).rsat = (s.dresser c).rsat
  rinv : (u.dresser c).rinv = (s.dresser c).rinv
  pc : (u.dresser c).pc = (s.dresser c).pc
  lsMem : u.lsMem = s.lsMem
  crews : u.crews = s.crews

theorem DrsAgrees.refl (c : Nat) (s : State) : DrsAgrees c s s := ⟨rfl, rfl, rfl, rfl, rfl, rfl, rfl⟩

/-- Rows written, and the next place: the result of every instruction that writes a tile. -/
theorem drsResult_of_write {c : Nat} {s u : State} (hu : DrsAgrees c s u) (w : InstrWord) (rs : List RowRes) :
    Safety.DrsResult s (drsNext c (drsWrite c w rs u)) c w rs where
  tile := by simp [Dresser.tile]
  codes := tileGood_of_codes (by simp [Dresser.tile])
  tiles k hk := by simp [Dresser.tile, Tbl.look_put_other _ _ _ hk, hu.tiles]
  saturated := by simp [hu.rsat]
  invalid := by simp [hu.rinv]
  scalars := by simp [hu.sregs]
  place := by simp [hu.pc]
  store := by simp [hu.lsMem]
  crews := by simp [hu.crews]

/-! ### Residue verdicts (R154, R155, R383) -/

theorem residue_one {s : State} (h : s.chr.residueEn = true) : residue s 1 = .retried := by
  simp [residue, h]

theorem residue_fault {s : State} {n : Nat} (h : s.chr.residueEn = true) (hn : 2 ≤ n) : residue s n = .fault := by
  simp [residue, h, show n ≠ 0 by omega, show n ≠ 1 by omega]

theorem residue_ignored {s : State} {n : Nat} (h : s.chr.residueEn = false) (hn : 1 ≤ n) : residue s n = .ignored := by
  simp [residue, h, show n ≠ 0 by omega]

/-- The state with one more retry counted (R155). -/
def retryCounted (c : Nat) (s : State) : State :=
  s.setDresser c { s.dresser c with retries := satInc 0xFFFF (s.dresser c).retries }

@[simp] theorem retryCounted_dresser (c : Nat) (s : State) :
    (retryCounted c s).dresser c = { s.dresser c with retries := satInc 0xFFFF (s.dresser c).retries } :=
  State.dresser_setDresser _ _ _

theorem DrsAgrees.retryCounted {c : Nat} {s u : State} (hu : DrsAgrees c s u) : DrsAgrees c s (retryCounted c u) := by
  obtain ⟨htiles, hsregs, hrsat, hrinv, hpc, hlsMem, hcrews⟩ := hu
  constructor <;> simpa

@[simp] theorem freeRows_dresser (n : Nat) (s : State) (c : Nat) : (freeRows n s).1.dresser c = s.dresser c := rfl

section Verdict

variable {s : State} {c mm : Nat} {w : InstrWord} (rs : List RowRes)

theorem drsChecked_retried (hen : s.chr.residueEn = true) (hmm : mm + (s.dresser c).laneFaults w = 1) :
    drsChecked c w mm rs s = drsNext c (drsWrite c w rs (retryCounted c s)) := by
  simp only [drsChecked, hmm, residue_one hen]; rfl

theorem drsChecked_fault (hen : s.chr.residueEn = true) (hmm : 2 ≤ mm + (s.dresser c).laneFaults w) :
    drsChecked c w mm rs s = drsFault c (dOp w) s := by
  simp only [drsChecked, residue_fault hen hmm]

/-- With the check off a mismatch is counted, and free rows stand for the result (R383). -/
theorem drsChecked_ignored (hen : s.chr.residueEn = false) (hmm : 1 ≤ mm + (s.dresser c).laneFaults w) :
    drsChecked c w mm rs s
      = drsNext c (drsWrite c w ((freeRows 32 (retryCounted c s)).2.map (fun r => { row := r }))
          (freeRows 32 (retryCounted c s)).1) := by
  simp only [drsChecked, residue_ignored hen hmm]; rfl

/-- A result that passes its check, at once or on the one retry, is written. -/
theorem drsChecked_passes (hmm : mm ≤ 1) (hen : s.chr.residueEn = true) (hl : (s.dresser c).laneFaults w = 0) :
    ∃ u, drsChecked c w mm rs s = drsNext c (drsWrite c w rs u) ∧ (u = s ∨ u = retryCounted c s) := by
  obtain rfl | rfl : mm = 0 ∨ mm = 1 := by omega
  · exact ⟨s, by simp only [drsChecked, hl]; rfl, .inl rfl⟩
  · exact ⟨_, drsChecked_retried rs hen (by rw [hl]), .inr rfl⟩

theorem drsChecked_result {s₀ : State} (hs : DrsAgrees c s₀ s) (hmm : mm ≤ 1) (hen : s.chr.residueEn = true)
    (hl : (s.dresser c).laneFaults w = 0) : Safety.DrsResult s₀ (drsChecked c w mm rs s) c w rs := by
  obtain ⟨u, h, rfl | rfl⟩ := drsChecked_passes rs hmm hen hl <;> rw [h]
  · exact drsResult_of_write hs w rs
  · exact drsResult_of_write hs.retryCounted w rs

end Verdict

/-! ### The arithmetic pipe (R142, R145) -/

theorem drsArith_fetched {s s' : State} {c op : Nat} {w : InstrWord} {r : Routine} (hf : Safety.DrsFetched s s' c op w r)
    (mm : Nat) (g : Dresser → List RowRes) :
    drsArith c op w mm g s = .next (drsChecked c w mm (g (s'.dresser c)) s') :=
  drsStep_fetched hf _

/-- A command that is the pipe with rows `g`, on a result that passes its check. -/
theorem exec_drsArith_result {i : Instr} {s s' : State} {c op mm : Nat} {w : InstrWord} {r : Routine}
    {g : Dresser → List RowRes} (hi : exec i s = drsArith c op w mm g s) (hf : Safety.DrsFetched s s' c op w r)
    (hmm : mm ≤ 1) (hen : s'.chr.residueEn = true) (hl : (s'.dresser c).laneFaults w = 0) :
    ∃ t, exec i s = .next t ∧ Safety.DrsResult s' t c w (g (s'.dresser c)) :=
  ⟨_, hi.trans (drsArith_fetched hf mm g), drsChecked_result _ (.refl c s') hmm hen hl⟩

section Commands

variable (c : Nat) (w : InstrWord) (mm : Nat) (s : State)

theorem exec_drsAdd : exec (.drsAdd c w mm) s
    = drsArith c 0x10 w mm (fun d => List.zipWith bfxAdd (d.opA w) (d.opB w)) s := rfl

theorem exec_drsSub : exec (.drsSub c w mm) s
    = drsArith c 0x11 w mm (fun d => List.zipWith bfxSub (d.opA w) (d.opB w)) s := rfl

theorem exec_drsMul : exec (.drsMul c w mm) s
    = drsArith c 0x12 w mm (fun d => List.zipWith bfxMul (d.opA w) (d.opB w)) s := rfl

theorem exec_drsMad : exec (.drsMad c w mm) s
    = drsArith c 0x13 w mm (fun d => List.zipWith (fun p c => bfxMad p.1 p.2 c) (List.zip (d.opA w) (d.opB w)) (d.opC w)) s := rfl

theorem exec_drsMax : exec (.drsMax c w mm) s
    = drsArith c 0x14 w mm (fun d => List.zipWith bfxMax (d.opA w) (d.opB w)) s := rfl

theorem exec_drsMin : exec (.drsMin c w mm) s
    = drsArith c 0x15 w mm (fun d => List.zipWith bfxMin (d.opA w) (d.opB w)) s := rfl

theorem exec_drsCmp : exec (.drsCmp c w mm) s
    = drsArith c 0x16 w mm (fun d => List.zipWith (bfxCmp (dSub w)) (d.opA w) (d.opB w)) s := rfl

theorem exec_drsSel : exec (.drsSel c w mm) s
    = drsArith c 0x17 w mm (fun d => List.zipWith (fun p c => bfxSel p.1 p.2 c) (List.zip (d.opA w) (d.opB w)) (d.opC w)) s := rfl

theorem exec_drsShl : exec (.drsShl c w mm) s
    = drsArith c 0x20 w mm (fun d => (d.opA w).map (bfxShl (dImm w))) s := rfl

theorem exec_drsShr : exec (.drsShr c w mm) s
    = drsArith c 0x21 w mm (fun d => (d.opA w).map (bfxShr (dImm w))) s := rfl

theorem exec_drsAnd : exec (.drsAnd c w mm) s
    = drsArith c 0x22 w mm (fun d => List.zipWith (bfxBit Nat.land) (d.opA w) (d.opB w)) s := rfl

theorem exec_drsOr : exec (.drsOr c w mm) s
    = drsArith c 0x23 w mm (fun d => List.zipWith (bfxBit Nat.lor) (d.opA w) (d.opB w)) s := rfl

theorem exec_drsXor : exec (.drsXor c w mm) s
    = drsArith c 0x24 w mm (fun d => List.zipWith (bfxBit Nat.xor) (d.opA w) (d.opB w)) s := rfl

theorem exec_drsAlgn : exec (.drsAlgn c w mm) s
    = drsArith c 0x30 w mm (fun d => List.zipWith bfxAlgn (d.opA w) (d.opB w)) s := rfl

theorem exec_drsEadd : exec (.drsEadd c w mm) s
    = drsArith c 0x31 w mm (fun d => (d.opA w).map (bfxEadd (sext 32 (dImm w)))) s := rfl

theorem exec_drsNorm : exec (.drsNorm c w mm) s
    = drsArith c 0x32 w mm (fun d => (d.opA w).map (bfxNorm (dImm w))) s := rfl

theorem exec_drsTrn : exec (.drsTrn c w mm) s
    = drsArith c 0x33 w mm (fun d => bfxTrn (d.opA w)) s := rfl

theorem exec_drsRmax : exec (.drsRmax c w mm) s
    = drsArith c 0x34 w mm (fun d => (d.opA w).map bfxRmax) s := rfl

theorem exec_drsRsum : exec (.drsRsum c w mm) s
    = drsArith c 0x35 w mm (fun d => (d.opA w).map (bfxRsum (dImm w))) s := rfl

theorem exec_drsFn : exec (.drsFn c w mm) s
    = drsArith c 0x40 w mm (fun d => (d.opA w).map (bfxFn (dSub w))) s := rfl

end Commands

/-- Settles O18: each of the eight commands is the pipe with its opcode's rows. -/
theorem dresserArith : Obligations.DresserArith := by
  unfold Obligations.DresserArith
  intro s s' c mm w r hmm hen d hl
  have result {i : Instr} {op : Nat} {g : Dresser → List RowRes} (hi : exec i s = drsArith c op w mm g s)
      (hf : Safety.DrsFetched s s' c op w r) := exec_drsArith_result hi hf hmm hen hl
  exact ⟨result (exec_drsAdd c w mm s), result (exec_drsSub c w mm s), result (exec_drsMul c w mm s),
    result (exec_drsMad c w mm s), result (exec_drsMax c w mm s), result (exec_drsMin c w mm s), result (exec_drsCmp c w mm s),
    result (exec_drsSel c w mm s)⟩

/-- Settles O19: each of the twelve commands is the pipe with its opcode's rows. -/
theorem dresserBits : Obligations.DresserBits := by
  unfold Obligations.DresserBits
  intro s s' c mm w r hmm hen d hl
  have result {i : Instr} {op : Nat} {g : Dresser → List RowRes} (hi : exec i s = drsArith c op w mm g s)
      (hf : Safety.DrsFetched s s' c op w r) := exec_drsArith_result hi hf hmm hen hl
  exact ⟨result (exec_drsShl c w mm s), result (exec_drsShr c w mm s), result (exec_drsAnd c w mm s),
    result (exec_drsOr c w mm s), result (exec_drsXor c w mm s), result (exec_drsAlgn c w mm s),
    result (exec_drsEadd c w mm s), result (exec_drsNorm c w mm s), result (exec_drsTrn c w mm s),
    result (exec_drsRmax c w mm s), result (exec_drsRsum c w mm s), result (exec_drsFn c w mm s)⟩

end Sys2Proof.Machine
end

section
/-! The dresser's residue verdicts (R154, R155, R383): what a crew's fence leaves of its dresser, and the statement about one, two
and ignored mismatches (O22). -/

namespace Sys2Proof.Machine

/-! ### What the operations of a fence leave: the crew's fence flag, and the opcode at fault -/

/-- Crew `c` has fence flag `b`, and its dresser fault opcode `o` (R155, Table 1-7). -/
def FaultMarks (c : Nat) (b : Bool) (o : Nat) (s : State) : Prop :=
  (s.crew c).fenced = b ∧ (s.dresser c).faultOp = o

@[simp] theorem noteLoss_crew (g i k : Nat) (s : State) (c : Nat) : (noteLoss g i k s).crew c = s.crew c := by
  rw [State.crew, noteLoss_crews, State.crew]

@[simp] theorem noteLoss_dresser (g i k : Nat) (s : State) (c : Nat) : (noteLoss g i k s).dresser c = s.dresser c := by
  rw [State.dresser, noteLoss_drs, State.dresser]

section Marks

variable {c : Nat} {b : Bool} {o : Nat} {s : State}

theorem FaultMarks.setCrew {x : Crew} (h : FaultMarks c b o s) (hx : x.fenced = (s.crew c).fenced := by rfl) :
    FaultMarks c b o (s.setCrew c x) :=
  ⟨by rw [State.crew_setCrew, hx, h.1], h.2⟩

theorem FaultMarks.setDresser {x : Dresser} (h : FaultMarks c b o s) (hx : x.faultOp = (s.dresser c).faultOp := by rfl) :
    FaultMarks c b o (s.setDresser c x) :=
  ⟨h.1, by rw [State.dresser_setDresser, hx, h.2]⟩

theorem FaultMarks.setHewer (h : FaultMarks c b o s) (k : Nat) (x : Hewer) : FaultMarks c b o (s.setHewer c k x) := h

theorem FaultMarks.tokRelease (h : FaultMarks c b o s) (l k : Nat) : FaultMarks c b o (tokRelease l k s) := h

theorem FaultMarks.ite {p : Prop} [Decidable p] {s t : State} (hs : FaultMarks c b o s) (ht : FaultMarks c b o t) :
    FaultMarks c b o (if p then s else t) := by
  split <;> assumption

theorem FaultMarks.foldl {α : Type} {f : State → α → State} (hf : ∀ s a, FaultMarks c b o s → FaultMarks c b o (f s a))
    (l : List α) {s : State} (h : FaultMarks c b o s) : FaultMarks c b o (l.foldl f s) := by
  induction l generalizing s with
  | nil => exact h
  | cons a l ih => exact ih (hf s a h)

theorem FaultMarks.noteLoss (h : FaultMarks c b o s) (g i k : Nat) : FaultMarks c b o (noteLoss g i k s) := by
  rwa [FaultMarks, noteLoss_crew, noteLoss_dresser]

theorem FaultMarks.skqRelease (h : FaultMarks c b o s) (es : List Nat) : FaultMarks c b o (skqRelease c es s) := by
  refine .foldl (fun s k h => ?_) es h
  split
  · exact h.setDresser
  · exact h

theorem freeCredit_fenced (r : CplRec) (x : Crew) : (freeCredit r x).fenced = x.fenced := by
  unfold freeCredit
  split
  case h_6 => split <;> rfl
  all_goals rfl

theorem FaultMarks.tset (h : FaultMarks c b o s) (r : Nat) (v : Dword) : FaultMarks c b o (tset c r v s) := by
  unfold Machine.tset
  split
  · exact h
  · exact h.setCrew

theorem FaultMarks.cplTake (h : FaultMarks c b o s) (rd : Nat) : FaultMarks c b o (cplTake c rd s) := by
  unfold Machine.cplTake
  split
  · exact h.tset rd _
  · refine FaultMarks.tset (.setCrew h ?_) rd _
    exact freeCredit_fenced _ _

theorem FaultMarks.wakeCpl (h : FaultMarks c b o s) : FaultMarks c b o (wakeCpl c s) := by
  unfold Machine.wakeCpl
  split
  · split
    · exact (h.setCrew.cplTake _).setCrew
    · exact h
  · exact h

theorem FaultMarks.postRec (h : FaultMarks c b o s) (r : CplRec) : FaultMarks c b o (postRec c r s) := by
  unfold Machine.postRec
  dsimp only
  split
  · exact h.setCrew
  · exact h.setCrew.wakeCpl

theorem FaultMarks.failCut (h : FaultMarks c b o s) (k i : Nat) (st : Status) : FaultMarks c b o (failCut c k i st s) := by
  unfold Machine.failCut
  split
  · exact h
  · exact FaultMarks.setHewer (.skqRelease (.setHewer h _ _) _) _ _

theorem FaultMarks.killIssued (h : FaultMarks c b o s) (k : Nat) (hard : Bool) (n : Nat) :
    FaultMarks c b o (killIssued c k hard n s) := by
  induction n with
  | zero => exact h
  | succ n ih =>
    unfold Machine.killIssued
    dsimp only
    split
    · split
      · exact ih.failCut _ _ _
      · exact ih
    · exact ih

theorem FaultMarks.flushCuts (k n : Nat) {s : State} (h : FaultMarks c b o s) : FaultMarks c b o (flushCuts c k n s) := by
  induction n generalizing s with
  | zero => exact h
  | succ n ih =>
    unfold Machine.flushCuts
    split
    · split
      · exact ih ((h.setHewer _ _).postRec _)
      · exact h
    · exact h

theorem FaultMarks.applyRels (h : FaultMarks c b o s) : FaultMarks c b o (applyRels c s) := by
  refine .foldl (fun s r h => ?_) _ h
  dsimp only
  split
  · exact FaultMarks.setHewer h.setCrew _ _
  · exact h

theorem FaultMarks.cutStops (h : FaultMarks c b o s) (k i : Nat) : FaultMarks c b o (cutStops c k i s) := by
  unfold Machine.cutStops
  split
  · split <;> exact h
  · exact h

theorem FaultMarks.fenceHewer (h : FaultMarks c b o s) (k cause loss : Nat) :
    FaultMarks c b o (fenceHewer c k cause loss s) := by
  have stopped : FaultMarks c b o (match streaming (s.hewer c k) with | some (i, _) => Machine.cutStops c k i s | none => s) := by
    split
    · exact h.cutStops _ _
    · exact h
  unfold Machine.fenceHewer
  dsimp only
  split
  · split
    · exact ((h.killIssued _ _ _).flushCuts _ _).applyRels
    · exact h
  · have ended := fun x hard n => ((stopped.setHewer k x).killIssued k hard n).tokRelease (layerOf c) (colOf c k)
    exact .noteLoss (.applyRels (.flushCuts _ _ (.ite (.setCrew (ended _ _ _)) (ended _ _ _)))) _ _ _

theorem FaultMarks.skqClear (h : FaultMarks c b o s) : FaultMarks c b o (skqClear c s) := h.setDresser

theorem FaultMarks.dresserDead (h : FaultMarks c b o s) : FaultMarks c b o (dresserDead c s) := by
  unfold Machine.dresserDead
  exact .foldl (fun _ e h => h.postRec e) _ h.setDresser

theorem FaultMarks.poisonStart (h : FaultMarks c b o s) : FaultMarks c b o (poisonStart c s) := by
  unfold Machine.poisonStart
  exact h.ite h.setCrew

end Marks

/-! ### A crew's fence (Table 1-7, R153, R155) -/

theorem dresser_foldl_postRec (c : Nat) (l : List CplRec) (s : State) :
    (l.foldl (fun s e => postRec c e s) s).dresser c = s.dresser c := by
  induction l generalizing s with
  | nil => rfl
  | cons e l ih => rw [List.foldl_cons, ih, (OnlyCrews.postRec c e s).dresser]

theorem dresserDead_run (c : Nat) (s : State) : ((dresserDead c s).dresser c).run = none := by
  simp [dresserDead, dresser_foldl_postRec]

theorem poisonStart_state (c : Nat) (s : State) : ((poisonStart c s).crew c).state = (s.crew c).state := by
  unfold poisonStart
  split
  · rfl
  · rw [State.crew_setCrew]

theorem poisonStart_dresser (c : Nat) (s : State) : (poisonStart c s).dresser c = s.dresser c := by
  unfold poisonStart
  split <;> rfl

/-- The units of a crew that a fence stops: its hewers, its skip queue and its dresser. -/
def unitsStopped (c cause : Nat) (s : State) : State :=
  dresserDead c (skqClear c (fenceHewer c 1 cause 3 (fenceHewer c 0 cause 3
    (s.setCrew c { s.crew c with fenced := true, takeover := none }))))

/-- The tally of a fenced crew (R153). -/
def tallyFenced (x : Crew) : Crew :=
  { x with state := 6, wait := .none, user := false, cpl := x.cpl ++ x.absorbed, absorbed := [] }

theorem tallyFenced_fenced (x : Crew) : (tallyFenced x).fenced = x.fenced := rfl

/-- After its units the tally stops, the send table is poisoned and the loss is noted. -/
theorem fenceCrew_eq {s : State} {c : Nat} (cause : Nat) (hx : (s.crew c).fenced = false) :
    fenceCrew c cause s = noteLoss 1 c 3 (poisonStart c
      ((unitsStopped c cause s).setCrew c (tallyFenced ((unitsStopped c cause s).crew c)))) :=
  if_neg (ne_true_of_eq_false hx)

theorem unitsStopped_marks {s : State} {c o : Nat} (cause : Nat) (ho : (s.dresser c).faultOp = o) :
    FaultMarks c true o (unitsStopped c cause s) := by
  have marked : FaultMarks c true o (s.setCrew c { s.crew c with fenced := true, takeover := none }) :=
    ⟨by rw [State.crew_setCrew], ho⟩
  exact ((marked.fenceHewer 0 cause 3).fenceHewer 1 cause 3).skqClear.dresserDead

/-- A crew that is fenced has its tally FENCED and no routine in its dresser, whose opcode at fault stays. -/
theorem fenceCrew_marks {s : State} {c o : Nat} (cause : Nat) (hx : (s.crew c).fenced = false) (ho : (s.dresser c).faultOp = o) :
    FaultMarks c true o (fenceCrew c cause s) ∧ ((fenceCrew c cause s).crew c).state = 6
      ∧ ((fenceCrew c cause s).dresser c).run = none := by
  rw [fenceCrew_eq cause hx]
  refine ⟨.noteLoss (.poisonStart (.setCrew (unitsStopped_marks cause ho) (tallyFenced_fenced _))) _ _ _, ?_, ?_⟩
  · rw [noteLoss_crew, poisonStart_state, State.crew_setCrew, tallyFenced]
  · rw [noteLoss_dresser, poisonStart_dresser, State.dresser_setCrew, unitsStopped, dresserDead_run]

/-- A second mismatch fences the crew, and the opcode is the one at fault (R155). -/
theorem drsFault_marks {s : State} {c : Nat} (op : Nat) (hx : (s.crew c).fenced = false) :
    FaultMarks c true op (drsFault c op s) ∧ ((drsFault c op s).crew c).state = 6
      ∧ ((drsFault c op s).dresser c).run = none := by
  refine fenceCrew_marks 3 ?_ ?_
  · rw [endRoutine_crew, State.crew_setDresser, hx]
  · rw [endRoutine_faultOp, State.dresser_setDresser]

theorem satInc_eq_min (m n : Nat) : satInc m n = min m (n + 1) := by
  unfold satInc
  split <;> omega

/-- Settles O22: a mismatch that is retried or ignored is counted and the rows are written; any other fault fences the crew. -/
theorem dresserResidue : Obligations.DresserResidue := by
  unfold Obligations.DresserResidue
  intro s s' c op mm w r g hf
  simp only [drsArith_fetched hf]
  refine ⟨fun hen hmm hl => ⟨_, rfl, ?_⟩, fun hen hmm hx hrun => ⟨_, rfl, ?_⟩, fun hen hmm => ⟨_, rfl, ?_⟩⟩
  · rw [drsChecked_retried _ hen (by rw [hmm, hl])]
    refine ⟨by simp [satInc_eq_min], ?_, by simp⟩
    rw [State.crew, drsNext_crews, drsWrite_crews]
    rfl
  · rw [drsChecked_fault _ hen hmm, hf.opcode]
    obtain ⟨⟨hfenced, hop⟩, hstate, hrun⟩ := drsFault_marks op hx
    exact ⟨hfenced, hstate, hop, hrun⟩
  · rw [drsChecked_ignored _ hen hmm]
    refine ⟨by simp, by simp [satInc_eq_min], ?_⟩
    rw [drsNext_crews, drsWrite_crews]
    rfl

end Sys2Proof.Machine
end

section
/-! The dresser's loads (R134, R137, R143, R149 to R152): what a load, a MOV and an SQPOP go on with once their word is fetched; then
the statement about them (O20). -/

namespace Sys2Proof.Machine

/-! ### Loads (R134, R137) -/

/-- A word that reads no tile has no lane to disagree with its stored residue. -/
theorem laneFaults_of_load {d : Dresser} {w : InstrWord} (h : dOp w = 3 ∨ dOp w = 5 ∨ dOp w = 7) : d.laneFaults w = 0 := by
  obtain h | h | h := h <;> simp [Dresser.laneFaults, h, dHasA, dHasB]

section Loads

variable {s s' s'' : State} {c : Nat} {w : InstrWord} {r : Routine} {bs : List Byte}

/-- A load whose lines lie in the local store and can be read goes on with their bytes. -/
theorem drsLoad_read {op n a : Nat} (hf : Safety.DrsFetched s s' c op w r) (ha : lineOperand r w ((n + 63) / 64) = some a)
    (hread : localRead (.ls c) a n s' = (s'', some bs)) (k : List Byte → State → State) :
    drsLoad c op n w k s = .next (k bs s'') := by
  rw [drsLoad, drsStep_fetched hf]
  simp only [ha, hread]

theorem exec_drsLdt (hf : Safety.DrsFetched s s' c 0x01 w r) {a : Nat} (ha : lineOperand r w 65 = some a)
    (hread : localRead (.ls c) a 4160 s' = (s'', some bs)) :
    exec (.drsLdt c w) s = .next (drsNext c (drsWrite c w ((imageRows bs).map (fun r => { row := r })) s'')) :=
  drsLoad_read hf ha hread _

theorem exec_drsLdf (hf : Safety.DrsFetched s s' c 0x03 w r) {a : Nat} (ha : lineOperand r w 64 = some a)
    (hread : localRead (.ls c) a 4096 s' = (s'', some bs)) (mm : Nat) :
    exec (.drsLdf c w mm) s
      = .next (drsChecked c w mm ((wordRows bs 32).map (fun r => bfxPack (r.map numOfWord))) s'') :=
  drsLoad_read hf ha hread _

theorem exec_drsLdmx_rows (hf : Safety.DrsFetched s s' c 0x05 w r) (hl : dLay w = true) {ps : List (Nat × Nat)}
    (hps : rowParts r (s'.dresser c) w = some ps) {bl : List (Nat × List Byte)}
    (hread : rowBlocks c (blockBytes (dSub w)) ps s' = (s'', some bl)) (mm : Nat) :
    exec (.drsLdmx c w mm) s = .next (drsChecked c w mm (bl.map (fun b => bfxOfMx (dSub w) [] b.1 b.2)) s'') := by
  change execDrsLdmx c w mm s = _
  rw [execDrsLdmx, drsStep_fetched hf]
  simp only [hl, if_true, hps, hread]

/-- A slab of a format without a code table (R143). -/
theorem exec_drsLdmx_slab (hf : Safety.DrsFetched s s' c 0x05 w r) (hl : dLay w = false) (hsub : dSub w ≤ 5) {a : Nat}
    (ha : lineOperand r w (1 + (32 * blockBytes (dSub w) + 63) / 64) = some a)
    (hread : localRead (.ls c) a (64 + 32 * blockBytes (dSub w)) s' = (s'', some bs)) (mm : Nat) :
    exec (.drsLdmx c w mm) s = .next (drsChecked c w mm ((List.range 32).map (fun i =>
      bfxOfMx (dSub w) [] (leAt bs i 1) ((bs.drop (64 + i * blockBytes (dSub w))).take (blockBytes (dSub w))))) s'') := by
  change execDrsLdmx c w mm s = _
  rw [execDrsLdmx, drsStep_fetched hf]
  simp [hl, ha, slabTable, hsub, hread]

theorem exec_drsLds (hf : Safety.DrsFetched s s' c 0x08 w r) (ha : 4 * (16 * r.base + dImm w) + 4 ≤ 0x80000)
    (hread : localRead (.ls c) (4 * (16 * r.base + dImm w)) 4 s' = (s'', some bs)) :
    exec (.drsLds c w) s = .next (drsNext c (s''.setDresser c { s''.dresser c with
      sregs := Tbl.put (s''.dresser c).sregs (dSreg w) (BitVec.ofNat 32 (leNat bs)) })) := by
  change execDrsLds c w s = _
  rw [execDrsLds, drsStep_fetched hf]
  simp only [if_neg (Nat.not_lt.mpr ha), hread]

theorem exec_drsMov (hf : Safety.DrsFetched s s' c 0x09 w r) :
    exec (.drsMov c w) s = .next (drsNext c (drsWrite c w (((s'.dresser c).opA w).map (fun r => { row := r })) s')) := by
  change execDrsMov c w s = _
  rw [execDrsMov, drsStep_fetched hf]

end Loads

/-! ### The skip queue (R149 to R152) -/

/-- Entry `k` taken by an SQPOP: FREE, and noted while the replay ring holds its cut (R149, R179). -/
def sqTaken (c k : Nat) (s : State) : State :=
  let d := s.dresser c
  let e := skqEntry s c k
  let ring := if e.role = 0 then (s.crew c).ring0 else (s.crew c).ring1
  setSkq c k {} (s.setDresser c { d with
    popped := if ring.any (fun q => q.seq == e.seq) && !d.popped.contains (e.role, e.seq) then d.popped ++ [(e.role, e.seq)]
      else d.popped })

theorem sqTaken_agrees (c k : Nat) (s : State) : DrsAgrees c s (sqTaken c k s) := by
  constructor <;> simp [sqTaken, setSkq]

theorem sqTaken_chr (c k : Nat) (s : State) : (sqTaken c k s).chr = s.chr := rfl

@[simp] theorem sqTaken_run (c k : Nat) (s : State) : ((sqTaken c k s).dresser c).run = (s.dresser c).run := by
  simp [sqTaken, setSkq]

@[simp] theorem sqTaken_parity (c k : Nat) (s : State) : ((sqTaken c k s).dresser c).parity = (s.dresser c).parity := by
  simp [sqTaken, setSkq]

theorem sqTaken_entry (c k : Nat) (s : State) : skqEntry (sqTaken c k s) c k = {} :=
  skqEntry_setDresser_put rfl

/-- A parity error counted (R152). -/
def parityCounted (c : Nat) (s : State) : State :=
  s.setDresser c { s.dresser c with parity := satInc 0xFF (s.dresser c).parity }

section Pop

variable {s s' : State} {c : Nat} {w : InstrWord} {r : Routine} (hf : Safety.DrsFetched s s' c 0x07 w r)
include hf

theorem exec_drsSqpop_taken {k : Nat} (hk : sqOldest s' c (dImm w) = some k) (mm : Nat) (parity : Bool) :
    exec (.drsSqpop c w (mm, parity)) s = .next (
      if ((skqEntry s' c k).parityBad || parity) = true then endRoutine c .uncorrectable (parityCounted c (sqTaken c k s'))
      else drsChecked c w mm ((skqEntry s' c k).data.map (fun r => bfxPack (r.map numOfWord))) (sqTaken c k s')) := by
  change execDrsSqpop c w (mm, parity) s = _
  rw [execDrsSqpop, drsStep_fetched hf]
  simp only [hk]
  rfl

theorem exec_drsSqpop_waits (hk : sqOldest s' c (dImm w) = none) (hw : (s'.dresser c).waitFrom = none) (chk : Nat × Bool) :
    exec (.drsSqpop c w chk) s
      = .next (s'.setDresser c { s'.dresser c with waitFrom := some (s'.hclkNs (galOf c)) }) := by
  change execDrsSqpop c w chk s = _
  rw [execDrsSqpop, drsStep_fetched hf]
  simp [hk, hw]

end Pop

/-- A checked result leaves the skip queue alone. -/
theorem drsChecked_skqEntry {s : State} {c mm : Nat} {w : InstrWord} (rs : List RowRes) (hmm : mm ≤ 1)
    (hen : s.chr.residueEn = true) (hl : (s.dresser c).laneFaults w = 0) (k : Nat) :
    skqEntry (drsChecked c w mm rs s) c k = skqEntry s c k := by
  obtain ⟨u, h, rfl | rfl⟩ := drsChecked_passes rs hmm hen hl <;> simp [skqEntry, h]

/-- Settles O20: each load writes the rows of what it read; an SQPOP takes its entry, counts its parity error or waits. -/
theorem dresserLoads : Obligations.DresserLoads := by
  unfold Obligations.DresserLoads
  intro s s' s'' c mm a w r bs hmm hen hen'
  refine ⟨fun hf ha hread => ⟨_, exec_drsLdt hf ha hread, drsResult_of_write (.refl c s'') w _⟩,
    fun hf ha hread => ⟨_, exec_drsLdf hf ha hread mm,
      drsChecked_result _ (.refl c s'') hmm hen' (laneFaults_of_load (.inl hf.opcode))⟩,
    fun ps bl hf hl hps hread => ⟨_, exec_drsLdmx_rows hf hl hps hread mm,
      drsChecked_result _ (.refl c s'') hmm hen' (laneFaults_of_load (.inr (.inl hf.opcode)))⟩,
    fun hf hl hsub ha hread => ⟨_, exec_drsLdmx_slab hf hl hsub ha hread mm,
      drsChecked_result _ (.refl c s'') hmm hen' (laneFaults_of_load (.inr (.inl hf.opcode)))⟩,
    fun hf ha hread => ⟨_, exec_drsLds hf ha hread, by simp⟩,
    fun hf => ⟨_, exec_drsMov hf, drsResult_of_write (.refl c s') w _⟩,
    fun k hf hk hgood => ?_, fun k parity hf hk hbad => ?_, fun hf hk hw parity => exec_drsSqpop_waits hf hk hw _⟩
  · have hl : ((sqTaken c k s').dresser c).laneFaults w = 0 := laneFaults_of_load (.inr (.inr hf.opcode))
    rw [← sqTaken_chr c k] at hen
    rw [exec_drsSqpop_taken hf hk, if_neg (by simp [hgood])]
    exact ⟨_, rfl, (drsChecked_skqEntry _ hmm hen hl k).trans (sqTaken_entry c k s'),
      drsChecked_result _ (sqTaken_agrees c k s') hmm hen hl⟩
  · rw [exec_drsSqpop_taken hf hk, if_pos (by simpa using hbad)]
    refine ⟨_, rfl, ?_, fun q hq => ?_, ?_⟩
    · rw [skqEntry, endRoutine_skq, parityCounted, State.dresser_setDresser]
      exact sqTaken_entry c k s'
    · rw [endRoutine_run c _ _ (r := q) (by simpa [parityCounted] using hq), State.dresser_setDresser]
    · simp [parityCounted, satInc_eq_min]

end Sys2Proof.Machine
end

section
/-! The dresser's stores and routines (R134 to R137, R143, R150, R161): whole lines written to a local store, and how a routine
starts, ends and completes; then the statement about them (O21). -/

namespace Sys2Proof.Machine

/-! ### Whole lines of a local store (R372) -/

theorem Memory.write_append (m : Memory) (a : Nat) (xs ys : List Byte) :
    m.write a (xs ++ ys) = (m.write a xs).write (a + xs.length) ys := by
  induction xs generalizing m a with
  | nil => rfl
  | cons x xs ih => simp [Memory.write, ih, Nat.add_assoc, Nat.add_comm 1]

/-- Line for line, a write of whole lines always succeeds, and touches the store's bytes and the errors of its lines only. -/
theorem localWrites_lines (c n : Nat) {fuel a : Nat} {bs : List Byte} {s : State} (hfuel : n ≤ fuel) (ha : a % 64 = 0)
    (hbs : bs.length = 64 * n) : ∃ es, localWrites (.ls c) (spans 64 fuel a (64 * n)) bs s
      = ({ s with lsMem := s.lsMem.write (0x80000 * c + a) bs, errs := es }, true) := by
  induction n generalizing fuel a bs s with
  | zero =>
    rw [List.eq_nil_of_length_eq_zero hbs]
    cases fuel <;> exact ⟨s.errs, rfl⟩
  | succ n ih =>
    obtain ⟨fuel, rfl⟩ : ∃ f, fuel = f + 1 := ⟨fuel - 1, by omega⟩
    have hspans : spans 64 (fuel + 1) a (64 * (n + 1)) = (a, 64) :: spans 64 fuel (a + 64) (64 * n) := by
      rw [spans, if_neg (by omega)]
      simp only [show min (64 * (n + 1)) (64 - a % 64) = 64 by omega, show 64 * (n + 1) - 64 = 64 * n by omega]
    obtain ⟨es, h⟩ := ih (bs := bs.drop 64) (s := localPut (.ls c) a bs s) (a := a + 64) (fuel := fuel) (by omega) (by omega)
      (by rw [List.length_drop]; omega)
    refine ⟨es, ?_⟩
    rw [hspans, localWrites, if_pos rfl, h]
    have hline : (0x80000 * c + a) + (bs.take 64).length = 0x80000 * c + (a + 64) := by rw [List.length_take]; omega
    have hwrite := Memory.write_append s.lsMem (0x80000 * c + a) (bs.take 64) (bs.drop 64)
    rw [List.take_append_drop, hline] at hwrite
    rw [hwrite]
    rfl

/-- A store of whole lines writes them, and the routine goes on (R136). -/
theorem drsStore_lines {c n a : Nat} {bs : List Byte} (s : State) (ha : a % 64 = 0) (hbs : bs.length = 64 * n) :
    ∃ es, drsStore c [(a, bs)] s
      = drsNext c { s with lsMem := s.lsMem.write (0x80000 * c + a) bs, errs := es } := by
  obtain ⟨es, h⟩ := localWrites_lines (s := s) c n (fuel := n + 2) (by omega) ha hbs
  refine ⟨es, ?_⟩
  have hw : localWrite (.ls c) a bs s = ({ s with lsMem := s.lsMem.write (0x80000 * c + a) bs, errs := es }, true) := by
    rw [localWrite, lineSpans, hbs, Nat.mul_div_cancel_left n (by decide), h]
  simp only [drsStore, List.foldl_cons, List.foldl_nil, hw]
  rfl

theorem lineOperand_aligned {r : Routine} {w : InstrWord} {n a : Nat} (h : lineOperand r w n = some a) : a % 64 = 0 := by
  simp only [lineOperand, Option.ite_none_right_eq_some, Option.some.injEq] at h
  omega

/-! ### The stores' commands -/

section Stores

variable {s s' : State} {c a : Nat} {w : InstrWord} {r : Routine}

/-- What a store of `m` bytes in whole lines leaves (R134, R136): the bytes read back, every other byte, the tiles, the scalar
registers and the crews as they were, and the next place in the routine. -/
theorem exec_drsSave {i : Instr} {op n m : Nat} {g : Dresser → List Byte} (hi : exec i s = drsSave c op w g s)
    (hf : Safety.DrsFetched s s' c op w r) (ha : lineOperand r w n = some a) (hm : (g (s'.dresser c)).length = m)
    (hn : m = 64 * n) :
    ∃ t, exec i s = .next t ∧ (t.dresser c).pc = (s'.dresser c).pc + 1
      ∧ t.lsMem.read (0x80000 * c + a) m = g (s'.dresser c)
      ∧ (∀ b, b < 0x80000 * c + a ∨ 0x80000 * c + a + m ≤ b → t.lsMem.get b = s'.lsMem.get b)
      ∧ (t.dresser c).tiles = (s'.dresser c).tiles ∧ (t.dresser c).sregs = (s'.dresser c).sregs ∧ t.crews = s'.crews := by
  obtain ⟨es, hstore⟩ := drsStore_lines (c := c) s' (lineOperand_aligned ha) (hm.trans hn)
  have hexec : exec i s = .next (drsStore c [(a, g (s'.dresser c))] s') := by
    rw [hi, drsSave, drsStep_fetched hf]
    simp only [hm, hn, Nat.mul_div_cancel_left n (show 0 < 64 by decide), ha]
  refine ⟨_, hexec, ?_⟩
  rw [hstore, drsNext_pc, drsNext_lsMem, drsNext_tiles, drsNext_sregs, drsNext_crews]
  refine ⟨rfl, ?_, fun b hb => ?_, rfl, rfl, rfl⟩
  · rw [← hm]; exact Memory.read_write _ _ _
  · rw [← hm] at hb; exact Memory.get_write_other _ _ _ _ hb

theorem exec_drsStt (c : Nat) (w : InstrWord) (s : State) :
    exec (.drsStt c w) s = drsSave c 0x02 w (fun d => rowsImage (d.opA w)) s := rfl

theorem exec_drsStf (c : Nat) (w : InstrWord) (s : State) : exec (.drsStf c w) s
    = drsSave c 0x04 w (fun d => (d.opA w).flatMap (fun r => (bfxUnpack r).flatMap (fun v => leBytes 4 v.toNat))) s := rfl

theorem exec_drsStmx_rows (hf : Safety.DrsFetched s s' c 0x06 w r) (hl : dLay w = true) {ps : List (Nat × Nat)}
    (hps : rowParts r (s'.dresser c) w = some ps) :
    exec (.drsStmx c w) s = .next (drsStore c ((List.zip ps (tileBlocks (dSub w) ((s'.dresser c).opA w))).flatMap
      (fun q => [(q.1.1, leBytes 1 q.2.1), (q.1.2, q.2.2)])) s') := by
  change execDrsStmx c w s = _
  rw [execDrsStmx, drsStep_fetched hf]
  simp only [hl, if_true, hps]

theorem exec_drsStmx_slab (hf : Safety.DrsFetched s s' c 0x06 w r) (hl : dLay w = false)
    (ha : lineOperand r w (1 + (32 * blockBytes (dSub w) + 63) / 64) = some a) :
    exec (.drsStmx c w) s = .next (drsStore c
      [(a, padLine ((tileBlocks (dSub w) ((s'.dresser c).opA w)).map (fun b => BitVec.ofNat 8 b.1))
        ++ padLine ((tileBlocks (dSub w) ((s'.dresser c).opA w)).flatMap (·.2)))] s') := by
  change execDrsStmx c w s = _
  rw [execDrsStmx, drsStep_fetched hf]
  simp [hl, ha]

end Stores

/-! ### Routines (R135, R136, R150, R161) -/

theorem exec_drsEnd {s s' : State} {c : Nat} {w : InstrWord} {r : Routine} (hf : Safety.DrsFetched s s' c 0x7F w r)
    (hrun : (s'.dresser c).run = some r) :
    exec (.drsEnd c w) s = .next (s'.setDresser c { s'.dresser c with done := some (r.tag, .ok), waitFrom := none }) := by
  change execDrsEnd c w s = _
  rw [execDrsEnd, drsStep_fetched hf, endRoutine_run c _ _ hrun]

theorem exec_routineStart {s : State} {c : Nat} {r : Routine} {rest : List Routine} (hc : s.crewPresent c = true)
    (hx : (s.crew c).fenced = false) (hruns : s.crewRuns c = true) (hrun : (s.dresser c).run = none)
    (hdone : (s.dresser c).done = none) (hq : (s.dresser c).queue = r :: rest) :
    exec (.routineStart c) s = .next (wakeLaunch c (s.setDresser c { s.dresser c with
      queue := rest, run := some r, pc := 0, rsat := false, rinv := false, waitFrom := none })) := by
  change execRoutineStart c s = _
  simp only [execRoutineStart, hq, if_pos (And.intro hc (And.intro hx (And.intro hruns (And.intro hrun hdone))))]

theorem exec_routineComplete {s : State} {c tag : Nat} {st : Status} (hc : s.crewPresent c = true) (hruns : s.crewRuns c = true)
    (hroom : dresserRoom s c = true) (hdone : (s.dresser c).done = some (tag, st)) :
    exec (.routineComplete c) s = .next (postRec c
      { tag := tag, status := st, source := 2, flags := b2n (s.dresser c).rsat + 2 * b2n (s.dresser c).rinv }
      (s.setDresser c { s.dresser c with run := none, done := none, lastStatus := st.code })) := by
  change execRoutineComplete c s = _
  simp only [execRoutineComplete, hdone, if_pos (And.intro hc (And.intro hruns hroom))]

/-- The word at the routine's place names the entries that its SQPOP waits for. -/
theorem exec_sqpopTimeout {s : State} {c t : Nat} {r : Routine} (hruns : drsRuns s c = true)
    (hw : (s.dresser c).waitFrom = some t) (hrun : (s.dresser c).run = some r)
    (hnone : sqOldest s c (dImm (BitVec.ofNat 64
      (leNat (s.lsMem.read (0x80000 * c + 64 * r.start + 8 * (s.dresser c).pc) 8)))) = none)
    (hlimit : t + sqWaitNs (s.dresser c) ≤ s.hclkNs (galOf c)) :
    exec (.sqpopTimeout c) s
      = .next (s.setDresser c { s.dresser c with done := some (r.tag, .timeout), waitFrom := none }) := by
  change execSqpopTimeout c s = _
  simp only [execSqpopTimeout, hw, hrun, if_pos (And.intro hruns (And.intro hnone hlimit)), endRoutine_run c _ _ hrun]

/-- Settles O21: whole lines are written and read back; the routine's commands are the rules above. -/
theorem dresserStores : Obligations.DresserStores := by
  unfold Obligations.DresserStores
  exact ⟨fun s s' c a w r => ⟨fun hf ha hbs => exec_drsSave (exec_drsStt c w s) hf ha hbs rfl,
      fun hf ha hbs => exec_drsSave (exec_drsStf c w s) hf ha hbs rfl,
      fun hf => ⟨fun ps hl hps => exec_drsStmx_rows hf hl hps, fun hl ha => exec_drsStmx_slab hf hl ha⟩,
      fun hf hrun => exec_drsEnd hf hrun⟩,
    fun s c r rest hc hx hruns hrun hdone hq => exec_routineStart hc hx hruns hrun hdone hq,
    fun s c tag st hc _ hruns hroom hdone => exec_routineComplete hc hruns hroom hdone,
    fun s c t r hruns hw hrun hnone hlimit => exec_sqpopTimeout hruns hw hrun hnone hlimit⟩

end Sys2Proof.Machine
end

section
/-! The crew extension's words (R159, Table 6-2): the fields that an R-type word holds, and what they decode to; then the statement
about them (O57). -/

namespace Sys2Proof.Machine

/-! ### The fields of an R-type word -/

section Fields

variable {funct3 funct7 rd rs1 rs2 : Nat} (h3 : funct3 < 8) (h7 : funct7 < 128) (hd : rd < 32) (h1 : rs1 < 32) (h2 : rs2 < 32)
include h3 h7 hd h1 h2

theorem rType_toNat : (rType funct3 funct7 rd rs1 rs2).toNat
    = 0x0B + 2 ^ 7 * rd + 2 ^ 12 * funct3 + 2 ^ 15 * rs1 + 2 ^ 20 * rs2 + 2 ^ 25 * funct7 := by
  rw [rType, BitVec.toNat_ofNat, Nat.mod_eq_of_lt (by omega)]

theorem rType_opcode : (rType funct3 funct7 rd rs1 rs2).toNat % 128 = 0x0B := by
  rw [rType_toNat h3 h7 hd h1 h2]; omega

theorem rType_rd : (rType funct3 funct7 rd rs1 rs2).toNat / 2 ^ 7 % 32 = rd := by
  rw [rType_toNat h3 h7 hd h1 h2]; omega

theorem rType_funct3 : (rType funct3 funct7 rd rs1 rs2).toNat / 2 ^ 12 % 8 = funct3 := by
  rw [rType_toNat h3 h7 hd h1 h2]; omega

theorem rType_rs1 : (rType funct3 funct7 rd rs1 rs2).toNat / 2 ^ 15 % 32 = rs1 := by
  rw [rType_toNat h3 h7 hd h1 h2]; omega

theorem rType_rs2 : (rType funct3 funct7 rd rs1 rs2).toNat / 2 ^ 20 % 32 = rs2 := by
  rw [rType_toNat h3 h7 hd h1 h2]; omega

theorem rType_funct7 : (rType funct3 funct7 rd rs1 rs2).toNat / 2 ^ 25 = funct7 := by
  rw [rType_toNat h3 h7 hd h1 h2]; omega

end Fields

/-! ### The decoder -/

theorem decodeCrewExt_of_opcode_ne (c : Nat) {w : Word} (h : w.toNat % 128 ≠ 0x0B) : decodeCrewExt c w = none :=
  if_pos h

/-- The number of instructions that Table 6-2 gives a funct3; they have the first values of funct7. -/
def crewExtCodes (funct3 : Nat) : Nat := [3, 2, 1, 2, 5, 5, 1, 0].getD funct3 0

theorem decodeCrewExt_illegal (c : Nat) {w : Word} (hop : w.toNat % 128 = 0x0B)
    (h : crewExtCodes (w.toNat / 2 ^ 12 % 8) ≤ w.toNat / 2 ^ 25) :
    decodeCrewExt c w = some (.tlyTrap c 2 (w.setWidth 64)) := by
  simp only [decodeCrewExt, hop, ne_eq, not_true_eq_false, if_false]
  generalize w.toNat / 2 ^ 12 % 8 = funct3 at h ⊢
  generalize w.toNat / 2 ^ 25 = funct7 at h ⊢
  split
  case h_20 => rfl
  all_goals exact absurd h (by decide)

/-- The word of a well-formed command decodes to that command in its own crew's tally. -/
theorem decodeCrewExt_encodeCrewExt {i : Instr} {w : Word} (hi : i.wf = true) (h : encodeCrewExt i = some w) :
    ∃ c, c < 128 ∧ decodeCrewExt c w = some i := by
  unfold encodeCrewExt at h
  split at h
  case h_20 => cases h
  all_goals
    obtain rfl := Option.some.inj h
    simp only [Instr.wf, Bool.and_eq_true, decide_eq_true_eq] at hi
    apply Exists.intro
    apply And.intro
    rotate_left
    · simp (disch := omega) only [decodeCrewExt, rType_opcode, rType_rd, rType_funct3, rType_rs1, rType_rs2, rType_funct7,
        ne_eq, not_true_eq_false, if_false]
      rfl
    · omega

/-- Settles O57: the fields of an R-type word read back, and each pair of funct3 and funct7 is one row of the table or none. -/
theorem crewEncoding : Obligations.CrewEncoding := by
  unfold Obligations.CrewEncoding
  exact ⟨fun _ _ hi h => decodeCrewExt_encodeCrewExt hi h, fun c _ hop h => decodeCrewExt_illegal c hop h,
    fun c _ h => decodeCrewExt_of_opcode_ne c h⟩

end Sys2Proof.Machine
end

section
/-! The tally's instructions that queue work and read records (R135, R149, R159 to R161, R164, R165, R170 to R174): one rule per
instruction and outcome, over what the descriptor's read and a register's write leave; then the statements about them (O12, O13). -/

namespace Sys2Proof.Machine

/-! ### A register written (R157) -/

theorem tset_zero (c : Nat) (v : Dword) (s : State) : tset c 0 v s = s := if_pos rfl

theorem tset_of_ne {c r : Nat} (h : r ≠ 0) (v : Dword) (s : State) :
    tset c r v s = s.setCrew c { s.crew c with regs := Tbl.put (s.crew c).regs r v } := if_neg h

/-- x0 reads zero, and any other register what was written last. -/
theorem tget_tset (c r : Nat) (v : Dword) (s : State) : tget (tset c r v s) c r = if r = 0 then 0 else v := by
  by_cases h : r = 0
  · simp [h, tget]
  · simp [tset_of_ne h, tget, h]

/-- What a crew holds beside its registers stays. -/
theorem tset_crew {α : Type} {f : Crew → α} (hf : ∀ x rs, f { x with regs := rs } = f x) (c r : Nat) (v : Dword)
    (s : State) : f ((tset c r v s).crew c) = f (s.crew c) := by
  by_cases h : r = 0
  · rw [h, tset_zero]
  · rw [tset_of_ne h, State.crew_setCrew, hf]

@[simp] theorem gal_tset (c r : Nat) (v : Dword) (s : State) (g : Nat) : (tset c r v s).gal g = s.gal g := by
  rw [OnlyCrews.tset c r v s]; rfl

/-! ### A descriptor read (R159, R372) -/

theorem withDescriptor_read {s s' : State} {c : Nat} {a : Dword} {bs : List Byte} (ha : a.toNat % 32 = 0)
    (hin : a.toNat + 32 ≤ 0x20000) (hread : localRead (.tly c) a.toNat 32 s = (s', some bs)) (f : List Byte → State → State) :
    withDescriptor c a f s = f bs s' := by
  have hend : ¬ tlySize < a.toNat + 32 := Nat.not_lt.mpr hin
  simp only [withDescriptor, if_neg (not_not_intro ha), if_neg hend, hread]

theorem withDescriptor_misaligned {c : Nat} {a : Dword} (ha : a.toNat % 32 ≠ 0) (f : List Byte → State → State) (s : State) :
    withDescriptor c a f s = tallyTrap c 4 a s := if_pos ha

/-! ### Cuts (R159) -/

theorem exec_cutPush {s s' : State} {c rs1 : Nat} {bs : List Byte} (rd rs2 : Nat) (hruns : s.tallyRuns c = true)
    (ha : (tget s c rs1).toNat % 32 = 0) (hin : (tget s c rs1).toNat + 32 ≤ 0x20000)
    (hread : localRead (.tly c) (tget s c rs1).toNat 32 s = (s', some bs)) :
    exec (.cutPush c rd rs1 rs2) s
      = .next (if 19 ≤ cutUse (s'.crew c) ((tget s c rs2).toNat % 2) then tset c rd 0 s'
          else tset c rd 1 (pushCut c ((tget s c rs2).toNat % 2) (wordsOf bs) s')) := by
  change execCutPush c rd rs1 rs2 s = _
  simp only [execCutPush, tally_of_runs _ hruns, withDescriptor_read ha hin hread]

theorem exec_cutPush_misaligned {s : State} {c rs1 : Nat} (rd rs2 : Nat) (hruns : s.tallyRuns c = true)
    (ha : (tget s c rs1).toNat % 32 ≠ 0) : exec (.cutPush c rd rs1 rs2) s = .next (tallyTrap c 4 (tget s c rs1) s) := by
  change execCutPush c rd rs1 rs2 s = _
  simp only [execCutPush, tally_of_runs _ hruns, withDescriptor_misaligned ha]

/-! ### Code tables (R118, R161) -/

@[simp] theorem takeTbl_buddy (role : Nat) (x : Crew) : (takeTbl role x).buddy = x.buddy := by
  unfold takeTbl; split <;> rfl

@[simp] theorem takeTbl_deadRole (role : Nat) (x : Crew) : (takeTbl role x).deadRole = x.deadRole := by
  unfold takeTbl; split <;> rfl

/-- A role that is not redirected is served by its own hewer (R179). -/
theorem hewerFor_of_not_redirected {s : State} {c role : Nat} (h : redirected s c role = false) :
    hewerFor s c role = role := by
  simp only [redirected] at h
  simp [hewerFor, h]

/-- A table credit taken and a register written redirect nothing. -/
theorem redirected_takeTbl (s : State) (c role rd : Nat) (v : Dword) :
    redirected (tset c rd v (s.setCrew c (takeTbl role (s.crew c)))) c role = redirected s c role := by
  simp [redirected, tset_crew (f := Crew.buddy) fun _ _ => rfl, tset_crew (f := Crew.deadRole) fun _ _ => rfl]

/-- The request that the operand registers of tbl.load name (Table 6-2). -/
def tblReqOf (v1 v2 : Dword) : TblReq :=
  { arr := bits 1 0 v2.toNat, addr := v1.toNat, id := bits 8 3 v2.toNat, kind := bits 9 9 v2.toNat, role := bits 2 2 v2.toNat }

section TblLoad

variable {s : State} {c rs1 rs2 : Nat} (rd : Nat) (hruns : s.tallyRuns c = true) (ha : (tget s c rs1).toNat % 16 = 0)
  (hin : (tget s c rs1).toNat + 16 ≤ 0x200000)

include ha hin in
/-- Both kinds of table lie within the store, whichever the operands name. -/
theorem tblLoad_operands_good : ¬ ((tget s c rs1).toNat % 16 ≠ 0
    ∨ 0x200000 < (tget s c rs1).toNat + (if bits 9 9 (tget s c rs2).toNat = 0 then 16 else 8)) := by
  split <;> omega

include hruns ha hin

theorem exec_tblLoad_full (hfull : 4 ≤ tblUse (s.crew c) (bits 2 2 (tget s c rs2).toNat)) :
    exec (.tblLoad c rd rs1 rs2) s = .next (tset c rd 0 s) := by
  change execTblLoad c rd rs1 rs2 s = _
  simp only [execTblLoad, tally_of_runs _ hruns, if_neg (tblLoad_operands_good ha hin), if_pos hfull]

theorem exec_tblLoad_starts (hown : redirected s c (bits 2 2 (tget s c rs2).toNat) = false)
    (hlive : (s.hewer c (bits 2 2 (tget s c rs2).toNat)).fenceCause = 0)
    (hroom : tblUse (s.crew c) (bits 2 2 (tget s c rs2).toNat) < 4) :
    exec (.tblLoad c rd rs1 rs2) s
      = .next (startLoad c (bits 2 2 (tget s c rs2).toNat) (tblReqOf (tget s c rs1) (tget s c rs2))
          (tset c rd 1 (s.setCrew c (takeTbl (bits 2 2 (tget s c rs2).toNat) (s.crew c))))) := by
  have hown' := (redirected_takeTbl s c (bits 2 2 (tget s c rs2).toNat) rd 1).trans hown
  have hlive' : ((tset c rd 1 (s.setCrew c (takeTbl (bits 2 2 (tget s c rs2).toNat) (s.crew c)))).hewer c
      (bits 2 2 (tget s c rs2).toNat)).fenceCause = 0 := by
    rw [(OnlyCrews.tset _ _ _ _).hewer, State.hewer_setCrew, hlive]
  change execTblLoad c rd rs1 rs2 s = _
  simp only [execTblLoad, tally_of_runs _ hruns, if_neg (tblLoad_operands_good ha hin), if_neg (Nat.not_le.mpr hroom),
    hewerFor_of_not_redirected hown', hown', hlive', ne_eq, not_true_eq_false, Bool.false_eq_true, if_false]
  rfl

end TblLoad

/-! ### Releases, launches and the skip queue (R135, R149, R164) -/

theorem exec_blkRel {s : State} {c rs1 rs2 : Nat} (hruns : s.tallyRuns c = true)
    (hin : bits 10 0 (tget s c rs1).toNat + bits 11 0 (tget s c rs2).toNat ≤ 2048)
    (hsome : bits 11 0 (tget s c rs2).toNat ≠ 0) (hown : redirected s c (bits 16 16 (tget s c rs2).toNat) = false) :
    exec (.blkRel c rs1 rs2) s = .next (applyRels c (s.setCrew c { s.crew c with
      order := (s.crew c).order + 1
      rels := (s.crew c).rels ++ [(bits 16 16 (tget s c rs2).toNat, bits 10 0 (tget s c rs1).toNat,
        bits 11 0 (tget s c rs2).toNat, (s.crew c).order)] })) := by
  have hcount : min (bits 11 0 (tget s c rs2).toNat) (2048 - bits 10 0 (tget s c rs1).toNat)
      = bits 11 0 (tget s c rs2).toNat := Nat.min_eq_left (by omega)
  change execBlkRel c rs1 rs2 s = _
  simp only [execBlkRel, tally_of_runs _ hruns, if_neg (Nat.not_lt.mpr hin), if_neg hsome, hown,
    hewerFor_of_not_redirected hown, Bool.false_eq_true, if_false, Nat.add_zero, hcount]

theorem exec_drsLaunch {s : State} {c : Nat} (rs1 rs2 : Nat) (hruns : s.tallyRuns c = true) :
    exec (.drsLaunch c rs1 rs2) s = .next (
      if 4 ≤ (s.dresser c).queue.length then s.setCrew c { s.crew c with wait := .launch (tget s c rs1) (tget s c rs2) }
      else s.setDresser c { s.dresser c with
        queue := (s.dresser c).queue ++ [launchOf (tget s c rs1) (tget s c rs2)] }) := by
  change execDrsLaunch c rs1 rs2 s = _
  simp only [execDrsLaunch, tally_of_runs _ hruns]

theorem exec_sqDrop {s : State} {c : Nat} (rd rs1 : Nat) (hruns : s.tallyRuns c = true) :
    let v := (tget s c rs1).toNat
    exec (.sqDrop c rd rs1) s = .next (tset c rd
      (BitVec.ofNat 64 ((s.dresser c).skq.filter (fun p => sqDrops (bits 16 16 v) (bits 15 0 v) p.2)).length)
      (dropTiles c (bits 16 16 v) (bits 15 0 v) s)) := by
  change execSqDrop c rd rs1 s = _
  simp only [execSqDrop, tally_of_runs _ hruns]

/-- Settles O12: each clause is the rule above of its instruction and outcome. -/
theorem tallyQueues : Obligations.TallyQueues := by
  unfold Obligations.TallyQueues
  refine ⟨?_, ?_, ?_, ?_, ?_, ?_⟩
  · intro s s' c rd rs1 rs2 bs hruns ha hin hread role
    rw [exec_cutPush rd rs2 hruns ha hin hread]
    exact ⟨fun hroom => by rw [if_neg (Nat.not_le.mpr hroom)], fun hfull => by rw [if_pos hfull]⟩
  · intro s c rd rs1 rs2 hruns ha
    exact exec_cutPush_misaligned rd rs2 hruns ha
  · intro s c rd rs1 rs2 hruns a o role q ha hin hown hlive
    exact ⟨exec_tblLoad_starts rd hruns ha hin hown hlive, exec_tblLoad_full rd hruns ha hin⟩
  · intro s c rs1 rs2 hruns first count role hin hsome hown
    exact exec_blkRel hruns hin hsome hown
  · intro s c rs1 rs2 hruns d
    rw [exec_drsLaunch rs1 rs2 hruns]
    exact ⟨fun hroom => by rw [if_neg (Nat.not_le.mpr hroom)]; rfl, fun hfull => by rw [if_pos hfull]⟩
  · intro s c rd rs1 hruns role seq
    exact exec_sqDrop rd rs1 hruns

/-! ### Completion records (R160, R161, R170) -/

theorem cplTake_none {s : State} {c : Nat} (rd : Nat) (h : (s.crew c).cpl = []) : cplTake c rd s = tset c rd 0 s := by
  simp only [cplTake, h]

theorem cplTake_oldest {s : State} {c : Nat} {r : CplRec} {rest : List CplRec} (rd : Nat) (h : (s.crew c).cpl = r :: rest) :
    cplTake c rd s = tset c rd (recWord r) (s.setCrew c (freeCredit r { s.crew c with cpl := rest })) := by
  simp only [cplTake, h]

@[simp] theorem crew_beat (c : Nat) (s : State) : (beat c s).crew c = { s.crew c with hbFrom := s.hclkNs (galOf c) } :=
  State.crew_setCrew _ _ _

@[simp] theorem hclkNs_beat (c : Nat) (s : State) (g : Nat) : (beat c s).hclkNs g = s.hclkNs g := rfl

theorem waitNs_eq_zero {v : Dword} : waitNs v = 0 ↔ v.toNat = 0 := by
  rw [waitNs]; omega

theorem exec_cplGet {s : State} {c : Nat} (rd : Nat) (hruns : s.tallyRuns c = true) :
    exec (.cplGet c rd) s = .next (cplTake c rd s) := by
  change execCplGet c rd s = _
  rw [execCplGet, tally_of_runs _ hruns]

/-- A wait is a heartbeat first; with a record there, or of no time, it takes what there is. -/
theorem exec_cplWait {s : State} {c : Nat} (rd rs1 : Nat) (hruns : s.tallyRuns c = true) :
    exec (.cplWait c rd rs1) s = .next (
      if (s.crew c).cpl ≠ [] ∨ (tget s c rs1).toNat = 0 then cplTake c rd (beat c s)
      else (beat c s).setCrew c { (beat c s).crew c with
        wait := .cpl rd (s.hclkNs (galOf c) + min (tget s c rs1).toNat 16000) }) := by
  change execCplWait c rd rs1 s = _
  simp only [execCplWait, tally_of_runs _ hruns, waitNs_eq_zero, crew_beat, hclkNs_beat]
  rfl

theorem exec_cplWaitTimeout {s : State} {c rd dl : Nat} (hstate : (s.crew c).state = 4) (hruns : s.crewRuns c = true)
    (hwait : (s.crew c).wait = .cpl rd dl) (hnone : (s.crew c).cpl = []) (hdue : dl ≤ s.hclkNs (galOf c)) :
    exec (.cplWaitTimeout c) s = .next (waitEnds c rd 0 s) := by
  change execCplWaitTimeout c s = _
  simp only [execCplWaitTimeout, hwait, hstate, hruns, hnone, hdue, and_self, if_true]

/-! ### Transfers queued (R161, R165, R179) -/

theorem exec_xfer {s s' : State} {c rs1 : Nat} {bs : List Byte} (rd : Nat) (hruns : s.tallyRuns c = true)
    (ha : (tget s c rs1).toNat % 32 = 0) (hin : (tget s c rs1).toNat + 32 ≤ 0x20000)
    (hread : localRead (.tly c) (tget s c rs1).toNat 32 s = (s', some bs)) :
    exec (.xfer c rd rs1) s = .next (
      if 8 ≤ (s'.crew c).sendUse then tset c rd 0 s'
      else tset c rd 1 (s'.setCrew c { s'.crew c with
        sendUse := (s'.crew c).sendUse + 1, order := (s'.crew c).order + 1
        xferQ := (s'.crew c).xferQ ++ [{ words := redirectEnd s' c 7 4 (redirectEnd s' c 4 2 (wordsOf bs))
                                         order := (s'.crew c).order }] })) := by
  change execXfer c rd rs1 s = _
  simp only [execXfer, tally_of_runs _ hruns, withDescriptor_read ha hin hread]

/-! ### Notices (R171, R173, R405, R427) -/

/-- The step that a notice's operand registers announce: its crew, its time, its size and its duration (Table 6-2). -/
def noticeOf (s : State) (c : Nat) (v1 v2 : Dword) : Nat × Nat × Int × Nat :=
  (c, (s.tclk + BitVec.ofNat 64 v2.toNat).toNat, sext 10 (bits 9 0 v1.toNat), bits 31 16 v1.toNat)

/-- State `u` is state `s` with a step announced to gallery `g`: beside it, only the board's demand may have changed. -/
def Announced (g : Nat) (n : Nat × Nat × Int × Nat) (s u : State) : Prop :=
  ∃ pwr, u = { s.setGal g { s.gal g with notices := (s.gal g).notices ++ [n], forecast := (s.gal g).forecast ++ [n] } with
    pwr := pwr }

theorem Announced.gal {g : Nat} {n : Nat × Nat × Int × Nat} {s u : State} (h : Announced g n s u) :
    u.gal g = { s.gal g with notices := (s.gal g).notices ++ [n], forecast := (s.gal g).forecast ++ [n] } := by
  obtain ⟨pwr, rfl⟩ := h
  exact State.gal_setGal s g _

theorem Announced.crew {g : Nat} {n : Nat × Nat × Int × Nat} {s u : State} (h : Announced g n s u) (c : Nat) :
    u.crew c = s.crew c := by
  obtain ⟨pwr, rfl⟩ := h
  rfl

/-- A crew marked late by a notice with a short lead (R174). -/
def markLate (c lead : Nat) (s : State) : State :=
  if lead < 1500 then s.setCrew c { s.crew c with late := true } else s

@[simp] theorem gal_markLate (c lead : Nat) (s : State) (g : Nat) : (markLate c lead s).gal g = s.gal g := by
  unfold markLate; split <;> rfl

theorem crew_markLate_late (c lead : Nat) (s : State) :
    ((markLate c lead s).crew c).late = ((s.crew c).late || decide (lead < 1500)) := by
  unfold markLate; split <;> simp [*]

/-- A notice is announced to its crew's gallery, and one with a short lead marks the crew late. -/
theorem exec_notice {s : State} {c rs1 rs2 : Nat} (rd : Nat) (hruns : s.tallyRuns c = true)
    (hres : bits 15 10 (tget s c rs1).toNat = 0) (hhigh : bits 63 32 (tget s c rs1).toNat = 0)
    (hlead : bits 63 16 (tget s c rs2).toNat = 0) :
    ∃ u, Announced (galOf c) (noticeOf s c (tget s c rs1) (tget s c rs2)) s u
      ∧ exec (.notice c rd rs1 rs2) s = .next (tset c rd (s.tclk + BitVec.ofNat 64 (tget s c rs2).toNat)
        (markLate c (tget s c rs2).toNat u)) := by
  change ∃ u, _ ∧ execNotice c rd rs1 rs2 s = _
  simp only [execNotice, tally_of_runs _ hruns, hres, hhigh, hlead, ne_eq, not_true_eq_false, or_self, if_false]
  refine ⟨_, ?_, rfl⟩
  split
  · exact ⟨_, rfl⟩
  · exact ⟨s.pwr, rfl⟩

/-! ### Heartbeats (R170) -/

theorem exec_hbeat {s : State} {c : Nat} (rs1 : Nat) (hruns : s.tallyRuns c = true) :
    exec (.hbeat c rs1) s = .next (s.setCrew c { s.crew c with
      progress := bits 15 0 (tget s c rs1).toNat, hbFrom := s.hclkNs (galOf c) }) := by
  change execHbeat c rs1 s = _
  simp only [execHbeat, tally_of_runs _ hruns, beat, State.crew_setCrew, State.setCrew_setCrew]
  rfl

theorem exec_heartbeatExpired {s : State} {c : Nat} (hc : s.crewPresent c = true) (hstate : (s.crew c).state = 4)
    (hruns : s.crewRuns c = true) (hdue : (s.crew c).hbFrom + 20000 ≤ s.hclkNs (galOf c)) :
    exec (.heartbeatExpired c) s
      = .next (logEvent 0x08 c 0x0803 [(0, 2, c), (2, 2, (s.crew c).progress)] (fenceCrew c 3 s)) := by
  change execHeartbeatExpired c s = _
  simp only [execHeartbeatExpired, hc, hstate, hruns, hdue, and_self, if_true]

/-- Settles O13: each clause is the rule above of its instruction and outcome; a notice's is read off the state it announces. -/
theorem tallyRecords : Obligations.TallyRecords := by
  unfold Obligations.TallyRecords
  refine ⟨?_, ?_, ?_, ?_, ?_, ?_, ?_⟩
  · intro s c rd hruns
    rw [exec_cplGet rd hruns]
    exact ⟨fun hnone => by rw [cplTake_none rd hnone], fun r rest hcpl => by rw [cplTake_oldest rd hcpl]⟩
  · intro s c rd rs1 hruns
    rw [exec_cplWait rd rs1 hruns]
    refine ⟨fun r rest hcpl => ?_, fun hnone ht => ?_, fun hnone ht => ?_⟩
    · rw [if_pos (by simp [hcpl]), cplTake_oldest rd (r := r) (rest := rest) (by simpa using hcpl)]
    · rw [if_pos (.inr ht), cplTake_none rd (by simpa using hnone)]
    · rw [if_neg (by simp [hnone, ht])]
  · intro s c rd dl hstate hruns hwait hnone hdue
    exact exec_cplWaitTimeout hstate hruns hwait hnone hdue
  · intro s s' c rd rs1 bs hruns ha hin hread
    rw [exec_xfer rd hruns ha hin hread]
    exact ⟨fun hfull => by rw [if_pos hfull], fun hroom => by rw [if_neg (Nat.not_le.mpr hroom)]⟩
  · intro s c rd rs1 rs2 hruns a b n hres hhigh hlead
    obtain ⟨u, hu, hexec⟩ := exec_notice rd hruns hres hhigh hlead
    refine ⟨_, hexec, tget_tset _ _ _ _, ?_, ?_, ?_⟩
    · rw [gal_tset, gal_markLate, hu.gal]; rfl
    · rw [gal_tset, gal_markLate, hu.gal]; exact List.getLast?_concat
    · rw [tset_crew (f := Crew.late) fun _ _ => rfl, crew_markLate_late, hu.crew]
  · intro s c rs1 hruns
    exact exec_hbeat rs1 hruns
  · intro s c hc hstate hruns hdue
    exact exec_heartbeatExpired hc hstate hruns hdue

end Sys2Proof.Machine
end

section
/-! Arrivals and the tally's loads and stores (R157, R158, R161, R167 to R169, R183): one rule per instruction and outcome; then the
statement about them (O14). -/

namespace Sys2Proof.Machine

/-! ### Sends and their credits (R161) -/

theorem exec_arrSend {s : State} {c : Nat} (rd rs1 : Nat) (hruns : s.tallyRuns c = true) :
    exec (.arrSend c rd rs1) s = .next (queueSend c rd (tget s c rs1) false s) := by
  change execArrSend c rd rs1 s = _
  rw [execArrSend, tally_of_runs _ hruns]

theorem exec_arrPoison {s : State} {c : Nat} (rd rs1 : Nat) (hruns : s.tallyRuns c = true) :
    exec (.arrPoison c rd rs1) s = .next (queueSend c rd (tget s c rs1) true s) := by
  change execArrPoison c rd rs1 s = _
  rw [execArrPoison, tally_of_runs _ hruns]

theorem queueSend_full {s : State} {c : Nat} (rd : Nat) (addr : Dword) (poison : Bool) (h : 8 ≤ (s.crew c).sendUse) :
    queueSend c rd addr poison s = tset c rd 0 s :=
  if_pos h

theorem queueSend_room {s : State} {c : Nat} (rd : Nat) (addr : Dword) (poison : Bool) (h : (s.crew c).sendUse < 8) :
    queueSend c rd addr poison s = pumpSends c 16 (tset c rd 1 (s.setCrew c { s.crew c with
      sendUse := (s.crew c).sendUse + 1
      arrs := (s.crew c).arrs ++ [{ addr := addr, poison := poison, at_ := s.now, order := (s.crew c).order }] })) :=
  if_neg (Nat.not_le.mpr h)

theorem exec_arrSendTimeout {s : State} {c i : Nat} {a : ArrSend} (ha : (s.crew c).arrs[i]? = some a) (hsent : a.sent = true)
    (hown : a.xfer = none) (hdue : a.at_ + 1000000 ≤ s.now) :
    exec (.arrSendTimeout c i) s = .next (postRec c { tag := a.addr.toNat % 65536, status := .timeout, source := 7 }
      (forgetSend c a.addr (s.setCrew c { s.crew c with arrs := listDel (s.crew c).arrs i }))) := by
  change execArrSendTimeout c i s = _
  simp only [execArrSendTimeout, ha, hsent, hown, hdue, and_self, if_true]

theorem exec_arrivalApply {s : State} {i : Nat} {a : Arrival} (ha : s.arrQ[i]? = some a) :
    exec (.arrivalApply i) s = .next (arrivalApply a { s with arrQ := listDel s.arrQ i }) := by
  change execArrivalApply i s = _
  simp only [execArrivalApply, ha]

theorem exec_sendTablePoison {s : State} {c i : Nat} {a : Dword} (hat : (s.crew c).poisonAt = some i)
    (ha : (s.crew c).sends[i]? = some a) :
    exec (.sendTablePoison c) s = .next (slicePoison c a (s.setCrew c { s.crew c with poisonAt := some (i + 1) })) := by
  change execSendTablePoison c s = _
  simp only [execSendTablePoison, hat, ha]

/-! ### Counters (R167, R168, R183) -/

theorem exec_arrRead {s : State} {c : Nat} (rd rs1 : Nat) (hruns : s.tallyRuns c = true) :
    let n := (tget s c rs1).toNat % 16
    exec (.arrRead c rd rs1) s = .next (tset c rd (BitVec.ofNat 64 ((Tbl.look 0 (s.crew c).counts n).toNat
      + 2 ^ 32 * b2n ((s.crew c).dead.contains n))) s) := by
  change execArrRead c rd rs1 s = _
  simp only [execArrRead, tally_of_runs _ hruns]

theorem exec_arrClr {s : State} {c : Nat} (rs1 : Nat) (hruns : s.tallyRuns c = true) :
    exec (.arrClr c rs1) s = .next (counterSet c ((tget s c rs1).toNat % 16) 0 s) := by
  change execArrClr c rs1 s = _
  rw [execArrClr, tally_of_runs _ hruns]

theorem exec_arrCountWrite {s : State} {r : Requester} {c n : Nat} (v : Word) (hr : reachesRegs r = true)
    (hc : s.crewPresent c = true) (hn : n < 16) :
    exec (.arrCountWrite r c n v) s = .next (wakeArr c (counterSet c n v s)) :=
  congrArg Host.Outcome.next (if_pos ⟨hr, hc, hn⟩)

/-- arr.wait is a heartbeat, and then judges its counter (R168, R170). -/
theorem exec_arrWait {s : State} {c : Nat} (rd rs1 rs2 : Nat) (hruns : s.tallyRuns c = true) :
    let n := (tget s c rs1).toNat % 16
    let target : Word := BitVec.ofNat 32 (bits 63 32 (tget s c rs1).toNat)
    exec (.arrWait c rd rs1 rs2) s = .next (
      if (s.crew c).dead.contains n = true then tset c rd 7 (beat c s)
      else if arrReached (Tbl.look 0 (s.crew c).counts n) target = true then tset c rd 0 (beat c s)
      else if waitNs (tget s c rs2) = 0 then tset c rd 3 (beat c s)
      else (beat c s).setCrew c { (beat c s).crew c with
        wait := .arr n target rd (s.hclkNs (galOf c) + waitNs (tget s c rs2)) }) := by
  change execArrWait c rd rs1 rs2 s = _
  simp only [execArrWait, tally_of_runs _ hruns, crew_beat, hclkNs_beat]
  rfl

theorem exec_arrWaitTimeout {s : State} {c n rd dl : Nat} {target : Word} (hstate : (s.crew c).state = 4)
    (hruns : s.crewRuns c = true) (hwait : (s.crew c).wait = .arr n target rd dl) (hdue : dl ≤ s.hclkNs (galOf c)) :
    exec (.arrWaitTimeout c) s = .next (waitEnds c rd 3 s) := by
  change execArrWaitTimeout c s = _
  simp only [execArrWaitTimeout, hwait, hstate, hruns, hdue, and_self, if_true]
  rfl

theorem arrReached_of_lt {count target : Word} (h : (count - target).toNat < 2 ^ 31) : arrReached count target = true :=
  decide_eq_true h

theorem arrReached_of_le {count target : Word} (h : 2 ^ 31 ≤ (count - target).toNat) : arrReached count target = false :=
  decide_eq_false (Nat.not_lt.mpr h)

/-! ### Loads and stores (R157, R158) -/

/-- The sizes that a load or store has. -/
def accessSize (size : Nat) : Prop := size = 1 ∨ size = 2 ∨ size = 4 ∨ size = 8

theorem sext_eq_toInt_ofNat {n : Nat} (hn : 0 < n) (v : Nat) : sext n v = (BitVec.ofNat n v).toInt := by
  have hpow : 2 ^ n = 2 * 2 ^ (n - 1) := by rw [← Nat.pow_succ', Nat.succ_eq_add_one, Nat.sub_add_cancel hn]
  rw [sext, BitVec.toInt_eq_toNat_cond, BitVec.toNat_ofNat]
  split <;> split <;> omega

/-- A load extends its value by the sign of its highest byte, or with zeros. -/
theorem loadValue_eq {size : Nat} (h : 0 < size) (sg : Bool) (bs : List Byte) :
    loadValue sg size bs
      = if sg = true then (BitVec.ofNat (8 * size) (leNat bs)).signExtend 64 else BitVec.ofNat 64 (leNat bs) := by
  cases sg with
  | false => rfl
  | true => simp only [loadValue, if_true, BitVec.signExtend, sext_eq_toInt_ofNat (show 0 < 8 * size by omega)]

section Access

variable {s : State} {c size : Nat} {addr : Dword} (reg : Nat) (sg store : Bool) (hruns : s.tallyRuns c = true)
  (hsize : accessSize size)
include hruns hsize

/-- What an access does, by where its address lies; only one that a seam or a gallery holds back does nothing. -/
theorem exec_tallyDpaAccess : exec (.tallyDpaAccess c store addr size (reg, sg)) s = .next (
    if addr.toNat % size ≠ 0 then tallyTrap c (if store then 6 else 4) addr s
    else if addr.toNat + size ≤ 0x20000 then tallyOwn c store addr size reg sg s
    else if addr.toNat < 2 ^ 63 ∨ 2 ^ 63 + 2 ^ 48 ≤ addr.toNat then tallyTrap c (if store then 7 else 5) addr s
    else if spanHeld s (.crew c) (addr.toNat - 2 ^ 63) size then s
    else if store then tallyStore c reg size addr (addr.toNat - 2 ^ 63) s
    else tallyLoad c reg size sg addr (addr.toNat - 2 ^ 63) s) := by
  have hlisted : (!(size == 1 || size == 2 || size == 4 || size == 8)) = false := by
    obtain rfl | rfl | rfl | rfl := hsize <;> rfl
  change execTallyDpaAccess c store addr size (reg, sg) s = _
  simp only [execTallyDpaAccess, tally_of_runs _ hruns, hlisted, Bool.false_eq_true, if_false]
  rfl

theorem exec_tallyDpaAccess_misaligned (ha : addr.toNat % size ≠ 0) :
    exec (.tallyDpaAccess c store addr size (reg, sg)) s = .next (tallyTrap c (if store then 6 else 4) addr s) := by
  rw [exec_tallyDpaAccess reg sg store hruns hsize, if_pos ha]

/-- An aligned access below the end of tally memory is of that memory. -/
theorem exec_tallyDpaAccess_own (ha : addr.toNat % size = 0) (hin : addr.toNat + size ≤ 0x20000) :
    exec (.tallyDpaAccess c store addr size (reg, sg)) s = .next (tallyOwn c store addr size reg sg s) := by
  rw [exec_tallyDpaAccess reg sg store hruns hsize, if_neg (not_not_intro ha), if_pos hin]

/-- An aligned access in the range of the device addresses, of which no line waits, is of its device address. -/
theorem exec_tallyDpaAccess_dpa {dpa : Nat} (ha : addr.toNat % size = 0) (haddr : addr.toNat = 2 ^ 63 + dpa)
    (hdpa : dpa < 2 ^ 48) (hfree : spanHeld s (.crew c) dpa size = false) :
    exec (.tallyDpaAccess c store addr size (reg, sg)) s
      = .next (if store then tallyStore c reg size addr dpa s else tallyLoad c reg size sg addr dpa s) := by
  have hoff : addr.toNat - 2 ^ 63 = dpa := by omega
  rw [exec_tallyDpaAccess reg sg store hruns hsize, if_neg (not_not_intro ha), if_neg (by omega), if_neg (by omega), hoff,
    if_neg (by simp [hfree])]

end Access

theorem tallyOwn_load {s s' : State} {c size : Nat} {addr : Dword} {bs : List Byte} (reg : Nat) (sg : Bool)
    (hread : localRead (.tly c) addr.toNat size s = (s', some bs)) :
    tallyOwn c false addr size reg sg s = tset c reg (loadValue sg size bs) s' := by
  simp [tallyOwn, hread]

theorem tallyOwn_store {s s' : State} {c size reg : Nat} {addr : Dword} (sg : Bool)
    (hmode : 0x8000 ≤ addr.toNat ∨ (s.crew c).user = false)
    (hwrite : localWrite (.tly c) addr.toNat (leBytes size (tget s c reg).toNat) s = (s', true)) :
    tallyOwn c true addr size reg sg s = s' := by
  have hallowed : ¬ (addr.toNat < 0x8000 ∧ (s.crew c).user = true) := by
    rintro ⟨hlow, huser⟩
    exact hmode.elim (Nat.not_le.mpr hlow) (by simp [huser])
  simp [tallyOwn, hallowed, hwrite]

theorem tallyOwn_store_microcode {s : State} {c : Nat} {addr : Dword} (size reg : Nat) (sg : Bool) (hlow : addr.toNat < 0x8000)
    (huser : (s.crew c).user = true) : tallyOwn c true addr size reg sg s = tallyTrap c 7 addr s := by
  simp [tallyOwn, hlow, huser]

theorem tallyLoad_ok {s s' : State} {c size dpa : Nat} {bs : List Byte} (reg : Nat) (sg : Bool) (addr : Dword)
    (hread : dpaRead (.crew c) dpa size s = (s', bs, .ok)) :
    tallyLoad c reg size sg addr dpa s = tset c reg (loadValue sg size bs) s' := by
  simp only [tallyLoad, hread]

theorem tallyStore_seam {s s' : State} {c size reg dpa n off : Nat} (addr : Dword)
    (hwrite : dpaWrite (.crew c) dpa (leBytes size (tget s c reg).toNat) s = (s', .ok))
    (hseam : decodeDpa s (.crew c) dpa = .ok (.seam n off)) :
    tallyStore c reg size addr dpa s = s'.setCrew c { s'.crew c with wait := .merge addr } := by
  simp only [tallyStore, hwrite, hseam]

theorem tallyStore_elsewhere {s s' : State} {c size reg dpa : Nat} (addr : Dword)
    (hwrite : dpaWrite (.crew c) dpa (leBytes size (tget s c reg).toNat) s = (s', .ok))
    (helse : ∀ n off, decodeDpa s (.crew c) dpa ≠ .ok (.seam n off)) :
    tallyStore c reg size addr dpa s = s' := by
  simp only [tallyStore, hwrite]

/-- Settles O14: each clause is the rule above of its instruction and outcome. -/
theorem arrivals : Obligations.Arrivals := by
  unfold Obligations.Arrivals
  refine ⟨?_, ?_, ?_, ?_, ?_, ?_, ?_, ?_, ?_, ?_, ?_⟩
  · intro s c rd rs1 hruns hfull
    rw [exec_arrSend rd rs1 hruns, exec_arrPoison rd rs1 hruns, queueSend_full rd _ _ hfull, queueSend_full rd _ _ hfull]
    exact ⟨rfl, rfl⟩
  · intro s c rd rs1 hruns hroom t
    rw [exec_arrSend rd rs1 hruns, exec_arrPoison rd rs1 hruns, queueSend_room rd _ _ hroom, queueSend_room rd _ _ hroom]
    exact ⟨rfl, rfl⟩
  · intro s c rd rs1 hruns n
    exact exec_arrRead rd rs1 hruns
  · intro s c rd rs1 rs2 hruns n target count
    rw [exec_arrWait rd rs1 rs2 hruns]
    refine ⟨fun hdead => ?_, fun hlive hreached => ?_, fun hlive hshort ht => ?_, fun hlive hshort ht => ?_⟩
    · rw [if_pos hdead]
    · rw [if_neg (Bool.eq_false_iff.mp hlive), if_pos (arrReached_of_lt hreached)]
    · rw [if_neg (Bool.eq_false_iff.mp hlive), if_neg (Bool.eq_false_iff.mp (arrReached_of_le hshort)),
        if_pos (waitNs_eq_zero.mpr ht)]
    · rw [if_neg (Bool.eq_false_iff.mp hlive), if_neg (Bool.eq_false_iff.mp (arrReached_of_le hshort)),
        if_neg (mt waitNs_eq_zero.mp ht)]
      rfl
  · intro s c n rd dl target hstate hruns hwait hdue
    exact exec_arrWaitTimeout hstate hruns hwait hdue
  · intro s c rs1 hruns n
    exact exec_arrClr rs1 hruns
  · intro s c i a ha hsent hown hdue
    exact exec_arrSendTimeout ha hsent hown hdue
  · intro s i a ha
    exact exec_arrivalApply ha
  · intro s r c n v hr hc hn
    exact exec_arrCountWrite v hr hc hn
  · intro s c i a hat ha
    exact exec_sendTablePoison hat ha
  · intro s s' c reg size addr bs sg hruns hsize
    have hpos : 0 < size := by omega
    refine ⟨loadValue_eq hpos sg bs, fun ha => ⟨exec_tallyDpaAccess_misaligned reg sg false hruns hsize ha,
      exec_tallyDpaAccess_misaligned reg sg true hruns hsize ha⟩, fun ha hin hread => ?_, fun ha hmode hin hwrite => ?_,
      fun ha hlow huser => ?_, fun dpa ha haddr hdpa hfree => ⟨fun hread => ?_, fun n off hwrite hseam => ?_,
        fun hwrite helse => ?_⟩⟩
    · rw [exec_tallyDpaAccess_own reg sg false hruns hsize ha hin, tallyOwn_load reg sg hread]
    · rw [exec_tallyDpaAccess_own reg sg true hruns hsize ha hin, tallyOwn_store sg hmode hwrite]
    · rw [exec_tallyDpaAccess_own reg sg true hruns hsize ha (by omega), tallyOwn_store_microcode size reg sg hlow huser]
    · rw [exec_tallyDpaAccess_dpa reg sg false hruns hsize ha haddr hdpa hfree]
      exact congrArg Host.Outcome.next (tallyLoad_ok reg sg addr hread)
    · rw [exec_tallyDpaAccess_dpa reg sg true hruns hsize ha haddr hdpa hfree]
      exact congrArg Host.Outcome.next (tallyStore_seam addr hwrite hseam)
    · rw [exec_tallyDpaAccess_dpa reg sg true hruns hsize ha haddr hdpa hfree]
      exact congrArg Host.Outcome.next (tallyStore_elsewhere addr hwrite helse)

end Sys2Proof.Machine
end

section
/-! Crew programs (R169, R170, R175 to R181): an image read and judged, the tally's states, the takeover of a dead hewer's work and
the crew map; then the statement about them (O15). -/

namespace Sys2Proof.Machine

/-! ### Images (R175, R176) -/

theorem unlessHeld_of_waited {f : State → State} {s : State} (h : (f s).waited = true) : unlessHeld f s = s := if_pos h

theorem unlessHeld_of_not_waited {f : State → State} {s : State} (h : (f s).waited = false) : unlessHeld f s = f s :=
  if_neg (Bool.eq_false_iff.mp h)

theorem exec_imageLoaded {s : State} {c : Nat} (hc : s.crewPresent c = true) (hstate : (s.crew c).state = 2)
    (hruns : s.crewRuns c = true) (hpark : (s.gal (galOf c)).parked = false) :
    exec (.imageLoaded c) s = .next (unlessHeld (loadImage c) s) := by
  change execImageLoaded c s = _
  simp only [execImageLoaded, hc, hstate, hruns, hpark, and_self, if_true]

@[simp] theorem refuseImage_waited (c : Nat) (st : Status) (s : State) : (refuseImage c st s).waited = s.waited := rfl

theorem loadImage_misaligned {s : State} {c : Nat} (h : (s.crew c).img % 64 ≠ 0) :
    loadImage c s = refuseImage c .badDescriptor s := if_pos h

/-- An image whose header and body read well is placed when it meets R176, and refused when it does not. -/
theorem loadImage_read {s s' s'' : State} {c : Nat} {h img : List Byte} (ha : (s.crew c).img % 64 = 0)
    (hhead : readPieces (.crew c) (pieces (s.crew c).img 64) s = (s', h, .ok)) (hmagic : leAt h 0 4 = 0x50435A4B)
    (hmin : 64 ≤ leAt h 0x10 4) (hmax : leAt h 0x10 4 ≤ 0x1000000)
    (hbody : readPieces (.crew c) (pieces (s.crew c).img (leAt h 0x10 4)) s' = (s'', img, .ok)) :
    loadImage c s = if imgGood s'' c img then placeImage c img s'' else refuseImage c .badDescriptor s'' := by
  have hlen : ¬ (leAt h 0 4 ≠ 0x50435A4B ∨ 0x1000000 < leAt h 0x10 4 ∨ leAt h 0x10 4 < 64) := by omega
  simp only [loadImage, if_neg (not_not_intro ha), hhead, if_neg hlen, hbody, ne_eq, not_true_eq_false, if_false]

/-! ### The tally's states (R169, R170, R177) -/

section States

variable {s : State} {r : Requester} {c : Nat} (hr : reachesRegs r = true) (hc : s.crewPresent c = true)
include hr hc

theorem exec_tlyLoad (hstate : (s.crew c).state = 1 ∨ (s.crew c).state = 5) :
    exec (.tlyLoad r c) s = .next (s.setCrew c { s.crew c with state := 2, trap := false }) := by
  change execTlyLoad r c s = _
  obtain hstate | hstate := hstate <;> simp [execTlyLoad, loadTally, hr, hc, hstate]

theorem exec_tlyStart (hstate : (s.crew c).state = 3) :
    exec (.tlyStart r c) s = .next (s.setCrew c { s.crew c with
      state := 4, trap := false, cause := 0, wait := .none, user := true, hbFrom := s.hclkNs (galOf c) }) := by
  change execTlyStart r c s = _
  simp only [execTlyStart, startTally, hr, hc, hstate, beat, State.crew_setCrew, State.setCrew_setCrew, beq_self_eq_true,
    Bool.and_self, if_true]
  rfl

theorem exec_tlyStop (hstate : (s.crew c).state = 4) :
    exec (.tlyStop r c) s
      = .next (poisonStart c (s.setCrew c { s.crew c with state := 5, trap := false, wait := .none, user := false })) := by
  change execTlyStop r c s = _
  simp [execTlyStop, stopTally, hr, hc, hstate]

end States

theorem exec_tlyEcall {s : State} {c : Nat} (hruns : s.tallyRuns c = true) :
    exec (.tlyEcall c) s = .next (s.setCrew c { s.crew c with
      state := 5, trap := false, user := false, exit := (tget s c 10).toNat % 65536 }) := by
  change execTlyEcall c s = _
  rw [execTlyEcall, tally_of_runs _ hruns]

theorem exec_tlyTrap {s : State} {c : Nat} (cause : Nat) (tval : Dword) (hruns : s.tallyRuns c = true) :
    exec (.tlyTrap c cause tval) s = .next (tallyTrap c cause tval s) := by
  change execTlyTrap c cause tval s = _
  rw [execTlyTrap, tally_of_runs _ hruns]

/-! ### Takeovers (R179, R180) -/

theorem exec_buddyTakeover {s : State} {c d : Nat} (htake : (s.crew c).takeover = some d) (hruns : s.crewRuns c = true)
    (hcuts : (s.hewer c d).issued = []) (hloads : (s.hewer c d).loads = []) :
    exec (.buddyTakeover c) s = .next (takeOver c d s) := by
  change execBuddyTakeover c s = _
  simp only [execBuddyTakeover, htake, hruns, hcuts, hloads, and_self, if_true]

/-- A tile of an interrupted cut of the dead role is FULL in the skip queue or has been popped: the program may have used it. -/
def tilesUsed (s : State) (c d : Nat) : Bool :=
  (s.dresser c).skq.any (fun p => p.2.st == 2 && p.2.role == d && (interrupted (s.crew c) d).any (fun k => k.seq == p.2.seq))
    || (s.dresser c).popped.any (fun p => p.1 == d && (interrupted (s.crew c) d).any (fun k => k.seq == p.2))

/-- The interrupted cuts' tiles are dropped, the cuts pushed again, and the crew-mate serves the dead role from there on (R179). -/
def takenOver (c d : Nat) (cuts : List Cut) (s : State) : State :=
  let t := cuts.foldl (fun s k => pushAgain c d k s) (cuts.foldl (fun s k => dropTiles c d k.seq s) s)
  let y := ((t.crew c).absorbed.filter (fun r => r.source != d)).foldl (fun y r => freeCredit r y) (t.crew c)
  logTakeover c d 0 (t.setCrew c { y with buddy := true, deadRole := d, takeover := none, absorbed := [] })

section Takeover

variable {s : State} {c d : Nat} (hstate : (s.crew c).state = 4) (hfirst : (s.crew c).buddy = false)
  (hmate : (s.hewer c (1 - d)).fenceCause = 0)
include hstate hfirst hmate

theorem takeOver_refused (h : (s.crew c).buddyEn = false ∨ (s.crew c).buddyReady = false) :
    takeOver c d s = refuseTakeover c d 1 s := by
  simp [takeOver, hstate, hfirst, hmate, h]

theorem takeOver_done {s' : State} (hen : (s.crew c).buddyEn = true) (hready : (s.crew c).buddyReady = true)
    (hunused : tilesUsed s c d = false) (hcopy : copyBlocks c d (List.range 1024) s = (s', true)) :
    takeOver c d s = takenOver c d (interrupted (s.crew c) d) s' := by
  have husedNot := Bool.eq_false_iff.mp hunused
  rw [tilesUsed] at husedNot
  simp only [takeOver, hstate, hfirst, hmate, hen, hready, if_neg husedNot, hcopy, ne_eq, not_true_eq_false, Bool.false_eq_true,
    Bool.true_eq_false, or_self, if_false, takenOver]

end Takeover

/-! ### The crew map (R181) -/

theorem exec_crewMapWrite {s : State} {r : Requester} {n : Nat} (v : Word) (hr : reachesRegs r = true) (hn : n < 128) :
    exec (.crewMapWrite r n v) s = .next (crewMapPut r n v s) :=
  congrArg Host.Outcome.next (if_pos ⟨hr, hn⟩)

/-- Another valid entry of the crew map names the physical crew of a valid entry to be stored. -/
def crewTaken (s : State) (n : Nat) (v : Word) : Bool :=
  bit 7 v.toNat && (List.range 128).any (fun k => k != n && Tbl.look (0, false) s.crewMap k == (bits 6 0 v.toNat, true))

theorem crewTaken_iff (s : State) (n : Nat) (v : Word) :
    crewTaken s n v = true
      ↔ bit 7 v.toNat = true ∧ ∃ k < 128, k ≠ n ∧ Tbl.look (0, false) s.crewMap k = (bits 6 0 v.toNat, true) := by
  simp [crewTaken]

theorem crewMapPut_eq (r : Requester) (n : Nat) (v : Word) (s : State) :
    crewMapPut r n v s = if crewTaken s n v then logIgnored 0x0C 0 r (0x03500400 + 4 * n) 4 s
      else { s with crewMap := Tbl.put s.crewMap n (bits 6 0 v.toNat, bit 7 v.toNat) } := rfl

/-! ### The statement -/

/-- Settles O15: each clause is the rule above of its command and outcome. -/
theorem programs : Obligations.Programs := by
  unfold Obligations.Programs
  refine ⟨?_, ?_, ?_, ?_, ?_, ?_, ?_, ?_⟩
  · intro s r c hr hc hstate
    exact exec_tlyLoad hr hc hstate
  · intro s s' c h img hc hstate hruns hpark
    rw [exec_imageLoaded hc hstate hruns hpark]
    refine ⟨fun ha hw => ?_, fun ha hhead hmagic hmin hmax s'' hbody => ?_⟩
    · have hload := loadImage_misaligned ha
      rw [unlessHeld_of_not_waited (by rw [hload]; exact hw), hload]
      rfl
    · have hload := loadImage_read ha hhead hmagic hmin hmax hbody
      refine ⟨fun hgood => ?_, fun hbad hw => ?_⟩
      · rw [if_pos hgood] at hload
        exact ⟨fun hw => by rw [unlessHeld_of_not_waited (by rw [hload]; exact hw), hload],
          fun hw => by rw [unlessHeld_of_waited (by rw [hload]; exact hw)]⟩
      · rw [if_neg (Bool.eq_false_iff.mp hbad)] at hload
        rw [unlessHeld_of_not_waited (by rw [hload]; exact hw), hload]
        rfl
  · intro s r c hr hc hstate
    exact exec_tlyStart hr hc hstate
  · intro s r c hr hc hstate
    exact exec_tlyStop hr hc hstate
  · intro s c hruns
    exact exec_tlyEcall hruns
  · intro s c cause tval hruns
    exact exec_tlyTrap cause tval hruns
  · intro s s' c d htake hruns hstate hcuts hloads hfirst hmate
    rw [exec_buddyTakeover htake hruns hcuts hloads]
    refine ⟨fun h => by rw [takeOver_refused hstate hfirst hmate h], fun hen hready hfull hpopped hcopy => ?_⟩
    have hunused : tilesUsed s c d = false := Bool.or_eq_false_iff.mpr ⟨hfull, hpopped⟩
    exact congrArg Host.Outcome.next (takeOver_done hstate hfirst hmate hen hready hunused hcopy)
  · intro s r n v hr hn
    rw [exec_crewMapWrite v hr hn, crewMapPut_eq]
    refine ⟨fun hfree => ?_, fun hvalid htaken => ?_⟩
    · rw [if_neg]
      rw [crewTaken_iff]
      rintro ⟨hvalid, k, hk, hne, hsame⟩
      exact hfree.elim (fun hinvalid => Bool.eq_false_iff.mp hinvalid hvalid) (fun hother => hother k hk hne hsame)
    · rw [if_pos ((crewTaken_iff s n v).mpr ⟨hvalid, htaken⟩)]

end Sys2Proof.Machine
end

section
/-! Crew transfers, the grants of a seam's ports and the merges of narrow writes (R53 to R55, R162 to R166, R207, R374, R375): one
rule per event and outcome; then the statement about them (O16). -/

namespace Sys2Proof.Machine

/-! ### A transfer starts (R162 to R164) -/

section Start

variable {s : State} {c : Nat} {x : Xfer} {rest : List Xfer} (hq : (s.crew c).xferQ = x :: rest)
  (hc : s.crewPresent c = true) (hruns : s.crewRuns c = true)
  (hroom : ((s.crew c).xferRun.filter (fun y => !y.arrSent)).length < 4)
include hq hc hruns hroom

theorem exec_xferStart_refused (hbad : xferBad s c x = true) :
    exec (.xferStart c) s = .next (pumpSends c 16 (applyRels c (postRec c { tag := xTag x, status := .badDescriptor, source := 3 }
      (s.setCrew c { s.crew c with xferQ := rest })))) := by
  change execXferStart c s = _
  simp only [execXferStart, hq, hc, hruns, hroom, hbad, and_self, if_true]

theorem exec_xferStart_launched (hgood : xferBad s c x = false) (hsrc : sourceFree s c x = true)
    (hfull : xferEmpty s c x = false) (hdst : xWrites s c x = [] ∨ nextFree s c x = true)
    (hremote : xRemote s x = true → spaceHeld s c (xSrc x) (xSrcAddr x) (xLen x) none = false) :
    exec (.xferStart c) s = .next (launchXfer c x (s.setCrew c { s.crew c with xferQ := rest })) := by
  have horder : ¬ (xWrites s c x ≠ [] ∧ nextFree s c x = false) := by
    rintro ⟨hne, hbusy⟩
    exact hdst.elim hne (Bool.eq_false_iff.mp hbusy)
  have hheld : ¬ (xRemote s x = true ∧ spaceHeld s c (xSrc x) (xSrcAddr x) (xLen x) none = true) := by
    rintro ⟨hr, hh⟩
    exact Bool.eq_false_iff.mp (hremote hr) hh
  change execXferStart c s = _
  simp only [execXferStart, hq, hc, hruns, hroom, hgood, hsrc, hfull, if_neg horder, if_neg hheld, and_self, if_true,
    Bool.not_true, Bool.false_eq_true, if_false]

end Start

/-! ### A block of a transfer (R104, R164, R165) -/

theorem State.hewer_setHewer_other (s : State) {c role role' : Nat} (x : Hewer) (h : role' ≠ role) :
    (s.setHewer c role x).hewer c role' = s.hewer c role' :=
  Tbl.look_put_other _ _ _ (by omega)

theorem blockSt_setBlocks_same (s : State) (c role b st : Nat) : blockSt (setBlocks c role [b] st s) c role b = st := by
  simp [blockSt, setBlocks]

theorem blockSt_setBlocks_other (s : State) (c st : Nat) {p q : Nat × Nat} (h : q ≠ p) :
    blockSt (setBlocks c p.1 [p.2] st s) c q.1 q.2 = blockSt s c q.1 q.2 := by
  by_cases hrole : q.1 = p.1
  · have hb : q.2 ≠ p.2 := fun hb => h (Prod.ext hrole hb)
    simp [blockSt, setBlocks, hrole, Tbl.look_put_other _ _ _ hb]
  · rw [blockSt, setBlocks, State.hewer_setHewer_other _ _ hrole, blockSt]

/-- Filling the next block leaves every other block of the crew as it is. -/
theorem blockSt_fillNext {s : State} {c : Nat} {x : Xfer} {q : Nat × Nat} (h : nextBlock c x ≠ some q) :
    blockSt (fillNext c x s) c q.1 q.2 = blockSt s c q.1 q.2 := by
  unfold fillNext
  split
  · next p hp =>
    split
    · exact blockSt_setBlocks_other s c 1 (fun hqp => h (hqp ▸ hp))
    · rfl
  · rfl

/-- The transfer after its next block's lines have moved, `y` their outcome: a block of which a line failed is remembered. -/
def blockMoved (x y : Xfer) (b : Nat × Nat) : Xfer :=
  { keepFail x y with
    done := x.done + blockRest x, failed := if y.badAt.isNone then x.failed else x.failed ++ [b] }

theorem exec_xferBlockDone {s s' : State} {c i : Nat} {x x' : Xfer} {b : Nat × Nat}
    {transit : List (Nat × List (Nat × Byte))} (hx : (s.crew c).xferRun[i]? = some x) (hc : s.crewPresent c = true)
    (hruns : s.crewRuns c = true) (hw : xWrites s c x ≠ []) (hrest : blockRest x ≠ 0) (hfree : nextFree s c x = true)
    (hheld : rangeHeld s c x x.done (blockRest x) = false) (hshaft : shaftClear s c x (x.done + blockRest x) = true)
    (hmove : moveLines c transit (blockRest x / 64) 0 x.done { x with badAt := none, status := .ok }
      (xferTurn c x x.done (blockRest x) s) = (s', x')) (hb : nextBlock c x = some b) :
    exec (.xferBlockDone c (i, transit)) s = .next (fillNext c (blockMoved x x' b)
      (setBlocks c b.1 [b.2] (if x'.badAt.isNone then 2 else 1) (setXfer c i (blockMoved x x' b) s'))) := by
  have hready : s.crewPresent c = true ∧ s.crewRuns c = true ∧ xWrites s c x ≠ [] ∧ blockRest x ≠ 0 ∧ nextFree s c x = true
      ∧ rangeHeld s c x x.done (blockRest x) = false ∧ shaftClear s c x (x.done + blockRest x) = true :=
    ⟨hc, hruns, hw, hrest, hfree, hheld, hshaft⟩
  change execXferBlockDone c (i, transit) s = _
  simp only [execXferBlockDone, hx, if_pos hready, hmove, hb, Option.toList_some, List.foldl_cons, List.foldl_nil, blockMoved]

/-! ### A transfer ends (R165) -/

theorem exec_xferComplete {s : State} {c i : Nat} {x : Xfer} (transit : List (Nat × List (Nat × Byte)))
    (hx : (s.crew c).xferRun[i]? = some x) (hc : s.crewPresent c = true) (hruns : s.crewRuns c = true)
    (harr : x.arrSent = false) (hsent : x.sent = false) (hw : xWrites s c x ≠ []) (hdone : x.done = xLen x) :
    exec (.xferComplete c (i, transit)) s = .next (endXfer c i x s) := by
  change execXferComplete c (i, transit) s = _
  simp only [execXferComplete, hx, hc, hruns, harr, hsent, hw, hdone, and_self, if_true, Bool.false_eq_true, if_false, ne_eq,
    not_false_eq_true]

/-! ### Grants of a seam's ports (R53 to R55) -/

theorem exec_seamGrant (n : Nat) (s : State) : exec (.seamGrant n) s = .next (serveHeld (seamGrant n (serveHeld s))) := rfl

section Grants

variable {s : State} {n : Nat} {a b : Nat × SeamReq} (hn : s.seamPresent n = true)
include hn

theorem seamGrant_shaft_alone (ha : oldestOf s n true = some a) (hb : oldestOf s n false = none) :
    seamGrant n s = grantReq n a.1 a.2 false s := by
  simp only [seamGrant, hn, if_true, ha, hb]

theorem seamGrant_face_alone (ha : oldestOf s n true = none) (hb : oldestOf s n false = some b) :
    seamGrant n s = grantReq n b.1 b.2 false s := by
  simp only [seamGrant, hn, if_true, ha, hb]

/-- With a request of each port, the port that the mode prefers is granted, unless the other's is overdue (R54, R55). -/
theorem seamGrant_both (ha : oldestOf s n true = some a) (hb : oldestOf s n false = some b) :
    seamGrant n s =
      if shaftWins s n then if overdue s b.2 a.2 then grantReq n b.1 b.2 true s else grantReq n a.1 a.2 false s
      else if overdue s a.2 b.2 then grantReq n a.1 a.2 true s else grantReq n b.1 b.2 false s := by
  simp only [seamGrant, hn, if_true, ha, hb]
  cases shaftWins s n <;> rfl

theorem guardGrant_overdue {shaft : Bool} (ha : oldestOf s n shaft = some a) (hb : oldestOf s n (!shaft) = some b)
    (hover : overdue s a.2 b.2 = true) : guardGrant n shaft s = grantReq n a.1 a.2 true s := by
  simp only [guardGrant, hn, ha, hb, hover, if_true]

end Grants

theorem exec_seamGuardExpiry (n : Nat) (shaft : Bool) (s : State) :
    exec (.seamGuardExpiry n shaft) s = .next (serveHeld (guardGrant n shaft s)) := rfl

/-! ### Merges of narrow writes (R207, R374, R375) -/

theorem exec_mergeDone (col : Nat) (face : Bool) (s : State) :
    exec (.mergeDone col face) s = .next (serveHeld (mergeDone col face s)) := rfl

section Merges

variable {s : State} {col : Nat} {m : Merge} {rest : List Merge} (hawake : (s.seam m.seam).selfRefresh = false)
include hawake

theorem mergeDone_host (h : (s.mergeCol col).host = m :: rest) :
    mergeDone col false s
      = hostRefill col 64 (doMerge m (s.setMergeCol col { s.mergeCol col with host := rest })).1 := by
  simp [mergeDone, h, List.findIdx?_cons, hawake, listDel]

theorem mergeDone_face (h : (s.mergeCol col).face = m :: rest) :
    mergeDone col true s = faceRefill col (faceMerge m (s.setMergeCol col { s.mergeCol col with face := rest })) := by
  simp [mergeDone, h, List.findIdx?_cons, hawake, listDel]

end Merges

/-! ### The statement -/

/-- Settles O16: each clause is the rule above of its event and outcome; a block written keeps its state unless it is the next to
fill. -/
theorem transfersAndSeams : Obligations.TransfersAndSeams := by
  unfold Obligations.TransfersAndSeams
  refine ⟨?_, ?_, ?_, ?_, ?_, ?_⟩
  · intro s c x rest hq hc hruns hroom s'
    exact ⟨exec_xferStart_refused hq hc hruns hroom, exec_xferStart_launched hq hc hruns hroom⟩
  · intro s s' c i x x' hx hc hruns hw hrest hfree hheld hshaft transit hmove b hb good y
    refine ⟨_, exec_xferBlockDone hx hc hruns hw hrest hfree hheld hshaft hmove hb, rfl, fun hother => ?_⟩
    exact (blockSt_fillNext hother).trans (blockSt_setBlocks_same _ c b.1 b.2 _)
  · intro s c i x hx hc hruns harr hsent hw hdone transit
    exact exec_xferComplete transit hx hc hruns harr hsent hw hdone
  · intro s₀ n a s hn
    rw [exec_seamGrant]
    refine ⟨fun ha hb => ?_, fun ha hb => ?_, fun b ha hb hover hwin => ?_, fun b ha hb hover hwin => ?_,
      fun b ha hb hover hwin => ?_, fun b ha hb hover hwin => ?_⟩
    · rw [seamGrant_shaft_alone hn ha hb]
    · rw [seamGrant_face_alone hn ha hb]
    all_goals simp only [s, seamGrant_both hn ha hb, hwin, hover, if_true, Bool.false_eq_true, if_false]
  · intro s n shaft a b hn ha hb hover
    rw [exec_seamGuardExpiry, guardGrant_overdue hn ha hb hover]
  · intro s col m rest hawake
    exact ⟨fun h => by rw [exec_mergeDone, mergeDone_host hawake h], fun h => by rw [exec_mergeDone, mergeDone_face hawake h]⟩

end Sys2Proof.Machine
end

section
/-! The face units' instructions (R192 to R199): what follows the fetch of a well-formed word, and what a row result leaves; then the
statement about their arithmetic (O23). -/

namespace Sys2Proof.Machine

/-! ### The fetch (R192, R198) -/

section Fetch

variable {s s' : State} {n op : Nat} {w : InstrWord} (ha : Safety.FaceAt s s' n op w) (f : State → State)
include ha

/-- An instruction that waits for every stroke acts on the state after its fetch. -/
theorem faceStep_at (hs : (s.face n).strokes = []) : faceStep n op false w f s = .next (f s') := by
  obtain ⟨hruns, hrunning, hgoing, hword, hop, hlisted, hunused, hvalues, hread, hfetch⟩ := ha
  simp [faceStep, hruns, hrunning, hgoing, hword, hop, hlisted, hunused, hvalues, hread, hfetch, hs]

/-- A stroke instruction goes beside one stroke in flight (R201). -/
theorem faceStep_beside (hs : (s.face n).strokes.length < 2) : faceStep n op true w f s = .next (f s') := by
  obtain ⟨hruns, hrunning, hgoing, hword, hop, hlisted, hunused, hvalues, hread, hfetch⟩ := ha
  simp [faceStep, hruns, hrunning, hgoing, hword, hop, hlisted, hunused, hvalues, hread, hfetch, hs]

end Fetch

/-! ### A row result, and the next place (R85, R196, R382) -/

@[simp] theorem faceNext_face (n : Nat) (s : State) :
    (faceNext n s).face n = { s.face n with pc := ((s.face n).pc + 1) % 256 } := State.face_setFace _ _ _

@[simp] theorem faceNext_bufMem (n : Nat) (s : State) : (faceNext n s).bufMem = s.bufMem := rfl

@[simp] theorem faceNext_seamMem (n : Nat) (s : State) : (faceNext n s).seamMem = s.seamMem := rfl

@[simp] theorem faceWrite_face (n : Nat) (w : InstrWord) (r : RowRes) (s : State) :
    (faceWrite n w r s).face n = { s.face n with
      rows := Tbl.put (s.face n).rows (fVd w) r.row, codes := Tbl.put (s.face n).codes (fVd w) (r.row.m.map mod3)
      sat := (s.face n).sat || r.sat, inv := (s.face n).inv || r.inv } := State.face_setFace _ _ _

@[simp] theorem faceWrite_bufMem (n : Nat) (w : InstrWord) (r : RowRes) (s : State) : (faceWrite n w r s).bufMem = s.bufMem := rfl

@[simp] theorem faceWrite_seamMem (n : Nat) (w : InstrWord) (r : RowRes) (s : State) : (faceWrite n w r s).seamMem = s.seamMem := rfl

/-- Face unit `n`'s count of retries is `k` (R199). -/
def setRetries (n k : Nat) (s : State) : State := s.setFace n { s.face n with retries := k }

@[simp] theorem setRetries_face (n k : Nat) (s : State) : (setRetries n k s).face n = { s.face n with retries := k } :=
  State.face_setFace _ _ _

@[simp] theorem setRetries_bufMem (n k : Nat) (s : State) : (setRetries n k s).bufMem = s.bufMem := rfl

@[simp] theorem setRetries_seamMem (n k : Nat) (s : State) : (setRetries n k s).seamMem = s.seamMem := rfl

/-- A row whose codes are its lanes' residues is good (R199). -/
theorem rowGood_of_codes {x : Face} {i : Nat} (h : Tbl.look [] x.codes i = (vget x i).m.map mod3) : rowGood x i = true := by
  rw [rowGood, h, lanesBad_map_mod3, Bool.not_false]

/-- A row written, whatever the count of retries, and the next place. -/
theorem faceResult_of_write (n k : Nat) (w : InstrWord) (r : RowRes) (s : State) :
    Safety.FaceResult s (faceNext n (faceWrite n w r (setRetries n k s))) n w r where
  row := by simp [vget]
  codes := rowGood_of_codes (by simp [vget])
  rows i hi := by simp [vget, Tbl.look_put_other _ _ _ hi]
  saturated := by simp
  invalid := by simp
  index := by simp
  place := by simp
  buffers := by simp
  seams := by simp

/-! ### Residue verdicts (R199, R383) -/

section Verdict

variable {s : State} {n mm : Nat} {w : InstrWord} (r : RowRes) (hen : s.chr.residueEn = true)
include hen

/-- A result that passes its check, at once or on the one retry, is written. -/
theorem faceChecked_passes (hmm : mm ≤ 1) (hl : faceLaneFaults (s.face n) w = 0) :
    ∃ k, faceChecked n w mm r s = faceNext n (faceWrite n w r (setRetries n k s)) := by
  obtain rfl | rfl : mm = 0 ∨ mm = 1 := by omega
  · refine ⟨(s.face n).retries, ?_⟩
    simp only [faceChecked, hl, faceWrite, setRetries, State.setFace_setFace, State.face_setFace]
    rfl
  · refine ⟨satInc 0xFFFF (s.face n).retries, ?_⟩
    simp only [faceChecked, hl, Nat.add_zero, residue_one hen, setRetries]

theorem faceChecked_result (hmm : mm ≤ 1) (hl : faceLaneFaults (s.face n) w = 0) :
    Safety.FaceResult s (faceChecked n w mm r s) n w r := by
  obtain ⟨k, h⟩ := faceChecked_passes r hen hmm hl
  rw [h]
  exact faceResult_of_write n k w r s

theorem faceChecked_fault (hmm : 2 ≤ mm + faceLaneFaults (s.face n) w) :
    faceChecked n w mm r s = faceFence n .unitFault (s.setFace n { s.face n with faultOp := bits 7 0 w.toNat }) := by
  simp only [faceChecked, residue_fault hen hmm]

end Verdict

/-! ### The arithmetic pipe (R196) -/

theorem faceArith_at {s s' : State} {n op : Nat} {w : InstrWord} (ha : Safety.FaceAt s s' n op w)
    (hs : (s.face n).strokes = []) (mm : Nat) (g : Face → RowRes) :
    faceArith n op w mm g s = .next (faceChecked n w mm (g (s'.face n)) s') :=
  faceStep_at ha _ hs

/-- A command that is the pipe with row `g`, on a result that passes its check. -/
theorem exec_faceArith_result {i : Instr} {s s' : State} {n op mm : Nat} {w : InstrWord} {g : Face → RowRes}
    (hi : exec i s = faceArith n op w mm g s) (hmm : mm ≤ 1) (hen : s'.chr.residueEn = true)
    (hs : (s.face n).strokes = []) (hl : faceLaneFaults (s'.face n) w = 0) (ha : Safety.FaceAt s s' n op w) :
    ∃ t, exec i s = .next t ∧ Safety.FaceResult s' t n w (g (s'.face n)) :=
  ⟨_, hi.trans (faceArith_at ha hs mm g), faceChecked_result _ hen hmm hl⟩

section Commands

variable (n : Nat) (w : InstrWord) (mm : Nat) (s : State)

theorem exec_faceAdd : exec (.faceAdd n w mm) s = faceArith n 0x10 w mm (fun x => bfxAdd (vA x w) (vB x w)) s := rfl

theorem exec_faceSub : exec (.faceSub n w mm) s = faceArith n 0x11 w mm (fun x => bfxSub (vA x w) (vB x w)) s := rfl

theorem exec_faceMul : exec (.faceMul n w mm) s = faceArith n 0x12 w mm (fun x => bfxMul (vA x w) (vB x w)) s := rfl

theorem exec_faceMad : exec (.faceMad n w mm) s
    = faceArith n 0x13 w mm (fun x => bfxMad (vA x w) (vB x w) (vC x w)) s := rfl

theorem exec_faceMax : exec (.faceMax n w mm) s = faceArith n 0x14 w mm (fun x => bfxMax (vA x w) (vB x w)) s := rfl

theorem exec_faceMin : exec (.faceMin n w mm) s = faceArith n 0x15 w mm (fun x => bfxMin (vA x w) (vB x w)) s := rfl

theorem exec_faceIns : exec (.faceIns n w mm) s
    = faceArith n 0x18 w mm (fun x => bfxIns (fImm w) (vD x w) (vA x w)) s := rfl

theorem exec_faceEadd : exec (.faceEadd n w mm) s
    = faceArith n 0x31 w mm (fun x => bfxEadd (sext 32 (fImm w)) (vA x w)) s := rfl

theorem exec_faceNorm : exec (.faceNorm n w mm) s = faceArith n 0x32 w mm (fun x => bfxNorm (fImm w) (vA x w)) s := rfl

theorem exec_faceRmax : exec (.faceRmax n w mm) s = faceArith n 0x34 w mm (fun x => bfxRmax (vA x w)) s := rfl

theorem exec_faceRsum : exec (.faceRsum n w mm) s = faceArith n 0x35 w mm (fun x => bfxRsum (fImm w) (vA x w)) s := rfl

theorem exec_faceDot : exec (.faceDot n w mm) s
    = faceArith n 0x36 w mm (fun x => bfxDot (fImm w) (fNx w) (vA x w) (vB x w)) s := rfl

theorem exec_faceFn : exec (.faceFn n w mm) s = faceArith n 0x40 w mm (fun x => bfxFn (fSub w) (vA x w)) s := rfl

end Commands

/-- Settles O23: each of the thirteen commands is the pipe with its opcode's row. (The obligation's own name is the model's pipe.) -/
theorem faceArith_results : Obligations.FaceArith := by
  unfold Obligations.FaceArith
  intro s s' n mm w hmm hen hs x hl
  have result {i : Instr} {op : Nat} {g : Face → RowRes} (hi : exec i s = faceArith n op w mm g s) :=
    exec_faceArith_result hi hmm hen hs hl
  exact ⟨result (exec_faceAdd n w mm s), result (exec_faceSub n w mm s), result (exec_faceMul n w mm s),
    result (exec_faceMad n w mm s), result (exec_faceMax n w mm s), result (exec_faceMin n w mm s),
    result (exec_faceIns n w mm s), result (exec_faceEadd n w mm s), result (exec_faceNorm n w mm s),
    result (exec_faceRmax n w mm s), result (exec_faceRsum n w mm s), result (exec_faceDot n w mm s),
    result (exec_faceFn n w mm s)⟩

end Sys2Proof.Machine
end

section
/-! The face units' row moves, index registers and program ends (R192 to R199): what each instruction leaves once its word is
fetched; then the statement about them (O24). -/

namespace Sys2Proof.Machine

/-! ### Row loads and stores (R195, R197) -/

/-- An instruction that reads no row register meets no corrupted lane (R199). -/
theorem faceLaneFaults_of_load {w : InstrWord} (x : Face) (h : bits 7 0 w.toNat = 0x08 ∨ bits 7 0 w.toNat = 0x0A) :
    faceLaneFaults x w = 0 := by
  rcases h with h | h <;> simp [faceLaneFaults, h, fUsesA, fUsesB]

section Moves

variable {s s₁ s' : State} {n : Nat} {w : InstrWord} (hs : (s.face n).strokes = [])
include hs

theorem exec_faceLdr {ps : List (Nat × Nat)} {bs : List (List Byte)} (mm : Nat) (ha : Safety.FaceAt s s₁ n 0x08 w)
    (hps : ldParts (fSub w) (ldPlace (s₁.face n) w).1 (ldPlace (s₁.face n) w).2 = some ps)
    (hbs : bufReads n ps s₁ = (s', some bs)) :
    exec (.faceLdr n w mm) s
      = .next (faceChecked n w mm (normRes (bits 21 18 (fImm w)) (ldRow (fSub w) bs)) s') := by
  change execFaceLdr n w mm s = _
  rw [execFaceLdr, faceStep_at ha _ hs]
  simp only [hps, hbs]

theorem exec_faceLdb {s₂ : State} {e : List Byte} {ms : List Int} (mm : Nat) (ha : Safety.FaceAt s s₁ n 0x0A w)
    (hfits : fImm w + 129 ≤ 1024) (he : localRead (.buf n) (64 * (fImm w + 128)) 1 s₁ = (s₂, some e))
    (hms : biasLanes n (fImm w) ((List.range 32).map (biasIndex (xget (s₂.face n) (fXs w)))) s₂ = (s', some ms)) :
    exec (.faceLdb n w mm) s = .next (faceChecked n w mm { row := { e := leNat e, m := ms } } s') := by
  change execFaceLdb n w mm s = _
  rw [execFaceLdb, faceStep_at ha _ hs]
  simp only [if_neg (Nat.not_lt.2 hfits), he, hms]

theorem exec_faceStr {ps : List (Nat × Nat)} (ha : Safety.FaceAt s s₁ n 0x09 w)
    (hps : ldParts (fSub w) (ldPlace (s₁.face n) w).1 (ldPlace (s₁.face n) w).2 = some ps)
    (hput : bufWrites n (List.zip (ps.map (·.1)) (stBytes (fSub w) (vA (s₁.face n) w)).1) s₁ = (s', true)) :
    exec (.faceStr n w) s = .next (faceNext n (s'.setFace n { s'.face n with
      sat := (s'.face n).sat || (stBytes (fSub w) (vA (s₁.face n) w)).2 })) := by
  change execFaceStr n w s = _
  rw [execFaceStr, faceStep_at ha _ hs]
  simp only [hps, hput, if_true]

end Moves

/-! ### Index registers (R194, Table 7-1) -/

theorem xput_zero (v : Int) (x : Face) : xput 0 v x = x := if_pos rfl

theorem xput_of_ne {i : Nat} (h : i ≠ 0) (v : Int) (x : Face) :
    xput i v x = { x with xs := Tbl.put x.xs i (sext 32 (tc 32 v)) } := if_neg h

theorem xget_xput {i : Nat} (h : i ≠ 0) (v : Int) (x : Face) : xget (xput i v x) i = sext 32 (tc 32 v) := by
  simp [xget, xput_of_ne h, h]

@[simp] theorem xput_rows (i : Nat) (v : Int) (x : Face) : (xput i v x).rows = x.rows := by
  unfold xput; split <;> rfl

@[simp] theorem xput_pc (i : Nat) (v : Int) (x : Face) : (xput i v x).pc = x.pc := by
  unfold xput; split <;> rfl

section Index

variable {s₀ s : State} {n : Nat} {w : InstrWord} (hs : (s₀.face n).strokes = [])
include hs

theorem exec_faceXadd (ha : Safety.FaceAt s₀ s n 0x50 w) :
    exec (.faceXadd n w) s₀
      = .next (faceNext n (s.setFace n (xput (fXs w) (xget (s.face n) (fXs w) + sext 32 (fImm w)) (s.face n)))) := by
  change execFaceXadd n w s₀ = _
  rw [execFaceXadd, faceStep_at ha _ hs]

/-- LOOP leaves the count in its index register, and goes to the immediate unless the count is 0. -/
theorem exec_faceLoop (ha : Safety.FaceAt s₀ s n 0x51 w) {v : Int} (hv : v = sext 32 (tc 32 (xget (s.face n) (fXs w) - 1))) :
    exec (.faceLoop n w) s₀ = .next (s.setFace n { xput (fXs w) v (s.face n) with
      pc := if v = 0 then ((s.face n).pc + 1) % 256 else fImm w }) := by
  change execFaceLoop n w s₀ = _
  rw [execFaceLoop, faceStep_at ha _ hs]
  simp only [← hv, State.face_setFace, State.setFace_setFace]
  split
  · simp only [faceNext, State.face_setFace, State.setFace_setFace, xput_pc]
  · rfl

/-! ### The end of a program (R198) -/

theorem exec_faceEnd (ha : Safety.FaceAt s₀ s n 0x7F w) : exec (.faceEnd n w) s₀ = .next (faceStop n .ok s) :=
  faceStep_at ha _ hs

end Index

@[simp] theorem faceStop_face (n : Nat) (st : Status) (s : State) :
    (faceStop n st s).face n = { s.face n with strokes := [], ended := some st } := by
  simp [faceStop, faceDrop]

@[simp] theorem faceStop_bufMem (n : Nat) (st : Status) (s : State) : (faceStop n st s).bufMem = s.bufMem := rfl

@[simp] theorem faceStop_seamMem (n : Nat) (st : Status) (s : State) : (faceStop n st s).seamMem = s.seamMem := rfl

/-- A second mismatch, or a corrupted lane, fences the unit and records the opcode (R199). -/
theorem faceArith_fault {s₀ s : State} {n op mm : Nat} {w : InstrWord} (hs : (s₀.face n).strokes = [])
    (ha : Safety.FaceAt s₀ s n op w) (g : Face → RowRes) (hmm : 2 ≤ mm + faceLaneFaults (s.face n) w)
    (hen : s.chr.residueEn = true) :
    faceArith n op w mm g s₀ = .next (faceFence n .unitFault (s.setFace n { s.face n with faultOp := op })) := by
  rw [faceArith_at ha hs, faceChecked_fault _ hen hmm, ha.opcode]

/-! ### The statement -/

/-- Settles O24: each clause is the rule above of its instruction. -/
theorem faceMoves : Obligations.FaceMoves := by
  unfold Obligations.FaceMoves
  refine ⟨?_, ?_, ?_, ?_, ?_, ?_, ?_, ?_⟩
  · intro s s₁ s' n mm w bs ps hmm hen hs ha hps hbs
    exact ⟨_, exec_faceLdr hs mm ha hps hbs, faceChecked_result _ hen hmm (faceLaneFaults_of_load _ (.inl ha.opcode))⟩
  · intro s s₁ s1 s2 n mm w e ms hmm hen hs ha hfits he hms
    exact ⟨_, exec_faceLdb hs mm ha hfits he hms, faceChecked_result _ hen hmm (faceLaneFaults_of_load _ (.inr ha.opcode))⟩
  · intro s s₁ s' n w ps hs ha hps b parts hput
    exact ⟨_, exec_faceStr hs ha hps hput, by simp [b]⟩
  · intro s₀ s n w hs ha hx
    exact ⟨_, exec_faceXadd hs ha, by simp [xput_of_ne hx]⟩
  · intro s₀ s n w hs ha hx
    rw [exec_faceXadd hs ha, hx, xput_zero, faceNext, State.face_setFace, State.setFace_setFace]
  · intro s₀ s n w hs ha v
    refine ⟨_, exec_faceLoop hs ha rfl, ?_⟩
    rw [State.face_setFace]
    exact ⟨rfl, fun hx => xget_xput hx _ _, xput_rows _ _ _⟩
  · intro s₀ s n w hs ha
    exact ⟨_, exec_faceEnd hs ha, by simp⟩
  · intro s₀ s n op mm w g hs ha hmm hen
    exact faceArith_fault hs ha g hmm hen

end Sys2Proof.Machine
end

section
/-! The face units' launches, strokes and program ends (R186 to R193, R198, R200 to R208): one rule per event and outcome; then the
statement about them (O25). -/

namespace Sys2Proof.Machine

/-! ### Launches (R186, R187, R208) -/

/-- The launch that the staged words spell (R187). -/
def stagedLaunch (st : Tbl Word) : FLaunch := { words := (List.range 8).map (fun k => Tbl.look 0 st k), req := none }

/-- A function's launch waits: behind its own writes that are still held, or behind an earlier launch (R208). -/
def launchHeld (s : State) (f : Nat) : Bool := writesOpen s f || s.launchWait.any (fun w => w.1 == f)

theorem launchHeld_setFace (s : State) (n : Nat) (x : Face) (f : Nat) : launchHeld (s.setFace n x) f = launchHeld s f := rfl

section Launches

variable {s : State} {n : Nat} (v : Word)

theorem exec_faceLaunchEnqueue {r : Requester} (hr : reachesRegs r = true) :
    exec (.faceLaunchEnqueue r n v) s = .next (faceWord r n 7 v s) := by
  change execFaceLaunchEnqueue r n v s = _
  rw [execFaceLaunchEnqueue, if_pos hr]

variable (hhere : faceHere s n = true)
include hhere

theorem faceWord_launches {r : Requester} (hown : faceOwner s r = true) (hnow : ∀ f, r = .host f → launchHeld s f = false) :
    faceWord r n 7 v s = faceEnqueue n (stagedLaunch (Tbl.put (s.face n).staged 7 v))
      (s.setFace n { s.face n with staged := Tbl.put (s.face n).staged 7 v }) := by
  cases r with
  | host f =>
    have hfree := hnow f rfl
    rw [← launchHeld_setFace s n { s.face n with staged := Tbl.put (s.face n).staged 7 v }, launchHeld] at hfree
    simp only [faceWord, hhere, hown, hfree, Bool.not_true, Bool.false_eq_true, if_false, ne_eq, not_true_eq_false]
    rfl
  | _ =>
    simp only [faceWord, hhere, hown, Bool.not_true, Bool.false_eq_true, if_false, ne_eq, not_true_eq_false]
    rfl

theorem faceWord_waits {f : Nat} (hown : faceOwner s (.host f) = true) (hheld : launchHeld s f = true) :
    faceWord (.host f) n 7 v s = { s.setFace n { s.face n with staged := Tbl.put (s.face n).staged 7 v } with
      launchWait := s.launchWait ++ [(f, n, stagedLaunch (Tbl.put (s.face n).staged 7 v))] } := by
  rw [← launchHeld_setFace s n { s.face n with staged := Tbl.put (s.face n).staged 7 v }, launchHeld] at hheld
  simp only [faceWord, hhere, hown, hheld, Bool.not_true, Bool.false_eq_true, if_false, if_true, ne_eq, not_true_eq_false]
  rfl

end Launches

section Enqueue

variable (s : State) (n : Nat) (l : FLaunch) {x : Face} (hstate : x.state ≠ 3)
include hstate

theorem faceEnqueue_room (h : x.queue.length < 4) :
    faceEnqueue n l (s.setFace n x) = s.setFace n { x with queue := x.queue ++ [l] } := by
  simp only [faceEnqueue, State.face_setFace, State.setFace_setFace, if_neg hstate, if_pos h]

theorem faceEnqueue_full (h : 4 ≤ x.queue.length) :
    faceEnqueue n l (s.setFace n x) = s.setFace n { x with dropped := true } := by
  simp only [faceEnqueue, State.face_setFace, State.setFace_setFace, if_neg hstate, if_neg (Nat.not_lt.2 h)]

end Enqueue

/-- The launcher that is a host is the physical function (R186). -/
theorem reachesRegs_of_faceOwner {s : State} {f : Nat} (h : faceOwner s (.host f) = true) : reachesRegs (.host f) = true := by
  simp only [faceOwner, Bool.and_eq_true] at h
  exact h.2

/-! ### Strokes issued (R193, R200, R201) -/

@[simp] theorem faceIssue_face (n : Nat) (k : Stroke) (s : State) :
    (faceIssue n k s).face n = { s.face n with strokes := (s.face n).strokes ++ [{ k with at_ := s.now }] } :=
  State.face_setFace _ _ _

@[simp] theorem faceIssue_now (n : Nat) (k : Stroke) (s : State) : (faceIssue n k s).now = s.now := rfl

@[simp] theorem faceIssue_bufMem (n : Nat) (k : Stroke) (s : State) : (faceIssue n k s).bufMem = s.bufMem := rfl

@[simp] theorem faceIssue_seamMem (n : Nat) (k : Stroke) (s : State) : (faceIssue n k s).seamMem = s.seamMem := rfl

theorem foldl_faceIssue_face {α : Type} (n : Nat) (k : α → Stroke) (l : List α) (s : State) :
    (l.foldl (fun s a => faceIssue n (k a) s) s).face n
      = { s.face n with strokes := (s.face n).strokes ++ l.map (fun a => { k a with at_ := s.now }) } := by
  induction l generalizing s with
  | nil => simp
  | cons a l ih => simp [ih]

theorem faceStroke_good {s : State} {n lines b l : Nat} {w : InstrWord} (op p q : Nat)
    (h : strokeCheck s n w lines = .good b l) : faceStroke n op lines p q w s
      = faceNext n (faceIssue n { op := op, line := l, buf := b, lines := lines, p := p, q := q } s) := by
  simp only [faceStroke, h]

/-- A stroke issued leaves the row registers and the memories, and takes the next place. -/
theorem exec_stroke_issued {i : Instr} {s₀ s : State} {n op lines p q b l : Nat} {w : InstrWord}
    (hi : exec i s₀ = .next (faceStroke n op lines p q w s)) (h : strokeCheck s n w lines = .good b l) :
    ∃ t, exec i s₀ = .next t ∧ (t.face n).pc = ((s.face n).pc + 1) % 256
      ∧ (t.face n).strokes = (s.face n).strokes
          ++ [{ op := op, line := l, buf := b, lines := lines, p := p, q := q, at_ := s.now }]
      ∧ (t.face n).rows = (s.face n).rows ∧ t.bufMem = s.bufMem ∧ t.seamMem = s.seamMem :=
  ⟨_, hi, by simp [faceStroke_good op p q h]⟩

section Issues

variable {s₀ s : State} {n : Nat} {w : InstrWord} (hs : (s₀.face n).strokes.length < 2)
include hs

theorem exec_faceSld (ha : Safety.FaceAt s₀ s n 0x01 w) :
    exec (.faceSld n w) s₀ = .next (faceStroke n 1 (bits 14 10 (fImm w) + 1) 0 0 w s) := faceStep_beside ha _ hs

theorem exec_faceSst (ha : Safety.FaceAt s₀ s n 0x02 w) :
    exec (.faceSst n w) s₀ = .next (faceStroke n 2 (bits 14 10 (fImm w) + 1) 0 0 w s) := faceStep_beside ha _ hs

theorem exec_faceSnw (ha : Safety.FaceAt s₀ s n 0x03 w) (hshare : s.faceShare ≠ 0) :
    exec (.faceSnw n w) s₀ = .next (faceStroke n 3 1 (fP w) (fQ w) w s) := by
  change execFaceSnw n w s₀ = _
  rw [execFaceSnw, faceStep_beside ha _ hs, if_neg hshare]

end Issues

/-! ### The launch is taken (R188, R189) -/

/-- The unit that has taken launch `l` and fetches its text, at time `now` (R188, R189). -/
def fetching (l : FLaunch) (rest : List FLaunch) (now : Nat) (x : Face) : Face :=
  { x with
    state := 1, cur := some l, queue := rest, pc := 0, startAt := now, pausedNs := 0, ended := none, strokes := []
    touched := [], tainted := false
    xs := [(1, sext 32 (fWord l 2)), (2, sext 32 (fWord l 3)), (3, sext 32 (fWord l 4)), (4, sext 32 (fWord l 5)), (5, 0), (6, 0),
      (7, 0)] }

/-- The lines of a launch's text (R189). -/
def textLines (l : FLaunch) : Nat := (8 * (bits 7 0 (fWord l 0) + 1) + 63) / 64

/-- The stroke of a program's text, which starts at `p`, that part `q` of the text is asked for with (R189). -/
def textStroke (p : Nat) (q : Nat × Nat) : Stroke := { op := 0, line := q.1 / 64, lines := q.2 / 64, buf := (q.1 - p) / 64 }

/-- A field of the descriptor breaks its rule (R187, R189). -/
def launchBad (s : State) (l : FLaunch) : Prop :=
  bits 15 8 (fWord l 0) ≠ 0 ∨ bits 31 29 (fWord l 1) ≠ 0 ∨ fWord l 1 % 64 ≠ 0 ∨ fWord l 2 % 64 ≠ 0
    ∨ fArr l ≠ 0 ∧ faceArrGood s (fArr l) = false

/-- What a face unit may reach in its seam does not depend on the units' own states (R61, R64). -/
@[simp] theorem faceDenies_setFace (s : State) (m : Nat) (x : Face) (n : Nat) (off : Int) (k : Nat) :
    faceDenies (s.setFace m x) n off k = faceDenies s n off k := by
  induction k with
  | zero => rfl
  | succ k ih => rw [faceDenies, faceDenies, ih]; rfl

section Fetches

variable {s : State} {n : Nat} {l : FLaunch} {rest : List FLaunch}

theorem faceTake_bad (h : launchBad s l) :
    faceTake n l rest s = faceStop n .badDescriptor (s.setFace n (fetching l rest s.now (s.face n))) := if_pos h

theorem faceTake_good (h : ¬ launchBad s l) (hd : faceDenies s n (fWord l 1) (textLines l) = none) :
    faceTake n l rest s = (spans 4096 3 (fWord l 1) (64 * textLines l)).foldl
      (fun s q => faceIssue n (textStroke (fWord l 1) q) s) (s.setFace n (fetching l rest s.now (s.face n))) := by
  rw [textLines] at hd
  refine (if_neg h).trans ?_
  simp only [faceDenies_setFace, hd]
  rfl

theorem exec_faceFetch (hruns : faceRuns s n = true) (hstate : (s.face n).state = 0) (hq : (s.face n).queue = l :: rest) :
    exec (.faceFetch n) s = .next (faceTake n l rest s) := by
  change execFaceFetch n s = _
  simp only [execFaceFetch, hq, if_pos (And.intro hruns hstate)]

end Fetches

theorem exec_faceFetchDone {s : State} {n : Nat} (hruns : faceRuns s n = true) (hstate : (s.face n).state = 1)
    (hended : (s.face n).ended = none) (hs : (s.face n).strokes = []) :
    exec (.faceFetchDone n) s = .next (s.setFace n { s.face n with state := 2 }) := by
  change execFaceFetchDone n s = _
  simp only [execFaceFetchDone, if_pos (And.intro hruns (And.intro hstate (And.intro hended hs)))]

/-! ### Strokes that end (R198, R201, R202, R204) -/

theorem foldl_cleanLine_frame (g : Nat → LineId) (l : List Nat) (s : State) :
    ∃ es, l.foldl (fun s i => s.cleanLine (g i)) s = { s with errs := es } := by
  induction l generalizing s with
  | nil => exact ⟨s.errs, rfl⟩
  | cons i l ih =>
    obtain ⟨es, h⟩ := ih (s.cleanLine (g i))
    exact ⟨es, h⟩

/-- Bytes put line for line are the bytes written in one piece, and the lines' errors go (R372). -/
theorem foldl_localPut_buf (n b k : Nat) (bs : List Byte) (s : State) :
    ∃ es, (List.range k).foldl (fun s i => localPut (.buf n) (64 * (b + i)) ((bs.drop (64 * i)).take 64) s) s
      = { s with bufMem := s.bufMem.write (0x10000 * n + 64 * b) (bs.take (64 * k)), errs := es } := by
  induction k with
  | zero => exact ⟨s.errs, rfl⟩
  | succ k ih =>
    obtain ⟨es, h⟩ := ih
    have hwrite : (s.bufMem.write (0x10000 * n + 64 * b) (bs.take (64 * k))).write (0x10000 * n + 64 * (b + k))
        (((bs.drop (64 * k)).take 64).take 64) = s.bufMem.write (0x10000 * n + 64 * b) (bs.take (64 * (k + 1))) := by
      rw [List.take_take, Nat.min_self, Nat.mul_succ, List.take_add, Memory.write_append]
      by_cases hk : 64 * k ≤ bs.length
      · rw [List.length_take, Nat.min_eq_left hk, Nat.mul_add, Nat.add_assoc]
      · rw [List.drop_eq_nil_of_le (by omega), List.take_nil]
        rfl
    rw [List.range_succ, List.foldl_append, h, ← hwrite]
    exact ⟨_, rfl⟩

section StrokeEnds

variable {s s' : State} {n : Nat} {k : Stroke} {bs : List Byte}

theorem exec_strokeEnd {rest : List Stroke} (hhere : faceHere s n = true) (hq : (s.face n).strokes = k :: rest)
    (hg : k.granted = true) : exec (.strokeEnd n) s = .next (serveHeld (strokeOver n k s)) := by
  change execStrokeEnd n s = _
  simp only [execStrokeEnd, hq, hhere, hg, Bool.and_self, if_true]

/-- A fetch's lines are the program's words from their place on. -/
theorem strokeOver_fetch (hop : k.op = 0) (h : seamLines n k.line k.lines s = (s', some bs)) :
    ∃ es, strokeOver n k s = State.setFace { s' with errs := es } n { s'.face n with
      strokes := (s'.face n).strokes.drop 1
      prog := (s'.face n).prog.take (8 * k.buf) ++ dwords bs ++ (s'.face n).prog.drop (8 * k.buf + (dwords bs).length) } := by
  obtain ⟨es, hclean⟩ := foldl_cleanLine_frame (fun i => progLine n (8 * (k.buf + i))) (List.range k.lines) s'
  refine ⟨es, ?_⟩
  simp only [strokeOver, hop, h, hclean, popStroke, State.face_setFace, State.setFace_setFace]

theorem strokeOver_load (hop : k.op = 1) (h : seamLines n k.line k.lines s = (s', some bs)) :
    ∃ es, strokeOver n k s = popStroke n { s' with
      bufMem := s'.bufMem.write (0x10000 * n + 64 * k.buf) (bs.take (64 * k.lines)), errs := es } := by
  obtain ⟨es, hput⟩ := foldl_localPut_buf n k.buf k.lines bs s'
  refine ⟨es, ?_⟩
  simp only [strokeOver, hop, h, hput]

theorem strokeOver_store (hop : k.op = 2) (h : localRead (.buf n) (64 * k.buf) (64 * k.lines) s = (s', some bs)) :
    strokeOver n k s = popStroke n (putLines n k.line (strokeData n bs s').2 k.lines (strokeData n bs s').1) := by
  simp only [strokeOver, hop, h]

theorem strokeOver_narrow (hop : k.op = 3) : strokeOver n k s = if k.merged then popStroke n s else s := by
  simp only [strokeOver, hop]

theorem strokeData_sound (h : (s.face n).tainted = false) : strokeData n bs s = (s, bs) := by
  simp [strokeData, h]

/-- A program with undefined results stores as many free bytes (R204). -/
theorem strokeData_tainted (h : (s.face n).tainted = true) :
    ∃ d, d.length = bs.length ∧ strokeData n bs s = ({ s with free := s.free + bs.length }, d) :=
  ⟨_, List.length_mapIdx, if_pos h⟩

end StrokeEnds

/-! ### A program completes, or reaches its time limit (R190, R191) -/

section Ends

variable {s : State} {n : Nat} (hruns : faceRuns s n = true) (hstate : (s.face n).state = 1 ∨ (s.face n).state = 2)
include hruns hstate

theorem exec_faceProgramComplete {l : FLaunch} {st : Status} (hs : (s.face n).strokes = []) (hcur : (s.face n).cur = some l)
    (hended : (s.face n).ended = some st) :
    exec (.faceProgramComplete n) s = .next (faceDone n l st (s.setFace n { s.face n with
      state := 0, cur := none, ended := none, foreign := if (s.face n).queue = [] then [] else (s.face n).foreign })) := by
  change execFaceProgramComplete n s = _
  simp only [execFaceProgramComplete, hcur, hended, if_pos (And.intro hruns (And.intro hstate hs))]

theorem exec_faceTimeLimit (hended : (s.face n).ended = none) (hlimit : (s.face n).limit ≠ 0)
    (hawake : (s.seam n).selfRefresh = false)
    (hnow : (s.face n).startAt + (s.face n).pausedNs + 1000 * (s.face n).limit ≤ s.now) :
    exec (.faceTimeLimit n) s = .next (s.setFace n { s.face n with ended := some .timeout }) := by
  change execFaceTimeLimit n s = _
  simp only [execFaceTimeLimit,
    if_pos (And.intro hruns (And.intro hstate (And.intro hended (And.intro hlimit (And.intro hawake hnow)))))]

end Ends

/-! ### The statement -/

/-- Settles O25: each clause is the rule above of its event and outcome. -/
theorem facePrograms : Obligations.FacePrograms := by
  unfold Obligations.FacePrograms
  refine ⟨?_, ?_, ?_, ?_, ?_, ?_, ?_, ?_, ?_⟩
  · intro s r n v hr hhere hown hstate hnow st l
    have hlaunch := faceWord_launches v hhere hown fun f hf => Bool.or_eq_false_iff.2 (hnow f hf)
    rw [exec_faceLaunchEnqueue v hr, hlaunch]
    exact ⟨fun hroom => congrArg _ (faceEnqueue_room s n l hstate hroom),
      fun hfull => congrArg _ (faceEnqueue_full s n l hstate hfull)⟩
  · intro s f n v hhere hown hheld st l
    rw [exec_faceLaunchEnqueue v (reachesRegs_of_faceOwner hown), faceWord_waits v hhere hown (Bool.or_eq_true_iff.2 hheld)]
    rfl
  · intro s n l rest hruns hstate hq p len hres hp hpal hbase harr hd
    have hgood : ¬ launchBad s l := by
      rintro (h | h | h | h | ⟨h, hbad⟩)
      · exact h hres
      · exact h hp
      · exact h hpal
      · exact h hbase
      · exact harr.elim h fun hok => by rw [hok] at hbad; cases hbad
    refine ⟨_, exec_faceFetch hruns hstate hq, ?_⟩
    rw [faceTake_good hgood hd, foldl_faceIssue_face, State.face_setFace]
    refine ⟨rfl, rfl, rfl, rfl, rfl, rfl, rfl, rfl, ?_⟩
    simp [fetching, textStroke, textLines, p, len, Function.comp_def]
  · intro s n l rest hruns hstate hq hbad
    refine ⟨_, exec_faceFetch hruns hstate hq, ?_⟩
    rw [faceTake_bad hbad, faceStop_face]
    exact ⟨rfl, rfl⟩
  · exact fun s n hruns hstate hended hs => exec_faceFetchDone hruns hstate hended hs
  · intro s₀ s n b l w hs k
    exact ⟨fun ha h => exec_stroke_issued (exec_faceSld hs ha) h, fun ha h => exec_stroke_issued (exec_faceSst hs ha) h,
      fun ha hshare h => exec_stroke_issued (exec_faceSnw hs ha hshare) h⟩
  · intro s s' n k rest bs hhere hq hg
    rw [exec_strokeEnd hhere hq hg]
    refine ⟨fun hop h => ⟨_, rfl, ?_⟩, fun hop h => ⟨_, rfl, ?_⟩, fun hop h => ⟨fun htaint => ?_, fun htaint => ?_⟩, fun hop => ?_⟩
    · obtain ⟨es, hover⟩ := strokeOver_fetch hop h
      rw [hover, State.face_setFace]
      exact ⟨rfl, rfl, rfl, rfl⟩
    · obtain ⟨es, hover⟩ := strokeOver_load hop h
      rw [hover, popStroke, State.face_setFace]
      exact ⟨rfl, rfl⟩
    · rw [strokeOver_store hop h, strokeData_sound htaint]
    · obtain ⟨d, hd, hdata⟩ := strokeData_tainted (bs := bs) htaint
      exact ⟨d, hd, by rw [strokeOver_store hop h, hdata]⟩
    · rw [strokeOver_narrow hop]
  · exact fun s n l st hruns hstate hs hcur hended => exec_faceProgramComplete hruns hstate hs hcur hended
  · exact fun s n hruns hstate hended hlimit hawake hnow => exec_faceTimeLimit hruns hstate hended hlimit hawake hnow

end Sys2Proof.Machine
end

section
/-! The sequence slots, pins and limbo of the vein-index engine, and how its commands complete (R211, R212, R226 to R232): one rule
per command and outcome; then the statement about them (O26). -/

namespace Sys2Proof.Machine

/-! ### One part of a command after another -/

@[simp] theorem vbind_ok {α β : Type} (a : α) (f : α → State → State × VOut β) (s : State) :
    vbind (s, .ok a) f = f a s := rfl

/-! ### Slots opened and closed (R211, R212) -/

section Slots

variable {s : State} {p : Nat} {ws : List Word} {req : Option Nat}

theorem exec_slotOpen_free {s' : State} {bs : List Byte} (h : Safety.VeinAt s p 0x01 ws req) (ha : vdpa ws 2 % 64 = 0)
    (hst : (s.slot (vSlot ws)).st = 0) (hread : vRead p (vdpa ws 2) 8 s = (s', .ok bs)) (hw : s'.waited = false) :
    exec (.slotOpen p ws) s = .next (veinDone p .ok (0, 0, 0) (putSlot (vSlot ws)
      { st := 1, fn := bits 19 16 (vw ws 1), length := 0, map := vdpa ws 2, tail := BitVec.ofNat 64 (leNat bs), pin := 0 } s')) := by
  refine veinStep_ok h ?_ (by rw [putSlot_waited, hw])
  simp only [if_neg (not_not_intro ha), if_neg (not_not_intro hst), hread, vbind_ok]

theorem exec_slotOpen_taken (h : Safety.VeinAt s p 0x01 ws req) (ha : vdpa ws 2 % 64 = 0) (hst : (s.slot (vSlot ws)).st ≠ 0)
    (hw : s.waited = false) : exec (.slotOpen p ws) s = .next (veinDone p .denied (0, 0, 0) s) := by
  refine veinStep_bad h ?_ hw
  simp only [if_neg (not_not_intro ha), if_pos hst]

theorem exec_slotClose {s1 s2 : State} {k : Nat} {ids : List Nat} (h : Safety.VeinAt s p 0x02 ws req)
    (hst : (s.slot (vSlot ws)).st = 1) (hnew : (s.vport p).applied = 0)
    (hmap : mapIds p (s.slot (vSlot ws)).map (putSlot (vSlot ws) { s.slot (vSlot ws) with st := 2, pin := 0 } s) = (s1, .ok ids))
    (hdrop : pageList pageUnref ids 0 s1 = (s2, .ok k)) (hw : s2.waited = false) :
    exec (.slotClose p ws) s
      = .next (veinDone p .ok (0, k, 0) (putSlot (vSlot ws) { s2.slot (vSlot ws) with st := 0 } s2)) := by
  refine veinStep_ok h ?_ (by rw [putSlot_waited, hw])
  simp only [ne_eq, hst, not_true_eq_false, false_and, if_false, hmap, vbind_ok, hnew, List.drop_zero, hdrop]

/-! ### Commands on an OPEN slot (R230, R231) -/

variable {op : Nat} {f : List Word → SeqSlot → State → State × VOut VDone} (h : Safety.VeinAt s p op ws req)
include h

theorem veinStep_onOpen_open {t : State} {r : VDone} (hst : (s.slot (vSlot ws)).st = 1)
    (hdo : f ws (s.slot (vSlot ws)) s = (t, .ok r)) (hw : t.waited = false) :
    veinStep p op ws (fun ws _ s => onOpen ws (f ws) s) s = .next (veinDone p .ok r t) :=
  veinStep_ok h ((if_pos hst).trans hdo) hw

theorem veinStep_onOpen_other (hst : (s.slot (vSlot ws)).st ≠ 1) (hw : s.waited = false) :
    veinStep p op ws (fun ws _ s => onOpen ws (f ws) s) s = .next (veinDone p .denied (0, 0, 0) s) :=
  veinStep_bad h (if_neg hst) hw

end Slots

/-! ### A completion (R229) -/

/-- The Overseer's own command, at no host's request, leaves its record in the ring and nothing else. -/
theorem veinDone_own {s : State} {p : Nat} {ws : List Word} {rest : List (List Word × Option Nat)}
    (hq : (s.vport p).queue = (ws, none) :: rest) (st : Status) (r : VDone) :
    veinDone p st r s
      = (let t := postWrite (.vein p) ((s.vport p).cplBase + 16 * (s.vport p).tail) (vRecord ws st r)
            (s.setVport p { s.vport p with queue := rest, waitFrom := none, applied := 0, drops := [], result := none })
         t.setVport p { t.vport p with tail := ((s.vport p).tail + 1) % 64 }) := by
  simp only [veinDone, hq]
  rfl

/-! ### Limbo (R232) -/

/-- The state after entry `i` of limbo is reclaimed, of page `id`. -/
def reclaimed (i id : Nat) (s : State) : State :=
  { s.setPage id { s.page id with dying := false } with vein := { s.vein with limbo := listDel s.vein.limbo i } }

theorem reclaimed_page (i id : Nat) (s : State) : (reclaimed i id s).page id = { s.page id with dying := false } :=
  State.page_setPage s id _

theorem exec_limboReclaim {s : State} {i id e : Nat} (hi : s.vein.limbo[i]? = some (id, e))
    (hpins : ∀ q ∈ s.slots, q.2.pin = 0 ∨ e < q.2.pin) :
    exec (.limboReclaim i) s = .next (reclaimed i id s) := by
  have hall : s.slots.all (fun q => q.2.pin == 0 || decide (e < q.2.pin)) = true := by
    simpa only [List.all_eq_true, Bool.or_eq_true, beq_iff_eq, decide_eq_true_eq] using hpins
  change execLimboReclaim i s = _
  simp only [execLimboReclaim, hi, if_pos hall, reclaimed]

theorem exec_limboFullTimeout {s : State} {p t0 : Nat} (hwait : (s.vport p).waitFrom = some t0)
    (hfull : 65536 ≤ s.vein.limbo.length) (hnow : t0 + 10000000 ≤ s.now) :
    exec (.limboFullTimeout p) s = .next (veinDone p .timeout (0, (s.vport p).applied, 0) s) := by
  change execLimboFullTimeout p s = _
  simp only [execLimboFullTimeout, hwait, if_pos (And.intro hfull hnow)]

/-! ### The statement -/

/-- Settles O26: each clause is the rule above of its command and outcome. -/
theorem veinSlots : Obligations.VeinSlots := by
  unfold Obligations.VeinSlots
  refine ⟨?_, ?_, ?_, ?_, ?_, ?_, ?_, ?_⟩
  · exact fun s s' p ws req bs h ha hst hread hw => exec_slotOpen_free h ha hst hread hw
  · exact fun s p ws req h ha hst hw => exec_slotOpen_taken h ha hst hw
  · exact fun s s1 s2 p k ws req ids h hst hnew hmap hdrop hw => exec_slotClose h hst hnew hmap hdrop hw
  · intro s p ws req n x hst hw
    have hput : ∀ y, (putSlot n y s).waited = false := fun y => (putSlot_waited n y s).trans hw
    exact ⟨fun h => veinStep_onOpen_open h hst rfl (hput _), fun h => veinStep_onOpen_open h hst rfl (hput _),
      fun h => veinStep_onOpen_open h hst rfl (hput _)⟩
  · exact fun s p ws req hst hw => ⟨fun h => veinStep_onOpen_other h hst hw, fun h => veinStep_onOpen_other h hst hw,
      fun h => veinStep_onOpen_other h hst hw⟩
  · intro s p ws rest st r hq x
    refine ⟨?_, veinDone_own hq st r⟩
    rw [veinDone_own hq, State.vport_setVport]
  · intro s i id e hi hpins
    refine ⟨_, exec_limboReclaim hi hpins, rfl, ?_, ?_, rfl⟩ <;> rw [reclaimed_page]
  · exact fun s p t0 hwait hfull hnow => exec_limboFullTimeout hwait hfull hnow

end Sys2Proof.Machine
end

section
/-! The vein table of the vein-index engine and its migration (R220 to R225): one rule per command and outcome; then the statement
about them (O27). -/

namespace Sys2Proof.Machine

/-! ### Commands on a block (R220, R221, R223, R224) -/

section Blocks

variable {s s1 s2 : State} {p : Nat} {ws : List Word} {req : Option Nat} {t : List Byte} (hb : Safety.BlockAt s s1 p ws t)
  {hash : Nat} (hh : crc64 (leBytes 8 (vdpa ws 2) ++ t) = hash)
include hb hh

theorem exec_veinHash (h : Safety.VeinAt s p 0x08 ws req) (hw : s1.waited = false) :
    exec (.veinHash p ws) s = .next (veinDone p .ok (0, 0, hash) s1) :=
  veinStep_ok h ((withBlock_at hb _).trans (by rw [hh])) hw

theorem exec_veinLookup_miss (h : Safety.VeinAt s p 0x09 ws req) (hfind : findAny p hash t (vTables s1) s1 = (s2, .ok none))
    (hw : s2.waited = false) : exec (.veinLookup p ws) s = .next (veinDone p .ok (0, 0, 0) s2) := by
  refine veinStep_ok h ((withBlock_at hb _).trans ?_) hw
  simp only [hh, hfind, vbind_ok]

theorem exec_veinLookup_hit {s3 : State} {a : Nat} {e : VeinEnt} (h : Safety.VeinAt s p 0x09 ws req)
    (hfind : findAny p hash t (vTables s1) s1 = (s2, .ok (some (a, e))))
    (hstamp : vWrite p a (entBytes { e with hit := s2.tclk.toNat }) s2 = (s3, .ok ())) (hw : s3.waited = false) :
    exec (.veinLookup p ws) s = .next (veinDone p .ok (1, 0, e.record) s3) := by
  refine veinStep_ok h ((withBlock_at hb _).trans ?_) hw
  simp only [hh, hfind, vbind_ok, hstamp]

theorem exec_veinInsert_equal {q : Nat × VeinEnt} (h : Safety.VeinAt s p 0x0A ws req) (ha : vdpa ws 6 % 64 = 0)
    (hfind : findAny p hash t (vTables s1) s1 = (s2, .ok (some q))) (hw : s2.waited = false) :
    exec (.veinInsert p ws) s = .next (veinDone p .ok (2, 0, hash) s2) := by
  refine veinStepD_ok (ids := []) h (Eq.trans (if_neg (not_not_intro ha)) ((withBlock_at hb _).trans ?_)) hw
  simp only [hh, hfind, vbind_ok]

section New

variable {s3 s4 s5 : State} {ids : List Nat} {k : Nat} (h : Safety.VeinAt s p 0x0A ws req) (ha : vdpa ws 6 % 64 = 0)
  (hfind : findAny p hash t (vTables s1) s1 = (s2, .ok none)) (hpages : recordPages p (vdpa ws 6) s2 = (s3, .ok ids))
  (href : pageList pageRef ids 0 s3 = (s4, .ok k)) (hw : s5.waited = false)
include h ha hfind hpages href hw

theorem exec_veinInsert_fits (hput : putEntry p (if s3.vein.migrating then newTable s3 else oldTable s3)
      { hash := hash, record := vdpa ws 6, valid := true, hit := s3.tclk.toNat } s4 = (s5, .ok none)) :
    exec (.veinInsert p ws) s = .next (veinDone p .ok (0, 0, hash) s5) := by
  refine veinStepD_ok (ids := []) h (Eq.trans (if_neg (not_not_intro ha)) ((withBlock_at hb _).trans ?_)) hw
  simp only [hh, hfind, vbind_ok, hpages, href, hput]

theorem exec_veinInsert_evicts {old : List Nat} (hput : putEntry p (if s3.vein.migrating then newTable s3 else oldTable s3)
      { hash := hash, record := vdpa ws 6, valid := true, hit := s3.tclk.toNat } s4 = (s5, .ok (some old))) :
    exec (.veinInsert p ws) s = .next (veinDrop p old (0, 0, hash)
      { s5 with vein := { s5.vein with evict := satInc 0xFFFF s5.vein.evict } }) := by
  refine veinStepD_ok h (Eq.trans (if_neg (not_not_intro ha)) ((withBlock_at hb _).trans ?_)) hw
  simp only [hh, hfind, vbind_ok, hpages, href, hput]

end New

theorem exec_veinRemove_miss (h : Safety.VeinAt s p 0x0B ws req) (hfind : findAll p hash t (vTables s1) s1 = (s2, .ok []))
    (hw : s2.waited = false) : exec (.veinRemove p ws) s = .next (veinDone p .ok (0, 0, 0) s2) := by
  refine veinStepD_ok (ids := []) h ((withBlock_at hb _).trans ?_) hw
  simp only [hh, hfind, vbind_ok]

theorem exec_veinRemove_hit {s3 s4 : State} {a : Nat} {e : VeinEnt} {more : List (Nat × VeinEnt)} {ids : List Nat}
    (h : Safety.VeinAt s p 0x0B ws req) (hfind : findAll p hash t (vTables s1) s1 = (s2, .ok ((a, e) :: more)))
    (hpages : recordPages p e.record s2 = (s3, .ok ids)) (hclear : clearEntries p ((a, e) :: more) s3 = (s4, .ok ()))
    (hw : s4.waited = false) : exec (.veinRemove p ws) s = .next (veinDrop p ids (1, 0, 0) s4) := by
  refine veinStepD_ok h ((withBlock_at hb _).trans ?_) hw
  simp only [hh, hfind, vbind_ok, hpages, hclear]

end Blocks

/-! ### Blocks that cannot be hashed (R220, R221) -/

/-- Why a block cannot be hashed: its token IDs are misaligned, or no reserved check unit lives. -/
def blockFault (s : State) (ws : List Word) (st : Status) : Prop :=
  vdpa ws 4 % 64 ≠ 0 ∧ st = .badDescriptor ∨ vdpa ws 4 % 64 = 0 ∧ hashUnit s = none ∧ st = .unitDead

theorem withBlock_fault {α : Type} {s : State} {ws : List Word} {st : Status} (hf : blockFault s ws st) (p : Nat)
    (f : Nat → List Byte → State → State × VOut α) : withBlock p ws f s = (s, .bad st 0) := by
  obtain ⟨ha, rfl⟩ | ⟨ha, hu, rfl⟩ := hf
  · exact if_pos ha
  · simp only [withBlock, if_neg (not_not_intro ha), hu]

/-! ### References that limbo has no room for (R224, R232) -/

theorem veinDrop_all {s : State} {ids : List Nat} (p : Nat) (r : VDone) (h : (dropRefs ids s).2 = []) :
    veinDrop p ids r s = veinDone p .ok r (dropRefs ids s).1 := if_pos h

theorem veinDrop_left {s : State} {ids : List Nat} (p : Nat) (r : VDone) (h : (dropRefs ids s).2 ≠ []) :
    (veinDrop p ids r s).vport p = { (dropRefs ids s).1.vport p with
      drops := (dropRefs ids s).2, result := some r, waitFrom := some (((dropRefs ids s).1.vport p).waitFrom.getD s.now) } := by
  rw [veinDrop, if_neg h, State.vport_setVport]

/-- A command that is done but for its references goes on with them, whatever its operation does. -/
theorem veinStepD_resumes {s : State} {p op : Nat} {ws : List Word} {rest : List (List Word × Option Nat)} {req : Option Nat}
    {r : VDone} (f : List Word → Nat → State → State × VOut (VDone × List Nat)) (hp : p < 9)
    (hq : (s.vport p).queue = (ws, req) :: rest) (hgood : vGood ws = true) (hroom : ringFull (s.vport p) = false)
    (hruns : s.thm.stopped = false) (hres : (s.vport p).result = some r) (hw : s.waited = false)
    (hop : bits 7 0 (vw ws 0) = op) : veinStepD p op ws f s = .next (veinDrop p (s.vport p).drops r s) := by
  have hrun : veinRun p op ws f s = veinDrop p (s.vport p).drops r s := by
    simp only [veinRun, hq, hp, hop, hroom, hruns, true_or, and_self, if_true, hgood, hres,
      Bool.not_true, Bool.false_eq_true, if_false]
  rw [veinStepD, unlessHeld_of_not_waited (by rw [hrun, veinDrop_waited, hw]), hrun]

/-! ### The migration (R222, R225) -/

section Migration

variable {s : State}

/-- The state in which MIGRATE has set up its new table (R225). -/
def migrateStart (ws : List Word) (s : State) : State :=
  { s with vein := { s.vein with
      migrating := true, pointer := 0, newLog2 := vw ws 1, newSeed := BitVec.ofNat 64 (vdpa ws 2), newTable := vdpa ws 4 } }

theorem exec_veinMigrate {p : Nat} {ws : List Word} {req : Option Nat} (h : Safety.VeinAt s p 0x18 ws req) (hw : s.waited = false) :
    exec (.veinMigrate p ws) s = .next (
      if tableGoodAt s (vw ws 1) (vdpa ws 4) = false then veinDone p .badDescriptor (0, 0, 0) s
      else if s.vein.migrating = true then veinDone p .denied (0, 0, 0) s
      else veinDone p .ok (0, 0, 0) (migrateStart ws s)) := by
  split_ifs with hbad hmig
  · exact veinStep_bad h (by simp only [hbad, Bool.not_false, if_true]) hw
  · refine veinStep_bad h ?_ hw
    simp only [Bool.eq_true_of_not_eq_false hbad, Bool.not_true, Bool.false_eq_true, if_false, hmig, if_true]
  · refine veinStep_ok h ?_ hw
    simp only [Bool.eq_true_of_not_eq_false hbad, Bool.not_true, Bool.false_eq_true, if_false, if_neg hmig, migrateStart]

@[simp] theorem migrateOn_waited (s : State) : (migrateOn s).waited = s.waited := by
  simp only [migrateOn]
  split <;> rfl

theorem migrateOn_last (h : 2 ^ (s.vein.log2 - 3) ≤ s.vein.pointer + 1) :
    (migrateOn s).vein.migrating = false ∧ oldTable (migrateOn s) = newTable s := by
  rw [migrateOn, if_pos h]
  exact ⟨rfl, rfl⟩

theorem migrateOn_next (h : s.vein.pointer + 1 < 2 ^ (s.vein.log2 - 3)) :
    (migrateOn s).vein.pointer = s.vein.pointer + 1 ∧ (migrateOn s).vein.migrating = s.vein.migrating
      ∧ oldTable (migrateOn s) = oldTable s := by
  rw [migrateOn, if_neg (Nat.not_le.2 h)]
  exact ⟨rfl, rfl, rfl⟩

theorem exec_migrateBucket {s1 s2 : State} {bs : List Byte} (hmig : s.vein.migrating = true) (hruns : s.thm.stopped = false)
    (hread : vRead 8 (s.vein.table + 256 * s.vein.pointer) 256 s = (s1, .ok bs))
    (hmove : moveWays (newTable s1) bs (List.range 8) s1 = some s2) (hw : s2.waited = false) :
    exec .migrateBucket s = .next (migrateOn s2) := by
  change execMigrateBucket s = _
  simp only [execMigrateBucket, hmig, hruns, Bool.not_false, Bool.and_self, if_true, unlessHeld, hread, hmove, migrateOn_waited, hw,
    Bool.false_eq_true, if_false]

end Migration

/-! ### The statement -/

/-- Settles O27: each clause is the rule above of its command and outcome. -/
theorem veinTable : Obligations.VeinTable := by
  unfold Obligations.VeinTable
  refine ⟨?_, ?_, ?_, ?_, ?_, ?_⟩
  · intro s s1 p ws req t hb hash
    refine ⟨?_, ?_, ?_, ?_, ?_, ?_, ?_⟩
    · exact exec_veinHash hb rfl
    · exact fun s2 => exec_veinLookup_miss hb rfl
    · exact fun s2 s3 a e => exec_veinLookup_hit hb rfl
    · exact fun s2 q => exec_veinInsert_equal hb rfl
    · intro s2 s3 s4 s5 ids k ev h ha hfind hpages href hput hw
      cases ev with
      | none => exact exec_veinInsert_fits hb rfl h ha hfind hpages href hw hput
      | some old => exact exec_veinInsert_evicts hb rfl h ha hfind hpages href hw hput
    · exact fun s2 => exec_veinRemove_miss hb rfl
    · exact fun s2 s3 s4 a e more ids => exec_veinRemove_hit hb rfl
  · intro s p ws req st hw hf
    exact ⟨fun h => veinStep_bad h (withBlock_fault hf p _) hw, fun h => veinStep_bad h (withBlock_fault hf p _) hw,
      fun h ha => veinStepD_bad h (Eq.trans (if_neg (not_not_intro ha)) (withBlock_fault hf p _)) hw,
      fun h => veinStepD_bad h (withBlock_fault hf p _) hw⟩
  · intro s p ids r
    refine ⟨veinDrop_all p r, fun h => ?_⟩
    rw [veinDrop_left p r h]
    exact ⟨rfl, rfl, rfl⟩
  · intro s p ws rest req r hp hq hgood hroom hruns hres hw
    exact ⟨veinStepD_resumes _ hp hq hgood hroom hruns hres hw, veinStepD_resumes _ hp hq hgood hroom hruns hres hw⟩
  · exact fun s p ws req h hw => exec_veinMigrate h hw
  · intro s s1 s2 bs hmig hruns hread hmove hw
    exact ⟨_, exec_migrateBucket hmig hruns hread hmove hw, migrateOn_last, migrateOn_next⟩

end Sys2Proof.Machine
end

section
/-! The pages of the vein-index engine (R215 to R217, R228, R230, R232): a reference added and dropped, then one rule per command
and outcome; then the statement about them (O28). -/

namespace Sys2Proof.Machine

/-! ### One reference (R216, R228, R230) -/

theorem State.page_setPage_other (s : State) {id k : Nat} (x : PageHdr) (h : k ≠ id) : (s.setPage id x).page k = s.page k :=
  Tbl.look_put_other _ _ _ h

section Reference

variable {s : State} {id : Nat}

/-- The state after a reference is added to a page. -/
def refAdded (id : Nat) (s : State) : State :=
  { s.setPage id { count := (s.page id).count + 1, dying := false } with
    vein := { s.vein with limbo := s.vein.limbo.filter (fun e => e.1 != id) } }

/-- The state after a page's last reference is dropped. -/
def lastDropped (id : Nat) (s : State) : State :=
  { s.setPage id { count := 0, dying := true } with
    vein := { s.vein with limbo := s.vein.limbo ++ [(id, s.vein.epoch)], epoch := (s.vein.epoch + 1) % 2 ^ 64 } }

section Named

variable (hid : id ≠ noPage) (hgood : pageBad s id = false)
include hid hgood

theorem pageRef_room (hc : (s.page id).count < 65535) : pageRef id s = (refAdded id s, .ok ()) := by
  simp only [pageRef, if_neg hid, hgood, Bool.false_eq_true, if_false, if_neg (Nat.not_le.2 hc), refAdded]

theorem pageUnref_shared (hc : 1 < (s.page id).count) :
    pageUnref id s = (s.setPage id { s.page id with count := (s.page id).count - 1 }, .ok ()) := by
  have hzero : (s.page id).count ≠ 0 := by omega
  have hone : (s.page id).count ≠ 1 := by omega
  simp only [pageUnref, if_neg hid, hgood, Bool.false_eq_true, if_false, if_neg hzero, if_neg hone]

theorem pageUnref_last (hc : (s.page id).count = 1) (hroom : s.vein.limbo.length < 65536) :
    pageUnref id s = (lastDropped id s, .ok ()) := by
  simp only [pageUnref, if_neg hid, hgood, Bool.false_eq_true, if_false, hc, Nat.one_ne_zero, if_true,
    if_neg (Nat.not_le.2 hroom), lastDropped]

end Named

theorem pageRef_page_other {k : Nat} (h : k ≠ id) : (pageRef id s).1.page k = s.page k := by
  simp only [pageRef]
  split_ifs
  · rfl
  · rfl
  · rfl
  · exact State.page_setPage_other s _ h

theorem pageUnref_page_other {k : Nat} (h : k ≠ id) : (pageUnref id s).1.page k = s.page k := by
  simp only [pageUnref]
  split_ifs
  · rfl
  · rfl
  · rfl
  · rfl
  · exact State.page_setPage_other s _ h
  · exact State.page_setPage_other s _ h

theorem refAdded_page (id : Nat) (s : State) :
    (refAdded id s).page id = { count := (s.page id).count + 1, dying := false } := State.page_setPage s id _

theorem lastDropped_page (id : Nat) (s : State) : (lastDropped id s).page id = { count := 0, dying := true } :=
  State.page_setPage s id _

theorem refAdded_limbo (id : Nat) (s : State) : ∀ e ∈ (refAdded id s).vein.limbo, e.1 ≠ id := fun e he => by
  simpa using (List.mem_filter.1 he).2

end Reference

/-! ### Frames (R216, R227) -/

/-- The FREE frames of a seam. -/
def freeFrames (s : State) (n : Nat) : List Nat := (seamPages s n).filter (pageFree s)

/-- The frame of `freeFrames` that the free value picks. -/
def pickFrame (s : State) (n : Nat) : Nat := (freeFrames s n).getD (s.fresh.1 % (freeFrames s n).length) 0

theorem pickFrame_mem {s : State} {n : Nat} (hne : freeFrames s n ≠ []) : pickFrame s n ∈ freeFrames s n := by
  have hlt := Nat.mod_lt s.fresh.1 (List.length_pos_iff.2 hne)
  rw [pickFrame, List.getD_eq_getElem _ _ hlt]
  exact List.getElem_mem hlt

section Commands

variable {s : State} {p : Nat} {ws : List Word} {req : Option Nat}

section Frames

variable (h : Safety.VeinAt s p 0x10 ws req) (hw : s.waited = false)
include h hw

theorem exec_pageAlloc_free (hexact : bit 0 (vw ws 2) = false) (hgood : pageBad s (vw ws 1) = false)
    (hfree : pageFree s (vw ws 1) = true) :
    exec (.pageAlloc p ws) s
      = .next (veinDone p .ok (0, 1, vw ws 1) (s.setPage (vw ws 1) { count := 1, dying := false })) := by
  refine veinStep_ok h ?_ hw
  simp only [hexact, hgood, hfree, Bool.false_eq_true, if_false, if_true]

theorem exec_pageAlloc_used (hexact : bit 0 (vw ws 2) = false) (hgood : pageBad s (vw ws 1) = false)
    (hused : pageFree s (vw ws 1) = false) : exec (.pageAlloc p ws) s = .next (veinDone p .denied (0, 0, 0) s) := by
  refine veinStep_bad h ?_ hw
  simp only [hexact, hgood, hused, Bool.false_eq_true, if_false]

theorem exec_pageAlloc_any (hany : bit 0 (vw ws 2) = true) (hclean : bits 31 25 (vw ws 1) = 0)
    (hseam : s.seamPresent (pageSeam (vw ws 1)) = true) (hne : freeFrames s (pageSeam (vw ws 1)) ≠ []) :
    exec (.pageAlloc p ws) s = .next (veinDone p .ok (0, 1, pickFrame s (pageSeam (vw ws 1)))
      (s.fresh.2.setPage (pickFrame s (pageSeam (vw ws 1))) { count := 1, dying := false })) := by
  have hne' : ¬ (seamPages s (pageSeam (vw ws 1))).filter (pageFree s) = [] := hne
  refine veinStep_ok h ?_ hw
  simp only [hany, if_true, hclean, ne_eq, not_true_eq_false, if_false, hseam, if_neg hne', pickFrame, freeFrames]

end Frames

/-! ### Lists of pages (R228) -/

section Lists

variable {s1 s2 : State} {k : Nat} {ids : List Nat} (hlist : listOperand p ws s = (s1, .ok ids)) (hw : s2.waited = false)
include hlist hw

theorem exec_pageRef (h : Safety.VeinAt s p 0x11 ws req)
    (hall : pageList pageRef (ids.drop (s.vport p).applied) (s.vport p).applied s1 = (s2, .ok k)) :
    exec (.pageRef p ws) s = .next (veinDone p .ok (0, k, 0) s2) := by
  refine veinStep_ok h ?_ hw
  simp only [hlist, vbind_ok, hall]

theorem exec_pageUnref (h : Safety.VeinAt s p 0x12 ws req)
    (hall : pageList pageUnref (ids.drop (s.vport p).applied) (s.vport p).applied s1 = (s2, .ok k)) :
    exec (.pageUnref p ws) s = .next (veinDone p .ok (0, k, 0) s2) := by
  refine veinStep_ok h ?_ hw
  simp only [hlist, vbind_ok, hall]

end Lists

/-! ### Map entries (R217) -/

/-- A page ID in a command that names no page, or a page the part has, is in order. -/
theorem badId_eq_false {id : Nat} (hid : id = noPage ∨ pageBad s id = false) : (id != noPage && pageBad s id) = false := by
  obtain hid | hid := hid <;> simp [hid]

section Swap

variable {s1 : State} {bs : List Byte} (h : Safety.VeinAt s p 0x13 ws req) (ha : vdpa ws 4 % 4 = 0)
  (hold : vw ws 1 = noPage ∨ pageBad s (vw ws 1) = false) (hnew : vw ws 2 = noPage ∨ pageBad s (vw ws 2) = false)
  (hread : vRead p (vdpa ws 4) 4 s = (s1, .ok bs))
include h ha hold hnew hread

theorem exec_mapSwap_mismatch (hne : leNat bs ≠ vw ws 1) (hw : s1.waited = false) :
    exec (.mapSwap p ws) s = .next (veinDone p .ok (4, 0, 0) s1) := by
  refine veinStep_ok h ?_ hw
  simp only [ha, badId_eq_false hold, badId_eq_false hnew, ne_eq, not_true_eq_false, Bool.false_eq_true, or_self, if_false, hread,
    vbind_ok, if_pos hne]

theorem exec_mapSwap_match {s2 s3 : State} (heq : leNat bs = vw ws 1) (hdrop : pageUnref (vw ws 1) s1 = (s2, .ok ()))
    (hput : vWrite p (vdpa ws 4) (leBytes 4 (vw ws 2)) s2 = (s3, .ok ())) (hw : s3.waited = false) :
    exec (.mapSwap p ws) s = .next (veinDone p .ok (0, 0, 0) s3) := by
  refine veinStep_ok h ?_ hw
  simp only [ha, badId_eq_false hold, badId_eq_false hnew, ne_eq, not_true_eq_false, Bool.false_eq_true, or_self, if_false, hread,
    vbind_ok, heq, hdrop, hput]

end Swap

end Commands

/-! ### The statement -/

/-- Settles O28: each clause is the rule above of its command and outcome, or what one reference does. -/
theorem veinPages_results : Obligations.VeinPages := by
  unfold Obligations.VeinPages
  refine ⟨?_, ?_, ?_, ?_, ?_⟩
  · exact fun s p ws req h hexact hgood hw => ⟨exec_pageAlloc_free h hw hexact hgood, exec_pageAlloc_used h hw hexact hgood⟩
  · intro s p q0 ws req h hany hclean hseam hmem hfree hw
    have hne := List.ne_nil_of_mem (List.mem_filter.2 ⟨hmem, hfree⟩)
    obtain ⟨hpool, hpick⟩ := List.mem_filter.1 (pickFrame_mem hne)
    exact ⟨_, hpool, hpick, exec_pageAlloc_any h hw hany hclean hseam hne⟩
  · exact fun s s1 s2 p k ws req ids hlist hw => ⟨exec_pageRef hlist hw, exec_pageUnref hlist hw⟩
  · exact fun s s1 p ws req bs h ha hold hnew hread => ⟨exec_mapSwap_mismatch h ha hold hnew hread,
      fun s2 s3 => exec_mapSwap_match h ha hold hnew hread⟩
  · intro s id hid hgood
    refine ⟨fun hc => ?_, fun hc => ?_, fun hc hroom => ?_, fun k hk => ⟨pageRef_page_other hk, pageUnref_page_other hk⟩⟩
    · refine ⟨_, pageRef_room hid hgood hc, ?_, ?_, refAdded_limbo id s, rfl⟩ <;> rw [refAdded_page]
    · refine ⟨_, pageUnref_shared hid hgood hc, ?_, rfl⟩
      rw [State.page_setPage]
    · refine ⟨_, pageUnref_last hid hgood hc hroom, ?_, ?_, rfl, rfl⟩ <;> rw [lastDropped_page]

end Sys2Proof.Machine
end

section
/-! The Mill's instructions (R251, R259 to R262): what follows the fetch of an instruction, and what a result that passes its check
leaves; then the statement about their arithmetic (O29). -/

namespace Sys2Proof.Machine

/-! ### The fetch (R244, R251) -/

/-- A step whose lines are sound acts on the state after they are read. -/
theorem decoded_sound {s s' : State} {e lo n : Nat} (f : State → State) (h : millDecode e lo n s = (s', false)) :
    decoded e lo n f s = f s' := by
  simp only [decoded, h, Bool.false_eq_true, if_false]

/-- An instruction that the program has reached acts on the state after its fetch. -/
theorem millStep_at {s s' : State} {e op : Nat} {w : Word} {sh : Shard} {b : Block} (ha : Safety.MillAt s s' e op w sh b)
    (f : Shard → Block → State → State) : millStep e op w f s = .next (f sh b s') := by
  obtain ⟨hruns, hcur, hblock, hstage, hword, hop, hfetch⟩ := ha
  simp only [millStep, hcur, hblock, hruns, hstage, hword, hop, and_self, if_true, decoded_sound _ hfetch]

/-! ### A lane register written, and a retry counted (R259, R262) -/

@[simp] theorem millWrite_eng (e : Nat) (w : Word) (v : List Word) (s : State) :
    (millWrite e w v s).eng e = { s.eng e with fregs := Tbl.put (s.eng e).fregs (mFd w) v, pc := (s.eng e).pc + 1 } :=
  State.eng_setEng _ _ _

@[simp] theorem millBump_eng (e : Nat) (s : State) :
    (millBump e s).eng e = { s.eng e with retries := satInc 0xFFFF (s.eng e).retries } := State.eng_setEng _ _ _

/-- A lane register written, and the next place. -/
theorem millResult_of_write (e : Nat) (w : Word) (v : List Word) (s : State) :
    Safety.MillResult s (millWrite e w v s) e w v where
  lanes := freg_put_same _ _ v (by rw [millWrite_eng])
  others _ hk := freg_put_other _ (s.eng e) v (by rw [millWrite_eng]) hk
  scalars := by rw [millWrite_eng]
  place := by rw [millWrite_eng]
  block := by rw [millWrite_eng]
  shard := by rw [millWrite_eng]
  stock := rfl
  seams := rfl

/-- The retry counted is no part of the result. -/
theorem millResult_of_retry {s t : State} {e : Nat} {w : Word} {v : List Word} (h : Safety.MillResult (millBump e s) t e w v) :
    Safety.MillResult s t e w v := by
  obtain ⟨lanes, others, scalars, place, block, shard, stock, seams⟩ := h
  rw [millBump_eng] at scalars place block shard
  exact ⟨lanes, fun k hk => (others k hk).trans (freg_congr (by rw [millBump_eng]) k), scalars, place, block, shard, stock, seams⟩

/-! ### Residue verdicts (R262, R383) -/

section Verdict

variable {s : State} {e mm : Nat} {w : Word} (hen : s.chr.residueEn = true) (good free : State → State)
include hen

/-- A result that passes its check, at once or on the one retry, is used. -/
theorem millChecked_passes (hmm : mm ≤ 1) :
    millChecked e w mm good free s = good s ∨ millChecked e w mm good free s = good (millBump e s) := by
  obtain rfl | rfl : mm = 0 ∨ mm = 1 := by omega
  · exact .inl rfl
  · exact .inr (by simp only [millChecked, residue_one hen])

theorem millChecked_fault (hmm : 2 ≤ mm) :
    millChecked e w mm good free s = millFence e (s.setEng e { s.eng e with faultOp := mOp w }) := by
  simp only [millChecked, residue_fault hen hmm]

end Verdict

/-! ### The arithmetic pipe (R260) -/

section Arith

variable {s₀ s : State} {e op mm : Nat} {w : Word} {sh : Shard} {b : Block} {g : Eng → List Word}
  (hen : s.chr.residueEn = true) (ha : Safety.MillAt s₀ s e op w sh b)
include hen ha

/-- A command that is the pipe with function `g` of the registers, on a result that passes its check. -/
theorem exec_millArith_result {i : Instr} (hi : exec i s₀ = millArith e op w mm g s₀)
    (hg : ∀ x k, g { x with retries := k } = g x) (hmm : mm ≤ 1) :
    ∃ t, exec i s₀ = .next t ∧ Safety.MillResult s t e w (g (s.eng e)) := by
  refine ⟨_, hi.trans (millStep_at ha _), ?_⟩
  obtain h | h := millChecked_passes (e := e) (w := w) hen (fun s => millWrite e w (g (s.eng e)) s)
    (fun s => millWrite e w (freeWords s).2 (freeWords s).1) hmm <;> rw [h]
  · exact millResult_of_write e w _ s
  · rw [millBump_eng, hg]
    exact millResult_of_retry (millResult_of_write e w _ _)

/-- A second mismatch fences the engine and records the opcode. -/
theorem millArith_fault (hmm : 2 ≤ mm) :
    millArith e op w mm g s₀ = .next (millFence e (s.setEng e { s.eng e with faultOp := op })) := by
  rw [millArith, millStep_at ha, millChecked_fault hen _ _ hmm, ha.opcode]

end Arith

section Commands

variable (e : Nat) (w : Word) (mm : Nat) (s : State)

theorem exec_millAdd : exec (.millAdd e w mm) s = millArith e 0x01 w mm (lanes2 fpAdd w) s := rfl

theorem exec_millSub : exec (.millSub e w mm) s = millArith e 0x02 w mm (lanes2 fpSub w) s := rfl

theorem exec_millMul : exec (.millMul e w mm) s = millArith e 0x03 w mm (lanes2 fpMul w) s := rfl

theorem exec_millFma : exec (.millFma e w mm) s = millArith e 0x04 w mm (lanes3 fpFma w) s := rfl

theorem exec_millMin : exec (.millMin e w mm) s = millArith e 0x05 w mm (lanes2 fpMin w) s := rfl

theorem exec_millMax : exec (.millMax e w mm) s = millArith e 0x06 w mm (lanes2 fpMax w) s := rfl

theorem exec_millCmp : exec (.millCmp e w mm) s = millArith e 0x07 w mm (lanes2 (fpCmp (mSub w)) w) s := rfl

theorem exec_millSel : exec (.millSel e w mm) s = millArith e 0x08 w mm (lanes3 fpSel w) s := rfl

theorem exec_millRsqrt : exec (.millRsqrt e w mm) s
    = millArith e 0x09 w mm (fun x => (freg x (mFa w)).map fpRsqrt) s := rfl

theorem exec_millRecip : exec (.millRecip e w mm) s
    = millArith e 0x0A w mm (fun x => (freg x (mFa w)).map fpRecip) s := rfl

end Commands

/-- Settles O29: each of the ten commands is the pipe with its opcode's function, which reads no count of retries. (The obligation's
own name is the model's pipe.) -/
theorem millArith_results : Obligations.MillArith := by
  unfold Obligations.MillArith
  refine ⟨?_, fun s₀ s e op mm w sh b g hmm hen ha => millArith_fault hen ha hmm⟩
  intro s₀ s e mm w sh b hmm hen
  have result {i : Instr} {op : Nat} {g : Eng → List Word} (hi : exec i s₀ = millArith e op w mm g s₀)
      (hg : ∀ x k, g { x with retries := k } = g x) (ha : Safety.MillAt s₀ s e op w sh b) :=
    exec_millArith_result hen ha hi hg hmm
  exact ⟨result (exec_millAdd e w mm s₀) fun _ _ => rfl, result (exec_millSub e w mm s₀) fun _ _ => rfl,
    result (exec_millMul e w mm s₀) fun _ _ => rfl, result (exec_millFma e w mm s₀) fun _ _ => rfl,
    result (exec_millMin e w mm s₀) fun _ _ => rfl, result (exec_millMax e w mm s₀) fun _ _ => rfl,
    result (exec_millCmp e w mm s₀) fun _ _ => rfl, result (exec_millSel e w mm s₀) fun _ _ => rfl,
    result (exec_millRsqrt e w mm s₀) fun _ _ => rfl, result (exec_millRecip e w mm s₀) fun _ _ => rfl⟩

end Sys2Proof.Machine
end

section
/-! The course of a Mill block (R244 to R247, R251, R256, R261, R263, R266): one rule per event and outcome; then the statement about
them (O30). -/

namespace Sys2Proof.Machine

/-! ### An engine's fields after the shared operations (R244, R247, R268) -/

@[simp] theorem setShard_eng (e : Nat) (sh : Shard) (s : State) : (setShard e sh s).eng e = { s.eng e with cur := some sh } :=
  State.eng_setEng _ _ _

@[simp] theorem showPos_eng (e : Nat) (s : State) :
    (showPos e s).eng e = { s.eng e with cur := (s.eng e).cur.map (fun sh => { sh with pos := listPos (s.eng e) sh }) } :=
  State.eng_setEng _ _ _

@[simp] theorem millCopy_eng (e : Nat) (b : Block) (gs : List (List Byte × Byte)) (s : State) :
    (millCopy e b gs s).eng e = { s.eng e with pc := (s.eng e).pc + 1, block := some { b with copy := gs } } :=
  State.eng_setEng _ _ _

theorem logEvent_eng (u i c : Nat) (d : List (Nat × Nat × Nat)) (s : State) (e : Nat) : (logEvent u i c d s).eng e = s.eng e := by
  rw [State.eng, logEvent_engs, State.eng]

/-! ### None of them waits (R57) -/

@[simp] theorem setShard_waited (e : Nat) (sh : Shard) (s : State) : (setShard e sh s).waited = s.waited := rfl

@[simp] theorem showPos_waited (e : Nat) (s : State) : (showPos e s).waited = s.waited := rfl

@[simp] theorem freshLines_waited (e lo n : Nat) (s : State) : (freshLines e lo n s).waited = s.waited := rfl

@[simp] theorem shardStop_waited (e : Nat) (st : Status) (s : State) : (shardStop e st s).waited = s.waited := rfl

@[simp] theorem millDecode_waited (e lo n : Nat) (s : State) : (millDecode e lo n s).1.waited = s.waited :=
  foldl_waited _ _ (fun s _ => noteRead_waited _ _ _ _ s) s

theorem decoded_waited (e lo n : Nat) {f : State → State} (h : ∀ t, (f t).waited = t.waited) (s : State) :
    (decoded e lo n f s).waited = s.waited := by
  simp only [decoded]
  split
  · rw [shardStop_waited, millDecode_waited]
  · rw [h, millDecode_waited]

@[simp] theorem startReplay_waited (e : Nat) (b : Block) (s : State) : (startReplay e b s).waited = s.waited := by
  simp only [startReplay]
  rw [decoded_waited _ _ _ fun t => State.setEng_waited t _ _, State.setEng_waited]

@[simp] theorem advance_waited (e : Nat) (s : State) : (advance e s).waited = s.waited := by
  simp only [advance, showPos_waited]
  split
  · split
    · exact startReplay_waited _ _ _
    · rfl
  · rfl

/-! ### The block read ahead first is taken (R251, R263) -/

section Advance

variable {s : State} {e : Nat} {b : Block} {rest : List Block}

theorem advance_of_block (h : (s.eng e).block = some b) : advance e s = showPos e s := by
  simp only [advance, h]

theorem advance_of_none_ahead (hb : (s.eng e).block = none) (ha : (s.eng e).ahead = []) : advance e s = showPos e s := by
  simp only [advance, hb, ha]

theorem advance_of_open (hb : (s.eng e).block = none) (ha : (s.eng e).ahead = b :: rest) (hopen : b.cls ≠ 1) :
    advance e s = showPos e (s.setEng e { s.eng e with ahead := rest, block := some b }) := by
  simp only [advance, hb, ha, if_neg hopen]

/-- A Half block's weight phase starts from the state read (R263). -/
theorem advance_of_half {s₁ : State} (hb : (s.eng e).block = none) (ha : (s.eng e).ahead = b :: rest) (hhalf : b.cls = 1)
    (hsound : millDecode e (stageLine b) 768 (s.setEng e { s.eng e with ahead := rest, block := some b }) = (s₁, false)) :
    advance e s = showPos e (s₁.setEng e { s₁.eng e with
      fregs := weightRegs { s.eng e with ahead := rest, block := some b } b.m b.v b.w, pc := weightStart (s.eng e).prog
      phase := 3, progressAt := s₁.now, block := some { b with stage := 2 } }) := by
  simp only [advance, hb, ha, if_pos hhalf, startReplay, State.eng_setEng, State.setEng_setEng, decoded_sound _ hsound]

end Advance

/-! ### The registers a phase starts from (R261) -/

theorem freg_weightRegs {x y : Eng} {m v w : List Word} (h : x.fregs = weightRegs y m v w) :
    freg x 1 = m ∧ freg x 2 = v ∧ freg x 3 = w := by
  simp only [freg, h, weightRegs, Tbl.look_put, reduceIte, Nat.reduceEqDiff, and_self]

/-- An engine at the start of a block's moment phase. -/
def momentStarted (b : Block) (g : List Word) (x : Eng) : Eng :=
  { x with fregs := Tbl.put (weightRegs x b.m b.v b.w) 0 g, pc := 0, phase := 1, block := some { b with stage := 1 } }

theorem freg_momentStarted (b : Block) (g : List Word) (x : Eng) :
    freg (momentStarted b g x) 0 = g ∧ freg (momentStarted b g x) 1 = b.m ∧ freg (momentStarted b g x) 2 = b.v
      ∧ freg (momentStarted b g x) 3 = b.w := by
  simp only [freg, momentStarted, weightRegs, Tbl.look_put, reduceIte, Nat.reduceEqDiff, OfNat.ofNat_ne_zero, one_ne_zero, and_self]

theorem startMoment_sound {s s' : State} {e : Nat} {b : Block} (g : List Word) (h : millDecode e (stageLine b) 768 s = (s', false)) :
    startMoment e b g s = s'.setEng e (momentStarted b g (s'.eng e)) := decoded_sound _ h

/-! ### Reads and writes that succeed -/

theorem orStop_ok (e : Nat) (s : State) (bs : List Byte) (f : List Byte → State → State) : orStop e (s, bs, .ok) f = f bs s :=
  if_pos rfl

theorem thenWrite_ok (e : Nat) (s : State) (a : Nat) (bs : List Byte) : thenWrite e (s, .ok) a bs = mWrite e a bs s := if_pos rfl

theorem afterWrite_ok (e : Nat) (s : State) (b : Block) (stage : Nat) :
    afterWrite e (s, .ok) b stage = s.setEng e { s.eng e with wback := { b with stage := stage } :: (s.eng e).wback.drop 1 } :=
  if_pos rfl

theorem finishBlock_ok (e : Nat) (s : State) (sh : Shard) :
    finishBlock e (s, .ok) sh = s.setEng e { s.eng e with wback := (s.eng e).wback.drop 1, cur := some sh } := if_pos rfl

/-! ### Classification (R247) -/

/-- The block that a journal line describes (Table 9-2). -/
def journalBlock (sh : Shard) (b : Nat) (j : List Byte) : Block :=
  { index := b, pos := sh.seen.length, mbank := bits 0 0 (leAt j 8 1), wbank := bits 1 1 (leAt j 8 1)
    mtag := leAt j 0 4, wtag := leAt j 4 4, sumsq := BitVec.ofNat 32 (leAt j 12 4) }

/-- The shard once its order list has named block `b` (R250). -/
def Shard.withSeen (sh : Shard) (b : Nat) : Shard := { sh with seen := sh.seen ++ [b] }

/-- A block read ahead, with the state read (R245). -/
def Block.withState (b : Block) (m v w : List Byte) : Block := { b with m := blockWords m, v := blockWords v, w := blockWords w }

theorem readAhead_sound {s s₁ s₂ s₃ : State} {e : Nat} {sh : Shard} {b : Block} {m v w : List Byte}
    (hm : mRead e (bankDpa sh 4 b.mbank b.index) 0x4000 s = (s₁, m, .ok))
    (hv : mRead e (bankDpa sh 6 b.mbank b.index) 0x4000 s₁ = (s₂, v, .ok))
    (hw : mRead e (bankDpa sh 8 b.wbank b.index) 0x4000 s₂ = (s₃, w, .ok)) :
    readAhead e sh b s = advance e (freshLines e (stageLine b) 768
      (s₃.setEng e { s₃.eng e with ahead := (s₃.eng e).ahead ++ [b.withState m v w] })) := by
  simp only [readAhead, hm, hv, hw, orStop_ok, Block.withState]

/-- The state in which a Done block's landed lines are gone and it is counted (R247, R255). -/
def doneCounted (e : Nat) (sh : Shard) (b : Nat) (s : State) : State :=
  let t := dropLanded e sh.id b (setShard e { sh.withSeen b with doneBefore := sh.doneBefore + 1 } s)
  t.setEng e { t.eng e with progressAt := t.now }

@[simp] theorem doneCounted_eng (e : Nat) (sh : Shard) (b : Nat) (s : State) :
    (doneCounted e sh b s).eng e = { s.eng e with
      cur := some { sh.withSeen b with doneBefore := sh.doneBefore + 1 }, progressAt := s.now
      landed := (s.eng e).landed.filter (fun l => !(l.1 == sh.id && l.2.1 / 256 == b))
      late := satAdd 0xFFFF (s.eng e).late ((s.eng e).landed.filter (fun l => l.1 == sh.id && l.2.1 / 256 == b)).length } := by
  simp only [doneCounted, dropLanded, setShard_eng, State.eng_setEng]
  rfl

@[simp] theorem doneCounted_waited (e : Nat) (sh : Shard) (b : Nat) (s : State) : (doneCounted e sh b s).waited = s.waited := rfl

section Classify

variable {s : State} {e b : Nat} {sh : Shard} {j : List Byte}

section Tags

variable (hm : leAt j 0 4 = shStep sh - 1) (hw : leAt j 4 4 = shStep sh - 1)
include hm hw

theorem classify_open_update (hmode : shMode sh = 1) :
    classify e sh b j s = readAhead e (sh.withSeen b) (journalBlock sh b j) (setShard e (sh.withSeen b) s) :=
  (if_pos ⟨hm, hw⟩).trans (if_pos hmode)

theorem classify_open_resume (hmode : shMode sh ≠ 1) :
    classify e sh b j s = showPos e (setShard e { sh.withSeen b with left := sh.left + 1 } s) :=
  (if_pos ⟨hm, hw⟩).trans (if_neg hmode)

end Tags

section Stepped

variable (hstep : shStep sh - 1 ≠ shStep sh) (hm : leAt j 0 4 = shStep sh)
include hstep hm

theorem classify_half (hw : leAt j 4 4 = shStep sh - 1) :
    classify e sh b j s = readAhead e (sh.withSeen b) { journalBlock sh b j with cls := 1 }
      (dropLanded e sh.id b (setShard e (sh.withSeen b) s)) :=
  (if_neg fun h => hstep (h.1.symm.trans hm)).trans (if_pos ⟨hm, hw⟩)

theorem classify_done (hw : leAt j 4 4 = shStep sh) : classify e sh b j s = showPos e (doneCounted e sh b s) :=
  (if_neg fun h => hstep (h.1.symm.trans hm)).trans
    ((if_neg fun h => hstep (h.2.symm.trans hw)).trans (if_pos ⟨hm, hw⟩))

end Stepped

theorem classify_foreign (hprev : leAt j 0 4 ≠ shStep sh - 1) (hstep : leAt j 0 4 ≠ shStep sh) :
    classify e sh b j s = shardStop e .denied (setShard e (sh.withSeen b) s) :=
  (if_neg fun h => hprev h.1).trans ((if_neg fun h => hstep h.1).trans (if_neg fun h => hstep h.1))

/-! ### The next block read and classified (R250, R251) -/

section Read

variable {s₀ s₁ : State} (hruns : millRuns s₀ e = true) (hcur : (s₀.eng e).cur = some sh) (hroom : inFlight (s₀.eng e) < 16)
  (hmore : sh.seen.length < shBlocks sh) (horder : orderRead e sh s₀ = (s₁, b, .ok)) (hb : b < shBlocks sh) (hnew : b ∉ sh.seen)
  (hjrnl : mRead e (jrnlDpa sh b) 64 s₁ = (s, j, .ok))
include hruns hcur hroom hmore horder hb hnew hjrnl

/-- The next block of the list is classified by its journal line. -/
theorem exec_blockClassify {t : State} (hclass : classify e sh b j s = t) (hw : t.waited = false) :
    exec (.blockClassify e) s₀ = .next t := by
  change execBlockClassify e s₀ = _
  have hgood : ¬ (shBlocks sh ≤ b ∨ sh.seen.contains b = true) := by simp [hnew, hb]
  simp only [execBlockClassify, unlessHeld, hcur, hruns, hroom, hmore, and_self, if_true, horder, ne_eq, not_true_eq_false, if_false,
    if_neg hgood, hjrnl, orStop_ok, hclass, hw, Bool.false_eq_true]

/-- A block that goes on is read ahead: its state is read from its current banks (R251). -/
theorem exec_blockClassify_ahead {s₃ s₄ s₅ s₆ : State} {blk : Block} {m v w : List Byte}
    (hclass : classify e sh b j s = readAhead e (sh.withSeen b) blk s₃)
    (hm : mRead e (bankDpa (sh.withSeen b) 4 blk.mbank blk.index) 0x4000 s₃ = (s₄, m, .ok))
    (hv : mRead e (bankDpa (sh.withSeen b) 6 blk.mbank blk.index) 0x4000 s₄ = (s₅, v, .ok))
    (hwt : mRead e (bankDpa (sh.withSeen b) 8 blk.wbank blk.index) 0x4000 s₅ = (s₆, w, .ok)) (hw : s₆.waited = false) :
    exec (.blockClassify e) s₀ = .next (advance e (freshLines e (stageLine blk) 768
      (s₆.setEng e { s₆.eng e with ahead := (s₆.eng e).ahead ++ [blk.withState m v w] }))) := by
  refine exec_blockClassify hruns hcur hroom hmore horder hb hnew hjrnl (hclass.trans (readAhead_sound hm hv hwt)) ?_
  rw [advance_waited, freshLines_waited, State.setEng_waited, hw]

end Read

end Classify

/-! ### The check of a gradient (R256) -/

/-- A block's landed gradient is taken: its lines leave the buffer. -/
def gradientTaken (e : Nat) (sh : Shard) (b : Block) (s : State) : State :=
  s.setEng e { s.eng e with
    cur := some sh, block := some b, progressAt := s.now
    landed := (s.eng e).landed.filter (fun l => !(l.1 == sh.id && l.2.1 / 256 == b.index)) }

/-- The shard with a block's sum of squares added (R257). -/
def Shard.withSumsq (sh : Shard) (g : List Word) : Shard := { sh with sumsq := sh.sumsq ++ [blockSumsq g] }

/-- The block with its sum of squares (R256). -/
def Block.withSumsq (b : Block) (g : List Word) : Block := { b with sumsq := blockSumsq g }

/-- A gradient of that sum of squares is over the shard's limit (R256). -/
def overLimit (sh : Shard) (g : List Word) : Bool := (numOfWord (BitVec.ofNat 32 (hw sh 20))).lt false (numOfWord (blockSumsq g))

section Compute

variable {s s₀ : State} {e : Nat} {sh : Shard} {b : Block} {g : List Word} (hruns : millRuns s e = true)
  (hcur : (s.eng e).cur = some sh) (hblock : (s.eng e).block = some b) (hstage : b.stage = 0)
  (hgrad : gradient (s.eng e) sh.id b.index = some g) (hsound : millDecode e (256 * b.index % 65536) 256 s = (s₀, false))
include hruns hcur hblock hstage hgrad hsound

/-- A finite gradient is checked: one with a duplicate line or over the limit fails. -/
theorem exec_blockCompute_finite (hfinite : g.any notFinite = false) :
    exec (.blockCompute e) s = .next (
      if (s₀.eng e).dups.contains (sh.id, b.index) || overLimit sh g then
        failBlock e (sh.withSumsq g) (b.withSumsq g) (gradientTaken e (sh.withSumsq g) (b.withSumsq g) s₀)
      else startMoment e (b.withSumsq g) g (gradientTaken e (sh.withSumsq g) (b.withSumsq g) s₀)) := by
  change execBlockCompute e s = _
  simp only [execBlockCompute, hcur, hblock, hruns, hstage, and_self, if_true, hgrad, decoded_sound _ hsound, hfinite,
    Bool.false_eq_true, if_false, Bool.false_or, gradientTaken, Shard.withSumsq, Block.withSumsq, overLimit]
  rfl

theorem exec_blockCompute_starts {s₁ : State} (hfinite : g.any notFinite = false)
    (hdup : (s₀.eng e).dups.contains (sh.id, b.index) = false) (hlimit : overLimit sh g = false)
    (hstate : millDecode e (stageLine b) 768 (gradientTaken e (sh.withSumsq g) (b.withSumsq g) s₀) = (s₁, false)) :
    exec (.blockCompute e) s = .next (s₁.setEng e (momentStarted (b.withSumsq g) g (s₁.eng e))) := by
  rw [exec_blockCompute_finite hruns hcur hblock hstage hgrad hsound hfinite, hdup, hlimit, if_neg (by decide),
    startMoment_sound g (b := b.withSumsq g) hstate]

theorem exec_blockCompute_fails (hfinite : g.any notFinite = false)
    (hbad : (s₀.eng e).dups.contains (sh.id, b.index) = true ∨ overLimit sh g = true) :
    exec (.blockCompute e) s = .next (failBlock e (sh.withSumsq g) (b.withSumsq g)
      (gradientTaken e (sh.withSumsq g) (b.withSumsq g) s₀)) := by
  rw [exec_blockCompute_finite hruns hcur hblock hstage hgrad hsound hfinite, if_pos (Bool.or_eq_true_iff.2 hbad)]

theorem exec_blockCompute_notFinite (hbad : g.any notFinite = true) :
    exec (.blockCompute e) s = .next (failBlock e sh { b with sumsq := 0x7FC00000 }
      (gradientTaken e sh { b with sumsq := 0x7FC00000 } s₀)) := by
  change execBlockCompute e s = _
  simp only [execBlockCompute, hcur, hblock, hruns, hstage, and_self, if_true, hgrad, decoded_sound _ hsound, hbad, Bool.true_or]
  rfl

end Compute

/-! ### To write-back (R256, R263) -/

theorem toWriteback_last {s : State} {e : Nat} (b : Block) (h : (s.eng e).ahead = []) :
    toWriteback e b s
      = showPos e (s.setEng e { s.eng e with block := none, phase := 0, wback := (s.eng e).wback ++ [b] }) := by
  rw [toWriteback]
  exact advance_of_none_ahead (by rw [State.eng_setEng]) (by rw [State.eng_setEng, h])

/-- The shard with its first failing block noted (R256). -/
def Shard.withFlag (sh : Shard) (b : Block) : Shard := if sh.flagged.isNone then { sh with flagged := some b.pos } else sh

/-- The event of a first flagged shard leaves the engines. -/
theorem failBlock_eng (e : Nat) (sh : Shard) (b : Block) (s : State) :
    (failBlock e sh b s).eng e = (toWriteback e { b with stage := 8 } (setShard e (sh.withFlag b) s)).eng e := by
  unfold failBlock
  extract_lets first sh' t
  split
  · exact logEvent_eng _ _ _ _ _ e
  · rfl

/-! ### MEND, QMX and END (R261, R266) -/

section Program

variable {s₀ s : State} {e mm : Nat} {w : Word} {sh : Shard} {b : Block}

theorem exec_millMend (ha : Safety.MillAt s₀ s e 0x10 w sh b) :
    exec (.millMend e w) s₀ = .next (s.setEng e { s.eng e with
      pc := (s.eng e).pc + 1, phase := 2, fregs := Tbl.put (s.eng e).fregs 3 b.w
      block := some { b with stage := 2, m := freg (s.eng e) 1, v := freg (s.eng e) 2 } }) := millStep_at ha _

/-- QMX takes its copy from the registers, which a retry leaves. -/
theorem exec_millQmx (ha : Safety.MillAt s₀ s e 0x11 w sh b) (hmm : mm ≤ 1) (hen : s.chr.residueEn = true) :
    ∃ u, exec (.millQmx e w mm) s₀
        = .next (millCopy e b (quantGroups sh b.index (mSub w == 1) (freg (s.eng e) (mFa w))) u)
      ∧ (u = s ∨ u = millBump e s) := by
  change ∃ u, execMillQmx e w mm s₀ = _ ∧ _
  rw [execMillQmx, millStep_at ha]
  obtain h | h := millChecked_passes (e := e) (w := w) hen
    (fun s => millCopy e b (quantGroups sh b.index (mSub w == 1) (freg (s.eng e) (mFa w))) s)
    (fun s => millCopy e b (quantGroups sh b.index (mSub w == 1) (freeWords s).2) (freeWords s).1) hmm
  · exact ⟨s, congrArg Host.Outcome.next h, .inl rfl⟩
  · refine ⟨millBump e s, (congrArg Host.Outcome.next h).trans ?_, .inr rfl⟩
    rw [millBump_eng]
    rfl

theorem exec_millEnd (ha : Safety.MillAt s₀ s e 0x3F w sh b) :
    exec (.millEnd e w) s₀ = .next (
      let b' := { b with w := freg (s.eng e) 3 }
      if (b.m ++ b.v ++ freg (s.eng e) 3).any notFinite then failBlock e sh b' s
      else toWriteback e { b' with stage := if b.cls = 0 then 4 else 6 } s) := millStep_at ha _

end Program

/-! ### The writes of a block (R263) -/

section Writeback

variable {s s₁ s₂ : State} {e : Nat} {sh : Shard} {b : Block} {rest : List Block} (hruns : millRuns s e = true)
  (hcur : (s.eng e).cur = some sh) (hback : (s.eng e).wback = b :: rest) (hw : s₂.waited = false)
include hruns hcur hback hw

theorem exec_blockWritebackDone_moments (hstage : b.stage = 4)
    (hm : mWrite e (bankDpa sh 4 (1 - b.mbank) b.index) (wordBytes b.m) s = (s₁, .ok))
    (hv : mWrite e (bankDpa sh 6 (1 - b.mbank) b.index) (wordBytes b.v) s₁ = (s₂, .ok)) :
    exec (.blockWritebackDone e) s = .next (afterWrite e (s₂, .ok) b 5) := by
  change execBlockWritebackDone e s = _
  simp only [execBlockWritebackDone, unlessHeld, hcur, hback, hruns, if_true, hstage, hm, thenWrite_ok, hv, afterWrite_ok,
    State.setEng_waited, hw, Bool.false_eq_true, if_false]

theorem exec_blockWritebackDone_firstLine (hstage : b.stage = 5)
    (hj : mWrite e (jrnlDpa sh b.index) (jrnlLine (shStep sh) b.wtag (1 - b.mbank) b.wbank false b.sumsq) s = (s₂, .ok)) :
    exec (.blockWritebackDone e) s
      = .next (afterWrite e (s₂, .ok) { b with mtag := shStep sh, mbank := 1 - b.mbank } 6) := by
  change execBlockWritebackDone e s = _
  simp only [execBlockWritebackDone, unlessHeld, hcur, hback, hruns, if_true, hstage, hj, afterWrite_ok,
    State.setEng_waited, hw, Bool.false_eq_true, if_false]

theorem exec_blockWritebackDone_weights (hstage : b.stage = 6)
    (hwt : mWrite e (bankDpa sh 8 (1 - b.wbank) b.index) (wordBytes b.w) s = (s₁, .ok))
    (hcopy : shFmt sh = 0xF ∧ s₂ = s₁ ∨ shFmt sh ≠ 0xF
      ∧ mWrite e (hdpa sh 14 + b.index * copySize sh) (copyBytes (shBroad sh) b.copy) s₁ = (s₂, .ok)) :
    exec (.blockWritebackDone e) s = .next (afterWrite e (s₂, .ok) b 7) := by
  change execBlockWritebackDone e s = _
  obtain ⟨hnone, rfl⟩ | ⟨hfmt, hcopy⟩ := hcopy
  · simp only [execBlockWritebackDone, unlessHeld, hcur, hback, hruns, if_true, hstage, hwt, hnone, afterWrite_ok,
      State.setEng_waited, hw, Bool.false_eq_true, if_false]
  · simp only [execBlockWritebackDone, unlessHeld, hcur, hback, hruns, if_true, hstage, hwt, if_neg hfmt, thenWrite_ok, hcopy,
      afterWrite_ok, State.setEng_waited, hw, Bool.false_eq_true, if_false]

theorem exec_blockWritebackDone_lastLine (hstage : b.stage = 7)
    (hj : mWrite e (jrnlDpa sh b.index) (jrnlLine (shStep sh) (shStep sh) b.mbank (1 - b.wbank) false b.sumsq) s = (s₂, .ok)) :
    exec (.blockWritebackDone e) s = .next (finishBlock e (s₂, .ok)
      (if b.cls = 0 then { sh with updated := sh.updated + 1 } else { sh with replayed := sh.replayed + 1 })) := by
  change execBlockWritebackDone e s = _
  simp only [execBlockWritebackDone, unlessHeld, hcur, hback, hruns, if_true, hstage, hj, finishBlock_ok,
    State.setEng_waited, hw, Bool.false_eq_true, if_false]

theorem exec_blockWritebackDone_skipped (hstage : b.stage = 8)
    (hj : mWrite e (jrnlDpa sh b.index) (jrnlLine (shStep sh) (shStep sh) b.mbank b.wbank true b.sumsq) s = (s₂, .ok)) :
    exec (.blockWritebackDone e) s = .next (finishBlock e (s₂, .ok) { sh with skipped := sh.skipped + 1 }) := by
  change execBlockWritebackDone e s = _
  simp only [execBlockWritebackDone, unlessHeld, hcur, hback, hruns, if_true, hstage, hj, finishBlock_ok,
    State.setEng_waited, hw, Bool.false_eq_true, if_false]

end Writeback

/-! ### The statement -/

/-- Settles O30: each clause is the rule above of its event and outcome. -/
theorem millBlocks : Obligations.MillBlocks := by
  unfold Obligations.MillBlocks
  refine ⟨?_, ?_, ?_, ?_, ?_, ?_⟩
  · intro s s1 s2 e b sh j hruns hcur hroom hmore horder hb hnew hjrnl n mtag wtag sh' blk set
    have classified {t : State} (h : classify e sh b j s2 = t) := exec_blockClassify hruns hcur hroom hmore horder hb hnew hjrnl h
    refine ⟨?_, fun hm hw hmode hwait => ?_, fun hstep hm hw hwait => ?_, fun hprev hstep hwait => ?_⟩
    · intro cls s3 s4 s5 s6 m v w hcls hmr hvr hwr hwait
      have hahead : classify e sh b j s2 = readAhead e (sh.withSeen b) { journalBlock sh b j with cls := cls } s3 := by
        obtain ⟨hm, hw, hmode, rfl, rfl⟩ | ⟨hstep, hm, hw, rfl, rfl⟩ := hcls
        · exact classify_open_update hm hw hmode
        · exact classify_half hstep hm hw
      exact exec_blockClassify_ahead hruns hcur hroom hmore horder hb hnew hjrnl hahead hmr hvr hwr hwait
    · refine ⟨_, classified (classify_open_resume hm hw hmode) (by rw [showPos_waited, setShard_waited, hwait]), ?_⟩
      rw [showPos_eng, setShard_eng]
      exact ⟨rfl, rfl, rfl⟩
    · refine ⟨_, classified (classify_done hstep hm hw) (by rw [showPos_waited, doneCounted_waited, hwait]), ?_⟩
      rw [showPos_eng, doneCounted_eng]
      exact ⟨rfl, rfl, rfl, rfl⟩
    · exact ⟨_, classified (classify_foreign hprev hstep) (by rw [shardStop_waited, setShard_waited, hwait]),
        by rw [shardStop, State.eng_setEng]⟩
  · intro s e b rest
    refine ⟨fun hb => ?_, fun hb ha hopen => ?_, fun s1 hb ha hhalf hsound => ?_⟩
    · rw [advance_of_block hb, showPos_eng]
      exact ⟨hb, rfl⟩
    · rw [advance_of_open hb ha hopen, showPos_eng, State.eng_setEng]
      exact ⟨rfl, rfl⟩
    · rw [advance_of_half hb ha hhalf hsound, showPos_eng, State.eng_setEng]
      exact ⟨rfl, rfl, rfl, freg_weightRegs rfl⟩
  · intro s s0 e sh b g hruns hcur hblock hstage hgrad hsound dup large s1 sh' b'
    refine ⟨fun s2 hfinite hdup hlarge hstate => ?_, exec_blockCompute_fails hruns hcur hblock hstage hgrad hsound,
      exec_blockCompute_notFinite hruns hcur hblock hstage hgrad hsound⟩
    refine ⟨_, exec_blockCompute_starts hruns hcur hblock hstage hgrad hsound hfinite hdup hlarge hstate, ?_⟩
    rw [State.eng_setEng]
    obtain ⟨h0, h1, h2, h3⟩ := freg_momentStarted b' g (s2.eng e)
    exact ⟨h0, h1, h2, h3, rfl, rfl, rfl⟩
  · intro s e sh b hlast
    rw [failBlock_eng, toWriteback_last _ (by rw [setShard_eng, hlast]), toWriteback_last _ hlast]
    simp only [showPos_eng, setShard_eng, State.eng_setEng, and_self]
  · intro s₀ s e mm w sh b
    refine ⟨fun ha => ⟨_, exec_millMend ha, ?_⟩, fun ha hmm hen => ?_, fun ha => ?_⟩
    · rw [State.eng_setEng]
      exact ⟨freg_put_same _ _ _ rfl, rfl, rfl, rfl, rfl, rfl⟩
    · obtain ⟨u, hexec, rfl | rfl⟩ := exec_millQmx ha hmm hen
      · exact ⟨_, hexec, by rw [millCopy_eng]; exact ⟨rfl, rfl, rfl, rfl, rfl⟩⟩
      · exact ⟨_, hexec, by rw [millCopy_eng, millBump_eng]; exact ⟨rfl, rfl, rfl, rfl, rfl⟩⟩
    · rw [exec_millEnd ha]
      exact ⟨fun hfinite => by rw [hfinite]; rfl, fun hbad => by rw [hbad]; rfl⟩
  · intro s s1 s2 e sh b rest hruns hcur hback hw t on off
    refine ⟨fun hstage hm hv => ?_, fun hstage hj => ?_, fun hstage hwt hcopy => ?_, fun hstage hj => ?_, fun hstage hj => ?_⟩
    · rw [exec_blockWritebackDone_moments hruns hcur hback hw hstage hm hv, afterWrite_ok]
    · rw [exec_blockWritebackDone_firstLine hruns hcur hback hw hstage hj, afterWrite_ok]
    · rw [exec_blockWritebackDone_weights hruns hcur hback hw hstage hwt hcopy, afterWrite_ok]
    · rw [exec_blockWritebackDone_lastLine hruns hcur hback hw hstage hj, finishBlock_ok]
    · rw [exec_blockWritebackDone_skipped hruns hcur hback hw hstage hj, finishBlock_ok]

end Sys2Proof.Machine
end

section
/-! Flits of an Oluba link (R278 to R292): one rule per way a flit is received or sent; then the statement about them (O35). -/

namespace Sys2Proof.Machine

/-! ### A flit received (R279, R286, R288, R290) -/

section Receive

variable {s : State} {a : Nat} {flit : List Byte} (errs : List (Nat × Nat × Nat)) (hstate : (s.adit a).state = 5)
  (hlen : flit.length = 256)
include hstate hlen

/-- A flit that fails its check carries out nothing; one with a sequence number is refused. -/
theorem exec_flitReceive_bad (hcrc : leAt flit 252 4 ≠ crc32c (flit.take 252)) :
    exec (.flitReceive a flit (false, errs)) s
      = .next (if bit 25 (leAt flit 248 4) then refuseFlit a (fecTake a errs s) else fecTake a errs s) := by
  have hbad : (leAt flit 252 4 == crc32c (flit.take 252)) = false := beq_eq_false_iff_ne.mpr hcrc
  change execFlitReceive a flit (false, errs) s = _
  simp [execFlitReceive, hstate, hlen, hbad]

/-- A good message flit is accepted in sequence and refused out of it, after its returns, unless they retrain the port. -/
theorem exec_flitReceive_sequenced (hcrc : leAt flit 252 4 = crc32c (flit.take 252))
    (hkind : bits 4 2 (leAt flit 0 8) = 1 ∨ bits 4 2 (leAt flit 0 8) = 2) {s' : State}
    (hs' : takeReturns a (leAt flit 0 8) (leAt flit 248 4) (fecTake a errs s) = s') (hactive : (s'.adit a).state = 5) :
    exec (.flitReceive a flit (false, errs)) s = .next (
      if bits 11 0 (leAt flit 248 4) = (s'.adit a).rxNext then
        acceptFlit a (leAt flit 0 8) (parseFlit flit) (bit 51 (leAt flit 0 8)) s'
      else refuseFlit a s') := by
  have hgood : (leAt flit 252 4 == crc32c (flit.take 252)) = true := beq_iff_eq.mpr hcrc
  have hseq : bits 4 2 (leAt flit 0 8) = 1 ∨ bits 4 2 (leAt flit 0 8) = 2 ∨ bit 25 (leAt flit 248 4) = true :=
    hkind.elim .inl (.inr ∘ .inl)
  change execFlitReceive a flit (false, errs) s = _
  simp [execFlitReceive, hstate, hlen, hgood, hs', if_pos hseq, hactive]

end Receive

/-- A flit in sequence, with a legal header and a credit, joins the receive buffer unless its message is being discarded. -/
theorem acceptFlit_joins {s : State} {a h : Nat} {f : MsgFlit} {sh : Bool} (hheader : badHeader (s.adit a).rev h f = false)
    (hcredit : creditUsed (s.adit a) (creditKind f sh) < creditLimit (s.adit a).rev f.vc (creditKind f sh).2)
    (hkept : f.first = true ∨ f.vc ∉ (s.adit a).rxBad) :
    acceptFlit a h f sh s = s.setAdit a { s.adit a with
      rxAck := (s.adit a).rxNext, rxNext := ((s.adit a).rxNext + 1) % 4096, nakSent := false
      rxbuf := (s.adit a).rxbuf ++ [f], rxSh := (s.adit a).rxSh ++ [sh], rxBad := setDel f.vc (s.adit a).rxBad } := by
  have hcredit' : creditUsed (s.adit a) (creditKind f sh) < creditLimit (s.adit a).rev (creditKind f sh).1 (creditKind f sh).2 :=
    hcredit
  have hwhole : (!f.first && (s.adit a).rxBad.contains f.vc) = false := by
    obtain h | h := hkept <;> simp [h]
  simp only [acceptFlit, hheader, hcredit', hwhole, decide_true, Bool.not_true, Bool.or_self, Bool.false_eq_true, if_false]

theorem refuseFlit_first {s : State} {a : Nat} (h : (s.adit a).nakSent = false) :
    refuseFlit a s = s.setAdit a { s.adit a with nakSent := true, nakDue := true } :=
  if_neg (Bool.eq_false_iff.mp h)

/-! ### A flit sent with what every flit carries (R278, R280, R286, R290) -/

theorem takeCredit_fst_congr {x y : Adit} (h : x.credDue = y.credDue) : (takeCredit x).1 = (takeCredit y).1 := by
  simp only [takeCredit, h]
  split <;> rfl

theorem takeCredit_snd (x : Adit) : ∃ due, (takeCredit x).2 = { x with credDue := due } := by
  unfold takeCredit
  split <;> exact ⟨_, rfl⟩

/-- A flit that port `a`, left as `x`, sends carries its ack, its nak and a credit return; nak then no longer waits. -/
theorem withReturns_sends {a : Nat} {x : Adit} {s t : State} (bytes : Nat → Bool → List (Nat × Nat × Nat) → List Byte)
    (ht : withReturns a (fun cr nak s => s.emit (.flit a (bytes (s.adit a).rxAck nak cr))) (s.setAdit a x) = t)
    (hdue : x.credDue = (s.adit a).credDue) :
    t.out = .flit a (bytes x.rxAck x.nakDue (takeCredit (s.adit a)).1) :: s.out
      ∧ ∃ due, t.adit a = { x with credDue := due, nakDue := false } := by
  obtain ⟨due, hsnd⟩ := takeCredit_snd x
  subst ht
  refine ⟨?_, due, ?_⟩ <;>
    simp [withReturns, hsnd, takeCredit_fst_congr hdue]

section Sends

variable {s : State} {a : Nat}

theorem sendIdle_sends (hstate : (s.adit a).state = 5) :
    let x := s.adit a
    (sendIdle a s).out = .flit a (linkBytes 0 [] x.rxAck x.nakDue (takeCredit x).1) :: s.out
      ∧ ∃ due, (sendIdle a s).adit a = { x with credDue := due, nakDue := false } := by
  have hidle : withReturns a (fun cr nak s => s.emit (.flit a (linkBytes 0 [] (s.adit a).rxAck nak cr)))
      (s.setAdit a (s.adit a)) = sendIdle a s := by
    simp [sendIdle, if_neg (show ¬ (s.adit a).state = 4 by omega)]
  exact withReturns_sends (linkBytes 0 []) hidle rfl

theorem sendAgain_sends (e : Flit) (rest : List Flit) :
    let x := s.adit a
    let t := sendAgain a e rest s
    t.out = .flit a (msgBytes e.f e.sh e.seq x.rxAck x.nakDue (takeCredit x).1) :: s.out
      ∧ (t.adit a).resend = rest ∧ (t.adit a).txq = x.txq ∧ (t.adit a).txSeq = x.txSeq := by
  intro x t
  obtain ⟨hout, due, hadit⟩ := withReturns_sends (msgBytes e.f e.sh e.seq) (t := t) rfl rfl
  refine ⟨hout, ?_, ?_, ?_⟩ <;> rw [hadit]

theorem sendNew_sends (i : Nat) (e : Flit) (sh : Bool) (d : List Nat) :
    let x := s.adit a
    let t := sendNew a i e sh d s
    t.out = .flit a (msgBytes e.f sh x.txSeq x.rxAck x.nakDue (takeCredit x).1) :: s.out
      ∧ (t.adit a).replay = x.replay ++ [{ e with seq := x.txSeq, sends := 1, sh := sh }]
      ∧ (t.adit a).txq = listDel x.txq i ∧ (t.adit a).txSeq = (x.txSeq + 1) % 4096 ∧ (t.adit a).nakDue = false := by
  intro x t
  obtain ⟨hout, due, hadit⟩ := withReturns_sends (msgBytes e.f sh x.txSeq) (t := t) rfl rfl
  refine ⟨hout, ?_, ?_, ?_, ?_⟩ <;> rw [hadit]

end Sends

/-! ### A flit slot (R285 to R287, R290, R292) -/

section Slot

variable {s : State} {a : Nat} (hstate : (s.adit a).state = 5)
include hstate

theorem exec_flitSlot_again {e : Flit} {rest : List Flit} (h : (s.adit a).resend = e :: rest) :
    exec (.flitSlot a) s = .next (sendAgain a e rest s) := by
  change execFlitSlot a s = _
  simp [execFlitSlot, hstate, h]

theorem exec_flitSlot_new {v i : Nat} {d : List Nat} {e : Flit} {sh : Bool} (hresend : (s.adit a).resend = [])
    (hroom : (s.adit a).replay.length < 512) (hpick : pickVc (s.adit a) = some (v, d))
    (hready : readyOf (s.adit a) v = some (i, e, sh)) : exec (.flitSlot a) s = .next (sendNew a i e sh d s) := by
  change execFlitSlot a s = _
  simp [execFlitSlot, hstate, hresend, Nat.not_le.mpr hroom, hpick, hready]

/-- An IDLE flit is sent when the replay buffer is full or no VC has a flit with a credit. -/
theorem exec_flitSlot_idle (hresend : (s.adit a).resend = [])
    (hnone : 512 ≤ (s.adit a).replay.length ∨ pickVc (s.adit a) = none) :
    exec (.flitSlot a) s = .next (sendIdle a s) := by
  change execFlitSlot a s = _
  obtain h | h := hnone <;> simp [execFlitSlot, hstate, hresend, h]

end Slot

/-! ### The replay timer (R287) -/

section Replay

variable {s : State} {a : Nat}

theorem linkReplay_again (h : ∀ e ∈ (s.adit a).replay, e.sends < 16) :
    linkReplay a s = s.setAdit a { s.adit a with resend := (s.adit a).replay, ackAt := s.now } := by
  have hany : ¬ (s.adit a).replay.any (fun e => decide (16 ≤ e.sends)) = true := by simpa using h
  exact if_neg hany

theorem linkReplay_limit (h : ∃ e ∈ (s.adit a).replay, 16 ≤ e.sends) : linkReplay a s = enterRetrain a 8 s := by
  have hany : (s.adit a).replay.any (fun e => decide (16 ≤ e.sends)) = true := by simpa using h
  exact if_pos hany

theorem exec_replayTimeout (hstate : (s.adit a).state = 5) (hheld : (s.adit a).replay ≠ [])
    (hdue : (s.adit a).ackAt + 10000 ≤ s.now) : exec (.replayTimeout a) s = .next (linkReplay a s) :=
  congrArg Host.Outcome.next (if_pos ⟨hstate, hheld, hdue⟩)

end Replay

/-! ### The statement -/

/-- Settles O35: each clause is the rule above of its flit or timer. -/
theorem linkFlits : Obligations.LinkFlits := by
  unfold Obligations.LinkFlits
  refine ⟨?_, ?_, ?_, ?_, ?_⟩
  · intro s a flit errs hstate h sw s0 s1
    refine ⟨fun hlen hcrc hkind hactive => ?_, fun hlen hcrc => exec_flitReceive_bad errs hstate hlen hcrc⟩
    rw [exec_flitReceive_sequenced errs hstate hlen hcrc hkind (s' := s1) rfl hactive]
    exact ⟨fun hnext => by rw [if_pos hnext], fun hnext => by rw [if_neg hnext]⟩
  · intro s a h f sh x hheader hcredit hkept
    exact acceptFlit_joins hheader hcredit hkept
  · intro s a h
    exact refuseFlit_first h
  · intro s a hstate x
    refine ⟨fun v d i e sh hresend hroom hpick hready => ?_, fun e rest hresend => ?_, fun hresend hnone => ?_⟩
    · exact ⟨_, exec_flitSlot_new hstate hresend hroom hpick hready, sendNew_sends i e sh d⟩
    · exact ⟨_, exec_flitSlot_again hstate hresend, sendAgain_sends e rest⟩
    · obtain ⟨hout, due, hadit⟩ := sendIdle_sends hstate
      refine ⟨_, exec_flitSlot_idle hstate hresend hnone, hout, ?_⟩
      rw [hadit]
      exact ⟨rfl, rfl, rfl⟩
  · intro s a hstate hheld hdue
    rw [exec_replayTimeout hstate hheld hdue]
    exact ⟨fun h => by rw [linkReplay_again h], fun h => by rw [linkReplay_limit h]⟩

end Sys2Proof.Machine
end

section
/-! The states of a port (R270, R272, R293 to R304): one rule per event and outcome; then the statement about them (O36). -/

namespace Sys2Proof.Machine

/-! ### What the end of a port's messages leaves: the field is READY as before (R301, R302) -/

/-- The draw of a turning group uses up a free value at most (R318). -/
theorem chooseVia_frame (m : Msg) (s : State) : ∃ n, (chooseVia m s).2 = { s with free := n } := by
  unfold chooseVia
  dsimp only
  split
  · exact ⟨_, rfl⟩
  · split
    · exact ⟨_, rfl⟩
    · split <;> exact ⟨_, rfl⟩

@[simp] theorem chooseVia_fld (m : Msg) (s : State) : (chooseVia m s).2.fld = s.fld := by
  obtain ⟨n, h⟩ := chooseVia_frame m s
  rw [h]

@[simp] theorem lostAt_fld (a : Nat) (s : State) : (lostAt a s).fld = s.fld := rfl

@[simp] theorem portPush_fld (a : Nat) (es : List Flit) (s : State) : (portPush a es s).fld = s.fld := by
  simp only [portPush]
  split <;> rfl

theorem sendMsg_ready (m : Msg) (s : State) : (sendMsg m s).1.fld.ready = s.fld.ready := by
  simp only [sendMsg]
  split
  · rfl
  · split
    · simp [txPush]
    · dsimp only
      split <;> simp
    · simp

theorem OnlyFence.arrAnswered (c : Nat) (addr : Dword) (xo : Option Nat) (st : Status) (s : State) :
    OnlyFence s (arrAnswered c addr xo st s) := by
  unfold Machine.arrAnswered
  dsimp only
  split
  · exact .refl s
  · split
    · exact (OnlyFence.setCrew _ _ _).trans (.of_crews (OnlyCrews.postRec _ _ _))
    · split
      · exact ((OnlyFence.setCrew _ _ _).trans (.setCrew _ _ _)).trans
          ((OnlyFence.of_crews (OnlyCrews.postRec _ _ _)).trans (.applyRels _ _))
      · exact .setCrew _ _ _

/-- What waited for an answer is a crew's (R161, R163). -/
theorem OnlyFence.fieldDone (q : FieldReq) (st : Status) (s : State) : OnlyFence s (fieldDone q st s) := by
  unfold Machine.fieldDone
  split
  · exact .arrAnswered _ _ _ _ _
  · split
    · exact .refl s
    · split
      · exact .refl s
      · exact .setCrew _ _ _
  · exact .refl s

theorem fieldAnswer_ready (tag : Nat) (st : Status) (s : State) : (fieldAnswer tag st s).fld.ready = s.fld.ready := by
  unfold fieldAnswer
  split
  · rfl
  · next q _ =>
    obtain ⟨_, _, _, _, _, _, h⟩ := OnlyFence.fieldDone q.2 st
      { s with fld := { s.fld with outst := s.fld.outst.filter (fun p => p.1 != tag) } }
    rw [h]

theorem endMessage_ready (f : MsgFlit) (local_ : Bool) (tag op : Nat) (st : Status) (s : State) :
    (endMessage f local_ tag op st s).1.fld.ready = s.fld.ready := by
  unfold endMessage
  split
  · cases local_ with
    | false => exact sendMsg_ready _ s
    | true => exact fieldAnswer_ready tag st s
  · rfl

theorem giveUp_ready (a : Nat) (st : Status) (e : Flit) (s : State) : (giveUp a st e s).fld.ready = s.fld.ready := by
  simp only [giveUp]
  split
  · rw [lostAt_fld, endMessage_ready]
  · rw [endMessage_ready]

theorem foldl_ready {α : Type} (l : List α) (f : State → α → State) (h : ∀ s a, (f s a).fld.ready = s.fld.ready)
    (s : State) : (l.foldl f s).fld.ready = s.fld.ready := by
  induction l generalizing s with
  | nil => rfl
  | cons a l ih => rw [List.foldl_cons, ih, h]

theorem flushPort_ready (a : Nat) (st : Status) (s : State) : (flushPort a st s).fld.ready = s.fld.ready := by
  simp only [flushPort]
  refine foldl_ready _ _ (fun t e => ?_) _
  rw [giveUp_ready, retarget]

theorem spareDrop_fld (a : Nat) (s : State) : (spareDrop a s).fld = s.fld := by
  unfold spareDrop
  split <;> rfl

/-! ### TRAIN and CAPS (R272, R294 to R297) -/

/-- Training ends with the widest permitted set of the lanes that are good at both ends and not faulty. -/
theorem exec_trainDone {s : State} {a rate : Nat} (lanes : Nat) {w : List Nat} (hstate : (s.adit a).state = 1)
    (hw : widthOf (maskOf 4 (fun l => bit l lanes && !bit l (s.adit a).laneFault)) = w)
    (hrate : rate = s.chr.aditRate ∨ s.chr.aditFallback = true ∧ s.chr.aditRate < rate)
    (hwidth : s.chr.aditMinWidth ≤ w.length) (hne : w ≠ []) :
    exec (.trainDone a rate lanes) s = .next (s.setAdit a { s.adit a with
      state := 2, stateAt := s.now, rate := rate, lanes := maskOf 4 (fun l => w.contains l)
      laneFault := maskOf 4 (fun l => !bit l (maskOf 4 (fun l => bit l lanes && !bit l (s.adit a).laneFault))) }) := by
  subst hw
  exact congrArg Host.Outcome.next (if_pos ⟨hstate, hrate, hwidth, hne⟩)

theorem exec_capsFlit (a : Nat) (p : CapsPayload) (s : State) : exec (.capsFlit a p) s = .next (capsTake a p s) := rfl

section Caps

variable {s : State} {a : Nat} {p : CapsPayload} (hstate : (s.adit a).state = 2)
include hstate

theorem capsTake_foreign (h : p.fieldId ≠ s.chr.fieldId) : capsTake a p s = aditFail a 3 s := by
  simp [capsTake, hstate, h]

theorem capsTake_self (hfield : p.fieldId = s.chr.fieldId) (h : p.stack = s.fld.id) : capsTake a p s = aditFail a 13 s := by
  simp [capsTake, hstate, hfield, h]

/-- CAPS that agree, once both ends have seen the other's. -/
theorem capsTake_agreed (hfield : p.fieldId = s.chr.fieldId) (hstack : p.stack ≠ s.fld.id)
    (hown : s.chr.aditRevMin ≤ min 2 p.revMax) (hpeer : p.revMin ≤ min 2 p.revMax) (hrate : p.rate = (s.adit a).rate)
    (hlanes : p.lanes = (s.adit a).lanes) (hseen : p.seen = true) (hgot : (s.adit a).capsGot = true) :
    capsTake a p s = capsAgreed a (s.setAdit a { s.adit a with
      rev := min 2 p.revMax, peerStack := p.stack, peerAdit := p.adit, capsGot := true, peerSeen := p.seen
      stateAt := s.now }) := by
  have hrev : ¬ (min 2 p.revMax < s.chr.aditRevMin ∨ min 2 p.revMax < p.revMin) := by omega
  have hsame : ¬ (p.rate ≠ (s.adit a).rate ∨ p.lanes ≠ (s.adit a).lanes) := by simp [hrate, hlanes]
  simp only [capsTake, hstate, hfield, hstack, hrev, hsame, hseen, hgot, ne_eq, not_true_eq_false, if_false, if_true,
    Bool.true_or]

end Caps

theorem capsAgreed_adit (a : Nat) (x : Adit) (s : State) : let y := (capsAgreed a (s.setAdit a x)).adit a
    y.state = (if s.fld.ready then 4 else 3) ∧ y.peerStack = x.peerStack ∧ y.peerAdit = x.peerAdit ∧ y.rev = x.rev
      ∧ y.peerValid = true := by
  cases h : s.fld.ready <;> simp [capsAgreed, h, Adit.qualify]

theorem exec_capsResendTimer {s : State} {a : Nat} (h : (s.adit a).state = 2) :
    exec (.capsResendTimer a) s = .next (sendLink a 3 (capsBytes (capsOf s a)) s) :=
  congrArg Host.Outcome.next (if_pos h)

theorem exec_capsTimeout {s : State} {a : Nat} (h : (s.adit a).state = 2) (hdue : (s.adit a).stateAt + 10000000 ≤ s.now) :
    exec (.capsTimeout a) s = .next (aditFail a (Config.freeValue s.free % 16) { s with free := s.free + 1 }) :=
  congrArg Host.Outcome.next (if_pos ⟨h, hdue⟩)

/-! ### WAIT and QUALIFY (R293, R298) -/

theorem exec_qualReq (a : Nat) (s : State) : exec (.qualReq a) s = .next (qualTake a s) := rfl

theorem exec_qualResult (a : Nat) (pass : Bool) (s : State) : exec (.qualResult a pass) s = .next (resultTake a pass s) := rfl

section Wait

variable {s : State} {a : Nat} (hstate : (s.adit a).state = 3)
include hstate

theorem qualTake_sent (h : (s.adit a).qualSent = true) :
    qualTake a s = s.setAdit a ({ s.adit a with qualGot := true }.qualify s.now) := by
  simp only [qualTake, hstate, h, if_true]

theorem qualTake_ready (h : (s.adit a).qualSent = false) (hready : s.fld.ready = true) :
    qualTake a s = sendLink a 3 [2] (s.setAdit a ({ s.adit a with qualGot := true, qualSent := true }.qualify s.now)) := by
  simp only [qualTake, hstate, h, hready, if_true, Bool.false_eq_true, if_false]

theorem qualTake_early (h : (s.adit a).qualSent = false) (hready : s.fld.ready = false) :
    qualTake a s = s.setAdit a { s.adit a with qualGot := true } := by
  simp only [qualTake, hstate, h, hready, if_true, Bool.false_eq_true, if_false]

theorem exec_qualReqTimer (h : (s.adit a).qualSent = true) : exec (.qualReqTimer a) s = .next (sendLink a 3 [2] s) :=
  congrArg Host.Outcome.next (if_pos ⟨hstate, h⟩)

end Wait

section Qualify

variable {s : State} {a : Nat} (hstate : (s.adit a).state = 4)
include hstate

theorem resultTake_pass (hdone : (s.adit a).rxDone = true) (hpass : (s.adit a).passRx = true) :
    resultTake a true s = goActive a (s.setAdit a { s.adit a with peerDone := true, passPeer := true }) := by
  simp only [resultTake, hstate, hdone, hpass, if_true, Bool.not_true, Bool.false_eq_true, if_false, Bool.and_self]

theorem resultTake_fail :
    resultTake a false s = aditFail a 5 (s.setAdit a { s.adit a with peerDone := true, passPeer := false }) := by
  simp only [resultTake, hstate, if_true, Bool.not_false]

theorem exec_qualifyTimeout (hdue : (s.adit a).stateAt + 30000000000 ≤ s.now) :
    exec (.qualifyTimeout a) s = .next (aditFail a 5 s) :=
  congrArg Host.Outcome.next (if_pos ⟨hstate, hdue⟩)

/-- The port's own verdict, once the bits of all its lanes are counted, is sent and acted on. -/
theorem exec_qualifyDone {ls : List (Nat × Nat × Nat)} (hopen : (s.adit a).rxDone = false)
    (hlanes : ls.length = (lanesOf (s.adit a).lanes).length) (hbits : 10 ^ 12 ≤ ls.foldl (fun n l => n + l.1) 0) :
    let pass := ls.all (fun l => decide (10 ^ 11 ≤ l.1) && decide (laneErrs l * 10 ^ 5 ≤ l.1) && l.2.2 == 0)
    let l := ls.getD (worstLane ls) (1, 0, 0)
    let t := sendLink a 3 [3, BitVec.ofNat 8 (b2n pass)] (s.setAdit a { s.adit a with
      rxDone := true, passRx := pass, berQ := berCode l.1 (laneErrs l)
      worstLane := (lanesOf (s.adit a).lanes).getD (worstLane ls) 0
      uncorr := satAdd 0xFFFF (s.adit a).uncorr (ls.map (fun l => l.2.2 / 544)).sum })
    exec (.qualifyDone a ls) s = .next (if !pass then aditFail a 5 t
      else if (s.adit a).peerDone && (s.adit a).passPeer then goActive a t else t) := by
  have hcounted : ¬ ((s.adit a).state ≠ 4 ∨ (s.adit a).rxDone = true ∨ ls.length ≠ (lanesOf (s.adit a).lanes).length
      ∨ ls.foldl (fun n l => n + l.1) 0 < 10 ^ 12) := by
    simp only [hstate, hopen, hlanes, ne_eq, not_true_eq_false, Bool.false_eq_true, false_or, Nat.not_lt, hbits]
  exact congrArg Host.Outcome.next (if_neg hcounted)

end Qualify

/-! ### Training again, and a stop (R293, R294, R299, R300, R302, R303) -/

section Moves

variable {s : State} {a : Nat}

theorem exec_retrainReq (h : (s.adit a).state = 5) : exec (.retrainReq a) s = .next (enterRetrain a 10 s) :=
  congrArg Host.Outcome.next (if_pos h)

/-- The peer stops: the port fails, and a LEAVE for the peer is originated. -/
theorem exec_linkStop (hon : (s.adit a).state ≠ 0) (hup : (s.adit a).state ≠ 7) :
    exec (.linkStop a) s = .next (if (s.adit a).peerValid then
      applyLeave none (s.adit a).peerStack ((aditFail a 11 s).memberOf (s.adit a).peerStack).inc (aditFail a 11 s)
      else aditFail a 11 s) :=
  congrArg Host.Outcome.next (if_neg (not_or.mpr ⟨hon, hup⟩))

theorem exec_trainTimeout_signal (h : (s.adit a).state = 1) (hdue : (s.adit a).stateAt + 500000000 ≤ s.now) :
    exec (.trainTimeout a true) s = .next (aditFail a 2 s) :=
  congrArg Host.Outcome.next (if_pos ⟨h, hdue⟩)

theorem exec_trainTimeout_silent (h : (s.adit a).state = 1) (hdue : (s.adit a).stateAt + 100000000 ≤ s.now) :
    exec (.trainTimeout a false) s = .next (aditFail a 1 s) :=
  congrArg Host.Outcome.next (if_pos ⟨h, hdue⟩)

/-- The conditions of R299, by cause. -/
theorem faultTrips_of {cause : Nat}
    (h : cause = 6 ∧ (∃ l ∈ lanesOf (s.adit a).lanes, laneMsBits (s.adit a).rate < 10000 * laneMsErrs s a l)
      ∨ cause = 7 ∧ 8 < (((s.adit a).fec.filter (fun e => decide (s.now < e.1 + 1000000))).map (fun e => e.2.2.2)).sum
      ∨ cause = 8 ∧ (∃ e ∈ (s.adit a).replay, 16 ≤ e.sends) ∨ cause = 9) : faultTrips s a cause = true := by
  obtain ⟨rfl, hlane⟩ | ⟨rfl, hcount⟩ | ⟨rfl, hsends⟩ | rfl := h
  · simpa [faultTrips] using hlane
  · simpa [faultTrips] using hcount
  · simpa [faultTrips] using hsends
  · rfl

theorem exec_linkFaultTrip {cause : Nat} (h : (s.adit a).state = 5) (htrip : faultTrips s a cause = true) :
    exec (.linkFaultTrip a cause) s = .next (enterRetrain a cause s) :=
  congrArg Host.Outcome.next (if_pos ⟨h, htrip⟩)

theorem exec_fastRetrainDone (h : (s.adit a).state = 6) (pass : Bool) (m : Nat) :
    exec (.fastRetrainDone a pass m) s = .next (if pass then goActive a s
      else logRetrain a (aditTrain a (s.adit a).cause true (s.setAdit a { s.adit a with
        laneFault := maskOf 4 (fun l => bit l (s.adit a).laneFault || bit l m) }))) :=
  congrArg Host.Outcome.next (if_pos h)

theorem aditTrain_adit (cause : Nat) (keep : Bool) : (aditTrain a cause keep s).adit a = { s.adit a with
    state := 1, cause := cause, stateAt := s.now, fullTrain := keep, capsGot := false, peerSeen := false
    rxDone := false, peerDone := false, qualGot := false, passRx := false, passPeer := false } :=
  State.adit_setAdit _ _ _

theorem exec_signalDetect (h : (s.adit a).state = 7) (hcause : (s.adit a).cause = 1) (hclock : a / 12 ∉ s.clk.refLost) :
    exec (.signalDetect a) s = .next (aditTrain a (s.adit a).cause false s) :=
  congrArg Host.Outcome.next (if_pos ⟨h, hcause, by simpa [edgeOf] using hclock⟩)

theorem exec_adtRetrain_failed {r : Requester} (hr : reachesRegs r = true) (hspare : (s.adit a).spare = false)
    (h : (s.adit a).state = 7) :
    exec (.adtRetrain r a) s = .next (aditTrain a 15 false (s.setAdit a { s.adit a with laneFault := 0 })) := by
  change execAdtRetrain r a s = _
  simp [execAdtRetrain, aditRetrain, hr, hspare, h]

/-- A reset before READY leaves the port OFF, with nothing to send, to send again or to route. -/
theorem aditReset_early (h : (s.adit a).state ≠ 5) (hready : s.fld.ready = false) : let y := (aditReset a s).adit a
    y.state = 0 ∧ y.cause = 14 ∧ y.replay = [] ∧ y.txq = [] ∧ y.rxbuf = [] := by
  have hearly : (flushPort a .abortedByReset (spareDrop a s)).fld.ready = false := by
    rw [flushPort_ready, spareDrop_fld, hready]
  simp [aditReset, h, hearly]

theorem exec_adtReset {r : Requester} (hr : reachesRegs r = true) : exec (.adtReset r a) s = .next (aditReset a s) :=
  congrArg Host.Outcome.next (if_pos hr)

end Moves

/-! ### The spare port and the reference clocks (R270, Table 19-3) -/

/-- A47 takes over the failed port it backs: both show it, and A47 comes into use as a port that becomes ACTIVE does. -/
theorem exec_spareTakeover {s : State} (hspare : s.chr.aditSpare < 47) (hfailed : (s.adit s.chr.aditSpare).state = 7)
    (hup : (s.adit 47).state = 5) (hfree : (s.adit 47).spare = false) :
    let s1 := s.setAdit s.chr.aditSpare { s.adit s.chr.aditSpare with spare := true }
    let s2 := sendSnapshot 47 (s1.setAdit 47 { s1.adit 47 with spare := true, inUse := true })
    exec .spareTakeover s = .next (sendLinkmaps
      (if s2.fld.ready = true ∧ s2.fld.joinSent = false ∧ s2.fld.left = false then sendJoin s2 else s2)) :=
  congrArg Host.Outcome.next (if_pos ⟨hspare, hfailed, hup, hfree⟩)

theorem exec_aditRefclkLoss {s : State} {edge : Nat} (h : edge ∉ s.clk.refLost) :
    exec (.aditRefclkLoss edge) s = .next ((aditsOf edge).foldl
      (fun s a => if (s.adit a).state = 0 ∨ (s.adit a).state = 7 then s else aditFail a 1 s)
      (logEvent 0x05 0 0x0404 [(0, 1, 9 + edge)] { s with clk := { s.clk with refLost := setAdd edge s.clk.refLost } })) :=
  congrArg Host.Outcome.next (if_neg (by simpa using h))

theorem exec_aditRefclkReturn {s : State} {edge : Nat} (h : edge ∈ s.clk.refLost) :
    exec (.aditRefclkReturn edge) s = .next ((aditsOf edge).foldl
      (fun s a => if (s.adit a).state = 7 ∧ (s.adit a).cause = 1 then aditTrain a 1 false s else s)
      { s with clk := { s.clk with refLost := setDel edge s.clk.refLost } }) :=
  congrArg Host.Outcome.next (if_pos (by simpa using h))

/-! ### The statement -/

/-- Settles O36: each clause is the rule above of its event and outcome. -/
theorem linkStates : Obligations.LinkStates := by
  unfold Obligations.LinkStates
  refine ⟨?_, ?_, ?_, ?_, ?_, ?_⟩
  · intro s a rate lanes x w hstate hrate hwidth hne
    refine ⟨_, exec_trainDone lanes hstate rfl hrate hwidth hne, ?_⟩
    rw [State.adit_setAdit]
    exact ⟨rfl, rfl, rfl⟩
  · intro s a p hstate
    rw [exec_capsFlit]
    refine ⟨fun h => by rw [capsTake_foreign hstate h], fun hfield h => by rw [capsTake_self hstate hfield h],
      fun hfield hstack hown hpeer hrate hlanes hseen hgot => ⟨_, rfl, ?_⟩⟩
    rw [capsTake_agreed hstate hfield hstack hown hpeer hrate hlanes hseen hgot]
    exact capsAgreed_adit a _ s
  · intro s a
    rw [exec_qualReq, exec_qualResult, exec_qualResult]
    refine ⟨exec_capsResendTimer, fun h hdue => ⟨_, Nat.mod_lt _ (by decide), exec_capsTimeout h hdue⟩,
      fun h hsent => by rw [qualTake_sent h hsent], fun h hsent hready => by rw [qualTake_ready h hsent hready],
      fun h hsent hready => by rw [qualTake_early h hsent hready], exec_qualReqTimer,
      fun h hdone hpass => by rw [resultTake_pass h hdone hpass], fun h => by rw [resultTake_fail h], exec_qualifyTimeout,
      exec_retrainReq, fun hon hup _ => exec_linkStop hon hup, exec_trainTimeout_signal, exec_trainTimeout_silent,
      fun cause h htrip => exec_linkFaultTrip h (faultTrips_of htrip), fun m h => exec_fastRetrainDone h true m,
      fun m h => exec_fastRetrainDone h false m, fun h hcause hclock => ⟨_, exec_signalDetect h hcause hclock, ?_⟩,
      fun r hr hspare h => ⟨_, exec_adtRetrain_failed hr hspare h, ?_⟩,
      fun r hr hready h => ⟨_, exec_adtReset hr, aditReset_early h hready⟩⟩
    · rw [aditTrain_adit]
    · rw [aditTrain_adit, State.adit_setAdit]
      exact ⟨rfl, rfl, rfl⟩
  · intro s a ls hstate hopen hlanes hbits pass l s1
    exact exec_qualifyDone hstate hopen hlanes hbits
  · intro s hspare hfailed hup hfree
    exact exec_spareTakeover hspare hfailed hup hfree
  · intro s edge
    exact ⟨exec_aditRefclkLoss, exec_aditRefclkReturn⟩

end Sys2Proof.Machine
end

section
/-! Messages at the endpoint and flits at the router (R281, R282, R312 to R318, R327): one rule per message and flit; then the
statement about them (O32). -/

namespace Sys2Proof.Machine

/-! ### The oldest message of the inbox (R282, R327) -/

section Endpoint

variable {s : State} {a : Nat} {m : Msg} {rest : List (Nat × Msg)} (hin : s.fld.inbox = (a, m) :: rest)
include hin

theorem takeMsg_oldest :
    takeMsg (fun e => e == (a, m)) s = some ({ s with fld := { s.fld with inbox := rest } }, (a, m)) := by
  simp [takeMsg, hin, List.findIdx?_cons, listDel]

/-- A member's request on a VC that carries it is performed with the message taken. -/
theorem fieldServe_oldest {op : Nat} (f : State → State) (hop : m.op = op) (hmember : s.isMember m.src = true)
    (hvc : opOnVc m.vc op = true) :
    fieldServe a op m f s = f { s with fld := { s.fld with inbox := rest } } := by
  have hmember' : State.isMember { s with fld := { s.fld with inbox := rest } } m.src = true := hmember
  simp [fieldServe, hop, takeMsg_oldest hin, hmember', hvc]

/-- A request of a stack that is no member is discarded and counted. -/
theorem fieldServe_foreign {op : Nat} (f : State → State) (hop : m.op = op) (hmember : s.isMember m.src = false) :
    fieldServe a op m f s
      = { s with fld := { s.fld with inbox := rest, unknownSrc := min 0xFFFF (s.fld.unknownSrc + 1) } } := by
  have hmember' : State.isMember { s with fld := { s.fld with inbox := rest } } m.src = false := hmember
  simp [fieldServe, hop, takeMsg_oldest hin, hmember', satInc_eq_min]

theorem responseTake_oldest {op : Nat} (hop : m.op = op) :
    responseTake a op m s = fieldAnswer m.tag (statusOf m.status { s with fld := { s.fld with inbox := rest } })
      { s with fld := { s.fld with inbox := rest } } := by
  simp [responseTake, hop, takeMsg_oldest hin]

section Member

variable (hmember : s.isMember m.src = true)
include hmember

theorem exec_msgWrite (hop : m.op = 0x01) (hvc : opOnVc m.vc 0x01 = true) (hrange : badRange m = false)
    (hlen : m.data.length = m.len) (hfree : writeWaits s a m = false) :
    let r := dpaWrite (.peer a m.src) (m.addr.toNat % 2 ^ 48) m.data { s with fld := { s.fld with inbox := rest } }
    exec (.msgWrite a m) s = .next (respond m.src m.tag 0x12 m.ordered r.2 [] r.1) := by
  change execMsgWrite a m s = _
  simp only [execMsgWrite, hfree, fieldServe_oldest hin _ hop hmember hvc, hrange, hlen, bne_self_eq_false, Bool.or_self,
    Bool.false_and, Bool.false_eq_true, if_false]

theorem exec_msgWrite_bad (hop : m.op = 0x01) (hvc : opOnVc m.vc 0x01 = true) (hrange : badRange m = true) :
    exec (.msgWrite a m) s
      = .next (respond m.src m.tag 0x12 m.ordered .badDescriptor [] { s with fld := { s.fld with inbox := rest } }) := by
  change execMsgWrite a m s = _
  simp only [execMsgWrite, writeWaits, fieldServe_oldest hin _ hop hmember hvc, hrange, Bool.not_true, Bool.false_and,
    Bool.true_or, Bool.false_eq_true, if_false, if_true]

theorem exec_msgRead (hop : m.op = 0x02) (hvc : opOnVc m.vc 0x02 = true) (hrange : badRange m = false)
    (hfree : spanHeld s (.peer a m.src) (m.addr.toNat % 2 ^ 48) m.len = false) :
    let r := dpaRead (.peer a m.src) (m.addr.toNat % 2 ^ 48) m.len { s with fld := { s.fld with inbox := rest } }
    exec (.msgRead a m) s = .next (respond m.src m.tag 0x11 m.ordered r.2.2 (if r.2.2 = .ok then r.2.1 else []) r.1) := by
  change execMsgRead a m s = _
  simp only [execMsgRead, hfree, fieldServe_oldest hin _ hop hmember hvc, hrange, Bool.and_false, Bool.false_and,
    Bool.false_eq_true, if_false]

theorem exec_msgArrive (hop : m.op = 0x03) (hvc : opOnVc m.vc 0x03 = true) :
    exec (.msgArrive a m) s = .next (arriveTake m false { s with fld := { s.fld with inbox := rest } }) :=
  congrArg Host.Outcome.next (fieldServe_oldest hin _ hop hmember hvc)

theorem exec_msgPoison (hop : m.op = 0x04) (hvc : opOnVc m.vc 0x04 = true) :
    exec (.msgPoison a m) s = .next (arriveTake m true { s with fld := { s.fld with inbox := rest } }) :=
  congrArg Host.Outcome.next (fieldServe_oldest hin _ hop hmember hvc)

end Member

end Endpoint

theorem arriveTake_good {m : Msg} (poison : Bool) (s : State) (h : arrBad m.addr = false) :
    arriveTake m poison s
      = arrivalApply { addr := m.addr, poison := poison, from_ := none, peer := some (m.src, m.tag, m.ordered) } s :=
  if_neg (Bool.eq_false_iff.mp h)

theorem arriveTake_bad {m : Msg} (poison : Bool) (s : State) (h : arrBad m.addr = true) :
    arriveTake m poison s = respond m.src m.tag 0x13 m.ordered .badDescriptor [] s :=
  if_pos h

/-! ### A first flit of the local endpoint (R312, R313, R318) -/

/-- An ordered message turns at no group. -/
theorem chooseVia_ordered {m : Msg} (s : State) (h : m.ordered = true) : chooseVia m s = (none, s) := by
  simp [chooseVia, h]

/-- The router chooses the turning group of the message, and the route of the flit with it. -/
theorem exec_routeFlit_local {s : State} {f : MsgFlit} {v : Option Nat × State} (hfirst : f.first = true)
    (haway : f.dst ≠ s.fld.id)
    (hv : chooseVia { (default : Msg) with vc := f.vc, ordered := f.ordered, dst := f.dst, src := s.fld.id } s = v) :
    let r := routeFirst { f with nm := v.1.isSome, via := v.1.getD 0 } false true 0 v.2
    exec (.routeFlit none f) s = .next { r.1 with fld := { r.1.fld with
      txRoute := Tbl.put r.1.fld.txRoute f.vc { r.2 with via := v.1 } } } := by
  subst hv
  exact congrArg Host.Outcome.next ((if_pos hfirst).trans (if_neg haway))

theorem forward_fld (b : Nat) (f : MsgFlit) (local_ : Bool) (t : Transit) (s : State) : (forward b f local_ t s).fld = s.fld := by
  simp only [forward]
  split
  · exact portPush_fld _ _ _
  · rfl

/-- A flit forwarded to an ACTIVE port is the last of its transmit queue. -/
theorem forward_txq {s : State} {b : Nat} (f : MsgFlit) (local_ : Bool) (t : Transit)
    (h : (s.adit (s.rolePort b)).state = 5) :
    ((forward b f local_ t s).adit (s.rolePort b)).txq
      = (s.adit (s.rolePort b)).txq ++ portFlits s [f] local_ t.msg t.tag t.op := by
  simp [forward, portPush, h]

section Port

variable {s : State} {f : MsgFlit} {hops b : Nat} {nm fromGlobal : Bool} (local_ : Bool) (hmember : s.isMember f.dst = true)
  (hroute : routeOf s f fromGlobal hops = .port b nm)
include hmember hroute

theorem routeFirst_port : (routeFirst f fromGlobal local_ hops s).1
    = forward b { f with nm := nm, hops := hops } local_ (transitOf s f (some b) false)
        { s with fld := { s.fld with msgs := s.fld.msgs + 1 } } := by
  simp [routeFirst, hmember, hroute]

theorem routeFirst_msgs : (routeFirst f fromGlobal local_ hops s).1.fld.msgs = s.fld.msgs + 1 := by
  rw [routeFirst_port local_ hmember hroute, forward_fld]

/-- A flit routed to an ACTIVE port joins its transmit queue under a number of its own. -/
theorem routeFirst_txq (hup : (s.adit (s.rolePort b)).state = 5) :
    ∃ e : Flit, e.f = { f with nm := nm, hops := hops } ∧ e.local_ = local_ ∧ e.msg = s.fld.msgs
      ∧ ((routeFirst f fromGlobal local_ hops s).1.adit (s.rolePort b)).txq = (s.adit (s.rolePort b)).txq ++ [e] := by
  rw [routeFirst_port local_ hmember hroute]
  exact ⟨_, rfl, rfl, rfl, forward_txq (s := { s with fld := { s.fld with msgs := s.fld.msgs + 1 } }) _ local_ _ hup⟩

end Port

/-- A response or management message to a stack that is no member is discarded, and counts as NO_ROUTE. -/
theorem endNoRoute_discarded {f : MsgFlit} (local_ : Bool) (s : State) (hvc : f.vc = 1 ∨ f.vc = 3) :
    endNoRoute f local_ s = { s with fld := { s.fld with noroute := min 0xFFFF (s.fld.noroute + 1) } } := by
  have hdiscard : ¬ (f.vc = 0 ∨ f.vc = 2) := by omega
  simp [endNoRoute, endMessage, hdiscard, satInc_eq_min]

theorem routeFirst_discarded {s : State} {f : MsgFlit} (fromGlobal local_ : Bool) (hops : Nat)
    (hmember : s.isMember f.dst = false) (hvc : f.vc = 1 ∨ f.vc = 3) : (routeFirst f fromGlobal local_ hops s).1
      = { s with fld := { s.fld with noroute := min 0xFFFF (s.fld.noroute + 1) } } := by
  simp [routeFirst, hmember, endNoRoute_discarded _ _ hvc]

/-! ### Flits of a receive buffer, and flits that wait for a port (R283, R313, R317) -/

theorem exec_routeFlit_oldest {s : State} {a : Nat} {f : MsgFlit} {rest : List MsgFlit} (h : (s.adit a).rxbuf = f :: rest) :
    exec (.routeFlit (some a) f) s = .next (if f.first then takeFirst a 0 f s else takeNext a 0 f s) := by
  change execRouteFlit (some a) f s = _
  simp [execRouteFlit, h, List.findIdx?_cons]

theorem exec_ordWaitExpiry {s : State} {a : Nat} (h : (s.adit a).state ≠ 5) :
    exec (.ordWaitExpiry a) s = .next (rerouteHeld a (fun e => decide (e.at_ + s.fld.ordWait * 1000000 ≤ s.now)) s) :=
  congrArg Host.Outcome.next (if_pos h)

/-! ### The statement -/

/-- Settles O32: each clause is the rule above of its message or flit. -/
theorem fieldMessages : Obligations.FieldMessages := by
  unfold Obligations.FieldMessages
  refine ⟨?_, ?_, ?_, ?_⟩
  · intro s a m rest hin s' dpa
    refine ⟨fun hmember => ⟨?_, ?_, ?_, fun hop hvc hgood => ?_, fun hop hvc hgood => ?_, fun hop hvc hbad => ?_⟩,
      fun hmember hop => congrArg Host.Outcome.next (fieldServe_foreign hin _ hop hmember),
      fun hop => congrArg Host.Outcome.next (responseTake_oldest hin hop),
      fun hop => congrArg Host.Outcome.next (responseTake_oldest hin hop),
      fun hop => congrArg Host.Outcome.next (responseTake_oldest hin hop)⟩
    · exact exec_msgWrite hin hmember
    · exact exec_msgWrite_bad hin hmember
    · exact exec_msgRead hin hmember
    · rw [exec_msgArrive hin hmember hop hvc, arriveTake_good _ _ hgood]
    · rw [exec_msgPoison hin hmember hop hvc, arriveTake_good _ _ hgood]
    · rw [exec_msgArrive hin hmember hop hvc, arriveTake_bad _ _ hbad]
  · intro s f b nm hfirst haway v f'
    obtain ⟨n, hv⟩ : ∃ n, v.2 = { s with free := n } := chooseVia_frame _ s
    have hmember : v.2.isMember f'.dst = s.isMember f.dst := by rw [hv]; rfl
    have hrole : v.2.rolePort b = s.rolePort b := by rw [hv]; rfl
    have hadit : ∀ p, v.2.adit p = s.adit p := by rw [hv]; exact fun _ => rfl
    have hfld : v.2.fld = s.fld := by rw [hv]
    have hexec := exec_routeFlit_local hfirst haway (v := v) rfl
    refine ⟨fun hord => chooseVia_ordered s hord, fun hin hroute => ⟨_, hexec, fun hup => ?_, ?_⟩,
      fun hout hvc => ⟨_, hexec, ?_⟩⟩
    · have htxq := routeFirst_txq true (hmember.trans hin) hroute (by rw [hrole, hadit, hup])
      rw [hrole, hadit, hfld] at htxq
      exact htxq
    · exact (routeFirst_msgs true (hmember.trans hin) hroute).trans (by rw [hfld])
    · have hend := routeFirst_discarded false true 0 (hmember.trans hout) hvc
      exact ⟨(congrArg (·.fld.noroute) hend).trans (by rw [hfld]), (congrArg (·.adits) hend).trans (by rw [hv])⟩
  · intro s a f rest h
    exact exec_routeFlit_oldest h
  · intro s a h
    exact exec_ordWaitExpiry h

end Sys2Proof.Machine
end

section
/-! Field time (R330 to R334): one rule per event of a clock; then the statement about them (O34), and the idle step (O2). -/

namespace Sys2Proof.Machine

/-! ### The grandmaster is chosen in the field's own record (R332) -/

theorem selectGm_frame (s : State) : ∃ f, selectGm s = { s with fld := f } := by
  simp only [selectGm]
  split
  · exact ⟨_, rfl⟩
  · split
    · split <;> exact ⟨_, rfl⟩
    · exact ⟨_, rfl⟩

@[simp] theorem selectGm_adit (s : State) (a : Nat) : (selectGm s).adit a = s.adit a := by
  obtain ⟨f, h⟩ := selectGm_frame s
  rw [h]
  rfl

@[simp] theorem selectGm_tclk (s : State) : (selectGm s).tclk = s.tclk := by
  obtain ⟨f, h⟩ := selectGm_frame s
  rw [h]

/-! ### TIME flits received: stamps, offset and steering (R331, R333) -/

section Exchange

variable {s s₁ : State} {a stamp : Nat} {p : TimePayload} (huse : (s.adit a).inUse = true) (hstate : (s.adit a).state = 5)
  (hs₁ : selectGm (s.setAdit a { s.adit a with
    lastTtx := p.tTx, lastTrx := stamp, timeGot := true
    advert := if p.prio = 0 then none else some (p.prio, p.gm, p.distance), advertAt := s.now }) = s₁)
include huse hstate hs₁

/-- An echo from the parent after an earlier flit completes an exchange (R331). -/
theorem exec_timeFlit_measures (hparent : s₁.fld.hasParent = true) (hfrom : s₁.fld.parent = a)
    (hgot : (s.adit a).timeGot = true) (hecho : p.tEcho ≠ 0) :
    let x := s.adit a
    let ofs := (stampDiff x.lastTrx x.lastTtx - stampDiff p.tRx p.tEcho) / 2
    let delay := (stampDiff p.tRx x.lastTtx - stampDiff p.tEcho x.lastTrx) / 2
    exec (.timeFlit a p stamp) s = .next (useOffset ofs { s₁ with fld := { s₁.fld with offset := ofs, delay := delay } }) := by
  subst hs₁
  exact congrArg Host.Outcome.next ((if_pos ⟨huse, hstate⟩).trans (if_pos ⟨hparent, hfrom, hgot, hecho⟩))

theorem exec_timeFlit_stores
    (h : s₁.fld.hasParent = false ∨ s₁.fld.parent ≠ a ∨ (s.adit a).timeGot = false ∨ p.tEcho = 0) :
    exec (.timeFlit a p stamp) s = .next s₁ := by
  have hnot : ¬ (s₁.fld.hasParent = true ∧ s₁.fld.parent = a ∧ (s.adit a).timeGot = true ∧ p.tEcho ≠ 0) := by
    rintro ⟨hparent, hfrom, hgot, hecho⟩
    simp [hparent, hfrom, hgot, hecho] at h
  subst hs₁
  exact congrArg Host.Outcome.next ((if_pos ⟨huse, hstate⟩).trans (if_neg hnot))

end Exchange

/-- A free clock steps by the offset and begins to lock (R333). -/
theorem useOffset_free {s : State} (ofs : Int) (h : s.fld.tstate = 0) :
    (useOffset ofs s).tclk = BitVec.ofInt 64 ((s.tclk.toNat : Int) - ofs / 256) ∧ (useOffset ofs s).fld.tstate = 1 := by
  have hstep : useOffset ofs s = stepTclk ofs s := by simp only [useOffset, h]
  rw [hstep]
  exact ⟨logEvent_tclk _ _ _ _ _, congrArg Fld.tstate (logEvent_fld _ _ _ _ _)⟩

/-! ### TIME flits sent (R331) -/

theorem sendLink_out (a kind : Nat) (payload : List Byte) (s : State) :
    (sendLink a kind payload s).out
      = .flit a (linkBytes kind payload (s.adit a).rxAck (s.adit a).nakDue (takeCredit (s.adit a)).1) :: s.out := by
  obtain ⟨due, hsnd⟩ := takeCredit_snd (s.adit a)
  simp [sendLink, withReturns, hsnd]

/-- A stamp in 2^-8 ns holds TCLK's nanoseconds modulo 2^56, whatever part of a nanosecond `d` adds. -/
theorem timeStamp_ns (n d : Nat) : (n * 256 + d % 256) % 2 ^ 64 / 256 = n % 2 ^ 56 := by
  omega

/-- The payload of the stack's own TIME flit on a port, with `d` for the stamp's part below a nanosecond. -/
def ownTime (a d : Nat) (s : State) : TimePayload :=
  { distance := s.fld.distance, gm := s.fld.gm, prio := gmPrioOf s, tTx := (s.tclk.toNat * 256 + d % 256) % 2 ^ 64
    tEcho := (s.adit a).lastTtx, tRx := (s.adit a).lastTrx }

/-- The grandmaster is chosen again before the flit is made. -/
theorem exec_timeFlitTimer {s : State} {a : Nat} (huse : (s.adit a).inUse = true) (hstate : (s.adit a).state = 5) :
    let d := (selectGm s).fresh
    exec (.timeFlitTimer a) s = .next (sendLink a 4 (timeBytes (ownTime a d.1 (selectGm s))) d.2) :=
  congrArg Host.Outcome.next (if_pos ⟨huse, hstate⟩)

/-! ### The clock's state and its grandmaster over time (R332, R333) -/

theorem exec_timeLocked {s : State} {t₀ : Nat} (hnear : s.fld.within4Since = some t₀) (hlocking : s.fld.tstate = 1)
    (hdue : t₀ + 1000000 ≤ s.now) : exec .timeLocked s = .next { s with fld := { s.fld with tstate := 2 } } := by
  change execTimeLocked s = _
  simp only [execTimeLocked, hnear]
  rw [if_pos ⟨hlocking, hdue⟩]

theorem exec_parentTimeout {s : State} (hnone : s.fld.hasParent = false) (hgm : s.fld.tstate ≠ 3)
    (hdue : s.fld.noParentAt + 1000000000 ≤ s.now) :
    exec .parentTimeout s = .next (selectGm { s with fld := { s.fld with tstate := 0, within4Since := none } }) :=
  congrArg Host.Outcome.next (if_pos ⟨hnone, hgm, hdue⟩)

theorem exec_gmAdvertStale {s : State} {a : Nat} (hsome : (s.adit a).advert.isSome = true)
    (hdue : (s.adit a).advertAt + 64000 < s.now) :
    exec (.gmAdvertStale a) s = .next (selectGm (s.setAdit a { s.adit a with advert := none })) :=
  congrArg Host.Outcome.next (if_pos ⟨hsome, hdue⟩)

/-! ### The PPS pins (R334) -/

/-- What is to be added to a number of nanoseconds to reach the nearest whole second. -/
theorem toSecond_nearest (n : Nat) :
    let p := n % 1000000000
    let d : Int := if p ≤ 500000000 then -(p : Int) else 1000000000 - (p : Int)
    ((n : Int) + d) % 1000000000 = 0 ∧ d.natAbs ≤ 500000000 := by
  dsimp only
  split <;> omega

theorem exec_ppsInEdge {s : State} (hpin : (selectGm s).chr.auxPpsIn.isSome = true) (hgm : (selectGm s).fld.tstate = 3) :
    ∃ t, exec .ppsInEdge s = .next t
      ∧ ((s.tclk.toNat : Int) + t.fld.steer) % 1000000000 = 0 ∧ t.fld.steer.natAbs ≤ 500000000 := by
  refine ⟨_, congrArg Host.Outcome.next (if_pos ⟨hpin, hgm⟩), ?_⟩
  dsimp only
  rw [selectGm_tclk]
  exact toSecond_nearest s.tclk.toNat

theorem exec_ppsOutEdge {s : State} (hpin : s.chr.auxPpsOut.isSome = true) (hdue : s.fld.ppsDue = true) :
    exec .ppsOutEdge s = .next { s with out := .ppsOut s.tclk :: s.out, fld := { s.fld with ppsDue := false } } :=
  congrArg Host.Outcome.next (if_pos ⟨hpin, hdue⟩)

/-- Settles O34: each clause is the rule above of its event. -/
theorem fieldTime : Obligations.FieldTime := by
  unfold Obligations.FieldTime
  refine ⟨fun s a stamp p huse hstate => ⟨?_, ?_⟩, fun s ofs h => useOffset_free ofs h,
    fun s a huse hstate => ⟨ownTime a (selectGm s).fresh.1 (selectGm s), _, exec_timeFlitTimer huse hstate, ?_, ?_, ?_,
      rfl, rfl, ?_⟩,
    fun s t₀ hnear hlocking hdue => exec_timeLocked hnear hlocking hdue,
    fun s hnone hgm hdue => exec_parentTimeout hnone hgm hdue,
    fun s a hsome hdue => exec_gmAdvertStale hsome hdue,
    fun s hpin hgm => exec_ppsInEdge hpin hgm, fun s hpin hdue => exec_ppsOutEdge hpin hdue⟩
  · exact exec_timeFlit_measures huse hstate rfl
  · exact exec_timeFlit_stores huse hstate rfl
  · rw [sendLink_out, State.adit_fresh, selectGm_adit]
    rfl
  · exact congrArg Adit.lastTtx (selectGm_adit s a)
  · exact congrArg Adit.lastTrx (selectGm_adit s a)
  · exact (timeStamp_ns _ _).trans (by rw [selectGm_tclk])

/-! ### An idle nanosecond (R330) -/

/-- With nothing to steer, TCLK and the model's clock advance alike. -/
theorem tick_unsteered {s : State} (h : s.fld.steer = 0) :
    tick s = { s with
      now := s.now + 1, tclk := s.tclk + 1
      fld := { s.fld with ppsDue := s.fld.ppsDue || decide ((s.tclk.toNat + 1) % 1000000000 = 0) } } := by
  have hstep : tclkStep s = 1 := if_pos (.inl h)
  simp [tick, hstep]

/-- Settles O2: an idle step is a tick of the clock. -/
theorem idleTick : Obligations.IdleTick := by
  unfold Obligations.IdleTick
  intro s hidle hsteer
  rw [step_of_idle hidle, tick_unsteered hsteer]

end Sys2Proof.Machine
end

section
/-! Membership of the field (R306, R311, R323 to R328): what a message to the neighbours leaves, then one rule per message,
timer and command; then the statement about them (O33). -/

namespace Sys2Proof.Machine

/-! ### A message to the neighbours (R324, R329) -/

/-- State `t` is state `s` but for what its ports hold and the number of the next message. -/
def OnlyPorts (s t : State) : Prop := t = { s with adits := t.adits, fld := { s.fld with msgs := t.fld.msgs } }

theorem OnlyPorts.refl (s : State) : OnlyPorts s s := rfl

theorem OnlyPorts.trans {s t u : State} (h : OnlyPorts s t) (k : OnlyPorts t u) : OnlyPorts s u := by
  unfold OnlyPorts at *
  rw [k, h]

theorem OnlyPorts.now {s t : State} (h : OnlyPorts s t) : t.now = s.now := by
  unfold OnlyPorts at h
  rw [h]

theorem OnlyPorts.members {s t : State} (h : OnlyPorts s t) : t.members = s.members := by
  unfold OnlyPorts at h
  rw [h]

theorem OnlyPorts.sendNeighbour (a : Nat) (data : List Byte) (s : State) : OnlyPorts s (sendNeighbour a data s) := by
  simp only [Machine.sendNeighbour]
  split <;> rfl

theorem OnlyPorts.foldl {α : Type} (l : List α) (f : State → α → State) (h : ∀ s a, OnlyPorts s (f s a)) (s : State) :
    OnlyPorts s (l.foldl f s) := by
  induction l generalizing s with
  | nil => exact .refl s
  | cons a l ih => exact (h s a).trans (ih (f s a))

theorem OnlyPorts.sendPeers (but : Option Nat) (data : List Byte) (s : State) : OnlyPorts s (sendPeers but data s) := by
  refine .foldl _ _ (fun s a => ?_) s
  split
  · exact .refl s
  · exact .sendNeighbour a data s

/-! ### Entries applied (R325, R326, R328) -/

theorem applyJoin_higher (src : Option Nat) {s : State} {x inc serial : Nat} (hinc : (s.memberOf x).inc < inc)
    (hserial : x = s.fld.id → serial = s.fuses.serial.toNat) :
    applyJoin src x inc serial s = sendPeers src (memberData 0x10 x { member := true, inc := inc, serial := serial })
      { s with members := Tbl.put s.members x { member := true, inc := inc, serial := serial } } :=
  (if_neg (fun h => h.2 (hserial h.1))).trans (if_pos hinc)

theorem applyJoin_duplicate (src : Option Nat) {s : State} {x serial : Nat} (inc : Nat) (hown : x = s.fld.id)
    (hserial : serial ≠ s.fuses.serial.toNat) :
    (applyJoin src x inc serial s).fld.dupId = true ∧ (applyJoin src x inc serial s).members = s.members := by
  rw [applyJoin, if_pos ⟨hown, hserial⟩]
  exact ⟨congrArg Fld.dupId (logEvent_fld _ _ _ _ _), logEvent_members _ _ _ _ _⟩

/-- A LEAVE of another stack ends its membership and goes on to the peers. -/
theorem applyLeave_other (src : Option Nat) {s : State} {x inc : Nat} (hmember : (s.memberOf x).member = true)
    (hinc : (s.memberOf x).inc ≤ inc) (hother : x ≠ s.fld.id) :
    applyLeave src x inc s = sendPeers src (memberData 0x11 x { s.memberOf x with member := false, inc := inc })
      { s with members := Tbl.put s.members x { s.memberOf x with member := false, inc := inc } } := by
  simp [applyLeave, hmember, hinc, hother]

/-! ### Management messages taken from the inbox (R311, R324) -/

section Inbox

variable {s : State} {a : Nat} {m : Msg} {rest : List (Nat × Msg)} (hin : s.fld.inbox = (a, m) :: rest)
include hin

/-- The oldest message is taken by whatever picks it. -/
theorem takeMsg_picked {pick : Nat × Msg → Bool} (hpick : pick (a, m) = true) :
    takeMsg pick s = some ({ s with fld := { s.fld with inbox := rest } }, (a, m)) := by
  simp [takeMsg, hin, List.findIdx?_cons, hpick, listDel]

variable (hop : m.op = 0x20)
include hop

theorem exec_joinMsg (htype : leAt m.data 0 1 = 0x10) :
    let e := parseEntry m.data 16
    exec (.joinMsg a e) s
      = .next (applyJoin (some a) e.stack e.incarnation e.serial { s with fld := { s.fld with inbox := rest } }) := by
  intro e
  change execJoinMsg a e s = _
  simp only [execJoinMsg]
  rw [takeMsg_picked hin (by simp [mgmtFrom, hop, htype, e])]

theorem exec_leaveMsg (htype : leAt m.data 0 1 = 0x11) :
    let e := parseEntry m.data 16
    exec (.leaveMsg a e) s
      = .next (applyLeave (some a) e.stack e.incarnation { s with fld := { s.fld with inbox := rest } }) := by
  intro e
  change execLeaveMsg a e s = _
  simp only [execLeaveMsg]
  rw [takeMsg_picked hin (by simp [mgmtFrom, hop, htype, e])]

theorem exec_snapshotMsg (htype : leAt m.data 0 1 = 0x13) :
    exec (.snapshotMsg a (parseSnapshot m.data)) s
      = .next ((parseSnapshot m.data).foldl (fun s m =>
          if m.member then applyJoin (some a) m.stack m.incarnation m.serial s
          else applyLeave (some a) m.stack m.incarnation s) { s with fld := { s.fld with inbox := rest } }) := by
  change execSnapshotMsg a _ s = _
  simp only [execSnapshotMsg]
  rw [takeMsg_picked hin (by simp [mgmtFrom, hop, htype])]

theorem exec_linkmapMsg (htype : leAt m.data 0 1 = 0x12) (hgroup : groupOf m.src = groupOf s.fld.id) :
    exec (.linkmapMsg a (memberOf m.src) (leAt m.data 4 4) (leAt m.data 8 2)) s
      = .next { s with
          fld := { s.fld with inbox := rest }
          linkmaps := Tbl.put s.linkmaps (memberOf m.src) {
            locals := leAt m.data 4 4, globals := leAt m.data 8 2, at_ := s.now, fresh := true } } := by
  change execLinkmapMsg a _ _ _ s = _
  simp only [execLinkmapMsg]
  rw [takeMsg_picked hin (by simp [mgmtFrom, hop, htype, hgroup])]

end Inbox

/-! ### Timers (R311, R325) -/

/-- Only the map that is past its time goes stale. -/
theorem exec_linkmapStale {s : State} {k : Nat} (hfresh : (s.linkmap k).fresh = true)
    (hdue : (s.linkmap k).at_ + 3000000 < s.now) :
    ∃ t, exec (.linkmapStale k) s = .next t ∧ (t.linkmap k).fresh = false ∧ (∀ j, j ≠ k → t.linkmap j = s.linkmap j) :=
  ⟨_, congrArg Host.Outcome.next (if_pos ⟨hfresh, hdue⟩),
    congrArg LinkMap.fresh (Tbl.look_put_same _ _ _ _), fun _ hj => Tbl.look_put_other _ _ _ hj⟩

theorem exec_joinSettle {s : State} (hsent : s.fld.joinSent = true) (hleft : s.fld.left = false)
    (hdue : s.fld.joinAt + 100000 ≤ s.now) :
    exec .joinSettle s = .next { s with fld := { s.fld with joined := true } } :=
  congrArg Host.Outcome.next (if_pos ⟨hsent, hleft, hdue⟩)

/-! ### FLD_ID (R306) -/

section FieldId

variable {s : State} {r : Requester} (hr : reachesRegs r = true)
include hr

theorem exec_fldIdWrite (v : Word) : exec (.fldIdWrite r v) s = .next (fldIdWrite r v s) :=
  congrArg Host.Outcome.next (if_pos hr)

theorem exec_fldIdWrite_locked (v : Word) (hlocked : s.fld.idLocked = true) :
    exec (.fldIdWrite r v) s = .next (logIgnored 0x10 0 r 0x03A00100 0 s) :=
  (exec_fldIdWrite hr v).trans (congrArg Host.Outcome.next (if_pos hlocked))

variable {v : Word} (hopen : s.fld.idLocked = false)
include hopen

theorem exec_fldIdWrite_takes (hgroup : groupOf (bits 13 0 v.toNat) < s.chr.groups) :
    exec (.fldIdWrite r v) s = .next { s with fld := { s.fld with id := bits 13 0 v.toNat } } := by
  rw [exec_fldIdWrite hr v, fldIdWrite, if_neg (Bool.eq_false_iff.mp hopen), if_neg (Nat.not_le.mpr hgroup)]

theorem exec_fldIdWrite_noGroup (hgroup : s.chr.groups ≤ groupOf (bits 13 0 v.toNat)) :
    exec (.fldIdWrite r v) s = .next (logIgnored 0x10 0 r 0x03A00100 4 s) := by
  rw [exec_fldIdWrite hr v, fldIdWrite, if_neg (Bool.eq_false_iff.mp hopen), if_pos hgroup]

end FieldId

/-! ### Commands of members (R323, R326) -/

theorem exec_memberLeave {s : State} {r : Requester} (hr : reachesRegs r = true) (x : Nat) :
    exec (.memberLeave r x) s = .next (applyLeave none x (s.memberOf x).inc s) :=
  congrArg Host.Outcome.next (if_pos hr)

theorem writeSurvey_frame (es : List SurveyEnt) (s : State) : ∃ b, writeSurvey es s = { s with brg := b } := by
  simp only [writeSurvey]
  split <;> exact ⟨_, rfl⟩

/-- The stack is a member at the incarnation after the one its survey holds. -/
theorem newIncarnation_frame (s : State) : ∃ b, newIncarnation s = { s with
    brg := b
    members := Tbl.put s.members s.fld.id
      { member := true, inc := (heldIncarnation (surveyEntries s) + 1) % 2 ^ 32, serial := s.fuses.serial.toNat } } := by
  obtain ⟨b, h⟩ := writeSurvey_frame ((surveyEntries s).filter (fun e => e.kind != 5) ++
    [{ kind := 5, cause := 0, grain := 0, index := 0, data := (heldIncarnation (surveyEntries s) + 1) % 2 ^ 32 }]) s
  exact ⟨b, by simp only [newIncarnation, h]⟩

/-- The stack's JOIN is marked as sent at this time; the table of members is as before. -/
theorem sendJoin_marks (s : State) :
    (sendJoin s).fld.joinSent = true ∧ (sendJoin s).fld.joinAt = s.now ∧ (sendJoin s).members = s.members := by
  have hsent : OnlyPorts s (sendPeers none (memberData 0x10 s.fld.id (s.memberOf s.fld.id)) s) := .sendPeers _ _ s
  exact ⟨rfl, hsent.now, hsent.members⟩

theorem exec_memberRejoin {s : State} {r : Requester} {x : Nat} (hr : reachesRegs r = true) (hown : x = s.fld.id)
    (hleft : s.fld.left = true) :
    exec (.memberRejoin r x) s
      = .next (sendJoin { newIncarnation s with fld := { (newIncarnation s).fld with left := false } }) := by
  have hcmd : memberCmd 2 x s = sendJoin { newIncarnation s with fld := { (newIncarnation s).fld with left := false } } :=
    (if_neg (by decide)).trans (if_pos ⟨rfl, hown, hleft⟩)
  exact congrArg Host.Outcome.next ((if_pos hr).trans hcmd)

/-- The JOIN of a stack that rejoins is sent now, and its entry holds the next incarnation. -/
theorem rejoin_member (s : State) :
    let t := sendJoin { newIncarnation s with fld := { (newIncarnation s).fld with left := false } }
    t.fld.joinSent = true ∧ t.fld.joinAt = s.now ∧ (t.memberOf s.fld.id).member = true
      ∧ (t.memberOf s.fld.id).inc = (heldIncarnation (surveyEntries s) + 1) % 2 ^ 32 := by
  intro t
  obtain ⟨b, hnew⟩ := newIncarnation_frame s
  obtain ⟨hsent, hat, hmembers⟩ := sendJoin_marks
    { newIncarnation s with fld := { (newIncarnation s).fld with left := false } }
  have hentry : t.memberOf s.fld.id = { member := true, inc := (heldIncarnation (surveyEntries s) + 1) % 2 ^ 32
                                        serial := s.fuses.serial.toNat } := by
    rw [State.memberOf, hmembers, hnew, Tbl.look_put_same]
  rw [hentry]
  exact ⟨hsent, hat.trans (by rw [hnew]), rfl, rfl⟩

/-! ### The statement -/

/-- Settles O33: each clause is the rule above of its message, timer or command. -/
theorem membership : Obligations.Membership := by
  unfold Obligations.Membership
  refine ⟨fun s a x inc serial hinc hserial => applyJoin_higher _ hinc hserial,
    fun s a x inc serial hown hserial => applyJoin_duplicate _ inc hown hserial,
    fun s a x inc hmember hinc hother => applyLeave_other _ hmember hinc hother,
    fun s a m rest hin hop => ⟨exec_joinMsg hin hop, exec_leaveMsg hin hop, exec_snapshotMsg hin hop,
      exec_linkmapMsg hin hop⟩,
    fun s => rfl, fun s k hfresh hdue => exec_linkmapStale hfresh hdue,
    fun s hsent hleft hdue => exec_joinSettle hsent hleft hdue,
    fun s r v hr => ⟨exec_fldIdWrite_takes hr, exec_fldIdWrite_locked hr v, exec_fldIdWrite_noGroup hr⟩,
    fun s r x hr => ⟨exec_memberLeave hr x, fun hown hleft =>
      ⟨_, exec_memberRejoin hr hown hleft, by subst hown; exact rejoin_member s⟩⟩⟩

end Sys2Proof.Machine
end

section
/-! A step performs the front command, whatever it is, and goes on (O1, O3); no word spells a command (O56); the registers' values at
reset (O55). -/

namespace Sys2Proof.Machine

/-- The meaning of every command is a next state. -/
theorem exec_goesOn (i : Instr) (s : State) : ∃ t, exec i s = .next t := by
  cases i <;> exact ⟨_, rfl⟩

theorem step_goesOn (s : State) : Safety.goesOn s := by
  cases hp : s.pending with
  | nil => exact ⟨tick s, step_of_idle hp⟩
  | cons c rest =>
    obtain ⟨t, ht⟩ := exec_goesOn c { s with pending := rest }
    exact ⟨t, (step_of_pending hp).trans ht⟩

theorem tick_keeps_sent (s : State) :
    (tick s).pending = s.pending ∧ (tick s).now = s.now + 1 ∧ (tick s).free = s.free ∧ (tick s).out = s.out :=
  ⟨rfl, rfl, rfl, rfl⟩

/-- Settles O1: the step's own equation on a queue with a first command. -/
theorem frontCommand : Obligations.FrontCommand := by
  unfold Obligations.FrontCommand
  exact fun c s rest h => step_of_pending h

/-- Settles O3: every command's arm is a next state, and what the operations keep (Laws/Keeps.lean) carries the queue, the clock, the
counter of free values and what was sent over to it. -/
theorem everyStepGoesOn : Obligations.EveryStepGoesOn := by
  unfold Obligations.EveryStepGoesOn
  refine fun s => ⟨step_goesOn s, fun t ht => ?_⟩
  rcases step_next_cases ht with ⟨hidle, rfl⟩ | ⟨c, rest, hp, hpending, hnow, hfree, hout, -⟩
  · obtain ⟨hpending, hnow, hfree, hout⟩ := tick_keeps_sent s
    exact ⟨by rw [hpending, hidle, List.tail_nil], .inr hnow, hfree.ge, by rw [hout]⟩
  · exact ⟨by rw [hpending, hp, List.tail_cons], .inl hnow, hfree, hout⟩

theorem decodeTableWord_none (nbits w : Nat) : decodeTableWord nbits w = none :=
  Option.eq_none_iff_forall_ne_some.mpr fun i => Laws.NoWord.of_any i nbits w

/-- Settles O56: the state with a word's command placed is the state, since the word spells none. -/
theorem noEncodedCommands : Obligations.NoEncodedCommands := by
  unfold Obligations.NoEncodedCommands
  intro s nbits w
  refine ⟨decodeTableWord_none nbits w, ?_⟩
  rw [State.withFetchWord, decodeTableWord_none]

/-- Settles O55: no unit is listed at reset, so each reads its default. -/
theorem resetValues : Obligations.ResetValues := by
  unfold Obligations.ResetValues
  have hgal : ∀ g, State.reset.gal g = {} := fun _ => rfl
  have hcrew : ∀ c, State.reset.crew c = {} := fun _ => rfl
  refine ⟨rfl, rfl, rfl, rfl, rfl, rfl, ⟨rfl, rfl, rfl, rfl, rfl⟩, fun g => ?_, fun c => ?_, fun a => rfl,
    fun n => ⟨rfl, rfl, rfl⟩, fun u => ⟨rfl, rfl, rfl⟩, rfl, rfl, rfl, rfl⟩
  · rw [hgal]
    exact ⟨rfl, rfl, rfl, rfl, rfl, rfl, rfl, rfl, rfl⟩
  · rw [hcrew]
    exact ⟨rfl, rfl⟩

end Sys2Proof.Machine
end

section
/-! Lines of the stores, by kind and number (R36, R39, R367): the place of each line in the memory that holds it, and what a line
reads after a line is written (O6). -/

namespace Sys2Proof.Machine

theorem Memory.read_write_line (m : Memory) (a : Nat) {bs : List Byte} (hlen : bs.length = 64) :
    (m.write a bs).read a 64 = bs :=
  hlen ▸ m.read_write a bs

/-- Two lines of one memory: the one that is not written reads as before. -/
theorem Memory.read_write_lineOther (m : Memory) {a b : Nat} {bs : List Byte} (hlen : bs.length = 64)
    (h : b + 64 ≤ a ∨ a + 64 ≤ b) : (m.write a bs).read b 64 = m.read b 64 :=
  m.read_write_other a bs b 64 (by omega)

theorem lineId_ne {k i j a b : Nat} (h : (⟨k, j, b⟩ : LineId) ≠ ⟨k, i, a⟩) : j ≠ i ∨ b ≠ a := by
  by_contra hc
  exact h (by rw [not_or, not_not, not_not] at hc; rw [hc.1, hc.2])

/-- The stores of a crew by their numbering (Table 13-1): face stores, local store, tally memory. -/
theorem crewLine_read_write (s : State) {i j a b : Nat} {bs : List Byte} (hlen : bs.length = 64) (ha : a < 75776) (hb : b < 75776) :
    idRead (idWrite ⟨3, i, a⟩ bs s) ⟨3, i, a⟩ = bs
      ∧ ((⟨3, j, b⟩ : LineId) ≠ ⟨3, i, a⟩ → idRead (idWrite ⟨3, i, a⟩ bs s) ⟨3, j, b⟩ = idRead s ⟨3, j, b⟩) := by
  by_cases hface : a < 65536
  · simp only [idRead, idWrite, if_pos hface]
    refine ⟨Memory.read_write_line _ _ hlen, fun hne => ?_⟩
    split
    · exact Memory.read_write_lineOther _ hlen (by have := lineId_ne hne; omega)
    · rfl
  · by_cases hls : a < 73728
    · simp only [idRead, idWrite, if_neg hface, if_pos hls]
      refine ⟨Memory.read_write_line _ _ hlen, fun hne => ?_⟩
      split
      · rfl
      · split
        · exact Memory.read_write_lineOther _ hlen (by have := lineId_ne hne; omega)
        · rfl
    · simp only [idRead, idWrite, if_neg hface, if_neg hls]
      refine ⟨Memory.read_write_line _ _ hlen, fun hne => ?_⟩
      split
      · rfl
      · split
        · rfl
        · exact Memory.read_write_lineOther _ hlen (by have := lineId_ne hne; omega)

/-- Settles O6: each kind's lines lie apart in its memory. -/
theorem lineReadAfterWrite : Obligations.LineReadAfterWrite := by
  unfold Obligations.LineReadAfterWrite
  rintro s ⟨k, i, a⟩ ⟨k', j, b⟩ bs hk hlen hkind hl hm hbuf
  obtain rfl : k' = k := hk
  dsimp only at hkind hl hm hbuf
  rcases hkind with hk | ⟨rfl, rfl, rfl⟩
  · obtain rfl | rfl | hplain : k' = 3 ∨ k' = 4 ∨ k' ≤ 2 := by omega
    · simp [storeParts] at hl hm
      exact crewLine_read_write s hlen (by omega) (by omega)
    · simp at hbuf
      simp only [idRead, idWrite, if_pos hbuf.1, if_pos hbuf.2]
      exact ⟨Memory.read_write_line _ _ hlen,
        fun h => Memory.read_write_lineOther _ hlen (by have := lineId_ne h; omega)⟩
    · interval_cases k' <;> simp [storeParts] at hl hm <;>
        exact ⟨Memory.read_write_line _ _ hlen,
          fun h => Memory.read_write_lineOther _ hlen (by have := lineId_ne h; dsimp only; omega)⟩
  · exact ⟨Memory.read_write_line _ _ hlen,
      fun h => Memory.read_write_lineOther _ hlen (by have := lineId_ne h; dsimp only; omega)⟩

end Sys2Proof.Machine
end

section
/-! A gallery's readings, points and ramps (R399 to R412): one rule per event and outcome, then the statements about them (O10,
O41). -/

namespace Sys2Proof.Machine

/-! ### Sensor readings (R403) -/

theorem noteReading_lower {g mv : Nat} {s : State} (h : mv < (s.gal g).vmin) :
    noteReading g mv s = s.setGal g { s.gal g with vmin := mv, droopTs := s.tclk } :=
  if_pos h

theorem noteReading_notLower {g mv : Nat} {s : State} (h : (s.gal g).vmin ≤ mv) : noteReading g mv s = s :=
  if_neg (Nat.not_lt.mpr h)

theorem gal_setGal_other (s : State) {g h : Nat} (x : Gal) (hh : h ≠ g) : (s.setGal g x).gal h = s.gal h := by
  rw [gal_setGal_if, if_neg hh]

/-- The lowest reading and its time, of this gallery alone. -/
theorem noteReading_record (g mv : Nat) (s : State) :
    ((noteReading g mv s).gal g).vmin = min mv (s.gal g).vmin
      ∧ ((noteReading g mv s).gal g).droopTs = (if mv < (s.gal g).vmin then s.tclk else (s.gal g).droopTs)
      ∧ ∀ h, h ≠ g → (noteReading g mv s).gal h = s.gal h := by
  by_cases h : mv < (s.gal g).vmin
  · rw [noteReading_lower h, State.gal_setGal, if_pos h]
    exact ⟨(Nat.min_eq_left h.le).symm, rfl, fun _ => gal_setGal_other s _⟩
  · rw [noteReading_notLower (Nat.not_lt.mp h), if_neg h]
    exact ⟨(Nat.min_eq_right (Nat.not_lt.mp h)).symm, rfl, fun _ _ => rfl⟩

/-! ### Droop (R403, R404) -/

theorem exec_droopTrip {g : Nat} (mv : Nat) (s : State) (hg : g < 32) :
    let t := noteReading g mv s
    exec (.droopTrip g mv) s = .next (
      if mv + (t.gal g).droopTrip < mvNow t g ∧ t.running g = true ∧ (t.gal g).dropping = false then
        t.setGal g { t.gal g with dropping := true, events := satInc 0xFFFF (t.gal g).events }
      else t) :=
  congrArg Host.Outcome.next (if_neg (Nat.not_lt.mpr (Nat.le_of_lt_succ hg)))

theorem exec_droopRecover {g : Nat} (mv : Nat) (s : State) (hg : g < 32) :
    let t := noteReading g mv s
    exec (.droopRecover g mv) s = .next (
      if (t.gal g).dropping = true ∧ 2 * mvNow t g < 2 * mv + (t.gal g).droopTrip then
        t.setGal g { t.gal g with dropping := false }
      else t) := by
  change execDroopRecover g mv s = _
  simp only [execDroopRecover, hg, if_true, true_and]

/-- A trip and a recovery leave the record as the reading left it. -/
theorem exec_droop_record {g : Nat} (mv : Nat) (s : State) (hg : g < 32) (i : Instr)
    (hi : i ∈ [Instr.droopTrip g mv, Instr.droopRecover g mv]) :
    ∃ t, exec i s = .next t ∧ (t.gal g).vmin = min mv (s.gal g).vmin
      ∧ (t.gal g).droopTs = (if mv < (s.gal g).vmin then s.tclk else (s.gal g).droopTs)
      ∧ ∀ h, h ≠ g → t.gal h = s.gal h := by
  obtain ⟨hmin, hts, hother⟩ := noteReading_record g mv s
  have keeps : ∀ x : Gal, x.vmin = ((noteReading g mv s).gal g).vmin → x.droopTs = ((noteReading g mv s).gal g).droopTs →
      (((noteReading g mv s).setGal g x).gal g).vmin = min mv (s.gal g).vmin
      ∧ (((noteReading g mv s).setGal g x).gal g).droopTs = (if mv < (s.gal g).vmin then s.tclk else (s.gal g).droopTs)
      ∧ ∀ h, h ≠ g → ((noteReading g mv s).setGal g x).gal h = s.gal h := fun x hv hd => by
    rw [State.gal_setGal]
    exact ⟨hv.trans hmin, hd.trans hts, fun h hh => (gal_setGal_other _ x hh).trans (hother h hh)⟩
  rcases List.mem_pair.mp hi with rfl | rfl
  · rw [exec_droopTrip mv s hg]
    refine ⟨_, rfl, ?_⟩
    split
    · exact keeps _ rfl rfl
    · exact ⟨hmin, hts, hother⟩
  · rw [exec_droopRecover mv s hg]
    refine ⟨_, rfl, ?_⟩
    split
    · exact keeps _ rfl rfl
    · exact ⟨hmin, hts, hother⟩

theorem exec_droopRearm {r : Requester} {g : Nat} (s : State) (hr : reachesRegs r = true) (hg : g < 32) :
    exec (.droopRearm r g) s = .next (s.setGal g { s.gal g with vmin := 0x3FF, droopTs := 0 }) :=
  congrArg Host.Outcome.next (if_pos ⟨hr, hg⟩)

section Gallery

variable {s : State} {g : Nat} (hg : g < 32)
include hg

theorem exec_droopTrip_trips {mv : Nat} (hv : (s.gal g).vmin ≤ mv) (hlow : mv + (s.gal g).droopTrip < mvNow s g)
    (hrun : s.running g = true) (hd : (s.gal g).dropping = false) :
    exec (.droopTrip g mv) s
      = .next (s.setGal g { s.gal g with dropping := true, events := satInc 0xFFFF (s.gal g).events }) := by
  rw [exec_droopTrip mv s hg, noteReading_notLower hv, if_pos ⟨hlow, hrun, hd⟩]

theorem exec_droopTrip_stopped {mv : Nat} (hv : mv < (s.gal g).vmin) (hrun : s.running g = false) :
    exec (.droopTrip g mv) s = .next (s.setGal g { s.gal g with vmin := mv, droopTs := s.tclk }) := by
  have hstop : (s.setGal g { s.gal g with vmin := mv, droopTs := s.tclk }).running g = false := by
    rw [State.running, State.gal_setGal]
    exact hrun
  rw [exec_droopTrip mv s hg, noteReading_lower hv, if_neg (by simp only [hstop, Bool.false_eq_true, false_and, and_false, not_false_eq_true])]

omit hg in
/-- A reading noted changes nothing of the gallery but its record. -/
theorem noteReading_frame (g mv : Nat) (s : State) :
    ∃ v d, (noteReading g mv s).gal g = { s.gal g with vmin := v, droopTs := d } ∧ (noteReading g mv s).now = s.now := by
  by_cases h : mv < (s.gal g).vmin
  · rw [noteReading_lower h, State.gal_setGal]
    exact ⟨_, _, rfl, rfl⟩
  · rw [noteReading_notLower (Nat.not_lt.mp h)]
    exact ⟨_, _, rfl, rfl⟩

theorem exec_droopRecover_ends {mv : Nat} (hd : (s.gal g).dropping = true)
    (hhigh : 2 * mvNow s g < 2 * mv + (s.gal g).droopTrip) :
    exec (.droopRecover g mv) s
      = .next ((noteReading g mv s).setGal g { (noteReading g mv s).gal g with dropping := false }) := by
  obtain ⟨v, d, hgal, hnow⟩ := noteReading_frame g mv s
  have hmv : mvNow (noteReading g mv s) g = mvNow s g := by rw [mvNow, hgal, hnow]; rfl
  have hcond : ((noteReading g mv s).gal g).dropping = true
      ∧ 2 * mvNow (noteReading g mv s) g < 2 * mv + ((noteReading g mv s).gal g).droopTrip := by
    rw [hmv, hgal]
    exact ⟨hd, hhigh⟩
  rw [exec_droopRecover mv s hg, if_pos hcond]

/-! ### The ramp limit (R406) -/

theorem exec_rampLimitTrip_over {rise : Nat} (h : rampLimit s < rise) (hrun : s.running g = true)
    (ht : (s.gal g).rampTrip = false) :
    exec (.rampLimitTrip g rise) s
      = .next (s.setGal g { s.gal g with rampTrip := true, events := satInc 0xFFFF (s.gal g).events }) := by
  change execRampLimitTrip g rise s = _
  simp only [execRampLimitTrip, if_neg (Nat.not_lt.mpr (Nat.le_of_lt_succ hg)), if_pos h, if_pos (And.intro hrun ht)]

theorem exec_rampLimitTrip_within {rise : Nat} (h : rise ≤ rampLimit s) :
    exec (.rampLimitTrip g rise) s = .next (s.setGal g { s.gal g with rampTrip := false }) := by
  change execRampLimitTrip g rise s = _
  simp only [execRampLimitTrip, if_neg (Nat.not_lt.mpr (Nat.le_of_lt_succ hg)), if_neg (Nat.not_lt.mpr h)]

/-! ### Writes of a gallery's registers (R399, R411, Table 14-8) -/

section Writes

variable {r : Requester} (hr : reachesRegs r = true) (v : Word)
include hr

theorem exec_vfTargetWrite : exec (.vfTargetWrite r g v) s = .next (galCfgWrite r g v s) :=
  congrArg Host.Outcome.next (if_pos ⟨hr, hg⟩)

theorem exec_vfTargetWrite_open (hc : s.committed = false) :
    exec (.vfTargetWrite r g v) s = .next (govern g (s.setGal g { s.gal g with
      target := bits 3 0 v.toNat
      droopTrip := if 20 ≤ bits 15 8 v.toNat ∧ bits 15 8 v.toNat ≤ 60 then bits 15 8 v.toNat else 40 })) := by
  rw [exec_vfTargetWrite hg hr]
  simp only [galCfgWrite, State.setGal_committed, hc, Bool.false_eq_true, false_and, if_false]

theorem exec_vfTargetWrite_committed (hc : s.committed = true) (ht : bits 15 8 v.toNat = (s.gal g).droopTrip) :
    exec (.vfTargetWrite r g v) s = .next (govern g (s.setGal g { s.gal g with target := bits 3 0 v.toNat })) := by
  rw [exec_vfTargetWrite hg hr]
  simp only [galCfgWrite, State.setGal_committed, hc, ht, ne_eq, not_true_eq_false, and_false, if_true, if_false]

theorem exec_galParkWrite :
    exec (.galParkWrite r g v) s = .next (setReasons g (fun x => { x with park := bit 0 v.toNat }) s) :=
  congrArg Host.Outcome.next (if_pos ⟨hr, hg⟩)

end Writes

/-! ### Raise, lower and slew (R399, R400) -/

theorem exec_vfRaise (hok : (s.gal g).raiseOk = true) (hm : (s.gal g).moving = false) (hre : (s.gal g).reasons = false) :
    exec (.vfRaise g) s = .next (s.setGal g { s.gal g with moving := true, raiseOk := false, slewAt := s.now }) :=
  congrArg Host.Outcome.next (if_pos ⟨hg, hok, hm, hre⟩)

theorem exec_vfLower (hm : (s.gal g).moving = false) (hf : (s.gal g).fenced = false) (heff : effPoint s g < (s.gal g).point) :
    let s1 := if (s.gal g).waiting || (s.gal g).raiseOk then withdraw g s else s
    exec (.vfLower g) s = .next (recomputeK g (s1.setGal g { s1.gal g with
      point := effPoint s g, goal := effPoint s g, moving := true, slewAt := s1.now })) :=
  congrArg Host.Outcome.next (if_pos ⟨hg, hm, hf, .inl heff⟩)

theorem exec_vfSlewDone (hm : (s.gal g).moving = true)
    (hdue : (s.gal g).slewAt
      + 100 * (pointMv (s.gal g).goal - (s.gal g).mv + ((s.gal g).mv - pointMv (s.gal g).goal)) ≤ s.now) :
    let drawn := if (s.gal g).point < (s.gal g).goal then s.pwr.granted.del g else s.pwr.granted
    exec (.vfSlewDone g) s = .next (govern g (recomputeK g (({ s with pwr := { s.pwr with granted := drawn } }).setGal g
      { s.gal g with moving := false, mv := pointMv (s.gal g).goal, point := (s.gal g).goal }))) :=
  congrArg Host.Outcome.next (if_pos ⟨hg, hm, hdue⟩)

/-! ### The ramps of a park and an unpark (R411, R412) -/

theorem exec_parkRampStep (hramp : (s.gal g).ramp = 1) :
    exec (.parkRampStep g) s = .next (
      if (s.gal g).step < rampSteps (s.gal g) then s.setGal g { s.gal g with step := (s.gal g).step + 1 } else clockStop g s) :=
  congrArg Host.Outcome.next (if_pos ⟨hg, hramp⟩)

omit hg in
theorem halfWaits_iff : halfWaits s g = true ↔ ∃ q ∈ s.pwr.queue, q.1 = g := by
  simp only [halfWaits, List.any_eq_true, beq_iff_eq]

omit hg in
theorem halfWaits_eq_false (h : ∀ q ∈ s.pwr.queue, q.1 ≠ g) : halfWaits s g = false :=
  Bool.eq_false_iff.mpr fun hw => by
    obtain ⟨q, hq, he⟩ := halfWaits_iff.mp hw
    exact h q hq he

omit hg in
/-- A half drawn touches the granted amount and the gallery's own mark. -/
theorem drawHalf_frame (g : Nat) (s : State) : (drawHalf g s).pwr.queue = s.pwr.queue
    ∧ ∃ b, (drawHalf g s).gal g = { s.gal g with halfDrawn := b } := by
  unfold drawHalf
  split
  · exact ⟨rfl, _, rfl⟩
  · exact ⟨rfl, true, State.gal_setGal _ _ _⟩

/-- At step 8 of a partial grant the half is drawn, and the ramp goes on once no half waits. -/
theorem exec_unparkRampStep_half (hramp : (s.gal g).ramp = 2) (hstep : (s.gal g).step = 8) (hp : (s.gal g).partial_ = true) :
    exec (.unparkRampStep g) s = .next (
      if halfWaits s g = true then drawHalf g s
      else (drawHalf g s).setGal g { (drawHalf g s).gal g with step := 9 }) := by
  obtain ⟨hqueue, b, hgal⟩ := drawHalf_frame g s
  have hwaits : halfWaits (drawHalf g s) g = halfWaits s g := by rw [halfWaits, hqueue, halfWaits]
  change execUnparkRampStep g s = _
  simp only [execUnparkRampStep, hg, hramp, hstep, hp, hgal, hwaits, rampSteps, and_self, true_and, if_true,
    show 8 < 16 by decide]

theorem exec_unparkRampStep_on (hramp : (s.gal g).ramp = 2) (hstep : (s.gal g).step ≠ 8)
    (hlt : (s.gal g).step < rampSteps (s.gal g)) :
    exec (.unparkRampStep g) s = .next (s.setGal g { s.gal g with step := (s.gal g).step + 1 }) := by
  change execUnparkRampStep g s = _
  simp only [execUnparkRampStep, hg, hramp, hstep, hlt, and_self, false_and, if_true, if_false]

theorem exec_unparkRampStep_ends (hramp : (s.gal g).ramp = 2) (hstep : (s.gal g).step = rampSteps (s.gal g))
    (hp : (s.gal g).partial_ = false) :
    exec (.unparkRampStep g) s = .next (govern g (({ s with pwr := { s.pwr with granted := s.pwr.granted.del g } }).setGal g
      { s.gal g with ramp := 0, step := 0, partial_ := false })) := by
  change execUnparkRampStep g s = _
  simp only [execUnparkRampStep, hg, hramp, hp, hstep, Nat.lt_irrefl, and_self, Bool.false_eq_true, and_false, false_and,
    if_true, if_false]
  rfl

omit hg in
theorem drawHalf_drawn (h : (s.gal g).halfDrawn = true) : drawHalf g s = s := if_pos h

omit hg in
/-- What the ledger keeps of the grant once its half is drawn: the other half, or nothing where a half still waits. -/
theorem drawHalf_open (h : (s.gal g).halfDrawn = false) :
    (drawHalf g s).gal g = { s.gal g with halfDrawn := true }
      ∧ ((∃ q ∈ s.pwr.queue, q.1 = g) → Tbl.look 0 (drawHalf g s).pwr.granted g = 0)
      ∧ ((∀ q ∈ s.pwr.queue, q.1 ≠ g) →
          Tbl.look 0 (drawHalf g s).pwr.granted g = Tbl.look 0 s.pwr.granted g - Tbl.look 0 s.pwr.granted g / 2) := by
  simp only [drawHalf, if_neg (Bool.eq_false_iff.mp h), State.gal_setGal, State.setGal_pwr, Tbl.look_put_same, true_and]
  constructor
  · rintro ⟨q, hq, rfl⟩
    have hfound : (s.pwr.queue.find? (fun p => p.1 == q.1)).isSome := List.find?_isSome.mpr ⟨q, hq, beq_self_eq_true q.1⟩
    obtain ⟨p, hp⟩ := Option.isSome_iff_exists.mp hfound
    rw [hp, Nat.sub_self]
  · intro hq
    rw [List.find?_eq_none.mpr fun q hmem => by simpa using hq q hmem]

end Gallery

/-! ### The statements -/

/-- Settles O10: a trip and a recovery note their reading, the re-arm starts again, and the ramp limit's check writes other fields. -/
theorem droopRecord : Obligations.DroopRecord := by
  unfold Obligations.DroopRecord
  refine ⟨fun s g mv hg i hi => exec_droop_record mv s hg i hi, fun s r g hg hr => ⟨_, exec_droopRearm s hr hg, ?_⟩,
    fun s g n => ?_⟩
  · rw [State.gal_setGal]
    exact ⟨rfl, rfl⟩
  · have keeps : ∀ x : Gal, x.vmin = (s.gal g).vmin → x.droopTs = (s.gal g).droopTs → ∀ h,
        ((s.setGal g x).gal h).vmin = (s.gal h).vmin ∧ ((s.setGal g x).gal h).droopTs = (s.gal h).droopTs := by
      intro x hv hd h
      rw [gal_setGal_if]
      split
      · next e => exact e ▸ ⟨hv, hd⟩
      · exact ⟨rfl, rfl⟩
    refine ⟨_, rfl, ?_⟩
    dsimp only
    split
    · exact fun h => ⟨rfl, rfl⟩
    · split
      · split
        · exact keeps _ rfl rfl
        · exact fun h => ⟨rfl, rfl⟩
      · exact keeps _ rfl rfl

/-- Settles O41: each clause is the rule above of its write or event and outcome. -/
theorem galleryPoints : Obligations.GalleryPoints := by
  unfold Obligations.GalleryPoints
  refine ⟨fun s r g v hr hg => ⟨exec_vfTargetWrite_open hg hr v, exec_vfTargetWrite_committed hg hr v,
      exec_droopRearm s hr hg, exec_galParkWrite hg hr v⟩,
    fun s g hg => ⟨exec_vfRaise hg, exec_vfLower hg, exec_vfSlewDone hg, fun mv => exec_droopTrip_trips hg,
      fun mv => exec_droopTrip_stopped hg, fun mv => exec_droopRecover_ends hg,
      fun mv => ⟨noteReading_lower, noteReading_notLower⟩, fun rise => exec_rampLimitTrip_over hg,
      fun rise => exec_rampLimitTrip_within hg, fun hramp hlt => ?_, fun hramp hle => ?_,
      fun hramp hstep hp hq => ?_, fun hramp hstep hp hq => ?_, drawHalf_drawn, drawHalf_open,
      exec_unparkRampStep_on hg, exec_unparkRampStep_ends hg⟩⟩
  · rw [exec_parkRampStep hg hramp, if_pos hlt]
  · rw [exec_parkRampStep hg hramp, if_neg (Nat.not_lt.mpr hle)]
  · rw [exec_unparkRampStep_half hg hramp hstep hp, if_pos (halfWaits_iff.mpr hq)]
  · rw [exec_unparkRampStep_half hg hramp hstep hp, if_neg (Bool.eq_false_iff.mp (halfWaits_eq_false hq))]

end Sys2Proof.Machine
end

section
/-! DEMAND frames and the ledger (R407 to R410): one rule per event, then the statement about them (O42). -/

namespace Sys2Proof.Machine

/-! ### DEMAND frames (R407) -/

/-- A sum that lies on no middle is rounded to the nearest, whatever the free bit. -/
theorem demandAmps_nearest {x : Int} (up : Bool) (h : x % 6480 ≠ 3240) :
    demandAmps x up = if 3240 < x % 6480 then x / 6480 + 1 else x / 6480 := by
  simp only [demandAmps, h, false_and, or_false]

section Frame

variable {s : State} {slot : Nat} {x : Int} {rest : List (Nat × Int)} (hsteps : s.pwr.steps = (slot, x) :: rest)
  (hboard : s.chr.boardDemand = true) (hmid : x % 6480 ≠ 3240)
include hsteps hboard hmid

theorem exec_demandFrame :
    let a := if 3240 < x % 6480 then x / 6480 + 1 else x / 6480
    let lead := slot * 250 - s.tclk.toNat
    let q := (s.pwr.seq + 1) % 16
    exec .demandFrame s = .next (
      if a = 0 then { s with pwr := { s.pwr with steps := rest } }
      else { s with
        pwr := { s.pwr with steps := rest, seq := q, frames := satInc 0xFFFF s.pwr.frames
                            late := if lead < 1000 then satInc 0xFF s.pwr.late else s.pwr.late }
        out := .demand ((demandNibbles a (min 0xFFF (lead / 50)) q).map (BitVec.ofNat 8)) :: s.out }) := by
  change execDemandFrame s = _
  simp only [execDemandFrame, hsteps, hboard, hmid, demandAmps_nearest _ hmid, Bool.true_eq_false, if_false]
  rfl

end Frame

/-! ### An evaluation (R408, R410) -/

/-- A gallery with its current measured at TCLK `t`, and its account with the steps still to come. -/
def accountOf (t : Dword) (m : Nat) (x : Gal) : Gal :=
  let ns := x.notices.filter (fun n => decide (t.toNat < n.2.1))
  { x with measured := m, notices := ns, account := max m ((m : Int) + ns.foldl (fun a n => a + n.2.2.1) (0 : Int)).toNat }

theorem accountTake_eq (g m : Nat) (s : State) : accountTake g m s = s.setGal g (accountOf s.tclk m (s.gal g)) := rfl

/-- TCLK stands while the galleries are measured. -/
theorem foldl_accountTake (ms : List Nat) (l : List Nat) (s : State) :
    l.foldl (fun s g => accountTake g (ms.getD g 0) s) s
      = l.foldl (fun u g => u.setGal g (accountOf s.tclk (ms.getD g 0) (u.gal g))) s := by
  suffices h : ∀ u : State, u.tclk = s.tclk → l.foldl (fun s g => accountTake g (ms.getD g 0) s) u
      = l.foldl (fun u g => u.setGal g (accountOf s.tclk (ms.getD g 0) (u.gal g))) u from h s rfl
  induction l with
  | nil => exact fun _ _ => rfl
  | cons g l ih =>
    intro u hu
    rw [List.foldl_cons, List.foldl_cons, accountTake_eq, hu]
    exact ih _ ((State.setGal_tclk _ _ _).trans hu)

/-- Every gallery is measured, and nothing else changes. -/
theorem measureAll (ms : List Nat) (s : State) :
    ∃ x, (List.range 32).foldl (fun s g => accountTake g (ms.getD g 0) s) s = { s with gals := x }
      ∧ ∀ g, g < 32 → State.gal { s with gals := x } g = accountOf s.tclk (ms.getD g 0) (s.gal g) := by
  rw [foldl_accountTake]
  obtain ⟨x, hx, hgal⟩ := foldl_setGal (fun g => accountOf s.tclk (ms.getD g 0)) (List.range 32) List.nodup_range s
  exact ⟨x, hx, fun g hg => by rw [hgal, if_pos (List.mem_range.mpr hg)]⟩

theorem measuredSum_of_measured {s : State} {ms : List Nat} (h : ∀ g, g < 32 → (s.gal g).measured = ms.getD g 0) :
    measuredSum s = (List.range 32).foldl (fun n g => n + ms.getD g 0) 0 :=
  List.foldl_ext _ _ _ fun n g hg => by rw [h g (List.mem_range.mp hg)]

/-- The state that an evaluation leaves, before it notes the headroom. -/
def evaluated (ms : List Nat) (s : State) : State :=
  let s := (List.range 32).foldl (fun s g => accountTake g (ms.getD g 0) s) s
  let s := overTrack (settle s.pwr.fresh.length s)
  if s.pwr.sagActive then s else serveQueue s.pwr.queue.length s

theorem exec_ledgerEvaluate {s : State} (ms : List Nat) (hf : s.brg.foreman = true) :
    exec (.ledgerEvaluate ms) s
      = .next { evaluated ms s with pwr := { (evaluated ms s).pwr with headroom := headroom8 (evaluated ms s) / 2 } } :=
  congrArg Host.Outcome.next (if_neg (ne_false_of_eq_true hf))

/-- With nothing to serve an evaluation only measures. -/
theorem evaluated_idle {s : State} (ms : List Nat) (hfresh : s.pwr.fresh = []) (hidle : s.pwr.sagActive = true ∨ s.pwr.queue = []) :
    (evaluated ms s).pwr.granted = s.pwr.granted ∧ (evaluated ms s).pwr.queue = s.pwr.queue
      ∧ (evaluated ms s).pwr.over_
        = decide (4 * s.chr.ledgerLimit < (List.range 32).foldl (fun n g => n + ms.getD g 0) 0)
      ∧ ∀ g, g < 32 → ((evaluated ms s).gal g).measured = ms.getD g 0 ∧ ms.getD g 0 ≤ ((evaluated ms s).gal g).account := by
  obtain ⟨x, hx, hgal⟩ := measureAll ms s
  have heval : evaluated ms s = overTrack { s with gals := x } := by
    have hsettle : settle (List.length (State.pwr { s with gals := x }).fresh) { s with gals := x } = { s with gals := x } := by
      rw [show (State.pwr { s with gals := x }).fresh = [] from hfresh]
      rfl
    simp only [evaluated, hx, hsettle]
    rcases hidle with hsag | hq
    · exact if_pos hsag
    · rw [show (overTrack { s with gals := x }).pwr.queue = [] from hq]
      exact ite_self _
  have hsum : measuredSum { s with gals := x } = _ := measuredSum_of_measured fun g hg => congrArg Gal.measured (hgal g hg)
  rw [heval]
  refine ⟨rfl, rfl, congrArg (fun n => decide (4 * s.chr.ledgerLimit < n)) hsum, fun g hg => ?_⟩
  rw [show (overTrack { s with gals := x }).gal g = State.gal { s with gals := x } g from rfl, hgal g hg]
  exact ⟨rfl, Nat.le_max_left _ _⟩

/-! ### The queue of requests (R410) -/

section Queue

variable {s : State} {g r : Nat} {isRaise half : Bool} {rest : List (Nat × Nat × Bool × Bool)}
  (hq : s.pwr.queue = (g, r, isRaise, half) :: rest) (n : Nat)
include hq

theorem serveQueue_whole (h : (r : Int) ≤ headroom8 s) :
    serveQueue (n + 1) s = serveQueue n (granted g isRaise true { s with pwr := { s.pwr with
      queue := rest, granted := Tbl.put s.pwr.granted g (Tbl.look 0 s.pwr.granted g + r) } }) := by
  simp only [serveQueue, hq, if_pos h]

theorem serveQueue_half (h : headroom8 s < r) (hhalf : half = false) (h2 : (r : Int) ≤ 2 * headroom8 s) (hr : 0 < r) :
    serveQueue (n + 1) s = granted g isRaise false { s with pwr := { s.pwr with
      queue := (g, r - r / 2, isRaise, true) :: rest
      granted := Tbl.put s.pwr.granted g (Tbl.look 0 s.pwr.granted g + r / 2) } } := by
  simp only [serveQueue, hq, if_neg (Int.not_le.mpr h), if_pos (And.intro hhalf (And.intro h2 hr))]

theorem serveQueue_waits (h : headroom8 s < r) (hhalf : half = true) : serveQueue (n + 1) s = s := by
  simp only [serveQueue, hq, if_neg (Int.not_le.mpr h), hhalf, Bool.true_eq_false, false_and, if_false]

end Queue

/-! ### The ledger's clamps (R409) -/

/-- The governor leaves every clamp of the ledger. -/
theorem governAll_ledgerClamp (s : State) (g : Nat) : ((governAll s).gal g).ledgerClamp = (s.gal g).ledgerClamp := by
  obtain ⟨-, hgal⟩ := OnlyRaises.governAll s
  obtain ⟨a, b, c, h⟩ := hgal g
  rw [h]

theorem exec_ledgerOver {s : State} {t0 : Nat} (hsince : s.pwr.overSince = some t0) (hover : s.pwr.over_ = true)
    (hdue : t0 + 10000 ≤ s.now) :
    ∃ t, exec .ledgerOver s = .next t ∧ t.pwr.overSince = some s.now ∧ t.pwr.overLogged = true
      ∧ ∀ g, g < 32 → (t.gal g).ledgerClamp
        = if s.running g = true ∧ effPoint s g = topPoint s then topPoint s - 1 else (s.gal g).ledgerClamp := by
  obtain ⟨x, hx, hgal⟩ := foldl_setGal (fun _ y => { y with ledgerClamp := topPoint s - 1 })
    ((List.range 32).filter (fun g => s.running g && effPoint s g == topPoint s)) (List.nodup_range.filter _) s
  have hexec : exec .ledgerOver s = .next (governAll (
      let u := { s with gals := x, pwr := { s.pwr with overSince := some s.now, overLogged := true } }
      if s.pwr.overLogged then u
      else logEvent 0x03 0 0x0401 [(0, 4, measuredSum s / 4), (4, 4, s.chr.ledgerLimit)] u)) := by
    change execLedgerOver s = _
    simp only [execLedgerOver, hsince, if_pos (And.intro hover hdue), hx]
  refine ⟨_, hexec, ?_, ?_, fun g hg => ?_⟩
  · rw [governAll_pwr_overSince]
    dsimp only
    split
    · rfl
    · rw [logEvent_pwr]
  · rw [governAll_pwr_overLogged]
    dsimp only
    split
    · rfl
    · rw [logEvent_pwr]
  · rw [governAll_ledgerClamp]
    have hmem : g ∈ (List.range 32).filter (fun g => s.running g && effPoint s g == topPoint s)
        ↔ s.running g = true ∧ effPoint s g = topPoint s := by
      simp only [List.mem_filter, List.mem_range, hg, true_and, Bool.and_eq_true, beq_iff_eq]
    have hclamp : (State.gal { s with gals := x } g).ledgerClamp
        = if s.running g = true ∧ effPoint s g = topPoint s then topPoint s - 1 else (s.gal g).ledgerClamp := by
      rw [hgal, apply_ite Gal.ledgerClamp]
      simp only [hmem]
    dsimp only
    split
    · exact hclamp
    · rw [logEvent_gal]
      exact hclamp

theorem exec_ledgerClampRelease {s : State} {t0 : Nat} (hsince : s.pwr.underSince = some t0) (hdue : t0 + 1000000 ≤ s.now)
    (hf : s.brg.foreman = true) (hclamped : ∃ g, g < 32 ∧ (s.gal g).ledgerClamp < 16) :
    ∃ t, exec .ledgerClampRelease s = .next t ∧ t.pwr.underSince = some s.now
      ∧ ∀ g, g < 32 → (t.gal g).ledgerClamp = min 16 ((s.gal g).ledgerClamp + 1) := by
  obtain ⟨x, hx, hgal⟩ := foldl_setGal (fun _ y => { y with ledgerClamp := min 16 (y.ledgerClamp + 1) })
    (List.range 32) List.nodup_range s
  have hany : (List.range 32).any (fun g => decide ((s.gal g).ledgerClamp < 16)) = true := by
    simpa only [List.any_eq_true, List.mem_range, decide_eq_true_eq] using hclamped
  have hexec : exec .ledgerClampRelease s
      = .next (governAll { s with gals := x, pwr := { s.pwr with underSince := some s.now } }) := by
    change execLedgerClampRelease s = _
    simp only [execLedgerClampRelease, hsince, if_pos (And.intro hf (And.intro hdue hany)), hx]
  refine ⟨_, hexec, governAll_pwr_underSince _, fun g hg => ?_⟩
  rw [governAll_ledgerClamp]
  change (State.gal { s with gals := x } g).ledgerClamp = _
  rw [hgal, if_pos (List.mem_range.mpr hg)]

/-! ### The statement -/

/-- Settles O42: each clause is the rule above of its event and outcome. -/
theorem ledger : Obligations.Ledger := by
  unfold Obligations.Ledger
  refine ⟨fun s slot x rest hsteps hboard hmid => ⟨fun ha => ?_, fun ha => ?_⟩, fun s ms hf => ?_,
    fun s n g r isRaise half rest hq => ⟨serveQueue_whole hq n, serveQueue_half hq n, serveQueue_waits hq n⟩,
    fun s t0 => exec_ledgerOver, fun s t0 => exec_ledgerClampRelease⟩
  · exact (exec_demandFrame hsteps hboard hmid).trans (congrArg Host.Outcome.next (if_pos ha))
  · exact (exec_demandFrame hsteps hboard hmid).trans (congrArg Host.Outcome.next (if_neg ha))
  · have hidle := evaluated_idle (s := s) ms
    rw [exec_ledgerEvaluate ms hf]
    generalize evaluated ms s = u at hidle ⊢
    exact ⟨_, rfl, rfl, hidle⟩

end Sys2Proof.Machine
end

section
/-! Clock loss, ageing, the survey's writes, regulator faults and the rail monitors (R393, R397, R402, R413, R458, R507): what a park
reason leaves of a gallery, then one rule per event, then the statement about them (O43). -/

namespace Sys2Proof.Machine

/-! ### What a change of park reasons leaves of a gallery (R411, R412) -/

/-- Gallery `y` is gallery `x` but for the fields that the start of a park or an unpark may change. -/
def SameButRamp (x y : Gal) : Prop :=
  ∃ w r u m v o p t q, y = { x with waiting := w, raiseOk := r, unparkAmt := u, moving := m, mv := v, goal := o, ramp := p,
                                    step := t, partial_ := q }

theorem SameButRamp.refl (x : Gal) : SameButRamp x x := ⟨_, _, _, _, _, _, _, _, _, rfl⟩

theorem SameButRamp.trans {x y z : Gal} (h : SameButRamp x y) (k : SameButRamp y z) : SameButRamp x z := by
  obtain ⟨_, _, _, _, _, _, _, _, _, rfl⟩ := h
  obtain ⟨_, _, _, _, _, _, _, _, _, rfl⟩ := k
  exact ⟨_, _, _, _, _, _, _, _, _, rfl⟩

theorem SameButRamp.ite {c : Prop} [Decidable c] {x y z : Gal} (h : SameButRamp x y) (k : SameButRamp x z) :
    SameButRamp x (if c then y else z) := by
  split <;> assumption

theorem galTokens_gal (g : Nat) (s : State) (h : Nat) : (galTokens g s).gal h = s.gal h := by
  obtain ⟨x, e⟩ := galTokens_frame g s
  rw [e]
  rfl

theorem recomputeK_gal (g : Nat) (s : State) (h : Nat) : (recomputeK g s).gal h = s.gal h := by
  rw [State.gal, recomputeK_gals, State.gal]

theorem withdraw_gal (g : Nat) (s : State) (h : Nat) : SameButRamp (s.gal h) ((withdraw g s).gal h) := by
  change SameButRamp (s.gal h) ((State.setGal _ g _).gal h)
  rw [gal_setGal_if]
  split
  · next e => exact e ▸ ⟨_, _, _, _, _, _, _, _, _, rfl⟩
  · exact .refl _

theorem beginPark_gal (g : Nat) (s : State) (h : Nat) : SameButRamp (s.gal h) ((beginPark g s).gal h) := by
  unfold beginPark
  extract_lets v s1 x0 x1 x2 x3
  rw [galTokens_gal, recomputeK_gal, gal_setGal_if]
  refine (withdraw_gal g s h).trans ?_
  split
  · next e =>
    have noted : SameButRamp x0 x1 := ⟨_, _, _, _, _, _, _, _, _, rfl⟩
    have stands : SameButRamp x1 x2 := .ite ⟨_, _, _, _, _, _, _, _, _, rfl⟩ (.refl x1)
    have ramps : SameButRamp x2 x3 :=
      .ite (.refl x2) (.ite ⟨_, _, _, _, _, _, _, _, _, rfl⟩ (.ite (.refl x2) ⟨_, _, _, _, _, _, _, _, _, rfl⟩))
    rw [e]
    exact (noted.trans stands).trans ramps
  · exact .refl _

/-- A change of park reasons takes effect in its gallery, and starts no more than a ramp or a request. -/
theorem setReasons_gal (g : Nat) (f : Gal → Gal) (s : State) (h : Nat) :
    SameButRamp (if h = g then f (s.gal g) else s.gal h) ((setReasons g f s).gal h) := by
  rw [← gal_setGal_if]
  simp only [setReasons]
  split
  · exact beginPark_gal g _ h
  · split <;> exact .refl _

/-- The fence of a gallery, seen as parked for it, named in the list of fenced galleries, and its crews fenced. -/
theorem fenceGal_open {g : Nat} {s : State} (hf : (s.gal g).fenced = false) :
    let s1 := setReasons g (fun x => { x with rFence := true, fenced := true }) s
    let s2 : State := { s1 with glb := { s1.glb with galFenced := setAdd g s1.glb.galFenced } }
    OnlyFence s2 (fenceGal g false s) := by
  intro s1 s2
  have heq : fenceGal g false s
      = noteLoss 2 g 3 ((crewsOf g).foldl (fun s c => if s.crewPresent c then fenceCrew c 4 s else s) s2) :=
    if_neg (Bool.eq_false_iff.mp hf)
  rw [heq]
  refine .trans (.foldl _ (fun s c => ?_) _ _) (.noteLoss _ _ _ _)
  split
  · exact .fenceCrew _ _ _
  · exact .refl _

theorem fenceGal_marks {g : Nat} {s : State} (hf : (s.gal g).fenced = false) :
    ((fenceGal g false s).gal g).fenced = true ∧ ((fenceGal g false s).gal g).rFence = true
      ∧ g ∈ (fenceGal g false s).glb.galFenced := by
  obtain ⟨a, b, c, d, e, f, h⟩ := fenceGal_open hf
  have hsame := setReasons_gal g (fun x => { x with rFence := true, fenced := true }) s g
  rw [if_pos rfl] at hsame
  obtain ⟨_, _, _, _, _, _, _, _, _, hgal⟩ := hsame
  rw [h]
  refine ⟨congrArg Gal.fenced hgal, congrArg Gal.rFence hgal, ?_⟩
  simp only [setAdd]
  split
  · next hmem => exact List.contains_iff_mem.mp hmem
  · exact List.mem_append_right _ (List.mem_singleton_self g)

/-! ### Clock loss (R393, Table 14-1) -/

section Clock

variable {s : State} {d g : Nat} (hp : s.brg.powered = true) (hg : g < 32)
include hp hg

/-- The monitors take the loss, the loss is logged, and it ends as its domain's row says. -/
theorem exec_clockLoss (hd : d ≤ 8) :
    let k := if d = 8 then { s.clk with hclk := true, gallery := g }
      else if d = 5 then { s.clk with lost := Nat.lor s.clk.lost (2 ^ d), fallback := true }
      else { s.clk with lost := Nat.lor s.clk.lost (2 ^ d) }
    let u := logEvent 0x05 0 0x0404 [(0, 1, d), (1, 1, if d = 8 then g else 0)] { s with clk := k }
    exec (.clockLoss d g) s = .next (
      if d = 8 then fenceGal g true u
      else if d = 7 then stockCtrlReset u
      else if d = 6 then pcieReset true false { u with clk := { u.clk with pclkLost := true } }
      else if d = 5 then foremanReset 1 u
      else warmReset 2 true u) := by
  have hcond : ¬ (s.brg.powered = false ∨ 8 < d ∨ 31 < g) := by
    rw [hp]
    simp only [Bool.true_eq_false, false_or, not_or]
    omega
  exact congrArg Host.Outcome.next (if_neg hcond)

theorem exec_clockLoss_pclk :
    ∃ t, exec (.clockLoss 6 g) s = .next t ∧ t.clk.pclkLost = true ∧ t.clk.lost = Nat.lor s.clk.lost (2 ^ 6) := by
  refine ⟨_, exec_clockLoss hp hg (by decide), rfl, ?_⟩
  change (State.clk (logEvent _ _ _ _ _)).lost = _
  rw [logEvent_clk]
  rfl

theorem exec_clockLoss_stack (hd : d < 5) :
    exec (.clockLoss d g) s = .next (warmReset 2 true (logEvent 0x05 0 0x0404 [(0, 1, d), (1, 1, if d = 8 then g else 0)]
      { s with clk := { s.clk with lost := Nat.lor s.clk.lost (2 ^ d) } })) := by
  rw [exec_clockLoss hp hg (by omega)]
  have h5 : d ≠ 5 := by omega
  have h6 : d ≠ 6 := by omega
  have h7 : d ≠ 7 := by omega
  have h8 : d ≠ 8 := by omega
  simp only [if_neg h5, if_neg h6, if_neg h7, if_neg h8]

end Clock

/-! ### TRACE (R507) -/

theorem exec_traceRecord {s : State} {n : Word} {e : Event} {rest : List (Word × Event)} (ht : s.evt.trace = (n, e) :: rest)
    (haux : s.chr.auxTrace ≠ none) (hdone : s.brg.charterDone = true) :
    exec .traceRecord s
      = .next { s with evt := { s.evt with trace := rest }, out := .trace (0xA5 :: recordBytes n e) :: s.out } := by
  change execTraceRecord s = _
  simp only [execTraceRecord, ht, if_pos (And.intro (Option.isSome_iff_ne_none.mpr haux) hdone)]
  rfl

/-! ### Slack and ageing (R397, R458) -/

section Core

variable {s : State} {g n : Nat} {m : Int} (hg : g < 32) (hn : n < 16) (hslack : (s.core g n).slack = some m)
include hg hn hslack

/-- Within its second a core keeps the smallest slack measured. -/
theorem exec_cpmMeasure (v : Int) (hrun : s.running g = true) (hc : corePresent s g n = true)
    (hsec : s.now < (s.core g n).slackAt + 1000000000) :
    exec (.cpmMeasure [(g, n, v)]) s = .next (s.setCore g n { s.core g n with slack := some (if v < m then v else m) }) := by
  change Host.Outcome.next (if g < 32 ∧ n < 16 ∧ s.running g = true ∧ corePresent s g n = true then cpmTake g n v s else s) = _
  rw [if_pos ⟨hg, hn, hrun, hc⟩]
  simp only [cpmTake, hslack, decide_eq_false (Nat.not_le.mpr hsec), Bool.false_and, Bool.false_eq_true, if_false,
    Option.map_some]

theorem exec_ageingReduction (hf : s.brg.foreman = true) (hdue : (s.core g n).slackAt + 1000000000 ≤ s.now)
    (hband : m < Config.guardBand (16 * g + n)) :
    ∃ t, exec (.ageingReduction g n) s = .next t ∧ (t.core g n).aged = (s.core g n).aged + 1 ∧ (t.core g n).slack = none
      ∧ t.brg.ageUnwritten = s.brg.ageUnwritten ++ [(16 * g + n, (s.core g n).aged + 1, s.now)] := by
  let s1 : State := s.setCore g n { s.core g n with aged := (s.core g n).aged + 1, slack := none, slackAt := s.now }
  let s2 : State := recomputeK g { s1 with
    brg := { s1.brg with ageUnwritten := s1.brg.ageUnwritten ++ [(16 * g + n, (s.core g n).aged + 1, s1.now)] } }
  let s3 : State := noteLoss 1 (coreCrew g n) 4 (logEvent 0x07 g 0x0405 [(0, 1, g), (1, 1, n), (2, 2, capAt s2 g n 900)]
    (s2.setCore g n { s2.core g n with fmaxLogged := true }))
  have hexec : exec (.ageingReduction g n) s
      = .next (govern g (if capAt s2 g n 900 < 3200 ∧ (s.core g n).fmaxLogged = false then s3 else s2)) := by
    change execAgeingReduction g n s = _
    simp only [execAgeingReduction, hslack]
    exact congrArg Host.Outcome.next (if_pos ⟨hg, hn, hf, hdue, hband⟩)
  have hcore : ∃ k, s2.core g n = { s.core g n with aged := (s.core g n).aged + 1, slack := none, slackAt := s.now, k := k } := by
    obtain ⟨k, hk⟩ := recomputeK_core g { s1 with
      brg := { s1.brg with ageUnwritten := s1.brg.ageUnwritten ++ [(16 * g + n, (s.core g n).aged + 1, s1.now)] } } g n
    refine ⟨k, hk.trans ?_⟩
    have hs1 : s1.core g n = _ := State.core_setCore s g n _
    change { s1.core g n with k := k } = _
    rw [hs1]
  obtain ⟨k, hk⟩ := hcore
  have hage : s2.brg.ageUnwritten = s.brg.ageUnwritten ++ [(16 * g + n, (s.core g n).aged + 1, s.now)] := by
    rw [show s2.brg = _ from recomputeK_brg _ _]
    rfl
  refine ⟨_, hexec, ?_⟩
  rw [State.core, govern_cores, govern_brg, ← State.core]
  split
  · have h3 : s3.core g n = { s2.core g n with fmaxLogged := true } := by
      simp only [s3, State.core, noteLoss_cores, logEvent_cores, State.setCore_cores, Tbl.look_put_same]
    rw [h3, hk, noteLoss_brg_ageUnwritten, logEvent_brg]
    exact ⟨rfl, rfl, hage⟩
  · rw [hk]
    exact ⟨rfl, rfl, hage⟩

end Core

/-! ### The survey's writes (R451, R458) -/

/-- With the first copy in force a survey that fits goes to the second, with the next count. -/
theorem writeSurvey_second {s : State} {es : List SurveyEnt} (hnow : surveyNow s = some (false, s.brg.surveyA))
    (hroom : es.length ≤ surveyRoom) :
    writeSurvey es s = { s with brg := { s.brg with surveyB := {
      valid := true, count := (max s.brg.surveyA.count s.brg.surveyB.count + 1) % 2 ^ 32, entries := es } } } := by
  simp only [writeSurvey, hnow, if_neg (Nat.not_lt.mpr hroom)]

/-- The survey's entry of a core's ageing reductions. -/
def ageEntry (a : Nat × Nat × Nat) : SurveyEnt := { kind := 3, cause := 0, grain := 2, index := a.1, data := a.2.1 }

theorem exec_surveyWrite_ageing {s : State} {a : Nat × Nat × Nat} (hf : s.brg.foreman = true) (hu : s.brg.unwritten = [])
    (hr : s.brg.remapUnwritten = []) (ha : s.brg.ageUnwritten = [a]) (hnow : surveyNow s = some (false, s.brg.surveyA))
    (hroom : (surveyEntries s).length < surveyRoom) :
    exec .surveyWrite s = .next { s with brg := { s.brg with
      unwritten := [], ageUnwritten := [], remapUnwritten := []
      surveyB := { valid := true, count := (max s.brg.surveyA.count s.brg.surveyB.count + 1) % 2 ^ 32
                   entries := s.brg.surveyA.entries ++ [ageEntry a] } } } := by
  have hentries : surveyEntries s = s.brg.surveyA.entries := by simp only [surveyEntries, hnow]
  have hfits : (s.brg.surveyA.entries ++ [ageEntry a]).length ≤ surveyRoom := by
    rw [List.length_append, ← hentries]
    exact hroom
  have hwaits : ¬ (s.brg.foreman = false ∨ (s.brg.unwritten = [] ∧ s.brg.ageUnwritten = [] ∧ s.brg.remapUnwritten = [])) := by
    simp only [hf, ha, Bool.true_eq_false, List.cons_ne_nil, false_and, and_false, or_self, not_false_eq_true]
  refine congrArg Host.Outcome.next ((if_neg hwaits).trans ?_)
  simp only [hu, hr, ha, recordLosses, hentries, List.map_cons, List.map_nil, List.append_nil]
  rw [show ({ kind := 3, cause := 0, grain := 2, index := a.1, data := a.2.1 } : SurveyEnt) = ageEntry a from rfl,
    writeSurvey_second hnow hfits]

/-! ### Regulators (R402) -/

theorem exec_regFault {s : State} {g kind mv cur : Nat} (hg : g < 32) (hf : (s.gal g).fenced = false)
    (hfault : (kind = 0 ∧ mvNow s g + 80 < mv) ∨ (kind = 1 ∧ mv + 100 < mvNow s g) ∨ (kind = 2 ∧ 360 < cur)) :
    let f := (logEvent 0x07 g 0x0406 [(0, 1, g), (1, 1, kind), (2, 2, mv)] s).fresh
    let u := fenceGal g false f.2
    exec (.regFault g kind (mv, cur)) s = .next (if f.1 % 2 = 1
        then (crewsOf g).foldl (fun s c => if s.crewPresent c then loseCrew c s else s) (u.setGal g { u.gal g with lostState := true })
        else u) := by
  have hfaults : regFaults s g kind mv cur = true := by
    rcases hfault with ⟨rfl, h⟩ | ⟨rfl, h⟩ | ⟨rfl, h⟩ <;> exact decide_eq_true h
  have hcond : ¬ (31 < g ∨ regFaults s g kind mv cur = false ∨ (s.gal g).fenced = true) := by
    simp only [hfaults, hf, Bool.true_eq_false, Bool.false_eq_true, or_self, or_false]
    omega
  exact congrArg Host.Outcome.next (if_neg hcond)

/-! ### The rail monitors (R413, Table 14-6) -/

theorem noteVin_other {rail : Nat} (mv : Nat) (s : State) (h1 : rail ≠ 1) (h2 : rail ≠ 2) : noteVin rail mv s = s :=
  if_neg (not_or.mpr ⟨h1, h2⟩)

/-- What a reading of VIN_IVR leaves: the lowest reading alone is noted. -/
theorem noteVin_frame (rail mv : Nat) (s : State) :
    ∃ v, noteVin rail mv s = { s with pwr := { s.pwr with vinMin := v } } := by
  unfold noteVin
  split <;> exact ⟨_, rfl⟩

theorem exec_railWarning {s : State} {rail mv : Nat} (h1 : rail ≠ 1) (h2 : rail ≠ 2) (hw : warnsAt s rail mv = true)
    (hnew : rail ∉ s.pwr.warn) (hirq : s.pwr.sagIrq = false) :
    exec (.railWarning rail mv) s = .next (governAll (logEvent 0x03 0 0x0402 [(0, 1, rail), (2, 2, mv)]
      { s with pwr := { s.pwr with warn := s.pwr.warn ++ [rail], warned := true, sagActive := true, clearAt := none
                                   sagClamp := s.pwr.sagClamp || s.pwr.sagClampEn } })) := by
  have hcontains : s.pwr.warn.contains rail = false :=
    Bool.eq_false_iff.mpr fun h => hnew (List.contains_iff_mem.mp h)
  change execRailWarning rail mv s = _
  simp only [execRailWarning, noteVin_other mv s h1 h2, if_pos (And.intro hw hcontains), logEvent_pwr, hirq,
    Bool.false_eq_true, if_false]

theorem exec_pwrSagReset {s : State} {rail mv : Nat} (h1 : rail ≠ 1) (h2 : rail ≠ 2) (hp : s.brg.powered = true)
    (hreset : resetsAt s rail mv = true) :
    exec (.pwrSagReset rail mv) s = .next (warmReset 1 (rail != 4) (logEvent 0x03 0 0x0403 [(0, 1, rail), (2, 2, mv)]
      { s with pwr := { s.pwr with resetRail := rail } })) := by
  change execPwrSagReset rail mv s = _
  simp only [execPwrSagReset, if_pos (And.intro hp hreset), noteVin_other mv s h1 h2]

/-- The last warning clears, and its 1 ms begins. -/
theorem exec_railWarningClear {s : State} {rail mv : Nat} (hwarn : s.pwr.warn = [rail])
    (hclear : (rail = 1 ∧ 1730 < mv) ∨ (rail = 3 ∧ 720 < mv) ∨ (3 < rail ∧ 96 * railNominal s rail < 100 * mv)) :
    let s1 := noteVin rail mv s
    exec (.railWarningClear (rail, mv)) s = .next { s1 with pwr := { s1.pwr with warn := [], clearAt := some s.now } } := by
  obtain ⟨v, hv⟩ := noteVin_frame rail mv s
  have hclears : clearsAt (noteVin rail mv s) rail mv = true := by
    rw [hv]
    rcases hclear with ⟨rfl, h⟩ | ⟨rfl, h⟩ | ⟨hr, h⟩
    · exact decide_eq_true h
    · exact decide_eq_true h
    · rw [clearsAt, if_neg (by omega), if_neg (by omega)]
      exact decide_eq_true h
  have hcond : (noteVin rail mv s).pwr.warn.contains rail = true ∧ clearsAt (noteVin rail mv s) rail mv = true := by
    refine ⟨?_, hclears⟩
    rw [hv]
    change s.pwr.warn.contains rail = true
    rw [hwarn, List.contains_iff_mem]
    exact List.mem_singleton_self rail
  have hfilter : (noteVin rail mv s).pwr.warn.filter (· != rail) = [] := by
    rw [hv]
    change s.pwr.warn.filter (· != rail) = []
    simp [hwarn]
  change execRailWarningClear (rail, mv) s = _
  simp only [execRailWarningClear, if_pos hcond, hfilter, if_true]
  rw [hv]

theorem exec_sagClampLift {s : State} {t0 : Nat} (hclear : s.pwr.clearAt = some t0) (hdue : t0 + 1000000 ≤ s.now) :
    exec .sagClampLift s
      = .next (governAll { s with pwr := { s.pwr with sagActive := false, sagClamp := false, clearAt := none } }) := by
  change execSagClampLift s = _
  simp only [execSagClampLift, hclear, if_pos hdue]

/-! ### The statement -/

/-- Settles O43: each clause is the rule above of its event and outcome. -/
theorem clocksAndRails : Obligations.ClocksAndRails := by
  unfold Obligations.ClocksAndRails
  refine ⟨fun s d g hp hg => ⟨fun hd => ?_, fun hd => ?_, fun hd => ?_, fun hd => ?_, exec_clockLoss_stack hp hg⟩,
    fun s n e rest => exec_traceRecord, fun s g n v m hg hn hrun hc hslack => exec_cpmMeasure hg hn hslack v hrun hc,
    fun s g n m hg hn hf hslack => exec_ageingReduction hg hn hslack hf,
    fun s a hf hu hr ha hnow hroom => ⟨_, exec_surveyWrite_ageing hf hu hr ha hnow hroom, rfl, rfl, rfl, rfl, rfl⟩,
    fun s g kind mv cur hg hf hfault => ⟨exec_regFault hg hf hfault, fenceGal_marks ?_⟩,
    fun s rail mv h1 h2 => ⟨fun hw hnew hirq => ⟨_, exec_railWarning h1 h2 hw hnew hirq, ?_⟩, exec_pwrSagReset h1 h2⟩,
    fun s rail mv => exec_railWarningClear, fun s t0 => exec_sagClampLift⟩
  · subst hd
    exact exec_clockLoss hp hg (by decide)
  · subst hd
    exact exec_clockLoss hp hg (by decide)
  · subst hd
    exact exec_clockLoss_pclk hp hg
  · subst hd
    exact exec_clockLoss hp hg (by decide)
  · rw [State.gal_fresh, logEvent_gal]
    exact hf
  · rw [governAll_pwr_warn, governAll_pwr_warned, governAll_pwr_sagActive, governAll_pwr_sagClamp, logEvent_pwr]
    exact ⟨rfl, rfl, rfl, rfl⟩

end Sys2Proof.Machine
end

section
/-! Data integrity (R370 to R387): one rule per event, and which check unit takes a line; then the statement about them (O40). -/

namespace Sys2Proof.Machine

/-! ### Write-backs and the leak (R370, R371) -/

section Writeback

variable {s : State} {kind inst line : Nat}

theorem exec_eccWriteback_due {e : LineErr} (he : s.lineErr ⟨kind, inst, line⟩ = some e) (hwb : e.wb = true)
    (hawake : storeAwake s kind inst = true) :
    exec (.eccWriteback kind inst line) s = .next (idWrite ⟨kind, inst, line⟩
      (s.delivered ⟨kind, inst, line⟩ (idRead s ⟨kind, inst, line⟩)) (s.cleanLine ⟨kind, inst, line⟩)) := by
  change execEccWriteback kind inst line s = _
  simp only [execEccWriteback, he, hwb, hawake, Bool.and_self, if_true]

theorem exec_eccWriteback_clean (he : s.lineErr ⟨kind, inst, line⟩ = none) :
    exec (.eccWriteback kind inst line) s = .next s := by
  change execEccWriteback kind inst line s = _
  simp only [execEccWriteback, he]

end Writeback

/-- A table mapped over holds the images, where its default is its own image. -/
theorem Tbl.look_map {α : Type} (d : α) (t : Tbl α) (f : α → α) (hd : f d = d) (k : Nat) :
    Tbl.look d (t.map (fun p => (p.1, f p.2))) k = f (Tbl.look d t k) := by
  induction t with
  | nil => exact hd.symm
  | cons p t ih =>
    rw [List.map_cons, Tbl.look, Tbl.look]
    split
    · rfl
    · exact ih

/-- A bucket that has leaked. -/
def leaked (b : Bucket) : Bucket := { b with level := b.level - 1 }

theorem exec_eccLeak (s : State) :
    exec .eccLeak s = .next { s with buckets := s.buckets.map (fun p => (p.1, leaked p.2)) } := rfl

/-! ### Scrubbing (R376, R377) -/

/-- The scrubber moves to the next line, or ends its lap and starts again. -/
theorem exec_scrubRead {s : State} {kind inst part : Nat} (hen : s.chr.scrubEn = true) (hidle : storeIdle s kind inst = true)
    (hpart : part < (storeParts kind inst).length) :
    let k := scrubKey kind inst part
    let b := Tbl.look {} s.scrubs k
    let l : LineId := ⟨kind, inst, ((storeParts kind inst).getD part (0, 0)).1 + b.line⟩
    let start := if b.line = 0 then s.now else b.lapStart
    exec (.scrubRead kind (inst, part)) s = .next (noteRead l (s.verdict l (idRead s l)) true false
      { s with scrubs := Tbl.put s.scrubs k (if b.line + 1 < storeLines kind inst part
          then { line := b.line + 1, lapStart := start, lap := b.lap }
          else { line := 0, lapStart := start, lap := some (min 0xFFFFFF ((s.now - start) / 1000000000)) }) }) := by
  intro k b l start
  have hgoes : exec (.scrubRead kind (inst, part)) s = .next (scrubLine kind inst part s) :=
    congrArg Host.Outcome.next (if_pos (by rw [hen, hidle, decide_eq_true hpart]; rfl))
  rw [hgoes]
  change Host.Outcome.next (noteRead l (s.verdict l (idRead s l)) true false { s with scrubs := Tbl.put s.scrubs k _ }) = _
  by_cases h : b.line + 1 < storeLines kind inst part
  · rw [if_pos h, decide_eq_false (Nat.not_le.mpr h)]
    rfl
  · rw [if_neg h, decide_eq_true (Nat.not_lt.mp h)]
    rfl

/-! ### Injection and the shafts (R379, R380) -/

theorem exec_seamInjArm {s : State} {r : Requester} {n : Nat} (v : Word) (hr : reachesRegs r = true)
    (hn : s.seamPresent n = true) :
    exec (.seamInjArm r n v) s = .next (s.setSeam n { s.seam n with
      inj := [bits 6 0 v.toNat, bits 13 7 v.toNat, bits 20 14 v.toNat, bits 22 21 v.toNat]
      injArm := (s.seam n).injArm || bit 23 v.toNat }) :=
  congrArg Host.Outcome.next ((if_pos hr).trans (if_pos hn))

theorem seam_setSeam_other (s : State) {n m : Nat} (x : Seam) (h : m ≠ n) : (s.setSeam n x).seam m = s.seam m :=
  Tbl.look_put_other _ _ _ h

/-- A re-send of a live hewer's shaft is counted; the eighth failure in a row exhausts the shaft. -/
theorem exec_shaftResend {s : State} {c role fails : Nat} (group : Nat) (command : Bool) (lanes : List Nat) (hrole : role < 2)
    (hlive : s.hewerLive c role = true) (hrun : s.crewRuns c = true) (hfails : 0 < fails) :
    let g := if command then 0xFF else group
    let s1 := s.setHewer c role { s.hewer c role with resends := satAdd 0xFFFF (s.hewer c role).resends (min fails 7) }
    exec (.shaftResend c role command fails group lanes) s = .next (if 8 ≤ fails then exhaustShaft c role g s1
      else lanes.eraseDups.foldl (fun s lane => if lane < 1112 then nameLane c role g lane s else s) s1) :=
  congrArg Host.Outcome.next (if_pos ⟨hrole, hlive, hrun, hfails⟩)

/-! ### Check units (R384 to R387) -/

theorem chk_setChk_other (s : State) {u w : Nat} (x : Chk) (h : w ≠ u) : (s.setChk u x).chk w = s.chk w :=
  Tbl.look_put_other _ _ _ h

theorem chkSnoops_setChk (s : State) {u w : Nat} (x : Chk) (src index dpa : Nat) (h : w ≠ u) :
    chkSnoops (s.setChk u x) w src index dpa = chkSnoops s w src index dpa := by
  simp only [chkSnoops, chk_setChk_other s x h, State.setChk_chr]

/-- What the units of a list make of a line that passes a snoop point. -/
def chkPass (src index dpa : Nat) (data : List Byte) (l : List Nat) (s : State) : State :=
  l.foldl (fun s u => if chkSnoops s u src index dpa then chkTake u dpa data s else s) s

section Pass

variable {src index dpa : Nat} (data : List Byte)

/-- Where no unit of the list snoops the line, none takes it. -/
theorem chkPass_none {l : List Nat} {s : State} (h : ∀ w ∈ l, chkSnoops s w src index dpa = false) :
    chkPass src index dpa data l s = s := by
  induction l with
  | nil => rfl
  | cons w l ih =>
    rw [chkPass, List.foldl_cons, if_neg (Bool.eq_false_iff.mp (h w List.mem_cons_self))]
    exact ih fun v hv => h v (List.mem_cons_of_mem w hv)

/-- The one unit that snoops the line takes it. -/
theorem chkPass_one {l : List Nat} {s : State} {u : Nat} (hl : l.Nodup) (hu : u ∈ l)
    (hsnoops : chkSnoops s u src index dpa = true) (hstream : (s.chk u).window = false)
    (hothers : ∀ w ∈ l, w ≠ u → chkSnoops s w src index dpa = false) :
    chkPass src index dpa data l s = s.setChk u (chkStream (s.chk u) data) := by
  induction l with
  | nil => cases hu
  | cons w l ih =>
    obtain ⟨hw, hl⟩ := List.nodup_cons.mp hl
    by_cases e : w = u
    · subst e
      have htake : chkTake w dpa data s = s.setChk w (chkStream (s.chk w) data) := if_neg (Bool.eq_false_iff.mp hstream)
      rw [chkPass, List.foldl_cons, if_pos hsnoops, htake]
      refine chkPass_none data fun v hv => ?_
      have hne : v ≠ w := fun h => hw (h ▸ hv)
      rw [chkSnoops_setChk s _ src index dpa hne]
      exact hothers v (List.mem_cons_of_mem w hv) hne
    · rw [chkPass, List.foldl_cons, if_neg (Bool.eq_false_iff.mp (hothers w List.mem_cons_self e))]
      exact ih hl ((List.mem_cons.mp hu).resolve_left (Ne.symm e)) fun v hv => hothers v (List.mem_cons_of_mem w hv)

end Pass

theorem exec_chkLine {src index dpa : Nat} {data : List Byte} (s : State) (h1 : 1 ≤ src) (h7 : src ≤ 7) (hdpa : dpa % 64 = 0)
    (hlen : data.length = 64) :
    exec (.chkLine src index dpa data) s = .next (chkPass src index dpa data (List.range 32) s) :=
  congrArg Host.Outcome.next (if_pos ⟨h1, h7, hdpa, hlen⟩)

/-- A write of CHK_CTRL starts a computation where it arms a unit whose values are both zero. -/
theorem chkCtrl_eq (x : Chk) (w : Nat) : chkCtrl x w = { x with
    arm := bit 0 w, window := bit 1 w, poly := bits 3 2 w, src := if bits 7 4 w ≤ 7 then bits 7 4 w else 0
    index := bits 16 8 w
    val := if bit 0 w ∧ x.val = 0 ∧ x.cnt = 0 then BitVec.ofNat 64 (crcKind (bits 3 2 w)).init else x.val
    lines := if x.cnt = 0 then [] else x.lines } := by
  simp only [chkCtrl, Bool.and_eq_true, beq_iff_eq, and_assoc]

section Ctrl

variable {s : State} {r : Requester} {u : Nat} (hr : reachesRegs r = true) (hu : u < 32) (v : Word)
include hr hu

theorem exec_chkCtrlWrite_taken (hfree : s.chr.veinChk ≤ u) :
    exec (.chkCtrlWrite r u v) s = .next (s.setChk u (chkCtrl (s.chk u) v.toNat)) :=
  congrArg Host.Outcome.next ((if_pos ⟨hr, hu⟩).trans (if_neg (Nat.not_lt.mpr hfree)))

theorem exec_chkCtrlWrite_reserved (hvein : u < s.chr.veinChk) :
    exec (.chkCtrlWrite r u v) s = .next (logIgnored 0x11 u r (0x03C01000 + 0x40 * u) 3 s) :=
  congrArg Host.Outcome.next ((if_pos ⟨hr, hu⟩).trans (if_pos hvein))

end Ctrl

theorem chk_setChk_if (s : State) (u w : Nat) (x : Chk) : (s.setChk u x).chk w = if w = u then x else s.chk w :=
  Tbl.look_put _ _ _ _ _

/-! ### The statement -/

/-- Settles O40: each clause is the rule above of its event and outcome. -/
theorem integrity : Obligations.Integrity := by
  unfold Obligations.Integrity
  refine ⟨fun s kind inst line => ⟨fun e => exec_eccWriteback_due, exec_eccWriteback_clean⟩,
    fun s => ⟨_, exec_eccLeak s, rfl, ?_, fun k => ?_⟩,
    fun s kind inst part => exec_scrubRead,
    fun s r n v hr hn => ⟨_, exec_seamInjArm v hr hn, ?_, ?_, fun m => seam_setSeam_other s _, rfl, rfl⟩,
    fun s c role fails group command lanes hrole hlive hrun => ⟨fun h0 h8 hl => ?_, fun h8 => ?_⟩,
    fun s src index dpa u data h1 h7 hdpa hlen hu hsnoops hstream hothers => ?_,
    fun s r u v hr hu => ⟨fun hfree => ⟨_, exec_chkCtrlWrite_taken hr hu v hfree, fun w => ?_⟩,
      exec_chkCtrlWrite_reserved hr hu v⟩⟩
  · exact List.map_map
  · rw [Tbl.look_map {} s.buckets leaked rfl k]
    exact ⟨rfl, rfl⟩
  · rw [State.seam_setSeam]
  · rw [State.seam_setSeam]
  · rw [exec_shaftResend group command lanes hrole hlive hrun h0, if_neg (Nat.not_le.mpr h8), hl]
    rfl
  · rw [exec_shaftResend group command lanes hrole hlive hrun (by omega), if_pos h8]
  · refine ⟨_, exec_chkLine s h1 h7 hdpa hlen, ?_⟩
    rw [chkPass_one data List.nodup_range (List.mem_range.mpr hu) hsnoops hstream fun w hw => hothers w (List.mem_range.mp hw),
      State.chk_setChk]
    exact ⟨rfl, rfl, fun w => chk_setChk_other s _, rfl⟩
  · rw [chk_setChk_if, chkCtrl_eq]

end Sys2Proof.Machine
end

section
/-! The slot table under the line code (R351 to R354, R367 to R375), accesses through BAR2 and of configuration space, completion
rings and the DOE mailbox (R339 to R366): one rule per access and outcome, then the statement about them (O37). -/

namespace Sys2Proof.Machine

/-! ### Lines without an error -/

section Clean

variable {s : State} (herrs : s.errs = [])
include herrs

theorem lineErr_none (l : LineId) : s.lineErr l = none := by
  rw [State.lineErr, herrs]
  rfl

theorem verdict_clean (l : LineId) (d : List Byte) : s.verdict l d = .clean := by
  rw [State.verdict, lineErr_none herrs]

theorem delivered_clean (l : LineId) (d : List Byte) : s.delivered l d = d := by
  rw [State.delivered, lineErr_none herrs]

theorem cleanLine_clean (l : LineId) : s.cleanLine l = s := by
  rw [State.cleanLine, herrs, List.filter_nil, ← herrs]

theorem localGet_clean (m : Local) (a : Nat) : localGet m a s = (s, some ((m.mem s).read (m.base + a) 64)) := by
  simp only [localGet, verdict_clean herrs, delivered_clean herrs, noteRead, reduceCtorEq, if_false]

theorem localPart_clean (m : Local) (a : Nat) (bs : List Byte) :
    localPart m a bs s = (localPut m (a / 64 * 64) (overlay ((m.mem s).read (m.base + a / 64 * 64) 64)
      (bs.mapIdx (fun i x => (a % 64 + i, x)))) s, true) := by
  simp only [localPart, verdict_clean herrs, delivered_clean herrs, noteRead, reduceCtorEq, if_false]

/-- A line of the slot table written whole. -/
theorem localPut_slots (a : Nat) (bs : List Byte) :
    localPut .slots a bs s = { s with slotMem := s.slotMem.write a (bs.take 64) } := by
  rw [localPut, cleanLine_clean herrs, Local.poke, Local.base, Nat.zero_add]

/-- A write of the slot table changes its bytes alone. -/
theorem localWrites_slots (l : List (Nat × Nat)) (bs : List Byte) :
    ∃ m, localWrites .slots l bs s = ({ s with slotMem := m }, true) := by
  induction l generalizing bs s with
  | nil => exact ⟨_, rfl⟩
  | cons p l ih =>
    obtain ⟨a, k⟩ := p
    rw [localWrites]
    split
    · rw [localPut_slots herrs]
      obtain ⟨m, h⟩ := ih (s := { s with slotMem := s.slotMem.write a (bs.take 64) }) herrs (bs.drop 64)
      exact ⟨m, h⟩
    · rw [localPart_clean herrs, localPut_slots herrs]
      obtain ⟨m, h⟩ := ih (s := { s with slotMem := s.slotMem.write (a / 64 * 64) (List.take 64 _) }) herrs (bs.drop k)
      exact ⟨m, h⟩

theorem slotStore_frame (l : List (Nat × Nat)) (bs : List Byte) : ∃ m, slotStore l bs s = { s with slotMem := m } := by
  induction l generalizing bs s with
  | nil => exact ⟨_, rfl⟩
  | cons p l ih =>
    obtain ⟨a, k⟩ := p
    obtain ⟨m, h⟩ := localWrites_slots herrs (lineSpans a (bs.take k).length) (bs.take k)
    rw [slotStore, localWrite, h]
    exact ih (s := { s with slotMem := m }) herrs _

theorem slotStore_hif (l : List (Nat × Nat)) (bs : List Byte) : (slotStore l bs s).hif = s.hif := by
  obtain ⟨m, h⟩ := slotStore_frame herrs l bs
  rw [h]

theorem slotStore_fns (l : List (Nat × Nat)) (bs : List Byte) : (slotStore l bs s).fns = s.fns := by
  obtain ⟨m, h⟩ := slotStore_frame herrs l bs
  rw [h]

end Clean

/-! ### Parts of an access that lies within one unit -/

theorem spans_zero (unit fuel a : Nat) : spans unit fuel a 0 = [] := by
  cases fuel <;> rfl

theorem spans_within {unit a n : Nat} (fuel : Nat) (hn : n ≠ 0) (h : a % unit + n ≤ unit) :
    spans unit (fuel + 1) a n = [(a, n)] := by
  have hmin : min n (unit - a % unit) = n := Nat.min_eq_left (by omega)
  rw [spans, if_neg hn]
  simp only [hmin, Nat.sub_self, spans_zero]

theorem lineSpans_within {a n : Nat} (hn : n ≠ 0) (h : a % 64 + n ≤ 64) : lineSpans a n = [(a, n)] :=
  spans_within _ hn h

theorem listSet_length {α : Type} (l : List α) (i : Nat) (a : α) : (listSet l i a).length = l.length := by
  simp only [listSet, List.length_append, List.length_take, List.length_drop]
  split
  · rw [List.length_singleton]
    omega
  · rw [List.length_nil]
    omega

theorem overlay_length (line : List Byte) (ups : List (Nat × Byte)) : (overlay line ups).length = line.length := by
  induction ups generalizing line with
  | nil => rfl
  | cons u ups ih => exact (ih _).trans (listSet_length line u.1 u.2)

theorem Memory.length_read (m : Memory) (a n : Nat) : (m.read a n).length = n := by
  induction n generalizing a with
  | zero => rfl
  | succ n ih => rw [Memory.read, List.length_cons, ih]

/-- The bytes of one line with some of them overlaid. -/
def lineOverlaid (m : Memory) (a : Nat) (bs : List Byte) : Memory :=
  m.write (a / 64 * 64) (overlay (m.read (a / 64 * 64) 64) (bs.mapIdx (fun i x => (a % 64 + i, x))))

section Clean

variable {s : State} (herrs : s.errs = [])
include herrs

theorem localWrite_slots_line {a : Nat} {bs : List Byte} (ha : a % 64 = 0) (hlen : bs.length = 64) :
    localWrite .slots a bs s = ({ s with slotMem := s.slotMem.write a bs }, true) := by
  rw [localWrite, hlen, lineSpans_within (by decide) (by omega), localWrites, if_pos rfl, localPut_slots herrs,
    List.take_of_length_le hlen.le]
  rfl

/-- Some bytes of one line of the slot table: the line is written with them overlaid. -/
theorem localWrite_slots_narrow {a : Nat} {bs : List Byte} (hne : bs.length ≠ 0) (h : a % 64 + bs.length ≤ 64)
    (h64 : bs.length ≠ 64) :
    localWrite .slots a bs s = ({ s with slotMem := lineOverlaid s.slotMem a bs }, true) := by
  have hline : ∀ ups : List (Nat × Byte), (overlay (s.slotMem.read (a / 64 * 64) 64) ups).take 64
      = overlay (s.slotMem.read (a / 64 * 64) 64) ups := fun ups =>
    List.take_of_length_le (by rw [overlay_length, Memory.length_read])
  rw [localWrite, lineSpans_within hne h, localWrites, if_neg h64, List.take_length, localPart_clean herrs, localPut_slots herrs,
    Local.base, Nat.zero_add, Local.mem, hline]
  rfl

end Clean

/-! ### Reads and writes through BAR2 (R342 to R346) -/

section Bar2

variable {s : State} {f : Nat} (hf : s.fnExists f = true)
include hf

theorem exec_bar2Read (off len : Nat) : exec (.bar2Read f off len) s = .next (bar2Get f off len s) :=
  congrArg Host.Outcome.next (if_pos hf)

theorem exec_bar2Write (off : Nat) (data : List Byte) (poisoned rel : Bool) :
    exec (.bar2Write f off data poisoned rel) s = .next (bar2Put f off data poisoned rel s) :=
  congrArg Host.Outcome.next (if_pos hf)

theorem exec_bar2Write_poisoned (off : Nat) (data : List Byte) (rel : Bool) :
    exec (.bar2Write f off data true rel) s = .next (s.setFn f { s.fn f with aerPoison := true }) :=
  exec_bar2Write hf off data true rel

theorem exec_atomicopRequest (a : Nat) : exec (.atomicopRequest f a) s = .next { s with out := .cplUR f :: s.out } :=
  congrArg Host.Outcome.next (if_pos hf)

variable (hrun : s.thm.stopped = false) {off dpa : Nat}
include hrun

theorem exec_bar2Read_open {len : Nat} (hdpa : bar2Dpa s f off = some (dpa, none)) (hfree : spanHeld s (.host f) dpa len = false) :
    let r := dpaRead (.host f) dpa len s
    exec (.bar2Read f off len) s = .next (hostReadOut f r.2.2 r.2.1 r.1) := by
  rw [exec_bar2Read hf]
  simp only [bar2Get, hrun, hdpa, hostGet, hfree, Bool.false_eq_true, if_false]

theorem exec_bar2Read_denied {len why : Nat} (hdpa : bar2Dpa s f off = some (dpa, some why)) :
    exec (.bar2Read f off len) s = .next ((recordDeny (.host f) dpa false why s).emit (.cplUR f)) := by
  rw [exec_bar2Read hf]
  simp only [bar2Get, hrun, hdpa, Bool.false_eq_true, if_false]

theorem exec_bar2Write_open {data : List Byte} {rel : Bool} (hdpa : bar2Dpa s f off = some (dpa, none))
    (hfree : spanHeld s (.host f) dpa data.length = false) (hok : (dpaWrite (.host f) dpa data s).2 = .ok) :
    exec (.bar2Write f off data false rel) s = .next (dpaWrite (.host f) dpa data s).1 := by
  rw [exec_bar2Write hf]
  simp only [bar2Put, hrun, hdpa, hostPut, hfree, hok, hostWriteLost, Bool.false_eq_true, if_false]

end Bar2

/-! ### Writes of slots (R351 to R353) -/

section SlotWrite

variable {s : State} {f off : Nat} {data : List Byte}

/-- The slot that a byte of a function's view lies in, and the byte's place in the table. -/
theorem slotPlace_eq (s : State) (f off : Nat) :
    slotPlace s f off = ((if f = 0 then 0 else (fnSlots (s.fn f)).1) + off / 128,
      128 * ((if f = 0 then 0 else (fnSlots (s.fn f)).1) + off / 128) + off % 128) := by
  simp only [slotPlace, Prod.mk.injEq, true_and]
  omega

/-- A write within one slot is one part. -/
theorem exec_slotWrite (hf : s.fnExists f = true) (hview : off + data.length ≤ 0x80000)
    (hslot : off % 128 + data.length ≤ 128) (hne : data ≠ []) :
    exec (.slotWrite f off data) s = .next (slotPart f off data s) := by
  have hlen : data.length ≠ 0 := fun h => hne (List.eq_nil_of_length_eq_zero h)
  change execSlotWrite f off data s = _
  rw [execSlotWrite, if_pos ⟨hf, hview⟩, spans_within _ hlen hslot, slotParts, List.take_length, slotParts]

theorem slotPart_foreign (h : ownsSlot (s.fn f) (slotPlace s f off).1 = false) :
    slotPart f off data s = logIgnored 0x01 0 (.host f) (if f = 0 then 0x01000000 + off else 0x80000 + off) 2 s := by
  simp only [slotPart, h, Bool.false_eq_true, and_false, if_false]

/-- The state with a slot marked. -/
def markSlot (k : Nat) (s : State) : State :=
  { s with hif := { s.hif with marked := (List.range 4096).filter (fun j => j == k || s.hif.marked.contains j) } }

theorem markSlot_errs (k : Nat) (s : State) : (markSlot k s).errs = s.errs := by
  rw [markSlot]

theorem markSlot_slotMem (k : Nat) (s : State) : (markSlot k s).slotMem = s.slotMem := by
  rw [markSlot]

theorem markSlot_fns (k : Nat) (s : State) : (markSlot k s).fns = s.fns := by
  rw [markSlot]

theorem mem_markSlot {k : Nat} (hk : k < 4096) (s : State) : k ∈ (markSlot k s).hif.marked := by
  rw [markSlot, List.mem_filter, List.mem_range, beq_self_eq_true, Bool.true_or]
  exact ⟨hk, rfl⟩

theorem slotPart_own {k p : Nat} (hplace : slotPlace s f off = (k, p)) (hk : k < 4096) (hown : ownsSlot (s.fn f) k = true) :
    slotPart f off data s = slotStore (lineSpans p data.length) data (markSlot k s) := by
  simp only [slotPart, hplace]
  exact if_pos ⟨hk, hown⟩

variable (herrs : s.errs = [])
include herrs

theorem slotStore_line {p : Nat} (hp : p % 64 = 0) (hlen : data.length = 64) :
    slotStore (lineSpans p data.length) data s = { s with slotMem := s.slotMem.write p data } := by
  rw [hlen, lineSpans_within (by decide) (by omega), slotStore, List.take_of_length_le hlen.le, localWrite_slots_line herrs hp hlen]
  rfl

theorem slotStore_narrow {p : Nat} (hne : data.length ≠ 0) (h : p % 64 + data.length ≤ 64) (h64 : data.length < 64) :
    slotStore (lineSpans p data.length) data s = { s with slotMem := lineOverlaid s.slotMem p data } := by
  rw [lineSpans_within hne h, slotStore, List.take_length, localWrite_slots_narrow herrs hne h h64.ne]
  rfl

end SlotWrite

/-! ### The pickup of a slot (R354, R357) -/

theorem lineOverlaid_control (m : Memory) (k : Nat) (b : Byte) :
    lineOverlaid m (128 * k) [b] = m.write (128 * k) (overlay (m.read (128 * k) 64) [(0, b)]) := by
  have hline : 128 * k / 64 * 64 = 128 * k := by omega
  have hbyte : 128 * k % 64 = 0 := by omega
  simp only [lineOverlaid, hline, hbyte, List.mapIdx_cons, List.mapIdx_nil, Nat.add_zero]

/-- A slot is no longer marked. -/
def unmarkSlot (k : Nat) (s : State) : State := { s with hif := { s.hif with marked := setDel k s.hif.marked } }

/-- The request of slot `k` of function `f`, whose lines hold `bs`, joins the runtime's list. -/
def joinRequest (f k : Nat) (bs : List Byte) (s : State) : State :=
  let s1 := s.setFn f { s.fn f with outstanding := (s.fn f).outstanding + 1 }
  { s1 with hif := { s1.hif with
      reqs := s.hif.reqs ++ [{ id := s.hif.nextReq, fn := f, slot := k - (fnSlots (s.fn f)).1, bytes := bs }]
      nextReq := s.hif.nextReq + 1, lastSlot := k } }

section Pickup

variable {s : State} {k f : Nat} (herrs : s.errs = [])
include herrs

theorem clearGo_clean : clearGo k s
    = { s with slotMem := s.slotMem.write (128 * k) (overlay (s.slotMem.read (128 * k) 64)
        [(0, s.slotMem.get (128 * k) &&& 0xFE#8)]) } := by
  rw [clearGo, localWrite_slots_narrow herrs (List.cons_ne_nil _ _ ∘ List.eq_nil_of_length_eq_zero)
    (by rw [List.length_singleton]; omega) (by rw [List.length_singleton]; decide), lineOverlaid_control]

theorem handOver_clean {ctl : List Byte} (hop : leAt (ctl ++ s.slotMem.read (128 * k + 64) 64) 1 1 < 6) :
    handOver f k ctl s = clearGo k (joinRequest f k (ctl ++ s.slotMem.read (128 * k + 64) 64) s) := by
  have hbase : Local.slots.base + (128 * k + 64) = 128 * k + 64 := Nat.zero_add _
  simp only [handOver, localGet_clean herrs, hbase, Local.mem, Option.getD_some, Option.isNone_some, Bool.false_eq_true, if_false,
    if_neg (Nat.not_le.mpr hop)]
  rfl

theorem scanSlots_pickable {rest : List Nat} (hgo : bit 0 ((s.slotMem.read (128 * k) 64).getD 0 0).toNat = true)
    (howner : slotOwner s k = some f) (hpick : pickable (s.fn f) = true) :
    scanSlots (k :: rest) s = handOver f k (s.slotMem.read (128 * k) 64) (unmarkSlot k s) := by
  have hbase : Local.slots.base + 128 * k = 128 * k := Nat.zero_add _
  simp only [scanSlots, localGet_clean herrs, hbase, Local.mem, Option.getD_some, hgo, Bool.not_true, Bool.false_eq_true, if_false,
    howner, hpick, if_true]
  rfl

theorem exec_slotPickup {rest : List Nat} (hopen : s.hif.pickup = true) (hrun : s.thm.stopped = false)
    (hscan : scanOrder s = k :: rest) (hgo : bit 0 ((s.slotMem.read (128 * k) 64).getD 0 0).toNat = true)
    (howner : slotOwner s k = some f) (hpick : pickable (s.fn f) = true)
    (hop : leAt (s.slotMem.read (128 * k) 64 ++ s.slotMem.read (128 * k + 64) 64) 1 1 < 6) :
    exec .slotPickup s = .next (clearGo k (joinRequest f k
      (s.slotMem.read (128 * k) 64 ++ s.slotMem.read (128 * k + 64) 64) (unmarkSlot k s))) := by
  change execSlotPickup s = _
  rw [execSlotPickup, if_pos ⟨hopen, hrun⟩, hscan, scanSlots_pickable herrs hgo howner hpick,
    handOver_clean (s := unmarkSlot k s) herrs hop]
  rfl

end Pickup

/-! ### Configuration space (R339 to R349, R356, R360, R364) -/

theorem exec_busMasterEnable {s : State} {f : Nat} (hf : s.fnExists f = true) (bme : Bool) (cfg : Bool × CfgOp) :
    exec (.busMasterEnable f bme cfg) s = .next (cfgAccess f cfg.2 (if bme && !cfg.1
      then releaseFn f (s.setFn f { s.fn f with bme := bme, d3 := cfg.1, bmSeen := true })
      else s.setFn f { s.fn f with bme := bme, d3 := cfg.1, bmSeen := true })) :=
  congrArg Host.Outcome.next (if_pos hf)

theorem exec_resizableBarWrite_vf {s : State} {n : Nat} (hlow : 28 ≤ n) (hhigh : n ≤ 36) :
    exec (.resizableBarWrite (n, true)) s = .next { s with hif := { s.hif with vfBar2Log2 := n } } := by
  change execResizableBarWrite (n, true) s = _
  simp only [execResizableBarWrite, if_true, if_pos (And.intro hlow hhigh)]

theorem exec_resizableBarWrite_pf {s : State} {n : Nat} (hlow : 30 ≤ n) (hhigh : n ≤ 40) (hnew : n ≠ s.hif.bar2Log2) :
    exec (.resizableBarWrite (n, false)) s = .next { s with hif := { s.hif with
      bar2Log2 := n, apt := s.hif.apt.map (fun p => (p.1, (p.2.1, false))) } } := by
  change execResizableBarWrite (n, false) s = _
  simp only [execResizableBarWrite, Bool.false_eq_true, if_false, if_pos (And.intro hlow (And.intro hhigh hnew))]

theorem cfgAccess_msixEntry {s : State} {f v : Nat} (hv : v < s.msixSize f) (a d : Nat) (m : Bool) :
    cfgAccess f (.msixEntry v a d m) s
      = msixFlush f (s.setFn f { s.fn f with msixTbl := Tbl.put (s.fn f).msixTbl v { addr := a, data := d, masked := m } }) :=
  if_pos hv

/-! ### Completion rings and the mailbox (R357, R360, R365) -/

theorem exec_cqEnable {s : State} {r : Requester} {f : Nat} {v : Word} (hreach : reachesFn s r f = true)
    (hen : bit 0 v.toNat = true) :
    exec (.cqEnable r f v) s = .next (s.setFn f { s.fn f with
      cqEn := true, cqLog2 := bits 5 1 v.toNat, vector := bits 26 16 v.toNat, tail := 0, phase := 1 }) := by
  change execCqEnable r f v s = _
  simp only [execCqEnable, if_pos hreach, cqCfgWrite, hen, if_true]

theorem exec_cqModTimer {s : State} {f : Nat} (hunsig : (s.fn f).unsig ≠ 0) (htime : (s.fn f).modTime ≠ 0)
    (hdue : (s.fn f).oldestAt + 1000 * (s.fn f).modTime ≤ s.now) :
    exec (.cqModTimer f) s = .next (msix f (s.fn f).vector (s.setFn f { s.fn f with unsig := 0 })) :=
  congrArg Host.Outcome.next (if_pos ⟨hunsig, htime, hdue⟩)

section Doe

variable {s : State} {data : List Byte} (hidle : s.hif.doe = none) (hlen : data.length ≤ 4096)
include hidle hlen

theorem exec_doeRequest (t : Nat) :
    exec (.doeRequest t data) s = .next (if t = 0 then s.emit (.doe (doeDiscovery (leAt data 0 1)))
      else if t ≤ 2 then { s with hif := { s.hif with doe := some (t, data) } } else s) := by
  have hfree : ¬ (s.hif.doe.isSome = true ∨ 4096 < data.length) := by
    rw [hidle, not_or]
    exact ⟨Bool.false_ne_true, Nat.not_lt.mpr hlen⟩
  exact congrArg Host.Outcome.next (if_neg hfree)

theorem exec_doeRequest_spdm {t : Nat} (ht : t = 1 ∨ t = 2) :
    exec (.doeRequest t data) s = .next { s with hif := { s.hif with doe := some (t, data) } } := by
  have h0 : t ≠ 0 := by omega
  have h2 : t ≤ 2 := by omega
  rw [exec_doeRequest hidle hlen, if_neg h0, if_pos h2]

end Doe

/-- Settles O37: the rule of each access and outcome, the slot table's lines being without an error. -/
theorem hostAccess : Obligations.HostAccess := by
  unfold Obligations.HostAccess
  refine ⟨?_, ?_, ?_, ?_, ?_, ?_, ?_, ?_, ?_, ?_, ?_, ?_, ?_, ?_⟩
  · intro s f off len dpa hf hrun hdpa hfree
    refine (exec_bar2Read_open hf hrun hdpa hfree).trans ?_
    generalize dpaRead (.host f) dpa len s = r
    obtain ⟨t, bs, st⟩ := r
    cases st <;> rfl
  · intro s f off len dpa why hf hrun hdpa
    exact exec_bar2Read_denied hf hrun hdpa
  · intro s f off dpa data rel hf hrun hdpa
    exact ⟨exec_bar2Write_poisoned hf off data rel, exec_bar2Write_open hf hrun hdpa⟩
  · intro s f a hf
    exact exec_atomicopRequest hf a
  · intro s f off data hf hview hslot hne
    have hlen : data.length ≠ 0 := fun h => hne (List.eq_nil_of_length_eq_zero h)
    have hexec := exec_slotWrite hf hview hslot hne
    have hplace := slotPlace_eq s f off
    extract_lets k p
    refine ⟨fun hk hown herrs => ?_, fun hown => ?_⟩
    · rw [hexec, slotPart_own hplace hk hown]
      have hclean : (markSlot k s).errs = [] := (markSlot_errs k s).trans herrs
      refine ⟨_, rfl, fun hline h64 => ?_, fun hnarrow h64 => ?_, ?_, ?_⟩
      · rw [slotStore_line hclean (by omega) h64]
        exact congrArg (fun m => m.write p data) (markSlot_slotMem k s)
      · rw [slotStore_narrow hclean hlen (by omega) h64]
        exact congrArg (fun m => lineOverlaid m p data) (markSlot_slotMem k s)
      · rw [slotStore_hif hclean]
        exact mem_markSlot hk s
      · rw [slotStore_fns hclean]
        exact markSlot_fns k s
    · rw [hexec, slotPart_foreign]
      rw [hplace]
      exact hown
  · intro s k f rest hopen hrun hscan herrs hgo howner hpick bs hop
    have hexec := exec_slotPickup herrs hopen hrun hscan hgo howner hpick hop
    rw [clearGo_clean (s := joinRequest f k _ (unmarkSlot k s)) herrs] at hexec
    exact ⟨_, hexec, rfl, congrArg Fn.outstanding (State.fn_setFn ..), rfl, rfl, rfl⟩
  · intro s f cfg hf
    exact ⟨exec_busMasterEnable hf true (false, cfg), exec_busMasterEnable hf false (false, cfg),
      exec_busMasterEnable hf true (true, cfg)⟩
  · intro s f
    exact ⟨rfl, fun r => rfl, rfl, rfl, rfl, rfl, fun v a d m hv => cfgAccess_msixEntry hv a d m, rfl⟩
  · intro s n hlow hhigh hnew
    refine ⟨_, exec_resizableBarWrite_pf hlow hhigh hnew, rfl, ?_, ?_⟩
    · rintro p hp
      obtain ⟨q, -, rfl⟩ := List.mem_map.mp hp
      rfl
    · exact List.map_map ..
  · intro s n hlow hhigh
    exact exec_resizableBarWrite_vf hlow hhigh
  · intro s r f v hreach hen
    refine ⟨_, exec_cqEnable hreach hen, ?_⟩
    rw [State.fn_setFn]
    exact ⟨rfl, rfl, rfl, rfl, rfl, rfl⟩
  · intro s f hunsig htime hdue
    exact exec_cqModTimer hunsig htime hdue
  · intro s t data hidle hlen
    exact ⟨exec_doeRequest_spdm hidle hlen, exec_doeRequest hidle hlen 0⟩
  · intro s
    rfl

end Sys2Proof.Machine
end

section
/-! The link of the PCIe port and the resets of its partition and of functions (R336 to R340, R363): what each one clears and
keeps, then the statement about them (O38). -/

namespace Sys2Proof.Machine

theorem exec_pcieLinkUp {s : State} {speed width : Nat} {flit : Bool} (htrain : s.hif.training = true) (hperst : s.hif.perst = false)
    (hpclk : s.clk.pclkLost = false) (hmode : linkMode speed width flit = true) :
    exec (.pcieLinkUp speed width flit) s
      = .next { s with hif := { s.hif with up := true, speed := speed, width := width, flit := flit } } :=
  congrArg Host.Outcome.next (if_pos ⟨htrain, hperst, hpclk, hmode⟩)

/-! ### Resets of the partition (R338) -/

/-- A reset of the partition leaves no request that is not marked dead. -/
theorem dead_of_mem_pcieReset {s : State} {down perst : Bool} {r : HostReq} (h : r ∈ (pcieReset down perst s).hif.reqs) :
    r.dead = true := by
  obtain ⟨q, -, rfl⟩ := List.mem_map.mp h
  rfl

theorem pcieReset_resets (s : State) (down perst : Bool) :
    (pcieReset down perst s).hif.resets = min 15 (s.hif.resets + 1) :=
  satInc_eq_min 15 s.hif.resets

theorem pcieReset_down (s : State) (perst : Bool) :
    (pcieReset true perst s).hif.up = false ∧ (pcieReset true perst s).hif.speed = 0
      ∧ (pcieReset true perst s).hif.width = 0 :=
  ⟨rfl, rfl, rfl⟩

/-- Whether a reset takes the link down: all but the physical function's own (R338, R363). -/
def takesLinkDown : PcieReset → Bool
  | .pfFlr => false
  | _ => true

/-- The state that a reset of the partition starts from: the loss of PCLK is kept. -/
def pclkNoted (why : PcieReset) (s : State) : State :=
  match why with
  | .pclkLoss => { s with clk := { s.clk with pclkLost := true } }
  | _ => s

theorem exec_pciePartitionReset (s : State) (why : PcieReset) :
    exec (.pciePartitionReset why) s = .next (pcieReset (takesLinkDown why) (why matches .perst) (pclkNoted why s)) := by
  cases why <;> rfl

/-! ### Resets of virtual functions (R340, R363) -/

theorem exec_vfFlr {s : State} {f : Nat} (hvf : f ≠ 0) (hf : s.fnExists f = true) :
    exec (.vfFlr f) s = .next (vfReset f s) :=
  congrArg Host.Outcome.next (if_pos ⟨hvf, hf⟩)

theorem fn_vfReset (s : State) (f : Nat) :
    (vfReset f s).fn f = { slotBase := (s.fn f).slotBase, slotCount := (s.fn f).slotCount, seqBase := (s.fn f).seqBase,
                           seqCount := (s.fn f).seqCount, ops := (s.fn f).ops, vapt := (s.fn f).vapt } :=
  State.fn_setFn ..

theorem exec_vfEnableWrite_of_disabled {s : State} (hdis : s.hif.vfEn = false) (n : Nat) (en : Bool) :
    exec (.vfEnableWrite n en) s = .next { s with hif := { s.hif with vfEn := en, numVfs := min 15 n } } := by
  change execVfEnableWrite n en s = _
  simp only [execVfEnableWrite, hdis, Bool.false_and, Bool.false_eq_true, if_false]

theorem fnExists_of_vfEn_clear {s : State} (hdis : s.hif.vfEn = false) {f : Nat} (hvf : f ≠ 0) : s.fnExists f = false := by
  simp only [State.fnExists, hdis, Bool.false_and, Bool.or_false, beq_eq_false_iff_ne, ne_eq, hvf, not_false_eq_true]

/-- Settles O38: each reset's own rule, the partition's by its cause. -/
theorem hostResets : Obligations.HostResets := by
  unfold Obligations.HostResets
  refine ⟨?_, ?_, ?_, ?_, ?_, ?_, ?_⟩
  · intro s
    rfl
  · intro s speed width flit htrain hperst hpclk hmode
    exact exec_pcieLinkUp htrain hperst hpclk hmode
  · intro s why
    refine ⟨_, exec_pciePartitionReset s why, rfl, rfl, rfl, rfl, rfl, rfl, ?_, ?_, ?_, ?_, ?_, ?_, fun r => dead_of_mem_pcieReset, ?_⟩
    · rw [pcieReset_resets]
      cases why <;> rfl
    · cases why <;> rfl
    · intro hwhy
      cases why with
      | pfFlr => exact absurd rfl hwhy
      | perst | hotReset | linkDown | pclkLoss => exact pcieReset_down _ _
    · rintro rfl
      rfl
    · rintro rfl
      rfl
    · rintro rfl
      rfl
    · cases why <;> exact ⟨rfl, rfl, rfl, rfl, rfl, rfl, rfl, rfl⟩
  · intro s f hvf hf
    refine ⟨_, exec_vfFlr hvf hf, ?_⟩
    rw [fn_vfReset]
    exact ⟨rfl, rfl, rfl, rfl, rfl, rfl, rfl, rfl, rfl, rfl⟩
  · intro s
    rfl
  · intro s n en hdis
    exact exec_vfEnableWrite_of_disabled hdis n en
  · intro s n _
    exact ⟨_, rfl, rfl, fun f hvf => fnExists_of_vfEn_clear rfl hvf⟩

end Sys2Proof.Machine
end

section
/-! Host requests (R350, R354 to R362): what the runtime does with a new request of each operation, with the data of a COPY from the
host and with a completion, then the statement about them (O39). -/

namespace Sys2Proof.Machine

/-! ### New requests (R356) -/

theorem unlessHeld_eq {f : State → State} {s t : State} (h : f s = t) (hw : t.waited = false) : unlessHeld f s = t := by
  rw [unlessHeld_of_not_waited (by rw [h]; exact hw), h]

section

variable {s : State} {i op : Nat} {used : List (Nat × Nat)} {r : HostReq}

theorem reqAt_of_listed (hlist : s.hif.reqs[i]? = some r) (hop : reqOp r = op) : reqAt s i op = some r := by
  simp only [reqAt, hlist, hop, if_true]

theorem reqStart_eq (hlist : s.hif.reqs[i]? = some r) (hop : reqOp r = op) (hfresh : r.stage = 0) (hclean : reqClean r used = true)
    {good : HostReq → Bool} (hgood : good r = true) (f : HostReq → State → State) :
    reqStart i op used good f s = if opAllowed s r then f r s else completeReq r.id .denied 0 [] s := by
  simp only [reqStart, reqAt_of_listed hlist hop, hfresh, hclean, hgood, ne_eq, not_true_eq_false, if_false, Bool.not_true,
    Bool.or_self, Bool.false_eq_true]
  cases opAllowed s r <;> rfl

theorem reqStart_new (h : Safety.ReqNew s i op used r) {good : HostReq → Bool} (hgood : good r = true)
    (f : HostReq → State → State) : reqStart i op used good f s = f r s :=
  (reqStart_eq h.listed h.opcode h.fresh h.clean hgood f).trans (if_pos h.allowed)

end

/-! ### COPY (R356, R359, R362) -/

@[simp] theorem setReq_waited (r : HostReq) (s : State) : (setReq r s).waited = s.waited := rfl

@[simp] theorem copyEnd_waited (r : HostReq) (s : State) : (copyEnd r s).waited = s.waited := by
  rw [copyEnd]
  split
  · rfl
  · exact completeReq_waited ..

section Copy

variable {s : State} {i : Nat} {r : HostReq}

/-- What a new COPY of good form does. -/
def copyStart (r : HostReq) (s : State) : State :=
  match copyOut s r with
  | some (a, w) => reqDenied r a w s
  | none =>
    if writesOpen s r.fn || copyHeld s r then s
    else if cpSrcHost r then
      (hostSpans s.hif.mrrs (cpSrc r) (cpLen r)).foldl (fun s p => s.emit (.dmaRead r.fn p.1 p.2 r.id))
        (setReq { r with stage := 1, at_ := s.now } s)
    else copyEnd (copyMove (allParts r) r s).2 (copyMove (allParts r) r s).1

section

variable (h : Safety.ReqNew s i 0x01 [(8, 21)] r) (hgood : copyGood r = true)
include h hgood

theorem exec_reqCopy (hw : (copyStart r s).waited = false) : exec (.reqCopy i) s = .next (copyStart r s) := by
  change execReqCopy i s = _
  have hnew : r.stage ≠ 2 := by
    rw [h.fresh]
    decide
  simp only [execReqCopy, reqAt_of_listed h.listed h.opcode, if_neg hnew]
  exact congrArg Host.Outcome.next (unlessHeld_eq (reqStart_new h hgood _) hw)

theorem exec_reqCopy_denied {a : Nat} {w : Bool} (hw : s.waited = false) (hout : copyOut s r = some (a, w)) :
    exec (.reqCopy i) s = .next (completeReq r.id .denied 0 [] (recordDeny (.host r.fn) a w 3 s)) := by
  have hstart : copyStart r s = reqDenied r a w s := by
    simp only [copyStart, hout]
  have hwaited : (reqDenied r a w s).waited = false := by
    rw [reqDenied, completeReq_waited, recordDeny_waited, hw]
  rw [exec_reqCopy h hgood (hstart ▸ hwaited), hstart, reqDenied]

section

variable (hout : copyOut s r = none) (hopen : writesOpen s r.fn = false) (hheld : copyHeld s r = false)
include hout hopen hheld

theorem exec_reqCopy_move (hsrc : cpSrcHost r = false) (hw : (copyMove (allParts r) r s).1.waited = false) :
    exec (.reqCopy i) s = .next (copyEnd (copyMove (allParts r) r s).2 (copyMove (allParts r) r s).1) := by
  have hstart : copyStart r s = copyEnd (copyMove (allParts r) r s).2 (copyMove (allParts r) r s).1 := by
    simp only [copyStart, hout, hopen, hheld, hsrc, Bool.or_self, Bool.false_eq_true, if_false]
  rw [exec_reqCopy h hgood (by rw [hstart, copyEnd_waited, hw]), hstart]

theorem exec_reqCopy_read (hsrc : cpSrcHost r = true) (hw : s.waited = false) :
    exec (.reqCopy i) s = .next ((hostSpans s.hif.mrrs (cpSrc r) (cpLen r)).foldl
      (fun s p => s.emit (.dmaRead r.fn p.1 p.2 r.id)) (setReq { r with stage := 1, at_ := s.now } s)) := by
  have hstart : copyStart r s = (hostSpans s.hif.mrrs (cpSrc r) (cpLen r)).foldl
      (fun s p => s.emit (.dmaRead r.fn p.1 p.2 r.id)) (setReq { r with stage := 1, at_ := s.now } s) := by
    simp only [copyStart, hout, hopen, hheld, hsrc, Bool.or_self, Bool.false_eq_true, if_false, if_true]
  have hwaited : (copyStart r s).waited = false :=
    (congrArg State.waited hstart).trans ((foldl_waited _ (fun (t : State) (p : Nat × Nat) => t.emit (.dmaRead r.fn p.1 p.2 r.id)) (fun _ _ => rfl) _).trans hw)
  rw [exec_reqCopy h hgood hwaited, hstart]

end

end

section Read

variable (hlist : s.hif.reqs[i]? = some r) (hop : reqOp r = 0x01) (hstage : r.stage = 1)
include hlist hop hstage

/-- Data of a host read that has not arrived before, whose destination is awake, is written to it. -/
theorem exec_dmaReadCompletion {off : Nat} {data : List Byte} (hne : data ≠ []) (hend : off + data.length ≤ cpLen r)
    (hnew : ∀ g ∈ r.got, off + data.length ≤ g.1 ∨ g.1 + g.2 ≤ off)
    (hfree : ∀ p ∈ pieces (cpDst r + off) data.length, spanHeld s (.host r.fn) p.1 p.2 = false)
    (hw : (copyLand (pieces (cpDst r + off) data.length) data
      { r with got := r.got ++ [(off, data.length)] } s).1.waited = false) :
    let w := copyLand (pieces (cpDst r + off) data.length) data { r with got := r.got ++ [(off, data.length)] } s
    exec (.dmaReadCompletion i off data) s
      = .next (if gotBytes w.2 = cpLen w.2 then copyEnd w.2 w.1 else setReq w.2 w.1) := by
  intro w
  have hlen : data.length ≠ 0 := fun h => hne (List.eq_nil_of_length_eq_zero h)
  have htwice : r.got.any (fun g => decide (off < g.1 + g.2) && decide (g.1 < off + data.length)) = false := by
    rw [List.any_eq_false]
    intro g hg
    have := hnew g hg
    simp only [Bool.and_eq_true, decide_eq_true_eq]
    omega
  have hspans : (pieces (cpDst r + off) data.length).any (fun p => spanHeld s (.host r.fn) p.1 p.2) = false := by
    rw [List.any_eq_false]
    intro p hp
    rw [hfree p hp]
    exact Bool.false_ne_true
  have hgo : ¬ (r.stage ≠ 1 ∨ data.length = 0 ∨ cpLen r < off + data.length
      ∨ r.got.any (fun g => decide (off < g.1 + g.2) && decide (g.1 < off + data.length)) = true
      ∨ (pieces (cpDst r + off) data.length).any (fun p => spanHeld s (.host r.fn) p.1 p.2) = true) := by
    rw [htwice, hspans]
    simp only [hstage, hlen, Nat.not_lt.mpr hend, ne_eq, not_true_eq_false, Bool.false_eq_true, or_self, not_false_eq_true]
  refine congrArg Host.Outcome.next (unlessHeld_eq ?_ ?_)
  · simp only [reqAt_of_listed hlist hop]
    exact if_neg hgo
  · split
    · exact (copyEnd_waited ..).trans hw
    · exact hw

theorem exec_copyReadTimeout (hdue : r.at_ + s.hif.cplTimeout ≤ s.now) :
    exec (.copyReadTimeout i) s = .next (copyEnd (copyFail (firstGap r) .timeout r) s) := by
  change execCopyReadTimeout i s = _
  simp only [execCopyReadTimeout, reqAt_of_listed hlist hop, if_pos (And.intro hstage hdue)]

end Read

end Copy

/-! ### Requests handed to a unit (R350, R356, R362) -/

section Units

variable {s : State} {i : Nat} {r : HostReq}

theorem exec_reqNop (h : Safety.ReqNew s i 0x00 [] r) : exec (.reqNop i) s = .next (completeReq r.id .ok 0 [] s) :=
  congrArg Host.Outcome.next (reqStart_new h rfl _)

theorem exec_reqNop_denied (hlist : s.hif.reqs[i]? = some r) (hop : reqOp r = 0x00) (hfresh : r.stage = 0)
    (hclean : reqClean r [] = true) (hdeny : opAllowed s r = false) :
    exec (.reqNop i) s = .next (completeReq r.id .denied 0 [] s) :=
  congrArg Host.Outcome.next ((reqStart_eq hlist hop hfresh hclean rfl _).trans (if_neg (Bool.eq_false_iff.mp hdeny)))

theorem exec_reqCrewLoad (h : Safety.ReqNew s i 0x02 [(8, 3), (16, 8)] r) (hflag : leAt r.bytes 10 1 < 2)
    (himg : clImg r % 64 = 0) (hcrew : clCrew r < 128) (hreach : reachable s r.fn (clImg r) 64 = true)
    (hpresent : s.crewPresent (clCrew r) = true) (hidle : (s.crew (clCrew r)).state = 1 ∨ (s.crew (clCrew r)).state = 5)
    (hopen : writesOpen s r.fn = false) :
    exec (.reqCrewLoad i) s = .next (setReq { r with stage := 1 }
      (loadTally (clCrew r) (s.setCrew (clCrew r) { s.crew (clCrew r) with img := clImg r }))) := by
  change execReqCrewLoad i s = _
  have hnew : r.stage ≠ 1 := by
    rw [h.fresh]
    decide
  have hgood : (decide (leAt r.bytes 10 1 < 2) && clImg r % 64 == 0 && decide (clCrew r < 128)) = true := by
    rw [decide_eq_true hflag, himg, decide_eq_true hcrew]
    rfl
  have hstate : ((s.crew (clCrew r)).state == 1 || (s.crew (clCrew r)).state == 5) = true := by
    rwa [Bool.or_eq_true, beq_iff_eq, beq_iff_eq]
  simp only [execReqCrewLoad, reqAt_of_listed h.listed h.opcode, if_neg hnew]
  refine congrArg Host.Outcome.next ((reqStart_new h hgood _).trans ?_)
  simp only [hreach, hpresent, hstate, hopen, Bool.not_true, Bool.and_self, Bool.false_eq_true, if_false]

theorem exec_reqFaceLaunch (h : Safety.ReqNew s i 0x03 [(8, 2), (16, 32)] r) (hhost : s.chr.faceLauncherHost = false)
    (hhere : faceHere s (leAt r.bytes 8 2) = true) (hopen : writesOpen s r.fn = false)
    (hroom : (s.face (leAt r.bytes 8 2)).state = 3 ∨ (s.face (leAt r.bytes 8 2)).queue.length < 4) :
    exec (.reqFaceLaunch i) s = .next (faceEnqueue (leAt r.bytes 8 2)
      { words := (List.range 8).map (fun k => BitVec.ofNat 32 (leAt r.bytes (16 + 4 * k) 4)), req := some r.id }
      (setReq { r with stage := 1 } s)) := by
  have hgo : ¬ (writesOpen s r.fn = true ∨ ((s.face (leAt r.bytes 8 2)).state ≠ 3 ∧ 4 ≤ (s.face (leAt r.bytes 8 2)).queue.length)) := by
    rw [hopen]
    rintro (hbad | ⟨hstate, hfull⟩)
    · exact Bool.false_ne_true hbad
    · exact hroom.elim hstate (Nat.not_lt.mpr hfull)
  refine congrArg Host.Outcome.next ((reqStart_new h rfl _).trans ?_)
  simp only [hhost, hhere, Bool.not_true, Bool.or_self, Bool.false_eq_true, if_false, if_neg hgo]

theorem exec_reqMillShard (h : Safety.ReqNew s i 0x04 [(8, 1), (16, 8)] r) (heng : leAt r.bytes 8 1 < 4)
    (hreach : reachable s r.fn (leAt r.bytes 16 8) 128 = true)
    (hfree : ∀ p ∈ pieces (leAt r.bytes 16 8) 128, spanHeld s (.host r.fn) p.1 p.2 = false)
    (hroom : (s.eng (leAt r.bytes 8 1)).queue.length < 4)
    (hread : (readPieces (.host r.fn) (pieces (leAt r.bytes 16 8) 128) s).2.2 = .ok) (hopen : writesOpen s r.fn = false)
    (hw : (shardSubmit (leAt r.bytes 8 1) (wordsOf (readPieces (.host r.fn) (pieces (leAt r.bytes 16 8) 128) s).2.1) (some r.id)
      (setReq { r with stage := 1 } (readPieces (.host r.fn) (pieces (leAt r.bytes 16 8) 128) s).1)).waited = false) :
    exec (.reqMillShard i) s = .next (shardSubmit (leAt r.bytes 8 1)
      (wordsOf (readPieces (.host r.fn) (pieces (leAt r.bytes 16 8) 128) s).2.1) (some r.id)
      (setReq { r with stage := 1 } (readPieces (.host r.fn) (pieces (leAt r.bytes 16 8) 128) s).1)) := by
  have hspans : (pieces (leAt r.bytes 16 8) 128).any (fun p => spanHeld s (.host r.fn) p.1 p.2) = false := by
    rw [List.any_eq_false]
    intro p hp
    rw [hfree p hp]
    exact Bool.false_ne_true
  refine congrArg Host.Outcome.next (unlessHeld_eq ((reqStart_new h (decide_eq_true heng) _).trans ?_) hw)
  simp only [hreach, hspans, hopen, decide_eq_false (Nat.not_le.mpr hroom), hread, Bool.not_true, Bool.or_self, Bool.false_eq_true,
    if_false, ne_eq, not_true_eq_false]

end Units

/-! ### VEIN (R226, R350) -/

/-- The words of a request's vein command. -/
def veinWords (r : HostReq) : List Word := (List.range 8).map (fun k => BitVec.ofNat 32 (leAt r.bytes (16 + 4 * k) 4))

section Vein

variable {s : State} {i port : Nat} {r : HostReq} (h : Safety.ReqNew s i 0x05 [(16, 32)] r) (hw : s.waited = false)
include h hw

theorem exec_reqVein_bad (hbad : vGood (veinWords r) = false) :
    exec (.reqVein (i, port)) s = .next (completeReq r.id .badDescriptor 0 [] s) := by
  have hbad' : (!vGood (veinWords r)) = true := by rw [hbad]; rfl
  exact congrArg Host.Outcome.next (unlessHeld_eq ((reqStart_new h rfl _).trans (if_pos hbad'))
    ((completeReq_waited ..).trans hw))

theorem exec_reqVein_forward (hgood : vGood (veinWords r) = true)
    (hslot : namesSlot (veinWords r) = true → ownsSeq (s.fn r.fn) (vSlot (veinWords r)) = true)
    (hpf : bits 7 0 (vw (veinWords r) 0) = 0x18 → r.fn = 0) (hacq : bits 7 0 (vw (veinWords r) 0) ≠ 0x11)
    (hrel : bits 7 0 (vw (veinWords r) 0) ≠ 0x12) (hdpas : ∀ d ∈ veinDpas (veinWords r), reachable s r.fn d.1 d.2 = true)
    (hpages : ∀ id ∈ veinPages (veinWords r), pageOut s r.fn id = false) (hopen : writesOpen s r.fn = false) (hport : port < 8)
    (hroom : (s.vport port).queue.length < 32) (hring : ringFull (s.vport port) = false) :
    exec (.reqVein (i, port)) s = .next (veinForward port r (veinWords r) s) := by
  have hmine : (namesSlot (veinWords r) && !ownsSeq (s.fn r.fn) (vSlot (veinWords r))) = false := by
    cases hn : namesSlot (veinWords r) with
    | false => rfl
    | true => rw [hslot hn]; rfl
  have hadmin : ¬ (bits 7 0 (vw (veinWords r) 0) = 0x18 ∧ r.fn ≠ 0) := fun hbad => hbad.2 (hpf hbad.1)
  have hfindDpa : (veinDpas (veinWords r)).find? (fun d => !reachable s r.fn d.1 d.2) = none := by
    rw [List.find?_eq_none]
    intro d hd
    rw [hdpas d hd]
    exact Bool.false_ne_true
  have hfindPage : (veinPages (veinWords r)).find? (pageOut s r.fn) = none := by
    rw [List.find?_eq_none]
    intro id hid
    rw [hpages id hid]
    exact Bool.false_ne_true
  have hgo : ¬ (writesOpen s r.fn = true ∨ 8 ≤ port ∨ 32 ≤ (s.vport port).queue.length ∨ ringFull (s.vport port) = true) := by
    rw [hopen, hring]
    simp only [Bool.false_eq_true, or_false, false_or]
    omega
  refine congrArg Host.Outcome.next (unlessHeld_eq ((reqStart_new h rfl _).trans ?_) hw)
  rw [← veinWords]
  simp only [hgood, hmine, hadmin, hfindDpa, hfindPage, if_neg hgo, hacq, hrel, Bool.not_true, Bool.false_eq_true, or_self, if_false]

end Vein

/-! ### Completion records (R357 to R360) -/

/-- The record of a request whose function's ring is enabled and whose count does not signal yet. -/
theorem completeReq_recorded {s : State} {id : Nat} {r : HostReq} (st : Status) (result : Nat) (detail : List Byte)
    (hfind : s.hif.reqs.find? (fun q => q.id == id) = some r) (hlive : r.dead = false) (hen : (s.fn r.fn).cqEn = true)
    (hbus : (s.fn r.fn).hold = false) :
    completeReq id st result detail s = cqPut r.fn (cqRecord r st result detail)
      { s with hif := { s.hif with reqs := s.hif.reqs.filter (fun q => q.id != id) } } := by
  have hen' : (!(s.fn r.fn).cqEn) = false := by rw [hen]; rfl
  simp only [completeReq, hfind, hlive, Bool.false_eq_true, if_false]
  exact (if_neg (Bool.eq_false_iff.mp hen')).trans (if_neg (Bool.eq_false_iff.mp hbus))

/-- A record that does not reach the ring's count is written and signals nothing. -/
theorem cqPut_unsignalled {s : State} {f : Nat} (rec : List Byte) (hfew : (s.fn f).unsig + 1 < max 1 (s.fn f).modCount) :
    (cqPut f rec s).hif = s.hif
    ∧ (cqPut f rec s).out = .dmaWrite f ((s.fn f).cqBase + 32 * (s.fn f).tail) (listSet rec 6 (BitVec.ofNat 8 (s.fn f).phase)) :: s.out
    ∧ ((cqPut f rec s).fn f).outstanding = (s.fn f).outstanding - 1
    ∧ ((cqPut f rec s).fn f).tail = if (s.fn f).ringSize ≤ (s.fn f).tail + 1 then 0 else (s.fn f).tail + 1 := by
  simp only [cqPut, decide_eq_false (Nat.not_le.mpr hfew), Bool.false_eq_true, if_false, decide_eq_true_eq, State.fn_setFn, and_true]
  exact ⟨rfl, rfl⟩

/-- Settles O39: the rule of each operation and outcome. -/
theorem hostRequests : Obligations.HostRequests := by
  unfold Obligations.HostRequests
  refine ⟨?_, ?_, ?_, ?_, ?_, ?_, ?_, ?_, ?_, ?_⟩
  · intro s i r h
    exact exec_reqNop h
  · intro s i r hlist hop hfresh hclean hdeny
    exact exec_reqNop_denied hlist hop hfresh hclean hdeny
  · intro s i r h hgood
    exact ⟨fun a w => exec_reqCopy_denied h hgood, exec_reqCopy_move h hgood, exec_reqCopy_read h hgood⟩
  · intro s i off r data hlist hop hstage hne hend hnew hfree w hw
    exact exec_dmaReadCompletion hlist hop hstage hne hend hnew hfree hw
  · intro s i r hlist hop hstage hdue
    exact exec_copyReadTimeout hlist hop hstage hdue
  · intro s i r h hflag himg hcrew hreach hpresent hidle hopen
    exact exec_reqCrewLoad h hflag himg hcrew hreach hpresent hidle hopen
  · intro s i r h hhost hhere hopen hroom
    exact exec_reqFaceLaunch h hhost hhere hopen hroom
  · intro s i r h heng a hreach hfree hroom hread d hopen hw
    exact exec_reqMillShard h heng hreach hfree hroom hread hopen hw
  · intro s i port r h hw ws op
    exact ⟨exec_reqVein_bad h hw, exec_reqVein_forward h hw⟩
  · intro s id r st result detail hfind hlive hen hbus hfew
    have hput := cqPut_unsignalled (s := { s with hif := { s.hif with reqs := s.hif.reqs.filter (fun q => q.id != id) } })
      (f := r.fn) (cqRecord r st result detail) hfew
    rw [← completeReq_recorded st result detail hfind hlive hen hbus] at hput
    obtain ⟨hhif, hout, hcount, htail⟩ := hput
    exact ⟨_, rfl, congrArg Hif.reqs hhif, hout, hcount, htail⟩

end Sys2Proof.Machine
end

section
/-! Thermal control (R416 to R427, R432 to R434): what the rules of an evaluation leave of the model's values, the clamps of a
cause, STOPPED and the restart; then the statement about them (O44). -/

namespace Sys2Proof.Machine

/-- What no step of a pass changes, the pass does not change. -/
theorem foldl_unchanged {α β : Type} (p : State → β) (f : State → α → State) (h : ∀ s a, p (f s a) = p s) (l : List α)
    (s : State) : p (l.foldl f s) = p s := by
  induction l generalizing s with
  | nil => rfl
  | cons a l ih => exact (ih (f s a)).trans (h s a)

theorem setReasons_thm (g : Nat) (f : Gal → Gal) (s : State) : (setReasons g f s).thm = s.thm := by
  obtain ⟨p, x, y, z, h⟩ := setReasons_frame g f s
  rw [h]

theorem setDuty_frame (d : Nat) (forced : Bool) (s : State) :
    ∃ o, setDuty d forced s = { s with thm := { s.thm with duty := d, forced := forced }, out := o } := by
  dsimp only [setDuty]
  split <;> exact ⟨_, rfl⟩

/-! ### The model's values (R420) -/

/-- Whether the model has been evaluated, and each gallery's value of it. -/
def modelView (s : State) : Bool × (Nat → Int) := (s.thm.evaluated, fun g => (s.gal g).model)

theorem modelView_congr {s t : State} (hthm : t.thm.evaluated = s.thm.evaluated) (hgal : ∀ g, (t.gal g).model = (s.gal g).model) :
    modelView t = modelView s :=
  Prod.ext hthm (funext hgal)

theorem modelView_setGal (s : State) (g : Nat) {x : Gal} (h : x.model = (s.gal g).model) :
    modelView (s.setGal g x) = modelView s := by
  refine modelView_congr rfl (fun k => ?_)
  rw [gal_setGal_if]
  split
  · next e => rw [h, e]
  · rfl

theorem modelView_logEvent (b i c : Nat) (d : List (Nat × Nat × Nat)) (s : State) :
    modelView (logEvent b i c d s) = modelView s :=
  modelView_congr (congrArg Thm.evaluated (logEvent_thm b i c d s)) (fun g => congrArg Gal.model (logEvent_gal b i c d s g))

theorem modelView_setReasons (g : Nat) {f : Gal → Gal} (hf : ∀ x, (f x).model = x.model) (s : State) :
    modelView (setReasons g f s) = modelView s := by
  refine modelView_congr (congrArg Thm.evaluated (setReasons_thm g f s)) (fun k => ?_)
  obtain ⟨_, _, _, _, _, _, _, _, _, hk⟩ := setReasons_gal g f s k
  rw [hk]
  split
  · next e => rw [hf, e]
  · rfl

theorem modelView_governAll (s : State) : modelView (governAll s) = modelView s := by
  refine modelView_congr (congrArg Thm.evaluated (governAll_thm s)) (fun g => ?_)
  obtain ⟨-, hgal⟩ := OnlyRaises.governAll s
  obtain ⟨_, _, _, h⟩ := hgal g
  rw [h]

theorem modelView_setCause (g key : Nat) (c : Cause) (s : State) : modelView (setCause g key c s) = modelView s :=
  modelView_setGal s g rfl

theorem modelView_dropCause (g key : Nat) (s : State) : modelView (dropCause g key s) = modelView s :=
  modelView_setGal s g rfl

theorem modelView_layerFlag (s : State) (n : Nat) : modelView (layerFlag s n) = modelView s := by
  unfold layerFlag
  extract_lets s1 t low q u w v
  have hsince : modelView s1 = modelView s := foldl_unchanged modelView _ (by exact fun s g => modelView_setGal s g rfl) _ s
  split
  · split
    · exact (foldl_unchanged modelView _ (by exact fun s g => modelView_dropCause g 200 s) _ u).trans hsince
    · exact hsince
  · split
    · exact ((foldl_unchanged modelView _ (by exact fun s g => modelView_setCause g 200 _ s) _ v).trans (modelView_logEvent ..)).trans hsince
    · exact hsince

theorem modelView_clampEpisode (g key : Nat) (v : Option Int) (onset : Int) (s : State) :
    modelView (clampEpisode g key v onset s) = modelView s := by
  unfold clampEpisode
  split
  · dsimp only
    split
    · exact modelView_setCause ..
    · exact (modelView_logEvent ..).trans (modelView_setCause ..)
  · dsimp only
    split
    · exact modelView_setCause ..
    · rfl

theorem modelView_parkEpisode (g key : Nat) (v : Option Int) (s : State) : modelView (parkEpisode g key v s) = modelView s := by
  unfold parkEpisode
  dsimp only
  split
  · exact (modelView_logEvent ..).trans (modelView_setCause ..)
  · split
    · exact modelView_setCause ..
    · rfl

theorem modelView_causeStep (g key : Nat) (v : Option Int) (onset end_ hot : Int) (s : State) :
    modelView (causeStep g key v onset end_ hot s) = modelView s := by
  unfold causeStep
  dsimp only
  split
  · rfl
  · exact (modelView_parkEpisode ..).trans ((modelView_clampEpisode ..).trans (modelView_setCause ..))

theorem modelView_galResponses (s : State) (g : Nat) : modelView (galResponses s g) = modelView s := by
  unfold galResponses
  extract_lets t x s1 s2 s3
  have h1 : modelView s1 = modelView s := modelView_setGal s g rfl
  have h2 : modelView s2 = modelView s1 := by
    unfold s2
    split
    · exact modelView_causeStep ..
    · rfl
  have h3 : modelView s3 = modelView s2 := foldl_unchanged modelView _ (by exact fun s n => modelView_causeStep ..) _ s2
  exact (modelView_setReasons g (by exact fun x => rfl) s3).trans (h3.trans (h2.trans h1))

theorem modelView_dramRefresh (s : State) (k : Nat) : modelView (dramRefresh s k) = modelView s := by
  unfold dramRefresh
  extract_lets ns t q
  split
  · split <;> rfl
  · split
    · exact modelView_logEvent ..
    · rfl

theorem modelView_baseWarn (s : State) (n : Nat) : modelView (baseWarn s n) = modelView s := by
  unfold baseWarn
  dsimp only
  split
  · rfl
  · split
    · split
      · rfl
      · exact modelView_logEvent ..
    · rfl

theorem modelView_setDuty (d : Nat) (forced : Bool) (s : State) : modelView (setDuty d forced s) = modelView s := by
  obtain ⟨o, h⟩ := setDuty_frame d forced s
  rw [h]
  rfl

theorem modelView_forecastRun (traffic : List Nat) (base : Nat) (s : State) :
    modelView (forecastRun traffic base s) = modelView s := by
  unfold forecastRun
  split
  · rfl
  · extract_lets s1 old ins p h s2
    have h1 : modelView s1 = modelView s := foldl_unchanged modelView _ (by exact fun s g => modelView_setGal s g rfl) _ s
    have h2 : modelView s2 = modelView s1 := by
      unfold s2
      split
      · rfl
      · exact modelView_setDuty ..
    refine (foldl_unchanged modelView _ (fun s g => ?_) _ s2).trans (h2.trans h1)
    split
    · exact modelView_setCause ..
    · rfl

theorem Tbl.look_map_range {α : Type} (d : α) (f : Nat → α) {n k : Nat} (hk : k < n) :
    Tbl.look d ((List.range n).map (fun i => (i, f i))) k = f k := by
  have hlook : ∀ l : List Nat, k ∈ l → Tbl.look d (l.map (fun i => (i, f i))) k = f k := by
    intro l hl
    induction l with
    | nil => exact absurd hl List.not_mem_nil
    | cons j l ih =>
      rw [List.map_cons, Tbl.look]
      split
      · next e => rw [e]
      · next e => exact ih ((List.mem_cons.mp hl).resolve_left (Ne.symm e))
  exact hlook _ (List.mem_range.mpr hk)

/-- A gallery's node of the model. -/
theorem galNode_lt {g : Nat} (hg : g < 32) : 8 * compPos (g / 8) + g % 8 < 144 := by
  unfold compPos
  omega

/-- The evaluation of the model gives each gallery its node's value. -/
theorem modelRun_model (traffic : List Nat) (base : Nat) (s : State) {g : Nat} (hg : g < 32) :
    ((modelRun traffic base s).gal g).model
      = Config.thermalNode s.chr.thermalModel ((List.range 144).map (fun i => Tbl.look 0 s.thm.nodes i))
          (modelInputs s traffic base) (8 * compPos (g / 8) + g % 8) := by
  unfold modelRun
  extract_lets old ins ns x s1
  obtain ⟨gs, hgs, hgal⟩ := foldl_setGal (fun g y => { y with model := Tbl.look 0 ns (8 * compPos (g / 8) + g % 8) }) (List.range 32)
    List.nodup_range s1
  rw [hgs, hgal, if_pos (List.mem_range.mpr hg)]
  exact Tbl.look_map_range 0 (Config.thermalNode s.chr.thermalModel old ins) (galNode_lt hg)

theorem modelRun_evaluated (traffic : List Nat) (base : Nat) (s : State) : (modelRun traffic base s).thm.evaluated = true := by
  unfold modelRun
  extract_lets old ins ns x s1
  exact foldl_unchanged (fun s => s.thm.evaluated) _ (by exact fun s g => rfl) _ s1

/-- An evaluation's rules leave the model's values as it gave them. -/
theorem exec_modelEvaluate {s : State} (hpow : s.brg.powered = true) (hfm : s.brg.foreman = true) :
    ∃ t, exec .modelEvaluate s = .next t
      ∧ modelView t = modelView (modelRun (modelMeasures s).2.1 (modelMeasures s).2.2 (modelMeasures s).1) := by
  have hgo : ¬ (s.brg.powered = false ∨ s.brg.foreman = false) := by
    rw [hpow, hfm]
    decide
  refine ⟨_, congrArg Host.Outcome.next (if_neg hgo), ?_⟩
  extract_lets m s1 s2 s3 s4 s5
  have h2 : modelView s2 = modelView s1 := foldl_unchanged modelView _ modelView_layerFlag _ s1
  have h3 : modelView s3 = modelView s2 := foldl_unchanged modelView _ modelView_galResponses _ s2
  have h4 : modelView s4 = modelView s3 := foldl_unchanged modelView _ modelView_dramRefresh _ s3
  have h5 : modelView s5 = modelView s4 := foldl_unchanged modelView _ (fun s i => modelView_baseWarn s (192 + i)) _ s4
  calc modelView (governAll (forecastRun m.2.1 m.2.2 s5))
      = modelView (forecastRun m.2.1 m.2.2 s5) := modelView_governAll _
    _ = modelView s5 := modelView_forecastRun ..
    _ = modelView s1 := h5.trans (h4.trans (h3.trans h2))

/-! ### Canaries (R417) -/

/-- The rules of a pair follow a conversion of one of its diodes. -/
def canaryRules (n : Nat) (s : State) : State := if 240 ≤ n then pairRules ((n - 240) / 2) s else s

section Canary

variable {s : State} {n : Nat} (hpow : s.brg.powered = true) (hn : n < 624) (hlive : (s.can n).failed = false)
include hpow hn hlive

theorem canary_open : ¬ (s.brg.powered = false ∨ 623 < n ∨ (s.can n).failed = true) := by
  rw [hpow, hlive]
  simp only [Bool.true_eq_false, Bool.false_eq_true, false_or, or_false]
  omega

theorem exec_canaryConvert_good {v : Int} (hlow : -320 ≤ v) (hhigh : v ≤ 1200) :
    exec (.canaryConvert n (some v)) s
      = .next (canaryRules n (s.setCan n { s.can n with reading := v, have_ := true, bad := 0 })) := by
  refine congrArg Host.Outcome.next ((if_neg (canary_open hpow hn hlive)).trans ?_)
  simp only [decide_eq_true hlow, decide_eq_true hhigh, Bool.and_self, if_true, Option.getD_some]
  rfl

theorem exec_canaryConvert_bad (hbad : (s.can n).bad ≠ 2) :
    exec (.canaryConvert n none) s = .next (canaryRules n (s.setCan n { s.can n with bad := (s.can n).bad + 1 })) := by
  refine congrArg Host.Outcome.next ((if_neg (canary_open hpow hn hlive)).trans ?_)
  simp only [Bool.false_eq_true, if_false, if_neg hbad]
  rfl

theorem exec_canaryConvert_fails (hbad : (s.can n).bad = 2) :
    exec (.canaryConvert n none) s = .next (canaryRules n (canFail n s)) := by
  refine congrArg Host.Outcome.next ((if_neg (canary_open hpow hn hlive)).trans ?_)
  simp only [Bool.false_eq_true, if_false, if_pos hbad]
  rfl

/-! ### Hard trips and STOPPED (R426, R432, R433) -/

theorem exec_hardTrip_trips {v : Int} (hv : tripAt n ≤ v) :
    exec (.hardTrip n v) s = .next (stopStack 4 0x0503
      (logEvent 0x04 0 0x0503 [(0, 1, sensorPos n), (2, 2, sensorCode n), (4, 2, tc 16 v)])
      { s with thm := { s.thm with tripAsserted := setAdd n s.thm.tripAsserted } }) :=
  congrArg Host.Outcome.next ((if_neg (Int.not_lt.mpr hv)).trans (if_pos ⟨hpow, hn, hlive⟩))

end Canary

theorem exec_hardTrip_releases {s : State} {n : Nat} {v : Int} (hv : v < tripAt n) :
    exec (.hardTrip n v) s = .next { s with thm := { s.thm with tripAsserted := setDel n s.thm.tripAsserted } } :=
  congrArg Host.Outcome.next (if_pos hv)

theorem channel_eq {s : State} (hch : s.brg.charterDone = true) (hair : s.chr.air = false) : s.channel = true := by
  rw [State.channel, hch, hair]
  rfl

theorem held_of_le {now d t0 : Nat} {t : Option Nat} (ht : t = some t0) (hdue : t0 + d ≤ now) : held now d t = true := by
  rw [ht]
  exact decide_eq_true hdue

section Channel

variable {s : State} (hch : s.brg.charterDone = true) (hair : s.chr.air = false)
include hch hair

theorem exec_flowOkLow (hen : s.chr.flowOkEn = true) : exec .flowOkLow s = .next (stopStack 1 0x0509 logCoolantStop s) :=
  congrArg Host.Outcome.next (if_pos (by rw [channel_eq hch hair, hen]; rfl))

theorem exec_dpCollapse {t0 : Nat} (ht : s.thm.dpLowSince = some t0) (hdue : t0 + 1000000 ≤ s.now) :
    exec .dpCollapse s = .next (stopStack 2 0x0509 logCoolantStop s) :=
  congrArg Host.Outcome.next (if_pos (by rw [channel_eq hch hair, held_of_le ht hdue]; rfl))

end Channel

/-- In STOPPED a cause only joins those before. -/
theorem stopStack_stopped {s : State} (h : s.thm.stopped = true) (b code : Nat) (ev : State → State) :
    stopStack b code ev s = { s with thm := { s.thm with cause := Nat.lor s.thm.cause b } } := by
  have hthm : { s.thm with stopped := true, cause := Nat.lor s.thm.cause b } = { s.thm with cause := Nat.lor s.thm.cause b } :=
    congrArg (fun x => { s.thm with stopped := x, cause := Nat.lor s.thm.cause b }) h.symm
  exact (if_pos h).trans (congrArg (fun x => { s with thm := x }) hthm)

/-! ### Clamps that rise (R425) -/

theorem Tbl.put_single {α : Type} (k : Nat) (a b : α) : Tbl.put [(k, a)] k b = [(k, b)] := by
  rw [Tbl.put, if_neg (Nat.lt_irrefl k), if_pos rfl]

theorem exec_thermalClampRise {s : State} {g key : Nat} {c : Cause} (hg : g < 32) (hfm : s.brg.foreman = true)
    (hc : (s.gal g).causes = [(key, c)]) (hrise : mayRise s g key c = true) :
    exec (.thermalClampRise g) s = .next (govern g (s.setGal g { s.gal g with causes := [(key,
      { c with pt := c.pt + 1, riseAt := if c.pt = 15 then none else some s.now })] })) := by
  have hgo : ¬ (31 < g ∨ s.brg.foreman = false) := by
    rw [hfm]
    simp only [Bool.true_eq_false, or_false]
    omega
  refine congrArg Host.Outcome.next ((if_neg hgo).trans (congrArg (govern g) ?_))
  rw [hc, List.foldl_cons, List.foldl_nil, if_pos hrise, setCause, hc, Tbl.put_single]

/-! ### The restart (R434) -/

/-- Whether the stack is stopped, and what waits to be served. -/
def stopView (s : State) : Bool × List (Nat × Held) × List (Nat × Nat × FLaunch) := (s.thm.stopped, s.heldReqs, s.launchWait)

theorem stopView_seamExit (s : State) (n : Nat) : stopView (seamExit n s) = stopView s := by
  dsimp only [seamExit]
  split
  · split <;> rfl
  · rfl

theorem stopView_millResume (t0 : Nat) (s : State) : stopView (millResume t0 s) = stopView s := by
  unfold millResume
  exact foldl_unchanged stopView _ (by exact fun s e => rfl) _ s

theorem stopView_aditStart (a : Nat) (s : State) : stopView (aditStart a s) = stopView s := by
  unfold aditStart
  split <;> rfl

theorem stopView_driveSync (s : State) : stopView (driveSync s) = stopView s := by
  dsimp only [driveSync]
  split <;> rfl

theorem stopView_governAll (s : State) : stopView (governAll s) = stopView s := by
  obtain ⟨⟨_, _, _, _, h⟩, -⟩ := OnlyRaises.governAll s
  rw [h]
  rfl

theorem serveHeld_none {s : State} (h : s.heldReqs = []) (k : s.launchWait = []) : serveHeld s = s :=
  if_pos ⟨h, k⟩

/-- A restart with nothing held and no launch waiting leaves STOPPED. -/
theorem restartStack_runs {s : State} (hheld : s.heldReqs = []) (hlaunch : s.launchWait = []) :
    (restartStack s).thm.stopped = false := by
  unfold restartStack
  extract_lets t0 b s1 s2 x s3 s4 s5 q y s6
  have h2 : stopView s2 = stopView s1 := foldl_unchanged stopView _ (by exact stopView_seamExit) _ s1
  clear_value s2
  have h3 : stopView s3 = (false, s2.heldReqs, s2.launchWait) :=
    stopView_millResume t0 { s2 with thm := { x with stopped := false, cause := 0 } }
  have h4 : stopView s4 = stopView s3 := by
    refine foldl_unchanged stopView _ (fun s a => ?_) _ s3
    split
    · exact stopView_aditStart a s
    · rfl
  have h5 : stopView s5 = stopView s4 := foldl_unchanged stopView _ (by exact fun s g => rfl) _ s4
  clear_value s3 s4 s5 q
  have hend : stopView (driveSync (governAll s6)) = (false, s2.heldReqs, s2.launchWait) :=
    (stopView_driveSync _).trans ((stopView_governAll s6).trans (h5.trans (h4.trans h3)))
  obtain ⟨hstop, hkeep⟩ := Prod.mk.inj hend
  obtain ⟨hrest, hwait⟩ := Prod.mk.inj hkeep
  obtain ⟨hrest2, hwait2⟩ := Prod.mk.inj (Prod.mk.inj h2).2
  rw [serveHeld_none (hrest.trans (hrest2.trans hheld)) (hwait.trans (hwait2.trans hlaunch)), hstop]

theorem restartFails_fresh (s : State) (flowOk : Bool) : restartFails s.fresh.2 flowOk = restartFails s flowOk := rfl

section Restart

variable {s : State} {r : Requester} (hr : reachesRegs r = true)
include hr

theorem exec_thmRestart_running (hrun : s.thm.stopped = false) : exec (.thmRestart r) s = .next s := by
  refine congrArg Host.Outcome.next ((if_pos hr).trans (if_pos ?_))
  rw [hrun]
  rfl

/-- The level of FLOW_OK is read where it counts. -/
def flowOkRead (s : State) : State := if !s.chr.air && s.chr.flowOkEn then s.fresh.2 else s

omit hr in
theorem restartFails_flowOkRead (s : State) (flowOk : Bool) : restartFails (flowOkRead s) flowOk = restartFails s flowOk := by
  unfold flowOkRead
  split
  · exact restartFails_fresh s flowOk
  · rfl

/-- The state once a restart's conditions are read and logged. -/
def restartLogged (why : Nat) (s : State) : State :=
  logEvent 0x04 0 0x050A [(0, 1, if why = 0 then 0 else 1), (1, 1, why)] (flowOkRead s)

theorem exec_thmRestart_stopped (hstop : s.thm.stopped = true) {why : Nat} (hwhy : why = restartFails s (s.fresh.1 % 2 == 1)) :
    exec (.thmRestart r) s = .next (if why = 0 then restartStack (restartLogged why s)
      else { restartLogged why s with thm := { (restartLogged why s).thm with refused := true } }) := by
  have hgo : ¬ ((!s.thm.stopped) = true) := by
    rw [hstop]
    decide
  rw [← restartFails_flowOkRead] at hwhy
  subst hwhy
  exact congrArg Host.Outcome.next ((if_pos hr).trans (if_neg hgo))

end Restart

theorem restartLogged_held (why : Nat) (s : State) :
    (restartLogged why s).heldReqs = s.heldReqs ∧ (restartLogged why s).launchWait = s.launchWait := by
  rw [restartLogged, logEvent_heldReqs, logEvent_launchWait, flowOkRead]
  split <;> exact ⟨rfl, rfl⟩

/-- Settles O44: each rule of the thermal control by itself, and that the model's values outlast an evaluation's other rules. -/
theorem thermalControl : Obligations.ThermalControl := by
  unfold Obligations.ThermalControl
  refine ⟨?_, ?_, ?_, ?_, ?_, ?_, ?_, ?_⟩
  · intro s n hpow hn hlive rules
    exact ⟨fun v => exec_canaryConvert_good hpow hn hlive, exec_canaryConvert_bad hpow hn hlive,
      exec_canaryConvert_fails hpow hn hlive⟩
  · intro s hpow hfm m
    obtain ⟨t, hexec, hview⟩ := exec_modelEvaluate hpow hfm
    obtain ⟨heval, hmodel⟩ := Prod.mk.inj hview
    refine ⟨t, hexec, heval.trans (modelRun_evaluated ..), fun g hg => ?_⟩
    exact (congrFun hmodel g).trans (modelRun_model m.2.1 m.2.2 m.1 hg)
  · intro s g key c hg hfm hc hrise
    exact exec_thermalClampRise hg hfm hc hrise
  · intro s n v hv
    exact exec_hardTrip_releases hv
  · intro s n v hpow hn hlive hv
    exact exec_hardTrip_trips hpow hn hlive hv
  · intro s hch hair
    exact ⟨exec_flowOkLow hch hair, fun t0 => exec_dpCollapse hch hair⟩
  · intro s b code ev hstop
    exact stopStack_stopped hstop b code ev
  · intro s r hr
    refine ⟨exec_thmRestart_running hr, fun hstop => ?_⟩
    intro u why s1
    have hexec := exec_thmRestart_stopped hr hstop (why := why) rfl
    obtain ⟨hheld, hlaunch⟩ := restartLogged_held why s
    refine ⟨fun hwhy => hexec.trans (congrArg _ (if_neg hwhy)), fun hwhy => ⟨hexec.trans (congrArg _ (if_pos hwhy)), fun h k => ?_⟩⟩
    exact restartStack_runs (hheld.trans h) (hlaunch.trans k)

end Sys2Proof.Machine
end

section
/-! Cooling (R428 to R436): coolant samples and the flow's source, the flow levels, the valve and PLDM monitoring; then the
statement about them (O45). -/

namespace Sys2Proof.Machine

/-! ### Samples and pulses (R428, R430) -/

/-- The flow's report changes the flow and how long it has held against the levels. -/
theorem flowTake_frame (s : State) :
    ∃ f b a, flowTake s = { s with thm := { s.thm with flow := f, belowSince := b, aboveSince := a } } :=
  ⟨_, _, _, rfl⟩

section Channel

variable {s : State} (hch : s.brg.charterDone = true) (hair : s.chr.air = false)
include hch hair

theorem exec_coolantSample (inlet outlet : Int) (dp : Nat) :
    exec (.coolantSample inlet outlet dp) s = .next (flowTake { s with thm := { s.thm with
      inlet := inlet, outlet := outlet, dp := dp
      dpLowSince := since s.now (decide (4 * dp < s.chr.dpNom)) s.thm.dpLowSince } }) :=
  congrArg Host.Outcome.next (if_pos (channel_eq hch hair))

theorem exec_flowPulse (hflow : s.chr.auxFlow ≠ none) :
    exec .flowPulse s = .next { s with thm := { s.thm with pulses := s.thm.pulses + 1, lastPulse := s.now } } :=
  congrArg Host.Outcome.next (if_pos (by rw [channel_eq hch hair, Option.isSome_iff_ne_none.mpr hflow]; rfl))

/-- The window of pulses moved on. -/
def shiftWindow (s : State) : State :=
  { s with thm := { s.thm with pulseWin := (s.thm.pulses :: s.thm.pulseWin).take 10, pulses := 0 } }

theorem exec_flowWindowUpdate (hsrc : s.chr.flowSrcPressure = false) (hlive : s.thm.pulseFailed = false) :
    exec .flowWindowUpdate s = .next (flowTake (if s.thm.lastPulse + 100000000 ≤ s.now ∧ s.chr.dpNom < 2 * s.thm.dp then
      logEvent 0x04 0 0x0506 [(0, 1, 4)]
        { shiftWindow s with thm := { (shiftWindow s).thm with pulseFailed := true } }
      else shiftWindow s)) :=
  congrArg Host.Outcome.next (if_pos ⟨channel_eq hch hair, hsrc, hlive⟩)

end Channel

/-! ### Flow levels (R430, R431) -/

/-- The level and each gallery's coolant clamp. -/
def levelView (s : State) : Nat × (Nat → Nat) := (s.thm.level, fun g => (s.gal g).coolantClamp)

theorem levelView_congr {s t : State} (hlevel : t.thm.level = s.thm.level)
    (hgal : ∀ g, (t.gal g).coolantClamp = (s.gal g).coolantClamp) : levelView t = levelView s :=
  Prod.ext hlevel (funext hgal)

theorem levelView_setReasons (g : Nat) {f : Gal → Gal} (hf : ∀ x, (f x).coolantClamp = x.coolantClamp) (s : State) :
    levelView (setReasons g f s) = levelView s := by
  refine levelView_congr (congrArg Thm.level (setReasons_thm g f s)) (fun k => ?_)
  obtain ⟨_, _, _, _, _, _, _, _, _, hk⟩ := setReasons_gal g f s k
  rw [hk]
  split
  · next e => rw [hf, e]
  · rfl

/-- A gallery's coolant reason after a change of the reasons of one gallery. -/
theorem setReasons_rCoolant (g : Nat) (f : Gal → Gal) (s : State) (h : Nat) :
    ((setReasons g f s).gal h).rCoolant = if h = g then (f (s.gal g)).rCoolant else (s.gal h).rCoolant := by
  obtain ⟨_, _, _, _, _, _, _, _, _, hk⟩ := setReasons_gal g f s h
  rw [hk]
  split <;> rfl

/-- The galleries of a list that are not kept get their coolant reason. -/
def parkUnkept (l : List Nat) (s : State) : State :=
  l.foldl (fun s g => if bit g s.chr.coolKeep then s else setReasons g (fun x => { x with rCoolant := true }) s) s

theorem levelView_parkUnkept (l : List Nat) (s : State) : levelView (parkUnkept l s) = levelView s := by
  refine foldl_unchanged levelView _ (fun s g => ?_) l s
  split
  · rfl
  · exact levelView_setReasons g (by exact fun x => rfl) s

theorem setReasons_chr (g : Nat) (f : Gal → Gal) (s : State) : (setReasons g f s).chr = s.chr := by
  obtain ⟨p, x, y, z, h⟩ := setReasons_frame g f s
  rw [h]

theorem parkUnkept_rCoolant {h : Nat} (l : List Nat) {s : State} (hkeep : bit h s.chr.coolKeep = false)
    (hs : h ∈ l ∨ (s.gal h).rCoolant = true) : ((parkUnkept l s).gal h).rCoolant = true := by
  induction l generalizing s with
  | nil => exact hs.resolve_left List.not_mem_nil
  | cons g l ih =>
    rw [List.mem_cons, or_assoc] at hs
    rw [parkUnkept, List.foldl_cons]
    by_cases hg : bit g s.chr.coolKeep = true
    · have hne : h ≠ g := by
        rintro rfl
        exact Bool.false_ne_true (hkeep.symm.trans hg)
      rw [if_pos hg]
      exact ih hkeep (hs.resolve_left hne)
    · rw [if_neg hg]
      refine ih (by rw [setReasons_chr]; exact hkeep) ?_
      rw [setReasons_rCoolant]
      split
      · exact .inr rfl
      · next hne => exact hs.resolve_left hne

theorem rCoolant_governAll (s : State) (g : Nat) : ((governAll s).gal g).rCoolant = (s.gal g).rCoolant := by
  obtain ⟨-, hgal⟩ := OnlyRaises.governAll s
  obtain ⟨_, _, _, h⟩ := hgal g
  rw [h]

theorem levelView_governAll (s : State) : levelView (governAll s) = levelView s := by
  refine levelView_congr (congrArg Thm.level (governAll_thm s)) (fun g => ?_)
  obtain ⟨-, hgal⟩ := OnlyRaises.governAll s
  obtain ⟨_, _, _, h⟩ := hgal g
  rw [h]

theorem levelView_setDuty (d : Nat) (forced : Bool) (s : State) : levelView (setDuty d forced s) = levelView s := by
  obtain ⟨o, h⟩ := setDuty_frame d forced s
  rw [h]
  rfl

theorem levelView_logEvent (b i c : Nat) (d : List (Nat × Nat × Nat)) (s : State) :
    levelView (logEvent b i c d s) = levelView s :=
  levelView_congr (congrArg Thm.level (logEvent_thm b i c d s)) (fun g => congrArg Gal.coolantClamp (logEvent_gal b i c d s g))

/-- A level in force, and the coolant clamp it sets. -/
theorem levelView_levelTake (old new : Nat) (s : State) :
    (levelTake old new s).thm.level = new
      ∧ ∀ g, g < 32 → ((levelTake old new s).gal g).coolantClamp = if 2 ≤ new then 8 else 16 := by
  unfold levelTake
  extract_lets x s1 s2 y s3 z s4
  obtain ⟨gs, hgs, hgal⟩ := foldl_setGal (fun g y => { y with coolantClamp := if 2 ≤ new then 8 else 16 }) (List.range 32)
    List.nodup_range s1
  have h2 : levelView s2 = (new, fun g => if g ∈ List.range 32 then (if 2 ≤ new then 8 else 16) else (s1.gal g).coolantClamp) := by
    unfold s2
    rw [hgs]
    refine Prod.ext rfl (funext fun g => (congrArg Gal.coolantClamp (hgal g)).trans ?_)
    exact apply_ite Gal.coolantClamp ..
  clear_value s2
  have h3 : levelView s3 = levelView s2 := by
    unfold s3
    split
    · exact levelView_parkUnkept (List.range 32) { s2 with thm := { y with unparkQ := [] } }
    · split <;> rfl
  clear_value s3
  have h4 : levelView s4 = levelView s3 := by
    unfold s4
    split
    · exact levelView_setDuty ..
    · rfl
  obtain ⟨hlevel, hclamp⟩ := Prod.mk.inj (((levelView_governAll _).trans (levelView_logEvent ..)).trans (h4.trans (h3.trans h2)))
  exact ⟨hlevel, fun g hg => (congrFun hclamp g).trans (if_pos (List.mem_range.mpr hg))⟩

theorem setDuty_gal (d : Nat) (forced : Bool) (s : State) (g : Nat) : (setDuty d forced s).gal g = s.gal g := by
  obtain ⟨o, h⟩ := setDuty_frame d forced s
  rw [h]
  rfl

/-- Level 3 parks the galleries it does not keep. -/
theorem levelTake_parks (old : Nat) {s : State} {g : Nat} (hg : g < 32) (hkeep : bit g s.chr.coolKeep = false) :
    ((levelTake old 3 s).gal g).rCoolant = true := by
  unfold levelTake
  extract_lets x s1 s2 y s3 z s4
  have hchr : s2.chr = s.chr := foldl_unchanged State.chr _ (by exact fun s g => rfl) _ s1
  have h3 : (s3.gal g).rCoolant = true := by
    refine parkUnkept_rCoolant (List.range 32) ?_ (.inl (List.mem_range.mpr hg))
    exact (congrArg (fun c => bit g c.coolKeep) hchr).trans hkeep
  rw [rCoolant_governAll, logEvent_gal]
  exact (congrArg Gal.rCoolant (setDuty_gal 1024 true s3 g)).trans h3

section Level

variable {s : State} (hch : s.brg.charterDone = true) (hair : s.chr.air = false) {level : Nat}
include hch hair

theorem exec_flowLevel_due (hdeep : s.thm.level < level) (hdue : level = levelDue s) :
    exec (.flowLevel level) s = .next (levelTake s.thm.level level s) :=
  congrArg Host.Outcome.next (if_pos ⟨channel_eq hch hair, .inl ⟨hdeep, hdue⟩⟩)

theorem exec_flowLevel_left (hcur : s.thm.level = level + 1) (hfm : s.brg.foreman = true)
    (habove : held s.now 1000000000 s.thm.aboveSince = true) :
    exec (.flowLevel level) s = .next (levelTake s.thm.level level s) :=
  congrArg Host.Outcome.next (if_pos ⟨channel_eq hch hair, .inr ⟨hcur.symm, hfm, habove⟩⟩)

end Level

theorem exec_coolantUnparkTick {s : State} {g : Nat} {rest : List Nat} (hq : s.thm.unparkQ = g :: rest)
    (hrun : s.thm.stopped = false) :
    exec .coolantUnparkTick s = .next (setReasons g (fun x => { x with rCoolant := false })
      { s with thm := { s.thm with unparkQ := rest } }) := by
  change execCoolantUnparkTick s = _
  unfold execCoolantUnparkTick
  rw [hq]
  exact congrArg Host.Outcome.next (if_neg (Bool.eq_false_iff.mp hrun))

/-! ### The valve (R429) -/

theorem setDuty_out (d : Nat) (forced : Bool) (s : State) :
    (setDuty d forced s).out = if s.chr.auxValve.isSome then .valve d s.chr.valveHz :: s.out else s.out :=
  apply_ite State.out ..

theorem dutyOf_range {s : State} (hmin : s.chr.valveMin ≤ 1024) (v : Int) : s.chr.valveMin ≤ dutyOf s v ∧ dutyOf s v ≤ 1024 := by
  unfold dutyOf clampInt
  split
  · omega
  · split <;> omega

section Valve

variable {s : State} (hch : s.brg.charterDone = true) (hfm : s.brg.foreman = true) (hair : s.chr.air = false)
include hch hfm hair

/-- The valve is fully open at a flow level. -/
theorem exec_valveLoop_level (hlevel : s.thm.level ≠ 0) : exec .valveLoop s = .next (setDuty 1024 true s) := by
  change execValveLoop s = _
  simp only [execValveLoop, hch, hfm, hair, Bool.true_eq_false, Bool.false_eq_true, or_self, if_false,
    if_pos (show s.thm.level ≠ 0 ∨ s.thm.stopped = true from .inl hlevel)]

/-- With full flow and no level the loop sets the duty. -/
theorem exec_valveLoop_loop (hlevel : s.thm.level = 0) (hrun : s.thm.stopped = false)
    (hflow : 100 * (flowFrac s).2 ≤ (flowFrac s).1) :
    exec .valveLoop s = .next (setDuty (dutyOf s (Config.piDuty s.chr.gains s.thm.integ (s.thm.outlet - (s.chr.outSet : Nat)))) false
      { s with thm := { s.thm with integ := Config.piInteg s.chr.gains s.thm.integ (s.thm.outlet - (s.chr.outSet : Nat)) } }) := by
  have hloop : ¬ (s.thm.level ≠ 0 ∨ s.thm.stopped = true) := by
    rw [hlevel, hrun]
    decide
  change execValveLoop s = _
  simp only [execValveLoop, hch, hfm, hair, Bool.true_eq_false, Bool.false_eq_true, or_self, if_false, if_neg hloop,
    if_neg (Nat.not_lt.mpr hflow)]

end Valve

/-! ### PLDM monitoring (R420, R436) -/

theorem exec_pldmRequest_down {s : State} (hdown : smbUp s = false) (q : PldmQuery) : exec (.pldmRequest q) s = .next s := by
  have hno : (!smbUp s) = true := by
    rw [hdown]
    rfl
  exact congrArg Host.Outcome.next (if_pos hno)

theorem pldmSensor_none (s : State) {id : Nat} (hid : 11 < id) : pldmSensor s id = none := by
  unfold pldmSensor
  split
  case h_8 => exact if_neg (by omega)
  all_goals omega

section Pldm

variable {s : State} (hup : smbUp s = true)
include hup

theorem exec_pldmRequest_readSensor (id : Nat) : exec (.pldmRequest (.readSensor id)) s
    = .next (match pldmSensor s id with | some v => s.emit (.pldm 0 v) | none => s.emit (.pldm 0x80 0)) := by
  have hno : ¬ ((!smbUp s) = true) := by
    rw [hup]
    decide
  exact congrArg Host.Outcome.next (if_neg hno)

theorem exec_pldmRequest_setInletAir (t : Int) : exec (.pldmRequest (.setInletAir t)) s
    = .next { s with thm := { s.thm with airInlet := t, airReportAt := some s.now }, out := .pldm 0 0 :: s.out } := by
  have hno : ¬ ((!smbUp s) = true) := by
    rw [hup]
    decide
  exact congrArg Host.Outcome.next (if_neg hno)

end Pldm

theorem exec_inletReportTimeout {s : State} {t0 : Nat} (ht : s.thm.airReportAt = some t0) (hdue : t0 + 10000000000 ≤ s.now) :
    exec .inletReportTimeout s = .next { s with thm := { s.thm with airInlet := 320, airReportAt := none } } :=
  congrArg Host.Outcome.next (if_pos (held_of_le ht hdue))

/-- Settles O45: the rule of each command and outcome; a level's clamps and reasons outlast the rest of its responses. -/
theorem coolant : Obligations.Coolant := by
  unfold Obligations.Coolant
  refine ⟨?_, ?_, ?_, ?_, ?_⟩
  · intro s hch hair
    refine ⟨?_, exec_flowPulse hch hair, ?_, ?_, fun level => exec_flowLevel_left hch hair⟩
    · intro inlet outlet dp
      refine ⟨_, exec_coolantSample hch hair inlet outlet dp, rfl, rfl, rfl, fun hdp => ?_, fun hdp hnone => ?_, rfl, rfl⟩
      · exact if_neg (fun h => Nat.not_lt.mpr hdp (of_decide_eq_true h))
      · refine (if_pos (decide_eq_true hdp)).trans ?_
        rw [hnone]
        rfl
    · intro hsrc hlive
      refine ⟨_, exec_flowWindowUpdate hch hair hsrc hlive, ?_⟩
      by_cases hfail : s.thm.lastPulse + 100000000 ≤ s.now ∧ s.chr.dpNom < 2 * s.thm.dp
      · obtain ⟨f, b, a, hf⟩ := flowTake_frame (logEvent 0x04 0 0x0506 [(0, 1, 4)]
          { shiftWindow s with thm := { (shiftWindow s).thm with pulseFailed := true } })
        rw [if_pos hfail, hf, logEvent_thm]
        exact ⟨rfl, rfl, fun _ => hfail, fun _ => rfl⟩
      · rw [if_neg hfail]
        refine ⟨rfl, rfl, fun h => ?_, fun h => absurd h hfail⟩
        exact absurd (hlive.symm.trans h) Bool.false_ne_true
    · intro level hdeep hdue
      obtain ⟨hlevel, hclamp⟩ := levelView_levelTake s.thm.level level s
      refine ⟨_, exec_flowLevel_due hch hair hdeep hdue, hlevel, fun h2 g hg => ?_, ?_⟩
      · rw [hclamp g hg, if_pos h2]
      · rintro h3 g hg hkeep
        rw [h3]
        exact levelTake_parks _ hg hkeep
  · intro s g rest hq hrun
    exact exec_coolantUnparkTick hq hrun
  · intro s hch hfm hair
    refine ⟨fun hlevel => ?_, fun hlevel hrun hflow => ?_⟩
    · obtain ⟨o, h⟩ := setDuty_frame 1024 true s
      refine ⟨_, exec_valveLoop_level hch hfm hair hlevel, ?_, ?_, setDuty_out 1024 true s⟩ <;> rw [h]
    · refine ⟨_, exec_valveLoop_loop hch hfm hair hlevel hrun hflow, ?_⟩
      generalize hd : dutyOf s _ = d
      obtain ⟨o, h⟩ := setDuty_frame d false
        { s with thm := { s.thm with integ := Config.piInteg s.chr.gains s.thm.integ (s.thm.outlet - (s.chr.outSet : Nat)) } }
      rw [h]
      exact ⟨rfl, rfl, fun hmin => hd ▸ dutyOf_range hmin _⟩
  · intro s
    exact ⟨exec_pldmRequest_down, fun t0 => exec_inletReportTimeout⟩
  · intro s hup
    refine ⟨fun id v hv => ?_, fun id hid => ?_, exec_pldmRequest_setInletAir hup⟩
    · rw [exec_pldmRequest_readSensor hup, hv]
      rfl
    · rw [exec_pldmRequest_readSensor hup, pldmSensor_none s hid]
      rfl

end Sys2Proof.Machine
end

section
/-! The resets of the stack, of the Foreman and of the stockpile controllers (R265, R438, R448, R455 to R457): what the boot ROM
leaves of the state it starts from, what each reset clears and keeps, then the statements about them (O46, O53). -/

namespace Sys2Proof.Machine

/-! ### The boot ROM (R438, R442, R469) -/

/-- The choice of an image touches the event log and what it sends, and the boot record of its kind. -/
theorem bootSelect_frame (k : Nat) (s : State) :
    ∃ v a o x, (bootSelect k s).1 = { s with evt := v, fns := a, out := o, sec := x } := by
  obtain ⟨v, a, o, h⟩ := logEvent_frame 0x12 0 0x0703 [(0, 1, k), (1, 1, if 3 ≤ (s.img k).boots then 1 else 2)] s
  unfold bootSelect
  extract_lets x run res back x' s1 useRes pick
  have hlog : ∃ v a o, s1 = { s with evt := v, fns := a, out := o } := by
    unfold s1
    split
    · exact ⟨v, a, o, h⟩
    · exact ⟨_, _, _, rfl⟩
  obtain ⟨v, a, o, h1⟩ := hlog
  rw [h1]
  exact ⟨v, a, o, _, rfl⟩

/-- Bring-up as the ROM recovery leaves it. -/
def romRecovered (b : Brg) : Brg :=
  { b with state := 5, chResult := 3, featA := 1, featB := 0, resource := 0, charterDone := false, result := none }

/-- The boot ROM starts the step that stands, or the ROM recovery ends it. -/
theorem bootRom_frame (s : State) : ∃ v a o x b c h,
    bootRom s = { s with evt := v, fns := a, out := o, sec := x, brg := b, chr := c, hif := h }
      ∧ (b = s.brg ∨ b = romRecovered s.brg) := by
  obtain ⟨v, a, o, x, hsel⟩ := bootSelect_frame 1 s
  dsimp only [bootRom]
  split
  · rw [hsel]
    exact ⟨_, _, _, _, _, _, _, rfl, .inl rfl⟩
  · rw [hsel, resetSettings]
    obtain ⟨v2, a2, o2, hlog⟩ := logEvent_frame 0x12 0 0x0706 [(0, 1, 2)] _
    rw [hlog]
    exact ⟨_, _, _, _, _, _, _, rfl, .inr rfl⟩

/-- Bring-up stands at CHARTER, running or failed for want of an image, and a cause is recorded. -/
def AtCharter (cause : Nat) (s : State) : Prop :=
  s.brg.step = 14 ∧ (s.brg.state = 1 ∨ s.brg.state = 5) ∧ s.glb.resetCause = cause

theorem bootRom_atCharter {cause : Nat} {s : State} (hstep : s.brg.step = 14) (hstate : s.brg.state = 1)
    (hcause : s.glb.resetCause = cause) : AtCharter cause (bootRom s) := by
  obtain ⟨v, a, o, x, b, c, h, heq, hb⟩ := bootRom_frame s
  rw [heq]
  obtain rfl | rfl := hb
  · exact ⟨hstep, .inl hstate, hcause⟩
  · exact ⟨hstep, .inr rfl, hcause⟩

/-! ### Resets of the stack (R438, R448, R457) -/

theorem coldReset_atCharter (s : State) : AtCharter 0 (coldReset s) := bootRom_atCharter rfl rfl rfl

theorem warmReset_atCharter (cause : Nat) (dram : Bool) (s : State) : AtCharter cause (warmReset cause dram s) :=
  bootRom_atCharter rfl rfl rfl

theorem regRead_resetCause (s : State) : regRead s 0x320 = s.glb.resetCause := rfl

theorem AtCharter.shown {cause : Nat} {s : State} (h : AtCharter cause s) :
    s.brg.step = 14 ∧ (s.brg.state = 1 ∨ s.brg.state = 5) ∧ regRead s 0x320 = cause := by
  rw [regRead_resetCause]
  exact h

/-- A write of BRG_CTRL while the Foreman runs, its key apart. -/
def ctrlTaken (v : Word) (s : State) : State :=
  { s with brg := { s.brg with keepDram := bit 0 v.toNat, discard := s.brg.discard || bit 1 v.toNat } }

theorem foreman_runs {s : State} (hfm : s.brg.foreman = true) : ¬ ((!s.brg.foreman) = true) := by
  rw [hfm]
  decide

/-- The word that discards the survey leaves keep_dram as it is, and has no key. -/
theorem discardWord (b : Bool) : bit 0 (BitVec.ofNat 32 (2 + b2n b)).toNat = b ∧ bit 1 (BitVec.ofNat 32 (2 + b2n b)).toNat = true
    ∧ warmKey (BitVec.ofNat 32 (2 + b2n b)) = false := by
  cases b <;> decide

section Ctrl

variable {s : State} {r : Requester} {v : Word} (hr : reachesRegs r = true)
include hr

theorem exec_warmReset_down (hfm : s.brg.foreman = false) : exec (.warmReset r v) s = .next s := by
  refine congrArg Host.Outcome.next ((if_pos hr).trans (if_pos ?_))
  rw [hfm]
  rfl

theorem exec_surveyDiscard_down (hfm : s.brg.foreman = false) : exec (.surveyDiscard r) s = .next s := by
  refine congrArg Host.Outcome.next ((if_pos hr).trans (if_pos ?_))
  rw [hfm]
  rfl

variable (hfm : s.brg.foreman = true)
include hfm

theorem exec_warmReset_nokey (hkey : warmKey v = false) : exec (.warmReset r v) s = .next (ctrlTaken v s) :=
  congrArg Host.Outcome.next
    ((if_pos hr).trans ((if_neg (foreman_runs hfm)).trans (if_neg (Bool.eq_false_iff.mp hkey))))

theorem exec_warmReset_key (hkey : warmKey v = true) : exec (.warmReset r v) s = .next (warmReset 3 true (ctrlTaken v s)) :=
  congrArg Host.Outcome.next ((if_pos hr).trans ((if_neg (foreman_runs hfm)).trans (if_pos hkey)))

theorem exec_surveyDiscard : exec (.surveyDiscard r) s = .next { s with brg := { s.brg with discard := true } } := by
  obtain ⟨hkeep, hdiscard, hkey⟩ := discardWord s.brg.keepDram
  have htaken : ctrlTaken (BitVec.ofNat 32 (2 + b2n s.brg.keepDram)) s = { s with brg := { s.brg with discard := true } } := by
    rw [ctrlTaken, hkeep, hdiscard, Bool.or_true]
  exact congrArg Host.Outcome.next
    ((if_pos hr).trans ((if_neg (foreman_runs hfm)).trans ((if_neg (Bool.eq_false_iff.mp hkey)).trans htaken)))

end Ctrl

/-- Settles O53: every reset of the stack ends in the boot ROM, which leaves the step and the cause as the reset set them. -/
theorem resetStartsCharter : Obligations.ResetStartsCharter := by
  unfold Obligations.ResetStartsCharter
  intro s
  refine ⟨⟨_, rfl, (coldReset_atCharter s).shown⟩, fun r v hr hfm hkey => ?_, fun rail mv hpow hreset => ?_,
    fun d g hpow hd hg => ?_⟩
  · exact ⟨_, exec_warmReset_key hr hfm hkey, (warmReset_atCharter ..).shown⟩
  · exact ⟨_, congrArg Host.Outcome.next (if_pos ⟨hpow, hreset⟩), (warmReset_atCharter ..).shown⟩
  · exact ⟨_, exec_clockLoss_stack hpow hg hd, (warmReset_atCharter ..).shown⟩

/-! ### What a warm reset keeps (R10, R448) -/

theorem flushHeld_none {s : State} (h : s.evt.held = []) :
    flushHeld s = { s with brg := { s.brg with foreman := true }, evt := { s.evt with held := [], lost := 0 } } := by
  rw [flushHeld, h]
  rfl

/-- The state a warm reset that keeps the DRAM gives the boot ROM, once no event is held. -/
def warmBase (cause : Nat) (s : State) : State :=
  let b := baseReset { s with brg := { s.brg with foreman := true }, evt := { s.evt with held := [], lost := 0 } }
  ({ b with
    glb := { b.glb with resetCause := cause }
    evt := { next := s.evt.next, ring := s.evt.ring }
    pwr := { resetRail := s.pwr.resetRail, vinMin := s.pwr.vinMin }
    clk := s.clk
    brg := { b.brg with warm := true, unwritten := s.brg.unwritten, ageUnwritten := s.brg.ageUnwritten
                        remapUnwritten := s.brg.remapUnwritten }
    seamMem := s.seamMem
    stockMem := s.stockMem
    errs := s.errs.filter (fun e => decide (e.kind < 2)) } : State).emit (.sync false)

theorem warmReset_eq {s : State} (h : s.evt.held = []) (cause : Nat) : warmReset cause true s = bootRom (warmBase cause s) := by
  rw [warmReset, flushHeld_none h]
  rfl

/-! ### The Foreman (R455, R456) -/

/-- The Foreman in reset, its step and its session apart. -/
def foremanDown (cause : Nat) (s : State) : State :=
  { s with
    brg := { s.brg with foreman := false, foremanAt := s.now, foremanCause := cause }
    thm := { s.thm with duty := 1024, forced := true }
    sec := { s.sec with imgs := imgsForeman s.sec.imgs, copying := [], spdms := [], foremanResetSinceReady := true } }

/-- A step that runs is given up. -/
def stepAborted (s : State) : State := if s.brg.state = 1 then stepEnds 4 .abortedByReset 0 s else s

theorem exec_foremanReset {s : State} {cause : Nat} (hpow : s.brg.powered = true) (hvalve : s.chr.auxValve = none)
    (hsession : s.sec.session = none) : exec (.foremanReset cause) s
      = .next (stepAborted (foremanDown cause s)) := by
  have hpin : ¬ (s.chr.auxValve.isSome = true) := by
    rw [hvalve]
    decide
  have hclosed : ¬ (s.sec.session.isSome = true) := by
    rw [hsession]
    decide
  exact congrArg Host.Outcome.next ((if_pos hpow).trans
    ((congrArg (fun u : State => stepAborted (if u.sec.session.isSome then sessionEnds .abortedByReset u else u)) (if_neg hpin)).trans
      (congrArg stepAborted (if_neg hclosed))))

/-- The held events enter the log. -/
theorem flushHeld_frame (s : State) :
    ∃ v a o, flushHeld s = { s with brg := { s.brg with foreman := true }, evt := v, fns := a, out := o } := by
  rw [flushHeld]
  generalize s.evt.held = l
  generalize ({ s.evt with held := [], lost := 0 } : Evt) = v
  have hfold : ∀ (t : State), ∃ v a o, l.foldl (fun s e => evAppend e s) t = { t with evt := v, fns := a, out := o } := by
    induction l with
    | nil => exact fun t => ⟨_, _, _, rfl⟩
    | cons e l ih =>
      intro t
      obtain ⟨v, a, o, h⟩ := evAppend_frame e t
      obtain ⟨v2, a2, o2, h2⟩ := ih { t with evt := v, fns := a, out := o }
      exact ⟨v2, a2, o2, by rw [List.foldl_cons, h, h2]⟩
  obtain ⟨v2, a, o, h⟩ := hfold { s with brg := { s.brg with foreman := true }, evt := v }
  exact ⟨v2, a, o, h⟩

theorem exec_foremanResume {s : State} (hfm : s.brg.foreman = false)
    (hcopies : copiesRun { s with brg := { s.brg with foreman := true } } = false) :
    exec .foremanResume s
      = .next (logEvent 0x01 0 0x0605 [(0, 1, s.brg.foremanCause), (4, 4, s.evt.lost)] (flushHeld s)) := by
  have hback : copiesRun (logEvent 0x01 0 0x0605 [(0, 1, s.brg.foremanCause), (4, 4, s.evt.lost)] (flushHeld s)) = false := by
    obtain ⟨v, a, o, h⟩ := flushHeld_frame s
    rw [h, copiesRun, logEvent_brg, logEvent_sec]
    exact hcopies
  exact congrArg Host.Outcome.next ((if_neg (Bool.eq_false_iff.mp hfm)).trans (if_neg (Bool.eq_false_iff.mp hback)))

/-! ### The stockpile controllers (R265, R455) -/

theorem millAbort_frame (s : State) : ∃ x, millAbort s = { s with engs := x } := by
  unfold millAbort
  generalize List.range 4 = l
  induction l generalizing s with
  | nil => exact ⟨_, rfl⟩
  | cons e l ih =>
    rw [List.foldl_cons]
    split
    · obtain ⟨x, h⟩ := ih (shardStop e .abortedByReset s)
      exact ⟨x, h⟩
    · exact ih s

/-- Settles O46: each reset starts from a state written out, and the boot ROM touches none of what the statement names. -/
theorem stackResets : Obligations.StackResets := by
  unfold Obligations.StackResets
  refine ⟨?_, ?_, ?_, ?_, ?_, ?_⟩
  · intro s
    obtain ⟨v, a, o, x, b, c, h, heq, hb⟩ := bootRom_frame ((baseReset s).emit (.sync false))
    refine ⟨_, congrArg Host.Outcome.next heq, rfl, rfl, rfl, rfl, rfl, rfl, rfl, rfl, ?_⟩
    obtain rfl | rfl := hb <;> exact ⟨rfl, rfl, rfl, rfl, rfl⟩
  · intro s r v hr
    refine ⟨fun hfm => ⟨exec_warmReset_down hr hfm, exec_surveyDiscard_down hr hfm⟩, exec_warmReset_nokey hr,
      exec_surveyDiscard hr, fun hfm hheld hkey => ?_⟩
    have hexec := exec_warmReset_key hr hfm hkey
    rw [warmReset_eq (s := ctrlTaken v s) hheld] at hexec
    obtain ⟨e, a, o, x, b, c, h, heq, -⟩ := bootRom_frame (warmBase 3 (ctrlTaken v s))
    refine ⟨_, hexec, rfl, rfl, rfl, rfl, rfl, rfl, rfl, rfl, rfl, rfl, rfl, rfl, rfl, rfl, rfl, rfl, rfl, ?_⟩
    rw [heq]
    exact ⟨rfl, rfl, rfl⟩
  · intro s cause hpow hvalve hsession
    have hexec := exec_foremanReset (cause := cause) hpow hvalve hsession
    by_cases hstate : s.brg.state = 1
    · rw [stepAborted, if_pos (show (foremanDown cause s).brg.state = 1 from hstate)] at hexec
      obtain ⟨e, a, o, hlog⟩ := logEvent_frame 0x13 0 0x0601 [(0, 1, (foremanDown cause s).brg.step), (1, 1, 4),
        (2, 1, Status.code .abortedByReset), (4, 2, 0)]
        { foremanDown cause s with brg := { (foremanDown cause s).brg with
            state := 4, status := Status.code .abortedByReset, detail := 0, result := none } }
      rw [show stepEnds 4 .abortedByReset 0 (foremanDown cause s) = _ from hlog] at hexec
      exact ⟨_, hexec, rfl, rfl, rfl, rfl, rfl, rfl, rfl, rfl, fun _ => ⟨rfl, rfl⟩, fun hne => absurd hstate hne⟩
    · rw [stepAborted, if_neg (show (foremanDown cause s).brg.state ≠ 1 from hstate)] at hexec
      exact ⟨_, hexec, rfl, rfl, rfl, rfl, rfl, rfl, rfl, rfl, fun he => absurd he hstate, fun _ => ⟨rfl, rfl⟩⟩
  · intro s hfm hcopies
    exact exec_foremanResume hfm hcopies
  · intro s
    obtain ⟨x, h⟩ := millAbort_frame { s with brg := { s.brg with stockReset := true, stockSelf := true } }
    exact ⟨_, congrArg Host.Outcome.next h, rfl, rfl, rfl⟩
  · intro s hreset
    exact congrArg Host.Outcome.next (if_pos hreset)

end Sys2Proof.Machine
end

section
/-! Image updates (R473 to R477, R480, R482): the loader's copies, what each command of a session does, and the copy into the
reserve; then the statement about them (O48). -/

namespace Sys2Proof.Machine

/-! ### Boot records (R462) -/

theorem img_setImg_if (s : State) (k j : Nat) (x : ImgSlot) : (s.setImg k x).img j = if j = k then x else s.img j :=
  Tbl.look_put ..

theorem img_setImg_same (s : State) (k : Nat) (x : ImgSlot) : (s.setImg k x).img k = x :=
  (img_setImg_if s k k x).trans (if_pos rfl)

/-! ### The loader's copies (R473) -/

/-- What the start of copies may change: the list of copies, and STABLE images to REFRESHING. -/
def OnlyCopies (s t : State) : Prop :=
  (∃ c m, t = { s with sec := { s.sec with copying := c, imgs := m } })
    ∧ ∀ k, t.img k = s.img k ∨ ((s.img k).st = 0 ∧ (t.img k).st = 1)

theorem OnlyCopies.refl (s : State) : OnlyCopies s s := ⟨⟨_, _, rfl⟩, fun _ => .inl rfl⟩

theorem OnlyCopies.trans {s t u : State} (h : OnlyCopies s t) (k : OnlyCopies t u) : OnlyCopies s u := by
  obtain ⟨⟨_, _, rfl⟩, himg⟩ := h
  obtain ⟨⟨_, _, rfl⟩, kimg⟩ := k
  refine ⟨⟨_, _, rfl⟩, fun j => ?_⟩
  obtain hj | ⟨h0, h1⟩ := himg j
  · rw [← hj]
    exact kimg j
  · obtain kj | ⟨k0, -⟩ := kimg j
    · exact .inr ⟨h0, by rw [kj, h1]⟩
    · exact absurd (k0.symm.trans h1) Nat.zero_ne_one

theorem OnlyCopies.startCopies (s : State) : OnlyCopies s (startCopies s) := by
  unfold Machine.startCopies
  generalize List.range 6 = l
  induction l generalizing s with
  | nil => exact .refl s
  | cons i l ih =>
    refine .trans ?_ (ih _)
    dsimp only
    split
    · exact .refl s
    · split
      · exact ⟨⟨_, _, rfl⟩, fun _ => .inl rfl⟩
      · split
        · next h =>
          refine ⟨⟨_, _, rfl⟩, fun j => ?_⟩
          change (s.setImg (i + 1) _).img j = s.img j ∨ ((s.img j).st = 0 ∧ ((s.setImg (i + 1) _).img j).st = 1)
          rw [img_setImg_if]
          split
          · next e =>
            subst e
            exact .inr ⟨h.1, rfl⟩
          · exact .inl rfl
        · exact .refl s

theorem OnlyCopies.kickCopies (s : State) : OnlyCopies s (kickCopies s) := by
  unfold Machine.kickCopies
  split
  · exact .startCopies s
  · exact .refl s

theorem OnlyCopies.img_of_ne {s t : State} (h : OnlyCopies s t) {k : Nat} (hk : (s.img k).st ≠ 0) : t.img k = s.img k :=
  (h.2 k).resolve_right fun h => hk h.1

theorem OnlyCopies.session {s t : State} (h : OnlyCopies s t) : t.sec.session = s.sec.session := by
  obtain ⟨⟨_, _, rfl⟩, -⟩ := h
  rfl

theorem OnlyCopies.status {s t : State} (h : OnlyCopies s t) : t.sec.status = s.sec.status := by
  obtain ⟨⟨_, _, rfl⟩, -⟩ := h
  rfl

/-! ### Sessions (R474 to R477) -/

theorem updReady_eq {s : State} (pldm : Bool) (hfm : s.brg.foreman = true) (hready : s.sec.ready = true) : updReady pldm s = true := by
  rw [updReady, hfm, hready, Bool.or_true]
  rfl

theorem mySession_eq {s : State} {x : Session} {pldm : Bool} (hx : s.sec.session = some x) (hp : x.pldm = pldm) :
    mySession pldm s = some x := by
  rw [mySession, hx, ← hp]
  exact if_pos (beq_self_eq_true _)

theorem updTaken_sec (pldm : Bool) (st : Status) (s : State) : (updTaken pldm st s).sec = s.sec := by
  unfold updTaken
  split <;> rfl

section Begin

variable {s : State} {pldm : Bool} {k n : Nat} (hready : updReady pldm s = true) (hlow : 1 ≤ k) (hhigh : k ≤ 6)
include hready hlow hhigh

theorem exec_secBegin_opens (hnone : s.sec.session = none) (hst : (s.img k).st ≤ 1) : exec (.secBegin pldm k n) s
    = .next (updTaken pldm .ok { s with sec := { s.sec with
        session := some { pldm := pldm, total := n, recv := [] }, phase := 1, ready := true, kind := k, recvCount := 0 } }) := by
  have htakes : ¬ ((!updReady pldm s) = true) := by
    rw [hready]
    decide
  have hkind : ¬ (k = 0 ∨ 6 < k) := by omega
  have hfree : ¬ (s.sec.session.isSome = true ∨ (s.img k).st = 2 ∨ (s.img k).st = 3 ∨ (s.img k).st = 4) := by
    rw [hnone]
    simp only [Option.isSome_none, Bool.false_eq_true, false_or]
    omega
  exact congrArg Host.Outcome.next ((if_neg htakes).trans ((if_neg hkind).trans (if_neg hfree)))

theorem exec_secBegin_denied (hopen : s.sec.session ≠ none) (hp : pldm = false) : exec (.secBegin pldm k n) s
    = .next { s with sec := { s.sec with status := Status.code .denied } } := by
  subst hp
  have htakes : ¬ ((!updReady false s) = true) := by
    rw [hready]
    decide
  have hkind : ¬ (k = 0 ∨ 6 < k) := by omega
  have hsome : s.sec.session.isSome = true := Option.isSome_iff_ne_none.mpr hopen
  have hphase : (if s.sec.session.isSome then s.sec.phase else 5) = s.sec.phase := if_pos hsome
  refine congrArg Host.Outcome.next ((if_neg htakes).trans ((if_neg hkind).trans ((if_pos (.inl hsome)).trans ?_)))
  exact congrArg (fun p => { s with sec := { s.sec with status := Status.code .denied, phase := p } }) hphase

end Begin

theorem exec_secBegin_busy {s : State} (hbusy : s.sec.ready = false) (k n : Nat) :
    exec (.secBegin false k n) s = .next { s with sec := { s.sec with orderErr := true } } := by
  have hwaits : (!updReady false s) = true := by
    rw [updReady, hbusy, Bool.or_false, Bool.and_false]
    rfl
  exact congrArg Host.Outcome.next (if_pos hwaits)

section Session

variable {s : State} {x : Session} {pldm : Bool} (hfm : s.brg.foreman = true) (hx : s.sec.session = some x) (hp : x.pldm = pldm)
  (hready : s.sec.ready = true)
include hfm hx hp hready

/-- The state once a session holds a chunk. -/
def chunkHeld (x : Session) (chunk : List Byte) (s : State) : State :=
  { s with sec := { s.sec with session := some { x with recv := x.recv ++ chunk, chunk := chunk.length }
                               recvCount := (x.recv ++ chunk).length } }

/-- What follows a chunk: the header once it is whole, or the wait for the slot. -/
def chunkTaken (x : Session) (chunk : List Byte) (s : State) : State :=
  if s.sec.phase = 1 then
    (if (x.recv ++ chunk).length < 0x4400 then s else updHeader { x with recv := x.recv ++ chunk, chunk := chunk.length } s)
  else { s with sec := { s.sec with ready := false } }

theorem exec_secPush {chunk : List Byte} (hphase : s.sec.phase ≠ 2) (hword : chunk.length % 4 = 0) (hmin : 4 ≤ chunk.length)
    (hmax : chunk.length ≤ 65536) (hroom : x.recv.length + chunk.length ≤ x.total) :
    exec (.secPush pldm chunk) s = .next ((fun t : State =>
      if pldm then t.emit (.pldmFw (if t.sec.session.isSome then 0 else t.sec.status)) else t)
        (chunkTaken x chunk (chunkHeld x chunk s))) := by
  have htakes : ¬ ((!updReady pldm s || chunk.length % 4 != 0 || decide (chunk.length < 4) || decide (65536 < chunk.length)
      || decide (x.total < x.recv.length + chunk.length) || s.sec.phase == 2 || !s.sec.ready) = true) := by
    rw [updReady_eq pldm hfm hready, hready, hword, decide_eq_false (Nat.not_lt.mpr hmin), decide_eq_false (Nat.not_lt.mpr hmax),
      decide_eq_false (Nat.not_lt.mpr hroom), beq_false_of_ne hphase]
    decide
  change execSecPush pldm chunk s = _
  simp only [execSecPush, updPush, mySession_eq hx hp]
  exact congrArg Host.Outcome.next (if_neg htakes)

theorem exec_secAbort : exec (.secAbort pldm) s = .next (updTaken pldm .ok (kickCopies (
    if (s.img s.sec.kind).st = 2 then (sessionEnds .ok s).setImg s.sec.kind { s.img s.sec.kind with st := 4 }
    else if (s.img s.sec.kind).st = 1 then
      { sessionEnds .ok s with sec := { (sessionEnds .ok s).sec with
          copying := (sessionEnds .ok s).sec.copying ++ [(s.sec.kind, false)] } }
    else sessionEnds .ok s))) := by
  have htakes : ¬ ((!updReady pldm s) = true) := by
    rw [updReady_eq pldm hfm hready]
    decide
  change execSecAbort pldm s = _
  simp only [execSecAbort, updAbort, mySession_eq hx hp]
  exact congrArg Host.Outcome.next (if_neg htakes)

/-- The boot record of an image whose body has arrived, as its digest decides. -/
def bodyJudged (h : ImgHdr) (body : List Byte) (i : ImgSlot) : ImgSlot :=
  if Config.sha384 body == h.bodyDigest then { i with st := 3, boots := 0, run := some { hdr := h, body := body } }
  else { i with st := 4 }

/-- The status of an update whose body has arrived. -/
def bodyStatus (h : ImgHdr) (body : List Byte) : Status :=
  if Config.sha384 body == h.bodyDigest then .ok else .denied

theorem exec_secEnd {h : ImgHdr} (hhdr : x.hdr = some h) (hphase : s.sec.phase = 3) (hall : x.recv.length = x.total) :
    exec (.secEnd pldm) s = .next (updTaken pldm (bodyStatus h (x.recv.drop 0x4400)) (kickCopies
      (logEvent 0x12 0 0x0701 [(0, 1, s.sec.kind), (1, 1, (bodyStatus h (x.recv.drop 0x4400)).code), (4, 4, h.svn)]
        (sessionEnds (bodyStatus h (x.recv.drop 0x4400))
          (s.setImg s.sec.kind (bodyJudged h (x.recv.drop 0x4400) (s.img s.sec.kind))))))) := by
  have htakes : ¬ ((!updReady pldm s || s.sec.phase != 3 || !s.sec.ready || x.recv.length != x.total) = true) := by
    rw [updReady_eq pldm hfm hready, hphase, hready, hall]
    simp only [bne_self_eq_false, Bool.not_true, Bool.or_self, Bool.false_eq_true, not_false_eq_true]
  change execSecEnd pldm s = _
  simp only [execSecEnd, updEnd, mySession_eq hx hp, hhdr]
  exact congrArg Host.Outcome.next (if_neg htakes)

end Session

/-- An update session's state after a chunk, answered to PLDM. -/
theorem chunkTaken_answer {t : State} {y : Session} (hy : t.sec.session = some y) (pldm : Bool) :
    (if pldm then t.emit (.pldmFw (if t.sec.session.isSome then 0 else t.sec.status)) else t)
      = if pldm then { t with out := .pldmFw 0 :: t.out } else t := by
  have hopen : (if t.sec.session.isSome then 0 else t.sec.status) = 0 := if_pos (by rw [hy]; rfl)
  rw [hopen]
  rfl

section Mailbox

variable {s : State} (hfm : s.brg.foreman = true) (hready : s.sec.ready = true)
include hfm hready

theorem exec_secRevert {k : Nat} (hst : (s.img k).st = 3) : exec (.secRevert k) s
    = .next (kickCopies (logRevert k 3 (s.setImg k { s.img k with st := 4, reverted := true }))) := by
  have htakes : ¬ ((!updReady false s || (s.img k).st != 3) = true) := by
    rw [updReady_eq false hfm hready, hst]
    decide
  exact congrArg Host.Outcome.next (if_neg htakes)

theorem exec_secFactory : exec .secFactory s = .next { s with fuses := { s.fuses with startUp := true } } := by
  have htakes : ¬ ((!updReady false s) = true) := by
    rw [updReady_eq false hfm hready]
    decide
  exact congrArg Host.Outcome.next (if_neg htakes)

end Mailbox

/-- While the SMBus serves, a command of PLDM is what the mailbox's source of that name does. -/
theorem exec_pldmFwUpdate {s : State} (hup : smbUp s = true) (q : FwCommand) : exec (.pldmFwUpdate q) s
    = .next (match q with
      | .begin_ k n => updBegin true k n s
      | .push c => updPush true c s
      | .end_ => updEnd true s
      | .abort => updAbort true s) := by
  have hserves : ¬ ((!smbUp s) = true) := by
    rw [hup]
    decide
  exact congrArg Host.Outcome.next (if_neg hserves)

theorem exec_pldmFwUpdate_down {s : State} (hdown : smbUp s = false) (q : FwCommand) : exec (.pldmFwUpdate q) s = .next s := by
  have hsilent : (!smbUp s) = true := by
    rw [hdown]
    rfl
  exact congrArg Host.Outcome.next (if_pos hsilent)

theorem exec_updateChunkDone {s : State} (hopen : s.sec.session ≠ none) (hphase : s.sec.phase = 3) :
    exec .updateChunkDone s = .next { s with sec := { s.sec with ready := true } } :=
  congrArg Host.Outcome.next (if_pos ⟨Option.isSome_iff_ne_none.mpr hopen, hphase⟩)

/-! ### The copy into the reserve (R473, R475) -/

section Reserve

variable {s : State} {k : Nat} (hfm : s.brg.foreman = true)
include hfm

theorem exec_reserveCopyDone_update (hopen : s.sec.session ≠ none) (hk : s.sec.kind = k) (hphase : s.sec.phase = 2) :
    exec (.reserveCopyDone k) s = .next ((fun t : State => { t with sec := { t.sec with phase := 3, ready := true } })
      (s.setImg k { s.img k with st := 2, reserve := copySource (s.img k), reserveValid := (copySource (s.img k)).isSome, run := none })) := by
  have hruns : ¬ (s.brg.foreman = false) := by
    rw [hfm]
    decide
  exact congrArg Host.Outcome.next ((if_neg hruns).trans (if_pos ⟨Option.isSome_iff_ne_none.mpr hopen, hk, hphase⟩))

theorem exec_reserveCopyDone_copy {restore : Bool} (hnone : s.sec.session = none) (hcopy : s.sec.copying = [(k, restore)]) :
    exec (.reserveCopyDone k) s = .next ((fun t : State => { t with sec := { t.sec with copying := [] } })
      (s.setImg k (if restore then { s.img k with st := 0, run := (s.img k).reserve }
        else { s.img k with st := 0, reserve := copySource (s.img k), reserveValid := (copySource (s.img k)).isSome }))) := by
  have hruns : ¬ (s.brg.foreman = false) := by
    rw [hfm]
    decide
  have hclosed : ¬ (s.sec.session.isSome = true ∧ s.sec.kind = k ∧ s.sec.phase = 2) := by
    rw [hnone]
    exact fun h => Bool.false_ne_true h.1
  have hfind : s.sec.copying.find? (fun c => c.1 == k) = some (k, restore) := by
    rw [hcopy]
    exact List.find?_cons_of_pos (beq_self_eq_true k)
  have hrest : s.sec.copying.filter (fun c => c.1 != k) = [] := by
    rw [hcopy, List.filter_cons_of_neg (by rw [bne_self_eq_false]; decide), List.filter_nil]
  change execReserveCopyDone k s = _
  simp only [execReserveCopyDone, if_neg hruns, if_neg hclosed, hfind]
  exact congrArg (fun l => Host.Outcome.next ((fun t : State => { t with sec := { t.sec with copying := l } }) (s.setImg k _))) hrest

end Reserve

/-- Settles O48: each command's rule; the copies that may start behind it touch STABLE images alone. -/
theorem firmware : Obligations.Firmware := by
  unfold Obligations.Firmware
  refine ⟨?_, ?_, ?_, ?_, ?_, ?_, ?_, ?_, ?_, ?_⟩
  · intro s pldm k n hready hlow hhigh
    exact ⟨exec_secBegin_opens hready hlow hhigh, exec_secBegin_denied hready hlow hhigh⟩
  · intro s k n hbusy
    exact exec_secBegin_busy hbusy k n
  · intro s x pldm chunk hfm hx hp hready hword hmin hmax hroom x' u answer
    refine ⟨fun hphase hshort => ?_, fun hphase => ?_⟩
    · have htaken : chunkTaken x chunk (chunkHeld x chunk s) = u :=
        (if_pos hphase).trans (if_pos (by rw [List.length_append]; exact hshort))
      rw [exec_secPush hfm hx hp hready (by rw [hphase]; decide) hword hmin hmax hroom, htaken]
      exact congrArg Host.Outcome.next (chunkTaken_answer rfl pldm)
    · have htaken : chunkTaken x chunk (chunkHeld x chunk s) = { u with sec := { u.sec with ready := false } } :=
        if_neg (show ¬ s.sec.phase = 1 by rw [hphase]; decide)
      rw [exec_secPush hfm hx hp hready (by rw [hphase]; decide) hword hmin hmax hroom, htaken]
      exact congrArg Host.Outcome.next (chunkTaken_answer rfl pldm)
  · intro s x pldm h hfm hx hp hhdr hphase hready hall
    refine ⟨_, exec_secEnd hfm hx hp hready hhdr hphase hall, ?_⟩
    generalize hlog : logEvent 0x12 0 0x0701 _ _ = t
    have hsec : t.sec = (sessionEnds (bodyStatus h (x.recv.drop 0x4400))
        (s.setImg s.sec.kind (bodyJudged h (x.recv.drop 0x4400) (s.img s.sec.kind)))).sec := by
      rw [← hlog, logEvent_sec]
    have himg : t.img s.sec.kind = bodyJudged h (x.recv.drop 0x4400) (s.img s.sec.kind) :=
      (congrArg (fun c : Sec => Tbl.look ({} : ImgSlot) c.imgs s.sec.kind) hsec).trans
        (img_setImg_same s s.sec.kind (bodyJudged h (x.recv.drop 0x4400) (s.img s.sec.kind)))
    have hst : (t.img s.sec.kind).st ≠ 0 := by
      rw [himg, bodyJudged]
      split
      · exact (by decide : (3 : Nat) ≠ 0)
      · exact (by decide : (4 : Nat) ≠ 0)
    have hkick := OnlyCopies.kickCopies t
    refine ⟨?_, ?_⟩
    · rw [updTaken_sec, hkick.session, hsec]
      rfl
    · rw [State.img, updTaken_sec, ← State.img, hkick.img_of_ne hst, himg, hkick.status, hsec]
      simp only [bodyJudged, bodyStatus, beq_iff_eq]
      split
      · exact ⟨rfl, rfl, rfl, rfl⟩
      · exact ⟨rfl, rfl⟩
  · intro s x pldm hfm hx hp hready
    refine ⟨_, exec_secAbort hfm hx hp hready, ?_⟩
    generalize ht : (if (s.img s.sec.kind).st = 2 then _ else _) = t
    have hends : t.sec.session = none ∧ t.sec.status = 0 := by
      rw [← ht]
      split
      · exact ⟨rfl, rfl⟩
      · split <;> exact ⟨rfl, rfl⟩
    have hkick := OnlyCopies.kickCopies t
    refine ⟨?_, ?_, fun hst => ?_⟩
    · rw [updTaken_sec, hkick.session, hends.1]
    · rw [updTaken_sec, hkick.status, hends.2]
    · have himg : t.img s.sec.kind = { s.img s.sec.kind with st := 4 } := by
        rw [← ht, if_pos hst, img_setImg_same]
      rw [State.img, updTaken_sec, ← State.img, hkick.img_of_ne (by rw [himg]; exact (by decide : (4 : Nat) ≠ 0)), himg]
  · intro s hfm hready
    refine ⟨fun k hst => ⟨_, exec_secRevert hfm hready hst, ?_⟩, exec_secFactory hfm hready⟩
    have himg : (logRevert k 3 (s.setImg k { s.img k with st := 4, reverted := true })).img k
        = { s.img k with st := 4, reverted := true } := by
      rw [logRevert, logEvent_img, img_setImg_same]
    rw [(OnlyCopies.kickCopies _).img_of_ne (by rw [himg]; exact (by decide : (4 : Nat) ≠ 0)), himg]
    exact ⟨rfl, rfl⟩
  · intro s hup
    exact ⟨fun k n => ⟨exec_pldmFwUpdate hup _, rfl⟩, fun c => ⟨exec_pldmFwUpdate hup _, rfl⟩, ⟨exec_pldmFwUpdate hup _, rfl⟩,
      ⟨exec_pldmFwUpdate hup _, rfl⟩⟩
  · intro s q hdown
    exact exec_pldmFwUpdate_down hdown q
  · intro s hopen hphase
    exact exec_updateChunkDone hopen hphase
  · intro s k hfm
    refine ⟨fun hopen hk hphase => ⟨_, exec_reserveCopyDone_update hfm hopen hk hphase, ?_⟩, fun restore hnone hcopy =>
      ⟨_, exec_reserveCopyDone_copy hfm hnone hcopy, ?_⟩⟩
    · change ((s.setImg k _).img k).st = 2 ∧ ((s.setImg k _).img k).run = none ∧ ((s.setImg k _).img k).reserve = _ ∧ _ ∧ _
      rw [img_setImg_same]
      exact ⟨rfl, rfl, rfl, rfl, rfl⟩
    · change ((s.setImg k _).img k).st = 0 ∧ _ ∧ (restore = true → ((s.setImg k _).img k).run = _)
        ∧ (restore = false → ((s.setImg k _).img k).reserve = _)
      rw [img_setImg_same]
      cases restore with
      | true => exact ⟨rfl, rfl, fun _ => rfl, fun h => absurd h (by decide)⟩
      | false => exact ⟨rfl, rfl, fun h => absurd h (by decide), fun _ => rfl⟩

end Sys2Proof.Machine
end

section
/-! Confirmation of images and falling back (R468, R478 to R480, R483): what a confirmation does to the image it confirms and what it
leaves of the others, the window and the reset behind it; then the statement about them (O49). -/

namespace Sys2Proof.Machine

/-! ### Confirmation (R468, R478) -/

/-- A PENDING image that this boot runs from its own slot, and that no fuse has stopped. -/
structure ToConfirm (i : ImgSlot) (b : Image) : Prop where
  booted : i.booted = some b
  pending : i.st = 3
  boots : i.boots ≠ 0
  own : i.fromReserve = false
  kept : i.reverted = false
  fuses : i.fuseFail = false

/-- The state in which an image is confirmed, its copies apart. -/
def confirmed (k : Nat) (b : Image) (s : State) : State :=
  (fun t : State => logEvent 0x12 0 0x0702 [(0, 1, k), (1, 1, t.counter k), (4, 4, b.hdr.svn)] t)
    (eraseOldSettings k b.hdr (blowFuses k b.hdr (s.setImg k { s.img k with st := 0, reserveValid := false })))

/-- The image that this boot runs is confirmed, unless its record stands against it. -/
theorem confirm_booted {s : State} {k : Nat} {b : Image} (hb : (s.img k).booted = some b) (fuseOk : Bool) :
    confirm k fuseOk s =
      if (s.img k).st ≠ 3 ∨ (s.img k).boots = 0 ∨ (s.img k).fromReserve = true ∨ (s.img k).reverted = true
        ∨ (s.img k).fuseFail = true then s
      else
        match (if fuseOk then none else firstFuse s k b.hdr) with
        | some (f, slot) =>
          logEvent 0x12 0 0x0705 [(0, 1, k), (1, 1, f), (2, 1, slot)] (s.setImg k { s.img k with fuseFail := true })
        | none => kickCopies (confirmed k b s) := by
  unfold confirm
  dsimp only
  split
  · next hnone => exact absurd (hb.symm.trans hnone) (Option.some_ne_none b)
  · next b' hb' =>
    obtain rfl := Option.some.inj (hb.symm.trans hb')
    rfl

section

variable {s : State} {k : Nat} {b : Image} (h : ToConfirm (s.img k) b)
include h

theorem confirm_open : ¬ ((s.img k).st ≠ 3 ∨ (s.img k).boots = 0 ∨ (s.img k).fromReserve = true ∨ (s.img k).reverted = true
    ∨ (s.img k).fuseFail = true) := by
  rw [h.pending, h.own, h.kept, h.fuses]
  simp only [h.boots, ne_eq, not_true_eq_false, Bool.false_eq_true, or_self, not_false_eq_true]

theorem confirm_good : confirm k true s = kickCopies (confirmed k b s) := by
  rw [confirm_booted h.booted, if_neg (confirm_open h)]
  rfl

theorem confirm_fuseFails {f slot : Nat} (hfuse : firstFuse s k b.hdr = some (f, slot)) :
    confirm k false s = logEvent 0x12 0 0x0705 [(0, 1, k), (1, 1, f), (2, 1, slot)] (s.setImg k { s.img k with fuseFail := true }) := by
  rw [confirm_booted h.booted, if_neg (confirm_open h), if_neg Bool.false_ne_true, hfuse]

end

/-- A confirmation touches the fuses, the boot records and settings, and the event log. -/
theorem confirmed_frame (k : Nat) (b : Image) (s : State) : ∃ v a o x,
    confirmed k b s = { s with
      evt := v, fns := a, out := o, fuses := (blowFuses k b.hdr s).fuses
      sec := { s.sec with settings := x, imgs := Tbl.put s.sec.imgs k { s.img k with st := 0, reserveValid := false } } } := by
  dsimp only [confirmed]
  generalize hd : [(0, 1, k), (1, 1, State.counter _ k), (4, 4, b.hdr.svn)] = d
  obtain ⟨v, a, o, h⟩ := logEvent_frame 0x12 0 0x0702 d
    (eraseOldSettings k b.hdr (blowFuses k b.hdr (s.setImg k { s.img k with st := 0, reserveValid := false })))
  rw [h, eraseOldSettings]
  split <;> exact ⟨v, a, o, _, rfl⟩

theorem confirmed_img (k : Nat) (b : Image) (s : State) (j : Nat) :
    (confirmed k b s).img j = if j = k then { s.img k with st := 0, reserveValid := false } else s.img j := by
  obtain ⟨v, a, o, x, h⟩ := confirmed_frame k b s
  rw [h]
  exact img_setImg_if s k j _

theorem confirmed_counter (k : Nat) (b : Image) (s : State) (j : Nat) :
    (confirmed k b s).counter j = if j = k then max (s.counter k) b.hdr.svn else s.counter j := by
  obtain ⟨v, a, o, x, h⟩ := confirmed_frame k b s
  rw [h]
  exact Tbl.look_put ..

theorem OnlyCopies.counter {s t : State} (h : OnlyCopies s t) (k : Nat) : t.counter k = s.counter k := by
  obtain ⟨⟨_, _, rfl⟩, -⟩ := h
  rfl

theorem OnlyCopies.crewMicro {s t : State} (h : OnlyCopies s t) : t.sec.crewMicro = s.sec.crewMicro := by
  obtain ⟨⟨_, _, rfl⟩, -⟩ := h
  rfl

theorem OnlyCopies.revertAt {s t : State} (h : OnlyCopies s t) : t.sec.revertAt = s.sec.revertAt := by
  obtain ⟨⟨_, _, rfl⟩, -⟩ := h
  rfl

theorem OnlyCopies.st_lt {s t : State} (h : OnlyCopies s t) {k : Nat} (hk : (s.img k).st < 2) : (t.img k).st < 2 := by
  obtain hsame | ⟨-, hone⟩ := h.2 k
  · rw [hsame]
    exact hk
  · rw [hone]
    decide

/-- A kind's image is STABLE or REFRESHING with its counter at a value. -/
def Settled (k n : Nat) (s : State) : Prop := s.counter k = n ∧ (s.img k).st < 2

theorem confirm_settles {s : State} {k : Nat} {b : Image} (h : ToConfirm (s.img k) b) :
    Settled k (max (s.counter k) b.hdr.svn) (confirm k true s) := by
  rw [confirm_good h]
  have hkick := OnlyCopies.kickCopies (confirmed k b s)
  refine ⟨?_, hkick.st_lt ?_⟩
  · rw [hkick.counter, confirmed_counter, if_pos rfl]
  · rw [confirmed_img, if_pos rfl]
    exact Nat.two_pos

/-! ### The confirmations of the other kinds (R478) -/

/-- What the confirmation of one kind leaves of another: its counter, and its image but for a copy that starts. -/
def LeavesKind (k : Nat) (s t : State) : Prop :=
  t.counter k = s.counter k ∧ t.sec.crewMicro = s.sec.crewMicro
    ∧ (t.img k = s.img k ∨ ((s.img k).st = 0 ∧ (t.img k).st = 1))

theorem LeavesKind.refl (k : Nat) (s : State) : LeavesKind k s s := ⟨rfl, rfl, .inl rfl⟩

theorem LeavesKind.settled {k n : Nat} {s t : State} (h : LeavesKind k s t) (hs : Settled k n s) : Settled k n t := by
  obtain ⟨hcounter, -, himg⟩ := h
  refine ⟨hcounter.trans hs.1, ?_⟩
  obtain hsame | ⟨-, hone⟩ := himg
  · rw [hsame]
    exact hs.2
  · rw [hone]
    decide

theorem OnlyCopies.leavesKind {s t : State} (h : OnlyCopies s t) (k : Nat) : LeavesKind k s t := ⟨h.counter k, h.crewMicro, h.2 k⟩

theorem confirm_leavesKind {j k : Nat} (hne : k ≠ j) (s : State) : LeavesKind k s (confirm j true s) := by
  cases hboot : (s.img j).booted with
  | none =>
    rw [show confirm j true s = s by simp only [confirm, hboot]]
    exact .refl k s
  | some b =>
    by_cases hno : (s.img j).st ≠ 3 ∨ (s.img j).boots = 0 ∨ (s.img j).fromReserve = true ∨ (s.img j).reverted = true
        ∨ (s.img j).fuseFail = true
    · rw [confirm_booted hboot, if_pos hno]
      exact .refl k s
    · have heq : confirm j true s = kickCopies (confirmed j b s) := by
        rw [confirm_booted hboot, if_neg hno]
        rfl
      obtain ⟨hcounter, hmicro, himg⟩ := (OnlyCopies.kickCopies (confirmed j b s)).leavesKind k
      have hmicro' : (confirmed j b s).sec.crewMicro = s.sec.crewMicro := by
        obtain ⟨v, a, o, x, h⟩ := confirmed_frame j b s
        rw [h]
      rw [confirmed_counter, if_neg hne] at hcounter
      rw [confirmed_img, if_neg hne] at himg
      rw [heq]
      exact ⟨hcounter, hmicro.trans hmicro', himg⟩

/-- The Foreman confirms some kinds, the crew microcode only once its copies were verified. -/
def confirmAll (l : List Nat) (s : State) : State :=
  l.foldl (fun s k => if k != 3 || s.sec.crewMicro then confirm k true s else s) s

theorem confirmAll_settled {k n : Nat} {l : List Nat} (hk : k ∉ l) {s : State} (hs : Settled k n s) : Settled k n (confirmAll l s) := by
  induction l generalizing s with
  | nil => exact hs
  | cons j l ih =>
    obtain ⟨hne, hrest⟩ := not_or.mp (mt List.mem_cons.mpr hk)
    refine ih hrest ?_
    dsimp only
    split
    · exact (confirm_leavesKind hne s).settled hs
    · exact hs

theorem confirmAll_settles {k : Nat} {l : List Nat} (hl : l.Nodup) (hk : k ∈ l) {s : State} {b : Image}
    (h : ToConfirm (s.img k) b) (hmicro : (k != 3 || s.sec.crewMicro) = true) :
    Settled k (max (s.counter k) b.hdr.svn) (confirmAll l s) := by
  induction l generalizing s with
  | nil => exact absurd hk List.not_mem_nil
  | cons j l ih =>
    obtain ⟨hj, hl⟩ := List.nodup_cons.mp hl
    rw [confirmAll, List.foldl_cons]
    by_cases hjk : k = j
    · subst hjk
      rw [if_pos hmicro]
      exact confirmAll_settled hj (confirm_settles h)
    · have hleaves : LeavesKind k s (if j != 3 || s.sec.crewMicro then confirm j true s else s) := by
        split
        · exact confirm_leavesKind hjk s
        · exact .refl k s
      obtain ⟨hcounter, hsame, himg⟩ := hleaves
      have himg := himg.resolve_right (fun hst => absurd (h.pending.symm.trans hst.1) (by decide))
      rw [← hcounter]
      exact ih hl ((List.mem_cons.mp hk).resolve_left hjk) (by rw [himg]; exact h) (by rw [hsame]; exact hmicro)

/-! ### Commands (R478 to R480) -/

theorem exec_secConfirm_overseer {v : Word} (hv : bit 0 v.toNat = true) (o : Nat) (fuseOk : Bool) (s : State) :
    exec (.secConfirm (.overseer o) v fuseOk) s = .next (confirm 2 fuseOk s) :=
  congrArg Host.Outcome.next (if_pos hv)

theorem exec_confirmTimer {s : State} {t0 : Nat} (hready : s.sec.readyAt = some t0) (hdue : t0 + 60000000000 ≤ s.now)
    (hkept : s.sec.foremanResetSinceReady = false) (hfm : s.brg.foreman = true) :
    exec (.confirmTimer true) s = .next (confirmAll [1, 3, 4, 5, 6] s) := by
  change execConfirmTimer true s = _
  unfold execConfirmTimer
  rw [hready]
  exact congrArg Host.Outcome.next (if_pos ⟨hdue, hkept, hfm⟩)

/-- An image given up by its window, logged and signalled. -/
def windowReverted (k : Nat) (s : State) : State :=
  raiseIrq 0x0703 (logRevert k 0 (s.setImg k { s.img k with st := 4, reverted := true }))

theorem windowReverted_sec (k : Nat) (s : State) :
    (windowReverted k s).sec = (s.setImg k { s.img k with st := 4, reverted := true }).sec := by
  obtain ⟨v, a, o, h⟩ := raiseIrq_frame 0x0703 (logRevert k 0 (s.setImg k { s.img k with st := 4, reverted := true }))
  rw [windowReverted, h, logRevert]
  exact logEvent_sec ..

theorem exec_confirmWindowExpiry {s : State} {k t0 : Nat} (hready : s.sec.readyAt = some t0) (hdue : t0 + 600000000000 ≤ s.now)
    (hst : (s.img k).st = 3) (hboots : (s.img k).boots ≠ 0) (hfm : s.brg.foreman = true) :
    exec (.confirmWindowExpiry k) s = .next (kickCopies ((fun t : State => { t with sec := { t.sec with
      revertAt := some (t.sec.revertAt.getD t.now) } }) (windowReverted k s))) := by
  change execConfirmWindowExpiry k s = _
  unfold execConfirmWindowExpiry
  rw [hready]
  exact congrArg Host.Outcome.next (if_pos ⟨hdue, hst, hboots, hfm⟩)

theorem windowReverted_now (k : Nat) (s : State) : (windowReverted k s).now = s.now := by
  obtain ⟨v, a, o, h⟩ := raiseIrq_frame 0x0703 (logRevert k 0 (s.setImg k { s.img k with st := 4, reverted := true }))
  rw [windowReverted, h, logRevert]
  exact logEvent_now ..

theorem exec_revertReset {s : State} {t0 : Nat} (hat : s.sec.revertAt = some t0) (hdue : t0 + 1000000000 ≤ s.now)
    (hfm : s.brg.foreman = true) :
    exec .revertReset s = .next (warmReset (s.fresh.1 % 5) true { s with free := s.free + 1 }) := by
  change execRevertReset s = _
  unfold execRevertReset
  rw [hat]
  exact congrArg Host.Outcome.next (if_pos ⟨hdue, hfm⟩)

/-- Settles O49: a confirmation settles its own image and leaves the other kinds, so that the timer's pass settles each it
reaches. -/
theorem confirmation : Obligations.Confirmation := by
  unfold Obligations.Confirmation
  refine ⟨?_, ?_, ?_, ?_⟩
  · intro s k b hboot hst hboots hown hkept hfuse
    have h : ToConfirm (s.img k) b := ⟨hboot, hst, hboots, hown, hkept, hfuse⟩
    refine ⟨?_, ?_, ?_⟩
    · rintro o v rfl hv
      refine ⟨⟨_, exec_secConfirm_overseer hv o true s, confirm_settles h⟩, fun f slot hff => ?_⟩
      rw [exec_secConfirm_overseer hv, confirm_fuseFails h hff]
    · intro t0 hkind hready hdue hreset hfm
      refine ⟨_, exec_confirmTimer hready hdue hreset hfm, confirmAll_settles (by decide) ?_ h ?_⟩
      · obtain rfl | ⟨rfl, -⟩ | rfl | rfl | rfl := hkind <;> decide
      · obtain rfl | ⟨rfl, hmicro⟩ | rfl | rfl | rfl := hkind
        case inr.inl => rw [hmicro, Bool.or_true]
        all_goals rfl
    · intro t0 hready hdue hfm
      refine ⟨_, exec_confirmWindowExpiry hready hdue hst hboots hfm, ?_⟩
      generalize hu : (fun t : State => { t with sec := { t.sec with revertAt := some (t.sec.revertAt.getD t.now) } })
        (windowReverted k s) = u
      have himg : u.img k = { s.img k with st := 4, reverted := true } := by
        rw [← hu]
        change (windowReverted k s).img k = _
        rw [State.img, windowReverted_sec]
        exact img_setImg_same ..
      have hat : u.sec.revertAt = some (s.sec.revertAt.getD s.now) := by
        rw [← hu]
        change some ((windowReverted k s).sec.revertAt.getD (windowReverted k s).now) = _
        rw [windowReverted_sec, windowReverted_now]
        rfl
      have hkick := OnlyCopies.kickCopies u
      rw [hkick.img_of_ne (by rw [himg]; exact (by decide : (4 : Nat) ≠ 0)), himg, hkick.revertAt, hat]
      exact ⟨rfl, rfl, rfl⟩
  · intro s v ok
    rfl
  · intro s t0 hat hdue hfm
    exact ⟨_, Nat.mod_lt _ (by decide), exec_revertReset hat hdue hfm⟩
  · intro s hboot hfm
    exact congrArg Host.Outcome.next (if_pos ⟨hboot, hfm⟩)

end Sys2Proof.Machine
end

section
/-! The SPDM responder (R484 to R489): what the taking of a request leaves of the state, the answer of each request in its phase, and
the statements about connections (O50) and sessions (O51). -/

namespace Sys2Proof.Machine

/-! ### Requests and connections (R487, R488) -/

/-- The taking of a request touches what waits on its transport. -/
theorem takeRequest_frame {ch : SpdmChannel} {s t : State} (h : takeRequest ch s = some t) :
    ∃ i f, t = { s with hif := i, fld := f } := by
  cases ch with
  | doe =>
    rw [takeRequest] at h
    obtain ⟨-, h⟩ := Option.ite_none_right_eq_some.mp h
    obtain rfl := Option.some.inj h
    exact ⟨_, _, rfl⟩
  | field a st =>
    rw [takeRequest] at h
    obtain ⟨p, hp, rfl⟩ := Option.map_eq_some_iff.mp h
    unfold takeMsg at hp
    split at hp
    · exact absurd hp.symm (Option.some_ne_none p)
    · split at hp
      · exact absurd hp.symm (Option.some_ne_none p)
      · obtain rfl := Option.some.inj hp
        exact ⟨_, _, rfl⟩

theorem spdmOf_setSpdm (s : State) (ch : SpdmChannel) (x : Spdm) : (s.setSpdm ch x).spdmOf ch = x := by
  have hfind : ((ch, x) :: s.sec.spdms.filter (fun e => e.1 != ch)).find? (fun e => e.1 == ch) = some (ch, x) :=
    List.find?_cons_of_pos (beq_self_eq_true ch)
  change (match ((ch, x) :: s.sec.spdms.filter (fun e => e.1 != ch)).find? (fun e => e.1 == ch) with
    | none => {} | some e => e.2) = x
  rw [hfind]

section Serve

variable {s s1 : State} {ch : SpdmChannel} (hfm : s.brg.foreman = true) (hboot : (s.img 1).booted.isSome = true)
  (htake : takeRequest ch s = some s1)
include hfm hboot htake

theorem spdmServe_taken (f : State → State) : spdmServe ch f s = f s1 := by
  have hup : responderUp s = true := by
    rw [responderUp, hfm, hboot]
    rfl
  rw [spdmServe, if_pos hup, htake]

theorem spdmNegotiated_agreed (halgs : (s.spdmOf ch).algs = true) (f : Spdm → State → State) :
    spdmNegotiated ch f s = f (s.spdmOf ch) s1 := by
  rw [spdmNegotiated, spdmServe_taken hfm hboot htake]
  obtain ⟨i, g, rfl⟩ := takeRequest_frame htake
  exact if_pos halgs

theorem spdmNegotiated_early (halgs : (s.spdmOf ch).algs = false) (f : Spdm → State → State) :
    spdmNegotiated ch f s = spdmAnswer ch (.error spdmUnexpected) s1 := by
  rw [spdmNegotiated, spdmServe_taken hfm hboot htake]
  obtain ⟨i, g, rfl⟩ := takeRequest_frame htake
  exact if_neg (Bool.eq_false_iff.mp halgs)

/-! ### The connection (R485, R488) -/

theorem exec_spdmGetVersion : exec (.spdmGetVersion ch) s
    = .next (spdmAnswer ch (.version 0x13) (s1.setSpdm ch { version := true })) :=
  congrArg Host.Outcome.next (spdmServe_taken hfm hboot htake _)

theorem exec_spdmGetCapabilities (hversion : (s.spdmOf ch).version = true) : exec (.spdmGetCapabilities ch) s
    = .next (spdmAnswer ch (.capabilities 4096 65536) (s1.setSpdm ch { s.spdmOf ch with caps := true })) := by
  refine congrArg Host.Outcome.next ((spdmServe_taken hfm hboot htake _).trans ?_)
  obtain ⟨i, g, rfl⟩ := takeRequest_frame htake
  exact if_pos hversion

theorem exec_spdmNegotiateAlgorithms (hcaps : (s.spdmOf ch).caps = true) : exec (.spdmNegotiateAlgorithms ch) s
    = .next (spdmAnswer ch (.algorithms "TPM_ALG_RSAPSS_3072" "TPM_ALG_SHA_384" "secp384r1" "AES-256-GCM")
        (s1.setSpdm ch { s.spdmOf ch with algs := true })) := by
  refine congrArg Host.Outcome.next ((spdmServe_taken hfm hboot htake _).trans ?_)
  obtain ⟨i, g, rfl⟩ := takeRequest_frame htake
  exact if_pos hcaps

/-! ### Identity and measurements (R484 to R486) -/

section Agreed

variable (halgs : (s.spdmOf ch).algs = true)
include halgs

theorem exec_spdmGetDigests : exec (.spdmGetDigests ch) s
    = .next (spdmAnswer ch (.digests [Config.sha384 (slotChain 0 s), Config.sha384 (slotChain 1 s)]) s1) := by
  refine congrArg Host.Outcome.next ((spdmNegotiated_agreed hfm hboot htake halgs _).trans ?_)
  obtain ⟨i, g, rfl⟩ := takeRequest_frame htake
  rfl

theorem exec_spdmGetCertificate (slot off len : Nat) :
    let part := ((slotChain slot s).drop off).take (min len 4080)
    exec (.spdmGetCertificate ch slot off len) s
      = .next (spdmAnswer ch (if slot ≤ 1 ∧ off < (slotChain slot s).length
          then .certificate slot part ((slotChain slot s).length - off - part.length) else .error spdmInvalid) s1) := by
  refine congrArg Host.Outcome.next ((spdmNegotiated_agreed hfm hboot htake halgs _).trans ?_)
  obtain ⟨i, g, rfl⟩ := takeRequest_frame htake
  exact (apply_ite (fun r => spdmAnswer ch r _) ..).symm

theorem exec_spdmChallenge {slot : Nat} (hslot : slot ≤ 1) (nonce : Nat) : exec (.spdmChallenge ch slot nonce) s
    = .next (if s.sec.attestReady = true
        then spdmAnswer ch (.challengeAuth slot nonce (Config.aliasSign 0 (aliasKey 0 s) s.fresh.1)
          (Config.aliasSign 1 (aliasKey 1 s) s.fresh.1)) (stageLarge ch s1.fresh.2)
        else spdmAnswer ch (.error spdmBusy) s1) := by
  refine congrArg Host.Outcome.next ((spdmNegotiated_agreed hfm hboot htake halgs _).trans ?_)
  obtain ⟨i, g, rfl⟩ := takeRequest_frame htake
  exact if_pos hslot

theorem exec_spdmGetMeasurements {index : Nat} {bs : List (Nat × List Byte × Option (Nat × Nat))}
    (hbs : measAsked index s = some bs) (signed : Bool) (nonce : Nat) :
    let n := (((List.range 8).map (· + 1)).filterMap (fun i => measBlock i s)).length
    exec (.spdmGetMeasurements ch index signed nonce) s
      = .next (if signed = false then spdmAnswer ch (.measurements n bs nonce none) s1
          else if s.sec.attestReady = true then spdmAnswer ch (.measurements n bs nonce (some
            (Config.aliasSign 0 (aliasKey 0 s) s.fresh.1, Config.aliasSign 1 (aliasKey 1 s) s.fresh.1))) (stageLarge ch s1.fresh.2)
          else spdmAnswer ch (.error spdmBusy) s1) := by
  refine congrArg Host.Outcome.next ((spdmNegotiated_agreed hfm hboot htake halgs _).trans ?_)
  obtain ⟨i, g, rfl⟩ := takeRequest_frame htake
  have hasked : measAsked index { s with hif := i, fld := g } = some bs := hbs
  dsimp only
  rw [hasked]
  rfl

end Agreed

end Serve

/-- A large response waits for its chunks, and sends nothing itself. -/
theorem stageLarge_out (ch : SpdmChannel) (s : State) : (stageLarge ch s).out = s.out := rfl

theorem stageLarge_chunkOut (ch : SpdmChannel) (s : State) : ((stageLarge ch s).spdmOf ch).chunkOut ≠ none := by
  obtain ⟨x, hx, hne⟩ : ∃ x : Spdm, stageLarge ch s = s.fresh.2.setSpdm ch x ∧ x.chunkOut ≠ none :=
    ⟨_, rfl, Option.some_ne_none _⟩
  rw [hx, spdmOf_setSpdm]
  exact hne

/-- The blocks of all measurements. -/
theorem measAsked_all {s : State} {bs : List (Nat × List Byte × Option (Nat × Nat))} (h : measAsked 0xFF s = some bs) :
    bs = ((List.range 8).map (· + 1)).filterMap (fun i => measBlock i s) :=
  (Option.some.inj h).symm

theorem measBlock_image {s : State} {i : Nat} {m : Image} (h7 : i ≤ 6) (hm : (s.img i).booted = some m) :
    measBlock i s = some (i, Config.sha384 m.hdr.signed, some (m.hdr.version, m.hdr.svn)) := by
  rw [measBlock, if_neg (by omega), if_neg (by omega), hm]

/-- Settles O50: each request's answer in its phase, on the state its transport leaves. -/
theorem spdmConnection : Obligations.SpdmConnection := by
  unfold Obligations.SpdmConnection
  intro s ch hfm hboot hsome
  obtain ⟨t1, htake⟩ := Option.isSome_iff_exists.mp hsome
  intro s1 x
  have hs1 : s1 = t1 := congrArg (fun o => o.getD s) htake
  rw [hs1]
  refine ⟨⟨exec_spdmGetVersion hfm hboot htake, congrArg Spdm.algs (spdmOf_setSpdm ..)⟩,
    exec_spdmGetCapabilities hfm hboot htake, fun hcaps => ⟨_, exec_spdmNegotiateAlgorithms hfm hboot htake hcaps, spdmOf_setSpdm ..⟩,
    fun halgs => ⟨exec_spdmGetDigests hfm hboot htake halgs, exec_spdmGetCertificate hfm hboot htake halgs, ?_, ?_, ?_, ?_⟩,
    fun halgs slot off len nonce signed => ?_⟩
  · intro slot nonce hslot hwait
    exact (exec_spdmChallenge hfm hboot htake halgs hslot nonce).trans (congrArg _ (if_neg (Bool.eq_false_iff.mp hwait)))
  · intro slot nonce hslot hready
    refine ⟨_, _, (exec_spdmChallenge hfm hboot htake halgs hslot nonce).trans (congrArg _ (if_pos hready)), rfl, ?_⟩
    exact stageLarge_chunkOut ch t1.fresh.2
  · intro nonce bs hbs
    have hexec := exec_spdmGetMeasurements hfm hboot htake halgs hbs false nonce
    dsimp only at hexec
    rw [if_pos rfl, ← measAsked_all hbs] at hexec
    refine ⟨_, hexec, rfl, fun i m hlow hhigh hm => ?_⟩
    rw [measAsked_all hbs, List.mem_filterMap]
    refine ⟨i, List.mem_map.mpr ⟨i - 1, List.mem_range.mpr (by omega), by omega⟩, measBlock_image hhigh hm⟩
  · intro index nonce bs hbs hready
    have hexec := exec_spdmGetMeasurements hfm hboot htake halgs hbs true nonce
    dsimp only at hexec
    rw [if_neg Bool.false_ne_true.symm, if_pos hready] at hexec
    exact ⟨_, _, _, hexec, rfl⟩
  · exact ⟨congrArg Host.Outcome.next (spdmNegotiated_early hfm hboot htake halgs _),
      congrArg Host.Outcome.next (spdmNegotiated_early hfm hboot htake halgs _),
      congrArg Host.Outcome.next (spdmNegotiated_early hfm hboot htake halgs _),
      congrArg Host.Outcome.next (spdmNegotiated_early hfm hboot htake halgs _)⟩

/-! ### Sessions (R485, R488) -/

section Session

variable {s s1 : State} {ch : SpdmChannel} (hfm : s.brg.foreman = true) (hboot : (s.img 1).booted.isSome = true)
  (htake : takeRequest ch s = some s1) (halgs : (s.spdmOf ch).algs = true)
include hfm hboot htake halgs

theorem exec_spdmKeyExchange (hready : s.sec.attestReady = true) (n : Nat) :
    let x := s.spdmOf ch
    let id := bits 15 0 n + 65536 * x.nextSession
    exec (.spdmKeyExchange ch n) s = .next (spdmAnswer ch (.keyExchange id) (s1.setSpdm ch { x with
      sessions := x.sessions ++ [(id, false)], nextSession := (x.nextSession + 1) % 65536 })) := by
  refine congrArg Host.Outcome.next ((spdmNegotiated_agreed hfm hboot htake halgs _).trans ?_)
  obtain ⟨i, g, rfl⟩ := takeRequest_frame htake
  exact if_pos hready

/-- A session is established. -/
def establish (n : Nat) (l : List (Nat × Bool)) : List (Nat × Bool) := l.map (fun e => if e.1 == n then (n, true) else e)

omit hfm hboot htake halgs in
theorem mem_establish {n : Nat} {l : List (Nat × Bool)} (h : (n, false) ∈ l) : (n, true) ∈ establish n l :=
  List.mem_map.mpr ⟨(n, false), h, if_pos (beq_self_eq_true n)⟩

omit hfm hboot htake halgs in
theorem not_mem_establish (n : Nat) (l : List (Nat × Bool)) : (n, false) ∉ establish n l := by
  intro h
  obtain ⟨⟨m, b⟩, -, he⟩ := List.mem_map.mp h
  split at he
  · exact absurd (Prod.mk.inj he).2 Bool.false_ne_true.symm
  · next hne => exact hne (beq_iff_eq.mpr (Prod.mk.inj he).1)

theorem exec_spdmFinish {n : Nat} (hn : (n, false) ∈ (s.spdmOf ch).sessions) : exec (.spdmFinish ch n) s
    = .next (spdmAnswer ch (.finish n) (s1.setSpdm ch { s.spdmOf ch with sessions := establish n (s.spdmOf ch).sessions })) :=
  congrArg Host.Outcome.next
    ((spdmNegotiated_agreed hfm hboot htake halgs _).trans (if_pos (List.contains_iff_mem.mpr hn)))

theorem inSession_open {n : Nat} (hn : (n, true) ∈ (s.spdmOf ch).sessions) (f : Spdm → State → State) :
    inSession ch n f s = f (s.spdmOf ch) s1 :=
  (spdmNegotiated_agreed hfm hboot htake halgs _).trans (if_pos (List.contains_iff_mem.mpr hn))

theorem inSession_none {n : Nat} (hn : (n, true) ∉ (s.spdmOf ch).sessions) (f : Spdm → State → State) :
    inSession ch n f s = spdmAnswer ch (.error spdmNoSession) s1 :=
  (spdmNegotiated_agreed hfm hboot htake halgs _).trans (if_neg (mt List.contains_iff_mem.mp hn))

theorem exec_spdmKeyUpdate {n op : Nat} (hn : (n, true) ∈ (s.spdmOf ch).sessions) : exec (.spdmKeyUpdate ch n op) s
    = .next (if op = 1 ∨ op = 2 then
        spdmAnswer ch (.keyUpdate n op) (s1.setSpdm ch { s.spdmOf ch with keyGen := (s.spdmOf ch).keyGen + 1 })
      else if op = 3 then spdmAnswer ch (.keyUpdate n op) s1 else spdmAnswer ch (.error spdmInvalid) s1) :=
  congrArg Host.Outcome.next (inSession_open hfm hboot htake halgs hn _)

/-! ### Chunks (R485) -/

/-- The first chunk of a large request, with more to come. -/
theorem exec_spdmChunkSend_first {d : List Byte} (hlen : d.length ≤ 65536) (h : Nat) : exec (.spdmChunkSend ch h 0 false d) s
    = .next ((spdmAnswer ch (.chunkSendAck h 0) s1).setSpdm ch { s.spdmOf ch with chunkIn := some (h, 1, d) }) := by
  refine congrArg Host.Outcome.next ((spdmNegotiated_agreed hfm hboot htake halgs _).trans ?_)
  exact (if_neg (Nat.not_lt.mpr hlen)).trans (if_neg Bool.false_ne_true)

/-- The last chunk, in order: the whole request waits on its transport. -/
theorem exec_spdmChunkSend_last {h n : Nat} {e d : List Byte} (hn : n ≠ 0) (hin : (s.spdmOf ch).chunkIn = some (h, n, e))
    (hlen : (e ++ d).length ≤ 65536) : exec (.spdmChunkSend ch h n true d) s
    = .next (largeRequest ch (e ++ d) ((spdmAnswer ch (.chunkSendAck h n) s1).setSpdm ch { s.spdmOf ch with chunkIn := none })) := by
  refine congrArg Host.Outcome.next ((spdmNegotiated_agreed hfm hboot htake halgs _).trans ?_)
  dsimp only
  rw [if_neg hn, hin]
  dsimp only
  rw [if_pos ⟨rfl, rfl⟩]
  exact (if_neg (Nat.not_lt.mpr hlen)).trans (if_pos rfl)

/-- A chunk of no transfer. -/
theorem exec_spdmChunkSend_astray {n : Nat} (hn : n ≠ 0) (hin : (s.spdmOf ch).chunkIn = none) (h : Nat) (last : Bool)
    (d : List Byte) : exec (.spdmChunkSend ch h n last d) s
    = .next (spdmAnswer ch (.error spdmInvalid) (s1.setSpdm ch { s.spdmOf ch with chunkIn := none })) := by
  refine congrArg Host.Outcome.next ((spdmNegotiated_agreed hfm hboot htake halgs _).trans ?_)
  dsimp only
  rw [if_neg hn, hin]

theorem exec_spdmChunkGet {h n : Nat} {d : List Byte} (hout : (s.spdmOf ch).chunkOut = some (h, n, d)) :
    exec (.spdmChunkGet ch h n) s = .next (spdmAnswer ch
      (.chunk h n (decide (d.length - n * 4080 ≤ 4080)) ((d.drop (n * 4080)).take 4080))
      (s1.setSpdm ch { s.spdmOf ch with
        chunkOut := if d.length - n * 4080 ≤ 4080 then none else some (h, n + 1, d) })) := by
  refine congrArg Host.Outcome.next ((spdmNegotiated_agreed hfm hboot htake halgs _).trans ?_)
  have hchunk : chunkBytes = 4080 := rfl
  dsimp only
  rw [hout]
  dsimp only
  rw [if_pos ⟨rfl, rfl⟩, hchunk, List.length_drop]
  simp only [decide_eq_true_eq]

end Session

/-- Settles O51: each request's answer in its session, on the state its transport leaves. -/
theorem spdmSessions : Obligations.SpdmSessions := by
  unfold Obligations.SpdmSessions
  intro s ch hfm hboot hsome halgs
  obtain ⟨t1, htake⟩ := Option.isSome_iff_exists.mp hsome
  intro s1 x
  have hs1 : s1 = t1 := congrArg (fun o => o.getD s) htake
  rw [hs1]
  refine ⟨fun n hready => exec_spdmKeyExchange hfm hboot htake halgs hready n, ?_, fun n hn => ⟨?_, ?_, ?_, ?_⟩,
    fun n op hn => ⟨?_, ?_, ?_⟩, fun h d hlen => exec_spdmChunkSend_first hfm hboot htake halgs hlen h,
    fun h n e d => exec_spdmChunkSend_last hfm hboot htake halgs,
    fun h n last d hn hin => exec_spdmChunkSend_astray hfm hboot htake halgs hn hin h last d,
    fun h n d => exec_spdmChunkGet hfm hboot htake halgs⟩
  · intro n hn
    have hof : (spdmAnswer ch (.finish n) (t1.setSpdm ch { x with sessions := establish n x.sessions })).spdmOf ch
        = { x with sessions := establish n x.sessions } := spdmOf_setSpdm ..
    refine ⟨_, exec_spdmFinish hfm hboot htake halgs hn, ?_, ?_, rfl⟩
    · rw [hof]
      exact mem_establish hn
    · rw [hof]
      exact not_mem_establish n x.sessions
  · have hof : (spdmAnswer ch (.endSession n) (t1.setSpdm ch { x with
        sessions := x.sessions.filter (fun e => e.1 != n) })).spdmOf ch
        = { x with sessions := x.sessions.filter (fun e => e.1 != n) } := spdmOf_setSpdm ..
    refine ⟨_, congrArg Host.Outcome.next (inSession_open hfm hboot htake halgs hn _), fun b hb => ?_, fun m b hm => ?_⟩
    · rw [hof] at hb
      exact absurd rfl (bne_iff_ne.mp (List.mem_filter.mp hb).2)
    · rw [hof]
      exact List.mem_filter.trans (and_iff_left (bne_iff_ne.mpr hm))
  · exact congrArg Host.Outcome.next (inSession_open hfm hboot htake halgs hn _)
  · exact exec_spdmKeyUpdate hfm hboot htake halgs hn
  · intro op hop
    exact (exec_spdmKeyUpdate hfm hboot htake halgs hn).trans (congrArg _ (if_pos hop))
  · exact congrArg Host.Outcome.next (inSession_none hfm hboot htake halgs hn _)
  · exact congrArg Host.Outcome.next (inSession_none hfm hboot htake halgs hn _)
  · exact congrArg Host.Outcome.next (inSession_none hfm hboot htake halgs hn _)

end Sys2Proof.Machine
end

section
/-! The ends of bring-up's steps (R438, R440, R443, R444, R470, R471): CHARTER's two outcomes, the publication of a verdict, the
timeout, and the Overseers' load. -/

namespace Sys2Proof.Machine

theorem ite_unchanged {β : Type} (p : State → β) {c : Prop} [Decidable c] {s t u : State} (h : p t = p s) (k : p u = p s) :
    p (if c then t else u) = p s := by
  split
  · exact h
  · exact k

/-! ### The end of a step (R443) -/

theorem stepEnds_brg (state : Nat) (st : Status) (detail : Nat) (s : State) : (stepEnds state st detail s).brg
    = { s.brg with state := state, status := st.code, detail := detail % 4096, result := none } :=
  logEvent_brg ..

theorem stepEnds_hif (state : Nat) (st : Status) (detail : Nat) (s : State) : (stepEnds state st detail s).hif = s.hif :=
  logEvent_hif ..

theorem stepEnds_chr (state : Nat) (st : Status) (detail : Nat) (s : State) : (stepEnds state st detail s).chr = s.chr :=
  logEvent_chr ..

theorem driveSync_frame (s : State) : ∃ b o, driveSync s = { s with brg := { s.brg with syncLow := b }, out := o } := by
  dsimp only [driveSync]
  split <;> exact ⟨_, _, rfl⟩

/-! ### CHARTER (R438, R440, R470) -/

/-- What a failed CHARTER shows. -/
theorem charterFails_shows (result featA featB resource : Nat) (s : State) :
    (charterFails result featA featB resource s).brg.state = 5
      ∧ (charterFails result featA featB resource s).brg.chResult = result
      ∧ (charterFails result featA featB resource s).brg.featA = featA
      ∧ (charterFails result featA featB resource s).brg.charterDone = false
      ∧ (charterFails result featA featB resource s).hif.apt = [] := by
  have hrecover : ∀ t : State, t = resetSettings 2 (recoverIdentity result featA featB resource { s with chr := {} }) →
      t.brg.chResult = result ∧ t.brg.featA = featA ∧ t.brg.charterDone = false ∧ t.hif.apt = [] := by
    rintro t rfl
    rw [resetSettings, logEvent_brg, logEvent_hif]
    exact ⟨rfl, rfl, rfl, rfl⟩
  obtain ⟨hresult, hfeat, hdone, hapt⟩ := hrecover _ rfl
  rw [charterFails, stepEnds_brg, stepEnds_hif]
  refine ⟨rfl, ?_, ?_, ?_, ?_⟩
  · exact (congrArg Brg.chResult (logEvent_brg ..)).trans hresult
  · exact (congrArg Brg.featA (logEvent_brg ..)).trans hfeat
  · exact (congrArg Brg.charterDone (logEvent_brg ..)).trans hdone
  · exact (congrArg Hif.apt (logEvent_hif ..)).trans hapt

theorem charterRegs_chr (s : State) : (charterRegs s).chr = s.chr := by
  unfold charterRegs
  extract_lets c s1 s2 s3 s4 s5 h
  have h1 : s1.chr = s.chr := foldl_unchanged State.chr _ (by exact fun s g => rfl) _ s
  have h2 : s2.chr = s1.chr := ite_unchanged State.chr rfl (foldl_unchanged State.chr _ (by exact fun s n => rfl) _ s1)
  have h3 : s3.chr = s2.chr := ite_unchanged State.chr rfl (foldl_unchanged State.chr _ (by exact fun s k => rfl) _ s2)
  have h4 : s4.chr = s3.chr := ite_unchanged State.chr rfl (foldl_unchanged State.chr _ (by exact fun s k => rfl) _ s3)
  have h5 : s5.chr = s4.chr := ite_unchanged State.chr rfl (foldl_unchanged State.chr _ (by exact fun s a => rfl) _ s4)
  exact h5.trans (h4.trans (h3.trans (h2.trans h1)))

theorem convertSettings_frame (owner : Nat) (s : State) : ∃ n x, convertSettings owner s = { s with free := n, sec := x } := by
  unfold convertSettings
  dsimp only
  split
  · split <;> exact ⟨_, _, rfl⟩
  · exact ⟨_, _, rfl⟩

/-- CHARTER is done: the kind of boot is recorded. -/
def charterMarked (s : State) : State :=
  { s with brg := { s.brg with charterDone := true }, fuses := { s.fuses with startUp := false }
           sec := { s.sec with bootKind := bootKindOf s } }

/-- The settings as the kind of boot has them. -/
def charterSettings (k : Nat) (s : State) : State :=
  if k < 3 then resetSettings k s else convertSettings 1 (convertSettings 0 s)

/-- The cores' edges as a good CHARTER leaves them. -/
def charterCores (c : Chr) (s : State) : State :=
  (List.range 32).foldl (fun s g => recomputeK g s) (charterRegs { s with chr := c })

theorem charterCores_chr (c : Chr) (s : State) : (charterCores c s).chr = c := by
  unfold charterCores
  generalize List.range 32 = l
  exact (foldl_unchanged State.chr _ (by exact fun s g => recomputeK_chr g s) l _).trans (charterRegs_chr _)

theorem charterSettings_shows (k : Nat) (s : State) :
    (charterSettings k s).brg = s.brg ∧ (charterSettings k s).chr = s.chr := by
  unfold charterSettings
  split
  · rw [resetSettings, logEvent_brg, logEvent_chr]
    exact ⟨rfl, rfl⟩
  · obtain ⟨n, x, e⟩ := convertSettings_frame 0 s
    obtain ⟨m, y, e2⟩ := convertSettings_frame 1 (convertSettings 0 s)
    rw [e2, e]
    exact ⟨rfl, rfl⟩

/-- A step of the Foreman's that ends DONE. -/
theorem stepDone_shows (s : State) : (driveSync (stepEnds 2 .ok 0 s)).brg.charterDone = s.brg.charterDone
    ∧ (driveSync (stepEnds 2 .ok 0 s)).brg.state = 2 ∧ (driveSync (stepEnds 2 .ok 0 s)).chr = s.chr := by
  obtain ⟨b, o, e⟩ := driveSync_frame (stepEnds 2 .ok 0 s)
  rw [e]
  dsimp only
  rw [stepEnds_brg, stepEnds_chr]
  exact ⟨rfl, rfl, rfl⟩

/-- The state in which CHARTER ends DONE. -/
def charterEnded (u : State) : State := driveSync (stepEnds 2 .ok 0 (charterSettings (bootKindOf u) (charterMarked u)))

theorem charterEnded_shows (u : State) :
    (charterEnded u).brg.charterDone = true ∧ (charterEnded u).brg.state = 2 ∧ (charterEnded u).chr = u.chr := by
  obtain ⟨hbrg, hset⟩ := charterSettings_shows (bootKindOf u) (charterMarked u)
  obtain ⟨hdone, hstate, hkeep⟩ := stepDone_shows (charterSettings (bootKindOf u) (charterMarked u))
  exact ⟨hdone.trans (congrArg Brg.charterDone hbrg), hstate, hkeep.trans hset⟩

theorem charterGood_eq (c : Chr) (s : State) : charterGood c s = charterEnded (charterCores c s) := by
  unfold charterGood charterEnded charterSettings charterMarked charterCores
  rfl

/-- A good CHARTER ends DONE with its fields in force. -/
theorem charterGood_shows (c : Chr) (s : State) :
    (charterGood c s).brg.charterDone = true ∧ (charterGood c s).brg.state = 2 ∧ (charterGood c s).chr = c := by
  obtain ⟨hdone, hstate, hchr⟩ := charterEnded_shows (charterCores c s)
  rw [charterGood_eq]
  exact ⟨hdone, hstate, hchr.trans (charterCores_chr c s)⟩

/-- Which end CHARTER meets once the flash is read. -/
def charterOutcome (img : CharterRead) (s : State) : State :=
  match (selectAll [6, 2, 3, 4, 5] s).2 with
  | some k => charterFails 3 k 0 0 (selectAll [6, 2, 3, 4, 5] s).1
  | none =>
    match chFirstInvalid s.fuses.variantA img with
    | some n => charterFails 1 n 0 0 (selectAll [6, 2, 3, 4, 5] s).1
    | none =>
      match chConflict (chrOf s.fuses.variantA img) with
      | some (a, b, res) => charterFails 2 a b res (selectAll [6, 2, 3, 4, 5] s).1
      | none => charterGood (chrOf s.fuses.variantA img) (selectAll [6, 2, 3, 4, 5] s).1

section Charter

variable {s : State} (hstep : s.brg.step = 14) (hstate : s.brg.state = 1) (hpow : s.brg.powered = true)
  (hfm : s.brg.foreman = true) {img : CharterRead}
include hstep hstate hpow hfm

theorem exec_brgCharter_noFlash (hflash : img.flashOk = false) :
    exec (.brgCharter img) s = .next (charterFails 3 6 0 0 s) :=
  congrArg Host.Outcome.next ((if_pos ⟨hstep, hstate, hpow, hfm⟩).trans (if_pos (by rw [hflash]; rfl)))

theorem exec_brgCharter_flash (hflash : img.flashOk = true) : exec (.brgCharter img) s = .next (charterOutcome img s) := by
  have hread : ¬ ((!img.flashOk) = true) := by
    rw [hflash]
    decide
  exact congrArg Host.Outcome.next ((if_pos ⟨hstep, hstate, hpow, hfm⟩).trans (if_neg hread))

end Charter

/-! ### The publication of a verdict (R443, R444) -/

/-- A step that neither the Overseers' load nor the confirmation window follows is done. -/
theorem hostStepEnds_done {s : State} {v : Nat × Status × Nat} (hv : v.1 = 2 ∨ v.1 = 3) (h2 : s.brg.step ≠ 2)
    (h11 : s.brg.step ≠ 11) : hostStepEnds v s = (fun t : State => { t with brg := { t.brg with done := s.brg.step } })
      (stepEnds v.1 v.2.1 v.2.2 s) := by
  have hok : (v.1 == 2 || v.1 == 3) = true := by
    obtain h | h := hv <;> rw [h] <;> rfl
  simp only [hostStepEnds, hok, beq_false_of_ne h2, beq_false_of_ne h11, Bool.and_false, Bool.false_eq_true, if_false, if_true]

theorem hostStepEnds_timeout (s : State) : hostStepEnds (4, .timeout, 0) s = stepEnds 4 .timeout 0 s := rfl

section StepEnd

variable {s : State} (hstate : s.brg.state = 1) (hrun : s.thm.stopped = false) (hfm : s.brg.foreman = true)
include hstate hrun hfm

theorem exec_brgStepEnd {v : Nat × Status × Nat} (h14 : s.brg.step ≠ 14) (h9 : s.brg.step ≠ 9) (h10 : s.brg.step ≠ 10)
    (hv : s.brg.result = some v) : exec .brgStepEnd s = .next (hostStepEnds v s) := by
  have hno : ¬ (s.brg.step = 9 ∨ s.brg.step = 10) := not_or.mpr ⟨h9, h10⟩
  refine congrArg Host.Outcome.next ((if_pos ⟨hstate, hrun, hfm, h14⟩).trans ?_)
  rw [hv]
  exact if_neg hno

theorem exec_stepTimeout (hpow : s.brg.powered = true) (h9 : s.brg.step ≠ 9) (h10 : s.brg.step ≠ 10)
    (hv : s.brg.result = none) (hdue : s.brg.stepAt + s.brg.stepPaused + 1000000 * stepLimit s.brg.step ≤ s.now) :
    exec .stepTimeout s = .next (stepEnds 4 .timeout 0 s) := by
  have hno : ¬ (s.brg.step = 9 ∨ s.brg.step = 10) := not_or.mpr ⟨h9, h10⟩
  refine congrArg Host.Outcome.next ((if_pos ⟨hstate, hpow, hrun, hfm, hdue⟩).trans ((if_neg hno).trans (if_pos ?_)))
  rw [hv]
  rfl

end StepEnd

/-! ### The Overseers' load (R471) -/

theorem exec_overseerLoadDone {s : State} (hload : s.sec.ovLoading = true) (digestOk reserveOk : Bool) :
    exec (.overseerLoadDone digestOk reserveOk) s = .next ((fun t : State =>
      if digestOk then { t with sec := { t.sec with ovReset := false } }
      else if reserveOk then (fun u : State => { u with sec := { u.sec with ovReset := false } }) (reRead 2 reserveOk t)
      else reRead 2 reserveOk t) { s with sec := { s.sec with ovLoading := false } }) := by
  have hgo : ¬ (s.sec.ovLoading = false) := by
    rw [hload]
    decide
  exact congrArg Host.Outcome.next (if_neg hgo)

/-! ### FUSES (R451) -/

theorem stepRuns_step {code : Nat} {s : State} (h : stepRuns code s = true) : ¬ ((!stepRuns code s) = true) := by
  rw [h]
  decide

theorem unit6_brg (n : Nat) (bad : Bool) (s : State) : (unit6 n bad s).brg = s.brg := by
  unfold unit6
  split
  · rfl
  · split <;> rfl

theorem unitOut_brg (grain n : Nat) (s : State) : (unitOut grain n s).brg = s.brg := by
  unfold unitOut
  split
  · rfl
  · split
    · rfl
    · split
      · exact unit6_brg ..
      · split <;> rfl

theorem entryApplies_brg (e : SurveyEnt) (s : State) : (entryApplies e s).brg = s.brg := by
  unfold entryApplies
  split
  · exact unitOut_brg ..
  · split
    · rfl
    · split <;> rfl

theorem entriesApply_brg (es : List SurveyEnt) (s : State) : (entriesApply es s).brg = s.brg :=
  foldl_unchanged State.brg _ (by exact fun s e => entryApplies_brg e s) es s

section Fuses

variable {s : State} (hstep : stepRuns 1 s = true)
include hstep

theorem exec_brgFuses_survey {second : Bool} {v : Survey} (hv : surveyNow s = some (second, v)) :
    exec .brgFuses s = .next (verdict 2 .ok 0 ((List.range 32).foldl (fun s g => recomputeK g s)
      (entriesApply v.entries { s with brg := { s.brg with entries := v.entries, lost := false } }))) := by
  refine congrArg Host.Outcome.next ((if_neg (stepRuns_step hstep)).trans ?_)
  rw [hv]

theorem exec_brgFuses_none (hv : surveyNow s = none) : exec .brgFuses s = .next (if s.brg.discard then
      verdict 2 .ok 0 (logEvent 0x13 0 0x0604 [(0, 4, s.brg.surveyA.count), (4, 4, s.brg.surveyB.count)]
        { s with brg := { s.brg with entries := [], lost := true } })
    else verdict 4 .uncorrectable 0 s) := by
  refine congrArg Host.Outcome.next ((if_neg (stepRuns_step hstep)).trans ?_)
  rw [hv]

end Fuses

theorem recomputeAll_brg (s : State) : ((List.range 32).foldl (fun s g => recomputeK g s) s).brg = s.brg :=
  foldl_unchanged State.brg _ (by exact fun s g => recomputeK_brg g s) _ s

end Sys2Proof.Machine
end

section
/-! The steps of bring-up from the assays to READY (R446 to R454): what each does with nothing failed, and with an essential
failure. -/

namespace Sys2Proof.Machine

/-! ### Assay (R446 to R448, R453) -/

section Nothing

variable {s : State} (hbad : s.brg.assayBad = [])
include hbad

/-- A first assay finds nothing to put back. -/
theorem assayAfresh_nil (grains : List Nat) : assayAfresh grains s = s := by
  have hsame : { s with brg := { s.brg with assayBad := [] } } = s :=
    congrArg (fun l => { s with brg := { s.brg with assayBad := l } }) hbad.symm
  unfold assayAfresh
  rw [hbad, List.filter_nil, List.filter_nil]
  exact hsame

theorem assayMarks_nil (grains : List Nat) : assayMarks grains [] s = s := assayAfresh_nil hbad grains

theorem assayCount_nil (grains : List Nat) : assayCount grains s = 0 := by
  rw [assayCount, hbad]
  rfl

end Nothing

theorem essentialLost_of_grain {f : AssayFail} (hf : f.grain = 0) (rest : List AssayFail) (s : State) :
    essentialLost (f :: rest) s = true := by
  rw [essentialLost, List.any_cons, hf]
  rfl

section AssayB

variable {s : State} (hstep : stepRuns 2 s = true)
include hstep

theorem exec_assayB_clean (hbad : s.brg.assayBad = []) (hess : essentialLost [] s = false) :
    exec (.assayB []) s = .next { s with brg := { s.brg with result := some (2, .ok, 0) } } := by
  refine congrArg Host.Outcome.next ((if_neg (stepRuns_step hstep)).trans ?_)
  have hlog : essentialLog [] s = s := rfl
  rw [hlog, assayMarks_nil hbad]
  dsimp only
  rw [assayCount_nil hbad]
  exact if_neg (Bool.eq_false_iff.mp hess)

theorem exec_assayB_essential {f : AssayFail} (hf : f.grain = 0) (rest : List AssayFail) :
    exec (.assayB (f :: rest)) s
      = .next (verdict 4 .unitFault 0 (assayMarks [5, 6, 7] (f :: rest) (essentialLog (f :: rest) s))) :=
  congrArg Host.Outcome.next ((if_neg (stepRuns_step hstep)).trans (if_pos (essentialLost_of_grain hf rest _)))

end AssayB

theorem exec_assayS {s : State} (hstep : stepRuns 3 s = true) (fails : List AssayFail) :
    exec (.assayS fails) s = .next (if fails = [] then verdict 2 .ok 0 s
      else verdict 4 .unitFault 0 (fails.foldl (fun s f => checkerLog f s) s)) :=
  congrArg Host.Outcome.next (if_neg (stepRuns_step hstep))

/-- The seams after a pattern test that keeps nothing. -/
def seamsTested (s : State) : State := { s with seamMem := [], errs := s.errs.filter (fun e => e.kind != 0) }

theorem exec_assayD_clean {s : State} (hstep : stepRuns 4 s = true) (hbad : s.brg.assayBad = []) (hkeep : keeps s = false)
    (hgroups : s.glb.groups ≠ 0) : exec (.assayD [] []) s = .next (verdict 2 .ok 0 (seamsTested s)) := by
  refine congrArg Host.Outcome.next ((if_neg (stepRuns_step hstep)).trans ?_)
  have htested : (if keeps s then s else seamsTested s) = seamsTested s := if_neg (Bool.eq_false_iff.mp hkeep)
  rw [assayMarks_nil hbad]
  change (fun t : State => if t.glb.groups = 0 then verdict 4 .unitDead (assayCount [3, 4] t) t
    else verdictLost (assayCount [3, 4] t) t) (if keeps s then s else seamsTested s) = _
  rw [htested]
  have hcount : assayCount [3, 4] (seamsTested s) = 0 := assayCount_nil hbad [3, 4]
  refine (if_neg (show (seamsTested s).glb.groups ≠ 0 from hgroups)).trans ?_
  rw [hcount]
  rfl

theorem exec_assayC_clean {s : State} (hstep : stepRuns 5 s = true) (hbad : s.brg.assayBad = []) {c : Nat} (hc : c < 128)
    (hgood : crewGood s c = true) : exec (.assayC []) s = .next (verdict 2 .ok 0 s) := by
  refine congrArg Host.Outcome.next ((if_neg (stepRuns_step hstep)).trans ?_)
  have hany : (List.range 128).any (crewGood s) = true := List.any_eq_true.mpr ⟨c, List.mem_range.mpr hc, hgood⟩
  rw [assayAfresh_nil hbad]
  dsimp only [List.foldl_nil]
  rw [assayCount_nil hbad]
  exact if_pos hany

/-! ### GRADE and STOCKPILE (R452, R454) -/

theorem exec_brgGrade {s : State} (hstep : stepRuns 6 s = true) : exec (.brgGrade true) s
    = .next (verdict 2 .ok 0 { writeSurvey (surveyEntries s ++ assayEntries s) s with glb := gradeGlb s }) :=
  congrArg Host.Outcome.next ((if_neg (stepRuns_step hstep)).trans (if_neg Bool.false_ne_true))

theorem mem_gradeGlb_badCrews {s : State} {c : Nat} (hc : c < 128) : c ∈ (gradeGlb s).badCrews ↔ crewGood s c = false := by
  have hmem : c ∈ (List.range 128).filter (fun c => !crewGood s c) ↔ crewGood s c = false := by
    rw [List.mem_filter, List.mem_range, Bool.not_eq_true', and_iff_right hc]
  exact hmem

/-- The stockpile after its test: kept, or empty. -/
def stockTested (s : State) : State :=
  if keeps s then s else { s with stockMem := [], errs := s.errs.filter (fun e => e.kind != 1) }

theorem stockTested_glb (s : State) : (stockTested s).glb = s.glb := by
  unfold stockTested
  split <;> rfl

theorem exec_brgStockpile_clean {s : State} (hstep : stepRuns 7 s = true) (hstock : s.glb.stock ≠ 0) :
    exec (.brgStockpile ([], [])) s = .next (verdict 2 .ok 0 (stockTested s)) := by
  refine congrArg Host.Outcome.next ((if_neg (stepRuns_step hstep)).trans ?_)
  have hbad : s.stockStacks.filter (fun p => List.contains [] p || List.contains [] p) = [] :=
    List.filter_eq_nil_iff.mpr (fun p _ => Bool.false_ne_true)
  dsimp only
  rw [hbad]
  exact if_neg (show (stockTested s).glb.stock ≠ 0 by rw [stockTested_glb]; exact hstock)

end Sys2Proof.Machine
end

section
/-! BROADCAST, the adit steps and READY (R324, R444, R449, R450), then the statement about the steps of bring-up (O47). -/

namespace Sys2Proof.Machine

/-! ### Lines of a tally's memory (R182, R372 to R375) -/

/-- The crews and the galleries. -/
def unitView (s : State) : Tbl Crew × Tbl Gal := (s.crews, s.gals)

theorem unitView_logEvent (b i c : Nat) (d : List (Nat × Nat × Nat)) (s : State) : unitView (logEvent b i c d s) = unitView s := by
  rw [unitView, logEvent_crews, logEvent_gals]
  rfl

theorem unitView_noteCorrected (l : LineId) (s : State) : unitView (noteCorrected l s) = unitView s := by
  have hbucket : unitView (bucketAdd l.kind l.inst s) = unitView s := by
    dsimp only [bucketAdd]
    split
    · exact unitView_logEvent ..
    · rfl
  dsimp only [noteCorrected]
  split <;> exact hbucket

theorem unitView_noteUe (l : LineId) (scrub write : Bool) (s : State) : unitView (noteUe l scrub write s) = unitView s := by
  unfold noteUe
  extract_lets d ev x x1 x2 sec cnt s1
  have hev : ∀ t : State, unitView (ev t) = unitView t := fun t => unitView_logEvent ..
  have hseam : unitView s1 = unitView s := rfl
  exact ite_unchanged unitView (ite_unchanged unitView ((hev s1).trans hseam) hseam) (hev s)

theorem unitView_noteRead (l : LineId) (v : Verdict) (scrub write : Bool) (s : State) :
    unitView (noteRead l v scrub write s) = unitView s := by
  cases v with
  | clean => rfl
  | corrected => exact unitView_noteCorrected l s
  | uncorrectable => exact unitView_noteUe l scrub write s

theorem unitView_localPut (m : Local) (a : Nat) (bs : List Byte) (s : State) : unitView (localPut m a bs s) = unitView s := by
  cases m <;> rfl

theorem unitView_localPart (m : Local) (a : Nat) (bs : List Byte) (s : State) : unitView (localPart m a bs s).1 = unitView s := by
  dsimp only [localPart]
  split
  · exact unitView_noteRead ..
  · exact (unitView_localPut ..).trans (unitView_noteRead ..)

theorem unitView_localWrites (m : Local) (l : List (Nat × Nat)) (bs : List Byte) (s : State) :
    unitView (localWrites m l bs s).1 = unitView s := by
  induction l generalizing bs s with
  | nil => rfl
  | cons p l ih =>
    rw [localWrites]
    split
    · exact (ih _ _).trans (unitView_localPut ..)
    · dsimp only
      split
      · exact (ih _ _).trans (unitView_localPart ..)
      · exact unitView_localPart ..

/-! ### BROADCAST (R182, R449) -/

theorem crew_setCrew_if (s : State) (c j : Nat) (x : Crew) : (s.setCrew c x).crew j = if j = c then x else s.crew j :=
  Tbl.look_put ..

theorem installMicrocode_view (c : Nat) (body : List Byte) (s : State) :
    unitView (installMicrocode c body s) = unitView (s.setCrew c { s.crew c with microcode := true, state := 1 }) :=
  unitView_localWrites ..

theorem installMicrocode_crew (c : Nat) (body : List Byte) (s : State) (j : Nat) :
    (installMicrocode c body s).crew j = if j = c then { s.crew c with microcode := true, state := 1 } else s.crew j := by
  have hcrews : (installMicrocode c body s).crews = (s.setCrew c { s.crew c with microcode := true, state := 1 }).crews :=
    congrArg Prod.fst (installMicrocode_view c body s)
  rw [State.crew, hcrews]
  exact crew_setCrew_if ..

/-- The microcode is installed in some crews. -/
def installAll (body : List Byte) (l : List Nat) (s : State) : State := l.foldl (fun s c => installMicrocode c body s) s

theorem installAll_gals (body : List Byte) (l : List Nat) (s : State) : (installAll body l s).gals = s.gals :=
  foldl_unchanged State.gals _ (by exact fun s c => congrArg Prod.snd (installMicrocode_view c body s)) l s

/-- A crew has the microcode and its tally is IDLE. -/
def Installed (c : Nat) (s : State) : Prop := (s.crew c).microcode = true ∧ (s.crew c).state = 1

theorem installAll_installed {c : Nat} (body : List Byte) (l : List Nat) {s : State} (h : c ∈ l ∨ Installed c s) :
    Installed c (installAll body l s) := by
  induction l generalizing s with
  | nil => exact h.resolve_left List.not_mem_nil
  | cons j l ih =>
    rw [List.mem_cons, or_assoc] at h
    refine ih ?_
    unfold Installed
    rw [installMicrocode_crew]
    split
    · exact .inr ⟨rfl, rfl⟩
    · next hne => exact h.resolve_left hne

/-- The galleries of a list with a present crew lose their boot reason. -/
def bootLifted (l : List Nat) (s : State) : State :=
  l.foldl (fun s g => if (crewsOf g).any s.crewPresent then setReasons g (fun x => { x with rBoot := false }) s else s) s

theorem setReasons_rBoot (g : Nat) (f : Gal → Gal) (s : State) (h : Nat) :
    ((setReasons g f s).gal h).rBoot = if h = g then (f (s.gal g)).rBoot else (s.gal h).rBoot := by
  obtain ⟨_, _, _, _, _, _, _, _, _, hk⟩ := setReasons_gal g f s h
  rw [hk]
  split <;> rfl

theorem setReasons_present (g : Nat) (f : Gal → Gal) (s : State) : (setReasons g f s).crewPresent = s.crewPresent := by
  obtain ⟨p, x, y, z, h⟩ := setReasons_frame g f s
  rw [h]
  rfl

theorem bootLifted_rBoot {h : Nat} (l : List Nat) {s : State} (hp : (crewsOf h).any s.crewPresent = true)
    (hs : h ∈ l ∨ (s.gal h).rBoot = false) : ((bootLifted l s).gal h).rBoot = false := by
  induction l generalizing s with
  | nil => exact hs.resolve_left List.not_mem_nil
  | cons g l ih =>
    rw [List.mem_cons, or_assoc] at hs
    rw [bootLifted, List.foldl_cons]
    by_cases hg : (crewsOf g).any s.crewPresent = true
    · rw [if_pos hg]
      refine ih (by rw [setReasons_present]; exact hp) ?_
      rw [setReasons_rBoot]
      split
      · exact .inr rfl
      · next hne => exact hs.resolve_left hne
    · have hne : h ≠ g := by
        rintro rfl
        exact hg hp
      rw [if_neg hg]
      exact ih hp (hs.resolve_left hne)

/-- The present crews, and those of them that are not fenced. -/
def presentCrews (s : State) : List Nat := (List.range 128).filter s.crewPresent
def broadcastCrews (s : State) : List Nat := (presentCrews s).filter (fun c => !(s.crew c).fenced)

theorem mem_broadcastCrews {s : State} {c : Nat} (hc : c < 128) (hp : s.crewPresent c = true) (hf : (s.crew c).fenced = false) :
    c ∈ broadcastCrews s :=
  List.mem_filter.mpr ⟨List.mem_filter.mpr ⟨List.mem_range.mpr hc, hp⟩, by rw [hf]; rfl⟩

theorem broadcastCrews_all {s : State} (h : ∀ c, c < 128 → s.crewPresent c = true → (s.crew c).fenced = false) :
    broadcastCrews s = presentCrews s := by
  refine List.filter_eq_self.mpr (fun c hc => ?_)
  obtain ⟨hc, hp⟩ := List.mem_filter.mp hc
  rw [h c (List.mem_range.mp hc) hp]
  rfl

/-- The microcode's bytes. -/
def microBody (s : State) : List Byte := ((s.img 3).booted.map (·.body)).getD []

/-- Whether every present crew has the microcode is kept. -/
def microKept (all : Bool) (s : State) : State := { s with sec := { s.sec with crewMicro := all } }

/-- BROADCAST with no copy that fails. -/
theorem broadcastMicro_clean (s : State) : broadcastMicro [] s = verdict 2 .ok 0 (microKept (decide (broadcastCrews s = presentCrews s))
    (installAll (microBody s) (broadcastCrews s) (bootLifted (List.range 32) s))) := by
  have hbad : (broadcastCrews s).filter (fun c => List.contains [] c) = [] :=
    List.filter_eq_nil_iff.mpr (fun c _ => Bool.false_ne_true)
  unfold broadcastMicro
  extract_lets present crews bad body s1 s2
  have hnone : bad = [] := hbad
  have h2 : s2 = installAll (microBody s) (broadcastCrews s) (bootLifted (List.range 32) s) := by
    unfold s2
    rw [hnone]
    rfl
  have hdone : (decide (bad = []) && decide (crews = present)) = decide (broadcastCrews s = presentCrews s) := by
    rw [hnone]
    exact Bool.true_and _
  change verdictLost bad.length (microKept (decide (bad = []) && decide (crews = present)) s2) = _
  rw [hdone, h2, hnone]
  rfl

theorem exec_brgBroadcast_clean {s : State} (hstep : stepRuns 8 s = true) :
    exec (.brgBroadcast ([], [])) s = .next (broadcastMicro [] s) := by
  have hruns : ¬ s.brg.state = 5 := by
    intro h5
    rw [stepRuns, h5] at hstep
    exact Bool.false_ne_true hstep
  exact congrArg Host.Outcome.next ((if_neg (stepRuns_step hstep)).trans (if_neg hruns))

/-! ### ADIT_TRAIN and ADIT_QUALIFY (R293, R444) -/

theorem adit_setAdit_if (s : State) (a b : Nat) (x : Adit) : (s.setAdit a x).adit b = if b = a then x else s.adit b :=
  Tbl.look_put ..

theorem aditOn_aditStart (a : Nat) (s : State) : aditOn (aditStart a s) = aditOn s := by
  unfold aditStart
  split <;> rfl

theorem aditStart_state {a : Nat} {s : State} (hon : aditOn s a = true) : ((aditStart a s).adit a).state = 1 := by
  have hstart : aditStart a s = aditTrain a (s.adit a).cause false s := if_pos hon
  rw [hstart, aditTrain_adit]

theorem aditStart_other {a b : Nat} (s : State) (h : b ≠ a) : (aditStart a s).adit b = s.adit b := by
  unfold aditStart
  split
  · exact (adit_setAdit_if ..).trans (if_neg h)
  · rfl

/-- Some ports start to train. -/
def aditsStarted (l : List Nat) (s : State) : State := l.foldl (fun s a => aditStart a s) s

theorem aditsStarted_state {b : Nat} (l : List Nat) {s : State} (hon : aditOn s b = true) (h : b ∈ l ∨ (s.adit b).state = 1) :
    ((aditsStarted l s).adit b).state = 1 := by
  induction l generalizing s with
  | nil => exact h.resolve_left List.not_mem_nil
  | cons a l ih =>
    rw [List.mem_cons, or_assoc] at h
    refine ih (by rw [aditOn_aditStart]; exact hon) ?_
    by_cases hne : b = a
    · subst hne
      exact .inr (aditStart_state hon)
    · rw [aditStart_other s hne]
      exact h.resolve_left hne

theorem exec_brgAditTrain {s : State} (hstep : stepRuns 9 s = true) :
    exec .brgAditTrain s = .next (verdict 2 .ok 0 (aditsStarted (List.range 48) s)) :=
  congrArg Host.Outcome.next (if_neg (stepRuns_step hstep))

/-- A port that has sent that it is ready to qualify, and qualifies if `got`. -/
def Offered (got : Bool) (x : Adit) : Prop := x.qualSent = true ∧ (got = true → x.state = 4)

theorem sendLink_adit (a kind : Nat) (payload : List Byte) (s : State) (b : Nat) : ∃ due nak,
    (sendLink a kind payload s).adit b = if b = a then { s.adit a with credDue := due, nakDue := nak } else s.adit b := by
  obtain ⟨due, hsnd⟩ := takeCredit_snd (s.adit a)
  refine ⟨due, false, (adit_setAdit_if ..).trans ?_⟩
  rw [hsnd]

theorem aditOn_aditQualify (a : Nat) (s : State) : aditOn (aditQualify a s) = aditOn s := by
  dsimp only [aditQualify]
  split <;> rfl

theorem aditQualify_other {a b : Nat} (s : State) (h : b ≠ a) : (aditQualify a s).adit b = s.adit b := by
  dsimp only [aditQualify]
  split
  · obtain ⟨due, nak, hlink⟩ := sendLink_adit a 3 [2] (s.setAdit a (if (s.adit a).qualGot then
      { s.adit a with qualSent := true }.qualify s.now else { s.adit a with qualSent := true })) b
    exact hlink.trans ((if_neg h).trans ((adit_setAdit_if ..).trans (if_neg h)))
  · rfl

theorem aditQualify_offers {a : Nat} {s : State} (hon : aditOn s a = true) (hwait : (s.adit a).state = 3) :
    Offered (s.adit a).qualGot ((aditQualify a s).adit a) := by
  obtain ⟨due, nak, hlink⟩ := sendLink_adit a 3 [2] (s.setAdit a (if (s.adit a).qualGot then
    { s.adit a with qualSent := true }.qualify s.now else { s.adit a with qualSent := true })) a
  rw [if_pos rfl, State.adit_setAdit] at hlink
  have hready : (aditOn s a && (s.adit a).state == 3) = true := by
    rw [hon, hwait]
    rfl
  rw [Offered, aditQualify, if_pos hready, hlink]
  cases hgot : (s.adit a).qualGot with
  | true => exact ⟨rfl, fun _ => rfl⟩
  | false => exact ⟨rfl, fun h => absurd h Bool.false_ne_true⟩

theorem aditQualify_keeps_offered {got : Bool} {a : Nat} {s : State} (h : Offered got (s.adit a)) :
    Offered got ((aditQualify a s).adit a) := by
  by_cases hready : (aditOn s a && (s.adit a).state == 3) = true
  · rw [Bool.and_eq_true, beq_iff_eq] at hready
    obtain ⟨hon, hwait⟩ := hready
    have hgot : ¬ got = true := by
      intro hgot
      have hqual := h.2 hgot
      omega
    exact ⟨(aditQualify_offers hon hwait).1, fun h => absurd h hgot⟩
  · rw [aditQualify, if_neg hready]
    exact h

/-- Some ports qualify where they wait. -/
def aditsQualified (l : List Nat) (s : State) : State := l.foldl (fun s a => aditQualify a s) s

theorem aditsQualified_offers {x : Adit} {b : Nat} (l : List Nat) {s : State} (hon : aditOn s b = true) (hwait : x.state = 3)
    (h : (b ∈ l ∧ s.adit b = x) ∨ Offered x.qualGot (s.adit b)) :
    Offered x.qualGot ((aditsQualified l s).adit b) := by
  induction l generalizing s with
  | nil => exact h.resolve_left (fun h => List.not_mem_nil h.1)
  | cons a l ih =>
    refine ih (by rw [aditOn_aditQualify]; exact hon) ?_
    by_cases hne : b = a
    · subst hne
      refine .inr (h.elim (fun h => ?_) aditQualify_keeps_offered)
      obtain ⟨-, rfl⟩ := h
      exact aditQualify_offers hon hwait
    · rw [aditQualify_other s hne]
      exact h.imp_left (fun h => ⟨(List.mem_cons.mp h.1).resolve_left hne, h.2⟩)

theorem exec_brgAditQualify {s : State} (hstep : stepRuns 10 s = true) :
    exec .brgAditQualify s = .next (verdict 2 .ok 0 (aditsQualified (List.range 48) s)) :=
  congrArg Host.Outcome.next (if_neg (stepRuns_step hstep))

/-! ### READY (R324, R450) -/

/-- The charter is committed and logged, and the preset check units are armed. -/
def readyCommit (s : State) : State :=
  armPresets (logEvent 0x13 0 0x0802 [(0, 4, s.chr.crc), (4, 4, (s.img 6).svn)] { s with committed := true })

theorem readyCommit_frame (s : State) : (readyCommit s).committed = true ∧ (readyCommit s).fld = s.fld
    ∧ (readyCommit s).fuses = s.fuses := by
  have harm : ∀ t : State, (armPresets t).committed = t.committed ∧ (armPresets t).fld = t.fld ∧ (armPresets t).fuses = t.fuses :=
    fun t => ⟨foldl_unchanged State.committed _ (by exact fun s p => rfl) _ t,
      foldl_unchanged State.fld _ (by exact fun s p => rfl) _ t, foldl_unchanged State.fuses _ (by exact fun s p => rfl) _ t⟩
  obtain ⟨hcommit, hfld, hfuses⟩ := harm (logEvent 0x13 0 0x0802 [(0, 4, s.chr.crc), (4, 4, (s.img 6).svn)]
    { s with committed := true })
  exact ⟨hcommit.trans (logEvent_committed ..), hfld.trans (logEvent_fld ..), hfuses.trans (logEvent_fuses ..)⟩

/-- The stack is a member of its own table, and requests may be picked up. -/
def readyMember (s : State) : State :=
  (fun t : State => { t with hif := { t.hif with pickup := true }, fld := { t.fld with ready := true } })
    (newIncarnation (readyCommit s))

theorem selectGm_ready (s : State) : (selectGm s).fld.ready = s.fld.ready := by
  simp only [selectGm]
  split
  · rfl
  · split
    · split <;> rfl
    · rfl

/-- What READY leaves, whether or not a JOIN is sent. -/
structure ReadyShown (s t : State) : Prop where
  committed : t.committed = true
  pickup : t.hif.pickup = true
  ready : t.fld.ready = true
  joined : ∃ m, m = Tbl.look {} t.members s.fld.id ∧ m.member = true ∧ m.serial = s.fuses.serial.toNat

theorem readyMember_shown (s : State) : ReadyShown s (readyMember s) := by
  obtain ⟨hcommit, hfld, hfuses⟩ := readyCommit_frame s
  obtain ⟨b, hnew⟩ := newIncarnation_frame (readyCommit s)
  rw [readyMember, hnew]
  refine ⟨hcommit, rfl, rfl, _, rfl, ?_⟩
  rw [hfld, Tbl.look_put_same]
  exact ⟨rfl, congrArg (fun f : Fuses => f.serial.toNat) hfuses⟩

theorem ReadyShown.selectGm {s t : State} (h : ReadyShown s t) : ReadyShown s (selectGm t) := by
  obtain ⟨hcommit, hpickup, hready, hjoined⟩ := h
  have hready' : (Machine.selectGm t).fld.ready = true := (selectGm_ready t).trans hready
  obtain ⟨f, hgm⟩ := selectGm_frame t
  rw [hgm] at hready' ⊢
  exact ⟨hcommit, hpickup, hready', hjoined⟩

theorem ReadyShown.sendJoin {s t : State} (h : ReadyShown s t) : ReadyShown s (sendJoin t) := by
  obtain ⟨hcommit, hpickup, hready, hjoined⟩ := h
  have hports : OnlyPorts t (sendPeers none (memberData 0x10 t.fld.id (t.memberOf t.fld.id)) t) := .sendPeers ..
  rw [Machine.sendJoin, hports]
  exact ⟨hcommit, hpickup, hready, hjoined⟩

theorem ReadyShown.verdict {s t : State} (h : ReadyShown s t) (state : Nat) (st : Status) (detail : Nat) :
    ReadyShown s (verdict state st detail t) := by
  obtain ⟨hcommit, hpickup, hready, hjoined⟩ := h
  exact ⟨hcommit, hpickup, hready, hjoined⟩

/-- The state that READY leaves before its verdict. -/
def readyDone (s : State) : State :=
  let t := selectGm (readyMember s)
  if (List.range 48).any (fun a => (t.adit a).inUse) then sendJoin t else t

theorem readyDone_shown (s : State) : ReadyShown s (readyDone s) := by
  have hmember := (readyMember_shown s).selectGm
  dsimp only [readyDone]
  split
  · exact hmember.sendJoin
  · exact hmember

theorem exec_brgReady {s : State} (hstep : stepRuns 11 s = true) : exec .brgReady s = .next (verdict 2 .ok 0 (readyDone s)) :=
  congrArg Host.Outcome.next (if_neg (stepRuns_step hstep))

/-! ### The clauses of the statement -/

/-- Where CHARTER meets nothing that fails, it is the good end. -/
theorem charterOutcome_good {s : State} {img : CharterRead} (himg : (selectAll [6, 2, 3, 4, 5] s).2 = none)
    (hfield : chFirstInvalid s.fuses.variantA img = none) (hconf : chConflict (chrOf s.fuses.variantA img) = none) :
    charterOutcome img s = charterGood (chrOf s.fuses.variantA img) (selectAll [6, 2, 3, 4, 5] s).1 := by
  rw [charterOutcome, himg]
  dsimp only
  rw [hfield]
  dsimp only
  rw [hconf]

theorem charterOutcome_noImage {s : State} (img : CharterRead) {k : Nat} (himg : (selectAll [6, 2, 3, 4, 5] s).2 = some k) :
    charterOutcome img s = charterFails 3 k 0 0 (selectAll [6, 2, 3, 4, 5] s).1 := by
  rw [charterOutcome, himg]

theorem charterOutcome_invalid {s : State} {img : CharterRead} {n : Nat} (himg : (selectAll [6, 2, 3, 4, 5] s).2 = none)
    (hfield : chFirstInvalid s.fuses.variantA img = some n) :
    charterOutcome img s = charterFails 1 n 0 0 (selectAll [6, 2, 3, 4, 5] s).1 := by
  rw [charterOutcome, himg]
  dsimp only
  rw [hfield]

theorem verdict_brg (state : Nat) (st : Status) (detail : Nat) {s : State} {b : Brg} (h : s.brg = b) :
    (verdict state st detail s).brg = { b with result := some (state, st, detail) } := by
  rw [verdict, h]

theorem exec_brgFuses_survey_shows {s : State} (hstep : stepRuns 1 s = true) {second : Bool} {v : Survey}
    (hv : surveyNow s = some (second, v)) : ∃ t, exec .brgFuses s = .next t ∧ t.brg.entries = v.entries ∧ t.brg.lost = false
      ∧ t.brg.result = some (2, .ok, 0) := by
  have hbrg : ((List.range 32).foldl (fun s g => recomputeK g s)
      (entriesApply v.entries { s with brg := { s.brg with entries := v.entries, lost := false } })).brg
      = { s.brg with entries := v.entries, lost := false } := (recomputeAll_brg _).trans (entriesApply_brg ..)
  have hverdict := verdict_brg 2 .ok 0 hbrg
  exact ⟨_, exec_brgFuses_survey hstep hv, congrArg Brg.entries hverdict, congrArg Brg.lost hverdict, congrArg Brg.result hverdict⟩

theorem exec_brgFuses_none_shows {s : State} (hstep : stepRuns 1 s = true) (hv : surveyNow s = none) (hdiscard : s.brg.discard = true) :
    ∃ t, exec .brgFuses s = .next t ∧ t.brg.entries = [] ∧ t.brg.lost = true ∧ t.brg.result = some (2, .ok, 0) :=
  ⟨_, (exec_brgFuses_none hstep hv).trans (congrArg Host.Outcome.next (if_pos hdiscard)),
    congrArg Brg.entries (logEvent_brg ..), congrArg Brg.lost (logEvent_brg ..), rfl⟩

theorem stockTested_kept {s : State} (h : keeps s = true) : (stockTested s).stockMem = s.stockMem := by
  rw [stockTested, if_pos h]

theorem stockTested_emptied {s : State} (h : keeps s = false) : (stockTested s).stockMem = [] := by
  rw [stockTested, if_neg (Bool.eq_false_iff.mp h)]

theorem exec_brgStockpile_shows {s : State} (hstep : stepRuns 7 s = true) (hstock : s.glb.stock ≠ 0) :
    ∃ t, exec (.brgStockpile ([], [])) s = .next t ∧ t.glb = s.glb ∧ t.brg.result = some (2, .ok, 0)
      ∧ (keeps s = true → t.stockMem = s.stockMem) ∧ (keeps s = false → t.stockMem = []) :=
  ⟨_, exec_brgStockpile_clean hstep hstock, stockTested_glb s, rfl, stockTested_kept, stockTested_emptied⟩

theorem unitView_verdict (state : Nat) (st : Status) (detail : Nat) (s : State) : unitView (verdict state st detail s) = unitView s :=
  rfl

theorem unitView_microKept (all : Bool) (s : State) : unitView (microKept all s) = unitView s := rfl

theorem verdict_adit (state : Nat) (st : Status) (detail : Nat) (s : State) (a : Nat) : (verdict state st detail s).adit a = s.adit a :=
  rfl

/-- The state that BROADCAST leaves where no copy fails. -/
def broadcastDone (s : State) : State := verdict 2 .ok 0 (microKept (decide (broadcastCrews s = presentCrews s))
  (installAll (microBody s) (broadcastCrews s) (bootLifted (List.range 32) s)))

theorem broadcastDone_view (s : State) :
    unitView (broadcastDone s) = unitView (installAll (microBody s) (broadcastCrews s) (bootLifted (List.range 32) s)) :=
  (unitView_verdict ..).trans (unitView_microKept ..)

theorem broadcastDone_installed {s : State} {c : Nat} (hc : c ∈ broadcastCrews s) : Installed c (broadcastDone s) := by
  have hcrews : (broadcastDone s).crews = (installAll (microBody s) (broadcastCrews s) (bootLifted (List.range 32) s)).crews :=
    congrArg Prod.fst (broadcastDone_view s)
  have hinst : Installed c (installAll (microBody s) (broadcastCrews s) (bootLifted (List.range 32) s)) :=
    installAll_installed _ _ (.inl hc)
  rw [Installed, State.crew, hcrews]
  exact hinst

theorem broadcastDone_rBoot {s : State} {g : Nat} (hg : g < 32) (hp : (crewsOf g).any s.crewPresent = true) :
    ((broadcastDone s).gal g).rBoot = false := by
  have hdone : (broadcastDone s).gals = (installAll (microBody s) (broadcastCrews s) (bootLifted (List.range 32) s)).gals :=
    congrArg Prod.snd (broadcastDone_view s)
  have hgals := hdone.trans (installAll_gals ..)
  have hlifted := bootLifted_rBoot (List.range 32) hp (.inl (List.mem_range.mpr hg))
  rw [State.gal] at hlifted
  rw [State.gal, hgals]
  exact hlifted

theorem exec_brgBroadcast_shows {s : State} (hstep : stepRuns 8 s = true) :
    ∃ t, exec (.brgBroadcast ([], [])) s = .next t ∧ t.brg.result = some (2, .ok, 0)
      ∧ ((∀ c, c < 128 → s.crewPresent c = true → (s.crew c).fenced = false) → t.sec.crewMicro = true)
      ∧ (∀ c, c < 128 → s.crewPresent c = true → (s.crew c).fenced = false → (t.crew c).microcode = true ∧ (t.crew c).state = 1)
      ∧ (∀ g, g < 32 → (crewsOf g).any s.crewPresent = true → (t.gal g).rBoot = false) :=
  ⟨broadcastDone s, (exec_brgBroadcast_clean hstep).trans (congrArg Host.Outcome.next (broadcastMicro_clean s)), rfl,
    fun h => decide_eq_true (broadcastCrews_all h), fun _ hc hp hf => broadcastDone_installed (mem_broadcastCrews hc hp hf),
    fun _ hg hp => broadcastDone_rBoot hg hp⟩

theorem exec_brgReady_shows {s : State} (hstep : stepRuns 11 s = true) : ∃ t, exec .brgReady s = .next t
    ∧ t.committed = true ∧ t.hif.pickup = true ∧ t.fld.ready = true ∧ t.brg.result = some (2, .ok, 0)
    ∧ (∃ m, m = Tbl.look {} t.members s.fld.id ∧ m.member = true ∧ m.serial = s.fuses.serial.toNat) := by
  obtain ⟨hcommit, hpickup, hready, hjoined⟩ := (readyDone_shown s).verdict 2 .ok 0
  exact ⟨_, exec_brgReady hstep, hcommit, hpickup, hready, rfl, hjoined⟩

theorem exec_brgStepEnd_shows {s : State} (hstate : s.brg.state = 1) (hrun : s.thm.stopped = false) (hfm : s.brg.foreman = true)
    {v : Nat × Status × Nat} (h14 : s.brg.step ≠ 14) (h9 : s.brg.step ≠ 9) (h10 : s.brg.step ≠ 10) (h11 : s.brg.step ≠ 11)
    (h2 : s.brg.step ≠ 2) (hresult : s.brg.result = some v) (hv : v.1 = 2 ∨ v.1 = 3) :
    ∃ t, exec .brgStepEnd s = .next t ∧ t.brg.state = v.1 ∧ t.brg.status = v.2.1.code ∧ t.brg.detail = v.2.2 % 4096
      ∧ t.brg.done = s.brg.step ∧ t.brg.result = none := by
  refine ⟨_, exec_brgStepEnd hstate hrun hfm h14 h9 h10 hresult, ?_⟩
  rw [hostStepEnds_done hv h2 h11]
  have hends := stepEnds_brg v.1 v.2.1 v.2.2 s
  exact ⟨congrArg Brg.state hends, congrArg Brg.status hends, congrArg Brg.detail hends, rfl, congrArg Brg.result hends⟩

theorem exec_stepTimeout_shows {s : State} (hstate : s.brg.state = 1) (hrun : s.thm.stopped = false) (hfm : s.brg.foreman = true)
    (hpow : s.brg.powered = true) (h9 : s.brg.step ≠ 9) (h10 : s.brg.step ≠ 10) (hresult : s.brg.result = none)
    (hdue : s.brg.stepAt + s.brg.stepPaused + 1000000 * stepLimit s.brg.step ≤ s.now) :
    ∃ t, exec .stepTimeout s = .next t ∧ t.brg.state = 4 ∧ t.brg.status = Status.code .timeout ∧ t.brg.detail = 0
      ∧ t.brg.done = s.brg.done := by
  refine ⟨_, exec_stepTimeout hstate hrun hfm hpow h9 h10 hresult hdue, ?_⟩
  rw [stepEnds_brg]
  exact ⟨rfl, rfl, rfl, rfl⟩

/-- The Overseers stay in reset where neither copy of their image is good. -/
theorem exec_overseerLoadDone_failed {s : State} (hload : s.sec.ovLoading = true) : exec (.overseerLoadDone false false) s
    = .next (reRead 2 false { s with sec := { s.sec with ovLoading := false } }) :=
  (exec_overseerLoadDone hload false false).trans (congrArg Host.Outcome.next
    ((if_neg Bool.false_ne_true).trans (if_neg Bool.false_ne_true)))

/-! ### The statement -/

/-- Settles O47: each clause is the rule above of its step's case. -/
theorem bringupSteps : Obligations.BringupSteps := by
  unfold Obligations.BringupSteps
  refine ⟨fun s img h14 hstate hpow hfm => ⟨fun hflash => ?_, fun hflash => ?_⟩,
    fun s hstep => ⟨fun second v hv => exec_brgFuses_survey_shows hstep hv, exec_brgFuses_none_shows hstep, fun hv hdiscard => ?_⟩,
    fun s => ⟨exec_assayB_clean, fun hstep f rest hf => ⟨_, exec_assayB_essential hstep hf rest, rfl⟩,
      fun hstep => ⟨exec_assayS hstep [], fun f rest => exec_assayS hstep (f :: rest)⟩, exec_assayD_clean,
      fun hstep hbad hgood => ?_⟩,
    fun s => ⟨fun hstep => ⟨exec_brgGrade hstep, fun c hc => mem_gradeGlb_badCrews hc⟩, exec_brgStockpile_shows,
      exec_brgBroadcast_shows, fun hstep => ⟨_, exec_brgAditTrain hstep, rfl, fun a ha hon => ?_⟩,
      fun hstep => ⟨_, exec_brgAditQualify hstep, rfl, fun a ha hon hwait => ?_⟩, exec_brgReady_shows⟩,
    fun s hstate hrun hfm => ⟨fun v h14 h9 h10 h11 h2 => exec_brgStepEnd_shows hstate hrun hfm h14 h9 h10 h11 h2,
      exec_stepTimeout_shows hstate hrun hfm⟩,
    fun s b hload => ⟨exec_overseerLoadDone hload true b, exec_overseerLoadDone hload false true,
      exec_overseerLoadDone_failed hload⟩⟩
  · obtain ⟨hfailed, hresult, hfeat, hdone, hapt⟩ := charterFails_shows 3 6 0 0 s
    exact ⟨_, exec_brgCharter_noFlash h14 hstate hpow hfm hflash, hfailed, hresult, hfeat, hdone, hapt⟩
  · refine ⟨_, exec_brgCharter_flash h14 hstate hpow hfm hflash, fun ⟨himg, hfield, hconf⟩ => ?_,
      fun k himg => charterOutcome_noImage img himg, fun n himg hfield => charterOutcome_invalid himg hfield⟩
    rw [charterOutcome_good himg hfield hconf]
    exact ⟨rfl, charterGood_shows _ _⟩
  · exact (exec_brgFuses_none hstep hv).trans (congrArg Host.Outcome.next (if_neg (Bool.eq_false_iff.mp hdiscard)))
  · obtain ⟨c, hc, hgood⟩ := hgood
    exact exec_assayC_clean hstep hbad hc hgood
  · rw [verdict_adit]
    exact aditsStarted_state (List.range 48) hon (.inl (List.mem_range.mpr ha))
  · rw [verdict_adit]
    exact aditsQualified_offers (List.range 48) hon hwait (.inl ⟨List.mem_range.mpr ha, rfl⟩)

end Sys2Proof.Machine
end
